-- ==== Sys2Proof/Syntax.lean ====
section
/-! DEFINITION. The instructions of the Umarkan instruction set, one constructor for each row of
spec/opcode_table.json: first the words a stream or a rotation program executes, with the fields of their
encodings (02 R66-R73), and the operations and events of the engines, whose agent is State.cur and whose inputs are State.inp. -/

namespace Sys2Proof

/-- One row of the opcode table each. A word's fields are the bits of its encoding. An event has no
fields: the die, polder and strand that perform it are State.cur, and the inputs it names are State.inp, in order. -/
inductive Instr where
  /-- ADD (R83). -/
  | add (sf : BitVec 2) (rd ra rb : BitVec 5)
  /-- SUB (R83). -/
  | sub (sf : BitVec 2) (rd ra rb : BitVec 5)
  /-- AND (R83). -/
  | and (sf : BitVec 2) (rd ra rb : BitVec 5)
  /-- OR (R83). -/
  | or (sf : BitVec 2) (rd ra rb : BitVec 5)
  /-- XOR (R83). -/
  | xor (sf : BitVec 2) (rd ra rb : BitVec 5)
  /-- SLL (R83). -/
  | sll (sf : BitVec 2) (rd ra rb : BitVec 5)
  /-- SRL (R83). -/
  | srl (sf : BitVec 2) (rd ra rb : BitVec 5)
  /-- SRA (R83). -/
  | sra (sf : BitVec 2) (rd ra rb : BitVec 5)
  /-- MUL (R83). -/
  | mul (sf : BitVec 2) (rd ra rb : BitVec 5)
  /-- MULHU (R83). -/
  | mulhu (sf : BitVec 2) (rd ra rb : BitVec 5)
  /-- MULH (R83). -/
  | mulh (sf : BitVec 2) (rd ra rb : BitVec 5)
  /-- SLT (R83). -/
  | slt (sf : BitVec 2) (rd ra rb : BitVec 5)
  /-- SLTU (R83). -/
  | sltu (sf : BitVec 2) (rd ra rb : BitVec 5)
  /-- MIN (R83). -/
  | min (sf : BitVec 2) (rd ra rb : BitVec 5)
  /-- MAX (R83). -/
  | max (sf : BitVec 2) (rd ra rb : BitVec 5)
  /-- MINU (R83). -/
  | minu (sf : BitVec 2) (rd ra rb : BitVec 5)
  /-- MAXU (R83). -/
  | maxu (sf : BitVec 2) (rd ra rb : BitVec 5)
  /-- ADDI (R84). -/
  | addi (sf : BitVec 2) (rd ra : BitVec 5) (imm : BitVec 13)
  /-- SLTI (R84). -/
  | slti (sf : BitVec 2) (rd ra : BitVec 5) (imm : BitVec 13)
  /-- ANDI (R84). -/
  | andi (sf : BitVec 2) (rd ra : BitVec 5) (imm : BitVec 13)
  /-- ORI (R84). -/
  | ori (sf : BitVec 2) (rd ra : BitVec 5) (imm : BitVec 13)
  /-- XORI (R84). -/
  | xori (sf : BitVec 2) (rd ra : BitVec 5) (imm : BitVec 13)
  /-- SLLI (R84). -/
  | slli (sf : BitVec 2) (rd ra : BitVec 5) (sh : BitVec 6)
  /-- SRLI (R84). -/
  | srli (sf : BitVec 2) (rd ra : BitVec 5) (sh : BitVec 6)
  /-- SRAI (R84). -/
  | srai (sf : BitVec 2) (rd ra : BitVec 5) (sh : BitVec 6)
  /-- LUI (R84). -/
  | lui (sf : BitVec 2) (rd : BitVec 5) (imm : BitVec 18)
  /-- BEQ (R86). -/
  | beq (ev : BitVec 2) (offHi ra rb : BitVec 5) (offLo : BitVec 8)
  /-- BNE (R86). -/
  | bne (ev : BitVec 2) (offHi ra rb : BitVec 5) (offLo : BitVec 8)
  /-- BLT (R86). -/
  | blt (ev : BitVec 2) (offHi ra rb : BitVec 5) (offLo : BitVec 8)
  /-- BGE (R86). -/
  | bge (ev : BitVec 2) (offHi ra rb : BitVec 5) (offLo : BitVec 8)
  /-- BLTU (R86). -/
  | bltu (ev : BitVec 2) (offHi ra rb : BitVec 5) (offLo : BitVec 8)
  /-- BGEU (R86). -/
  | bgeu (ev : BitVec 2) (offHi ra rb : BitVec 5) (offLo : BitVec 8)
  /-- BPANY (R86). -/
  | bpany (offHi : BitVec 5) (pn : BitVec 4) (offLo : BitVec 8)
  /-- BPNONE (R86). -/
  | bpnone (offHi : BitVec 5) (pn : BitVec 4) (offLo : BitVec 8)
  /-- J (R87). -/
  | j (off : BitVec 23)
  /-- JAL (R87). -/
  | jal (rd : BitVec 5) (off : BitVec 18)
  /-- JR (R87). -/
  | jr (ev : BitVec 2) (ra : BitVec 5)
  /-- JALR (R87). -/
  | jalr (ev : BitVec 2) (rd ra : BitVec 5)
  /-- LOOPI (R89). -/
  | loopi (count : BitVec 15) (body : BitVec 8)
  /-- LOOPR (R89). -/
  | loopr (ev : BitVec 2) (ra : BitVec 5) (body : BitVec 8)
  /-- LOOPQ (R89). -/
  | loopq (body : BitVec 8)
  /-- TAGW (R91). -/
  | tagw (sf : BitVec 2) (rd ra : BitVec 5)
  /-- TOK (R92). -/
  | tok (sf : BitVec 2) (tk : BitVec 4)
  /-- FENCE_X (R93). -/
  | fenceX (scope : BitVec 3) (p1 p2 : BitVec 8)
  /-- PUSH (R94). -/
  | push (sf : BitVec 2) (reg : BitVec 5) (cls : BitVec 2)
  /-- POP (R94). -/
  | pop (sf : BitVec 2) (reg : BitVec 5) (cls : BitVec 2)
  /-- TRAP (R95). -/
  | trap (sf : BitVec 2) (imm : BitVec 13)
  /-- ERET (R97). -/
  | eret
  /-- SYSR (R98). -/
  | sysr (sf : BitVec 2) (rd : BitVec 5) (num : BitVec 13)
  /-- SYSW (R98). -/
  | sysw (sf : BitVec 2) (ra : BitVec 5) (num : BitVec 13)
  /-- EXIT (R99). -/
  | exit
  /-- LD (R130). -/
  | ld (tk : BitVec 4) (rd : BitVec 5) (h : BitVec 3) (ra : BitVec 5) (size : BitVec 2) (u stf : BitVec 1)
  /-- LD_ACQ (R130). -/
  | ldAcq (tk : BitVec 4) (rd : BitVec 5) (h : BitVec 3) (ra : BitVec 5) (size : BitVec 2) (u stf : BitVec 1) (scope : BitVec 3)
  /-- LDV (R132). -/
  | ldv (tk : BitVec 4) (q : BitVec 1) (width : BitVec 2) (h : BitVec 3) (ra : BitVec 5) (statp : BitVec 4)
  /-- LDV_ACQ (R134). -/
  | ldvAcq (tk : BitVec 4) (q : BitVec 1) (width : BitVec 2) (h : BitVec 3) (ra : BitVec 5) (scope : BitVec 3) (statp : BitVec 4)
  /-- LDVS (R132). -/
  | ldvs (tk : BitVec 4) (q : BitVec 1) (width : BitVec 2) (h : BitVec 3) (ra rb : BitVec 5) (statp : BitVec 4)
  /-- LDVG (R133). -/
  | ldvg (tk : BitVec 4) (q : BitVec 1) (width : BitVec 2) (h : BitVec 3) (ra rb : BitVec 5) (statp : BitVec 4)
  /-- LDP (R136). -/
  | ldp (tk : BitVec 4) (rd ra : BitVec 5) (size : BitVec 2) (u : BitVec 1)
  /-- LDPV (R136). -/
  | ldpv (tk : BitVec 4) (q : BitVec 1) (width : BitVec 2) (orient : BitVec 1) (ra : BitVec 5)
  /-- LDPVG (R136). -/
  | ldpvg (tk : BitVec 4) (q : BitVec 1) (width : BitVec 2) (ra rb : BitVec 5)
  /-- XLATE (R141). -/
  | xlate (tk : BitVec 4) (rd : BitVec 5) (hn : BitVec 4) (ra : BitVec 5)
  /-- HTEST (R141). -/
  | htest (tk : BitVec 4) (rd : BitVec 5) (hn : BitVec 4)
  /-- HREL (R141). -/
  | hrel (tk hn : BitVec 4)
  /-- HMOV (R141). -/
  | hmov (tk hn hm : BitVec 4)
  /-- PREQ (R142). -/
  | preq (tk : BitVec 4) (rd ra : BitVec 5)
  /-- PREF (R145). -/
  | pref (tk : BitVec 4) (h : BitVec 3) (ra : BitVec 5) (len : BitVec 2)
  /-- SCBQ (R146). -/
  | scbq (tk : BitVec 4) (rd ra rb : BitVec 5) (space : BitVec 1)
  /-- SCBWAIT (R146). -/
  | scbwait (tk : BitVec 4) (ra : BitVec 5)
  /-- SBIND (R148). -/
  | sbind (tk : BitVec 4) (q : BitVec 1) (ra : BitVec 5)
  /-- SUNBIND (R149). -/
  | sunbind (tk : BitVec 4) (q : BitVec 1)
  /-- SBGET (R150). -/
  | sbget (tk : BitVec 4) (q : BitVec 1) (rd : BitVec 5)
  /-- SBADV (R150). -/
  | sbadv (tk : BitVec 4) (q : BitVec 1) (ra : BitVec 5)
  /-- SBWAIT (R150). -/
  | sbwait (tk : BitVec 4) (q : BitVec 1)
  /-- CPY (R199). -/
  | cpy (tk : BitVec 4) (scol sc : BitVec 1) (rd ra rb : BitVec 5)
  /-- CPYM (R195). -/
  | cpym (tk : BitVec 4) (scol sc : BitVec 1) (rd ra rb : BitVec 5) (follow : BitVec 32)
  /-- CPYR (R205). -/
  | cpyr (tk : BitVec 4) (scol : BitVec 1) (ring : BitVec 3) (ra rb : BitVec 5)
  /-- CPYR_AT (R205). -/
  | cpyrAt (tk : BitVec 4) (scol : BitVec 1) (ring : BitVec 3) (rp ra rb : BitVec 5)
  /-- CPYG (R207). -/
  | cpyg (tk : BitVec 4) (rd ra rb : BitVec 5)
  /-- CPYMETA (R208). -/
  | cpymeta (tk : BitVec 4) (rd ra rb : BitVec 5)
  /-- CPYQ (R209). -/
  | cpyq (tk : BitVec 4) (ra rb : BitVec 5)
  /-- CMERGE (R210). -/
  | cmerge (tk op : BitVec 4) (rd ra rb : BitVec 5)
  /-- BFMT (R212). -/
  | bfmt (tk : BitVec 4) (bank : BitVec 7) (code : BitVec 8)
  /-- CCANCEL (R218). -/
  | ccancel (tk : BitVec 4) (rd ra : BitVec 5)
  /-- CSTAT (R219). -/
  | cstat (tk : BitVec 4) (rd ra : BitVec 5)
  /-- MMA (R233). -/
  | mma (tk : BitVec 4) (u fill : BitVec 1) (td : BitVec 4) (ringA ringB : BitVec 3) (oa ob : BitVec 1) (ms : BitVec 2) (ks : BitVec 5)
  /-- MMAS (R236). -/
  | mmas (tk : BitVec 4) (u fill : BitVec 1) (td : BitVec 4) (ringA ringB : BitVec 3) (oa ob : BitVec 1) (ms : BitVec 2) (ks : BitVec 5)
  /-- MMAG (R238). -/
  | mmag (tk : BitVec 4) (u fill : BitVec 1) (td : BitVec 4) (ringB : BitVec 3) (ob : BitVec 1) (ms : BitVec 2) (ks : BitVec 5)
  /-- MCTL_ZERO (R240). -/
  | mctlZero (tk : BitVec 4) (u : BitVec 1) (tile : BitVec 4) (fill : BitVec 1)
  /-- MCTL_MODE (R240). -/
  | mctlMode (tk : BitVec 4) (u : BitVec 1) (ms : BitVec 2) (sa sb : BitVec 5)
  /-- MCTL_RING (R241). -/
  | mctlRing (tk : BitVec 4) (u : BitVec 1) (ring : BitVec 3) (sa : BitVec 5)
  /-- MCTL_POP (R240). -/
  | mctlPop (tk : BitVec 4) (u : BitVec 1) (ring : BitVec 3) (sa : BitVec 5)
  /-- MCTL_WAIT (R242). -/
  | mctlWait (tk : BitVec 4) (rd : BitVec 5)
  /-- VADD (R164). -/
  | vadd (tk : BitVec 4) (width : BitVec 2) (vd va vb : BitVec 5) (pred : BitVec 4)
  /-- VSUB (R164). -/
  | vsub (tk : BitVec 4) (width : BitVec 2) (vd va vb : BitVec 5) (pred : BitVec 4)
  /-- VMUL (R164). -/
  | vmul (tk : BitVec 4) (width : BitVec 2) (vd va vb : BitVec 5) (pred : BitVec 4)
  /-- VAND (R165). -/
  | vand (tk : BitVec 4) (width : BitVec 2) (vd va vb : BitVec 5) (pred : BitVec 4)
  /-- VOR (R165). -/
  | vor (tk : BitVec 4) (width : BitVec 2) (vd va vb : BitVec 5) (pred : BitVec 4)
  /-- VXOR (R165). -/
  | vxor (tk : BitVec 4) (width : BitVec 2) (vd va vb : BitVec 5) (pred : BitVec 4)
  /-- VFNSB (R165). -/
  | vfnsb (tk : BitVec 4) (width : BitVec 2) (vd va vb : BitVec 5) (pred : BitVec 4)
  /-- VSLLI (R166). -/
  | vslli (tk : BitVec 4) (width : BitVec 2) (vd va : BitVec 5) (sh : BitVec 6)
  /-- VSRLI (R166). -/
  | vsrli (tk : BitVec 4) (width : BitVec 2) (vd va : BitVec 5) (sh : BitVec 6)
  /-- VSRAI (R166). -/
  | vsrai (tk : BitVec 4) (width : BitVec 2) (vd va : BitVec 5) (sh : BitVec 6)
  /-- VFADD (R169). -/
  | vfadd (tk : BitVec 4) (ftype : BitVec 2) (vd va vb : BitVec 5) (pred : BitVec 4)
  /-- VFSUB (R169). -/
  | vfsub (tk : BitVec 4) (ftype : BitVec 2) (vd va vb : BitVec 5) (pred : BitVec 4)
  /-- VFMUL (R169). -/
  | vfmul (tk : BitVec 4) (ftype : BitVec 2) (vd va vb : BitVec 5) (pred : BitVec 4)
  /-- VFMA (R169). -/
  | vfma (tk : BitVec 4) (ftype : BitVec 2) (vd va vb : BitVec 5) (pred : BitVec 4)
  /-- VCMP (R170). -/
  | vcmp (tk : BitVec 4) (width : BitVec 2) (fl : BitVec 1) (pd : BitVec 4) (va vb : BitVec 5) (cond : BitVec 3)
  /-- VSEL (R168). -/
  | vsel (tk : BitVec 4) (width : BitVec 2) (vd va vb : BitVec 5) (pred : BitVec 4)
  /-- VMOV (R167). -/
  | vmov (tk : BitVec 4) (width : BitVec 2) (vd va : BitVec 5) (pred : BitVec 4)
  /-- VNOT (R167). -/
  | vnot (tk : BitVec 4) (width : BitVec 2) (vd va : BitVec 5) (pred : BitVec 4)
  /-- VNEG (R167). -/
  | vneg (tk : BitVec 4) (width : BitVec 2) (vd va : BitVec 5) (pred : BitVec 4)
  /-- VPOPC (R167). -/
  | vpopc (tk : BitVec 4) (width : BitVec 2) (vd va : BitVec 5) (pred : BitVec 4)
  /-- VCLZ (R167). -/
  | vclz (tk : BitVec 4) (width : BitVec 2) (vd va : BitVec 5) (pred : BitVec 4)
  /-- VBREV (R167). -/
  | vbrev (tk : BitVec 4) (width : BitVec 2) (vd va : BitVec 5) (pred : BitVec 4)
  /-- VFABS (R172). -/
  | vfabs (tk : BitVec 4) (ftype : BitVec 2) (vd va : BitVec 5) (pred : BitVec 4)
  /-- VEXP2 (R172). -/
  | vexp2 (tk : BitVec 4) (ftype : BitVec 2) (vd va : BitVec 5) (pred : BitVec 4)
  /-- VLOG2 (R172). -/
  | vlog2 (tk : BitVec 4) (ftype : BitVec 2) (vd va : BitVec 5) (pred : BitVec 4)
  /-- VRCP (R172). -/
  | vrcp (tk : BitVec 4) (ftype : BitVec 2) (vd va : BitVec 5) (pred : BitVec 4)
  /-- VRSQRT (R172). -/
  | vrsqrt (tk : BitVec 4) (ftype : BitVec 2) (vd va : BitVec 5) (pred : BitVec 4)
  /-- VTANH (R172). -/
  | vtanh (tk : BitVec 4) (ftype : BitVec 2) (vd va : BitVec 5) (pred : BitVec 4)
  /-- VSIGM (R172). -/
  | vsigm (tk : BitVec 4) (ftype : BitVec 2) (vd va : BitVec 5) (pred : BitVec 4)
  /-- VCVT (R174). -/
  | vcvt (tk : BitVec 4) (vd va : BitVec 5) (srcf dstf : BitVec 4) (rm : BitVec 3)
  /-- VBCAST (R175). -/
  | vbcast (tk : BitVec 4) (width : BitVec 2) (vd sa : BitVec 5)
  /-- VEXT (R175). -/
  | vext (tk : BitVec 4) (width : BitVec 2) (sd va sb : BitVec 5)
  /-- VPERM (R175). -/
  | vperm (tk : BitVec 4) (width : BitVec 2) (vd va vb : BitVec 5)
  /-- VRSUM (R175). -/
  | vrsum (tk : BitVec 4) (width : BitVec 2) (sd va pn : BitVec 5)
  /-- VRMAX (R175). -/
  | vrmax (tk : BitVec 4) (width : BitVec 2) (sd va pn : BitVec 5)
  /-- VFRSUM (R176). -/
  | vfrsum (tk : BitVec 4) (sd va pn : BitVec 5)
  /-- VFRMAX (R176). -/
  | vfrmax (tk : BitVec 4) (sd va pn : BitVec 5)
  /-- VQDX (R177). -/
  | vqdx (tk : BitVec 4) (dx8 : BitVec 1) (vd va vb : BitVec 5)
  /-- VDQDX (R177). -/
  | vdqdx (tk : BitVec 4) (dx8 : BitVec 1) (vd va vb : BitVec 5)
  /-- FADD (R178). -/
  | fadd (tk : BitVec 4) (sd sa sb : BitVec 5)
  /-- FSUB (R178). -/
  | fsub (tk : BitVec 4) (sd sa sb : BitVec 5)
  /-- FMUL (R178). -/
  | fmul (tk : BitVec 4) (sd sa sb : BitVec 5)
  /-- FMIN (R178). -/
  | fmin (tk : BitVec 4) (sd sa sb : BitVec 5)
  /-- FMAX (R178). -/
  | fmax (tk : BitVec 4) (sd sa sb : BitVec 5)
  /-- FCMP (R178). -/
  | fcmp (tk : BitVec 4) (cond : BitVec 2) (sd sa sb : BitVec 5)
  /-- FCVTIF (R178). -/
  | fcvtif (tk : BitVec 4) (sd sa : BitVec 5)
  /-- FCVTFI (R178). -/
  | fcvtfi (tk : BitVec 4) (sd sa : BitVec 5)
  /-- VTHR (R179). -/
  | vthr (tk : BitVec 4) (vd va vb : BitVec 5) (pd : BitVec 4)
  /-- VHIST (R183). -/
  | vhist (tk : BitVec 4) (vd va vb : BitVec 5) (pn : BitVec 4)
  /-- VXREP (R182). -/
  | vxrep (tk : BitVec 4) (vd va vb : BitVec 5) (pn : BitVec 4)
  /-- VGATEW (R181). -/
  | vgatew (tk : BitVec 4) (vd va : BitVec 5) (pn : BitVec 4)
  /-- CQPUSH (R184). -/
  | cqpush (tk : BitVec 4) (va : BitVec 5) (pn : BitVec 4)
  /-- VTILE_RD (R185). -/
  | vtileRd (tk : BitVec 4) (vd : BitVec 5) (tile : BitVec 4) (rs : BitVec 5) (clr : BitVec 1)
  /-- VTILE_WR (R185). -/
  | vtileWr (tk : BitVec 4) (va : BitVec 5) (tile : BitVec 4) (rs : BitVec 5) (fill : BitVec 1)
  /-- PLOG (R171). -/
  | plog (tk pd pa pb : BitVec 4) (op : BitVec 2)
  /-- PCNT (R171). -/
  | pcnt (tk : BitVec 4) (sd : BitVec 5) (pa : BitVec 4)
  /-- VTOP (R171). -/
  | vtop (tk pd : BitVec 4) (va : BitVec 5)
  /-- PTOV (R171). -/
  | ptov (tk : BitVec 4) (vd : BitVec 5) (pa : BitVec 4)
  /-- ATOM (R259). -/
  | atom (tk : BitVec 4) (rd ra : BitVec 5) (op : BitVec 4) (w64 : BitVec 1) (ord : BitVec 2) (scope : BitVec 3)
  /-- RED (R259). -/
  | red (tk : BitVec 4) (rd ra : BitVec 5) (op : BitVec 4) (w64 : BitVec 1) (ord : BitVec 2) (scope : BitVec 3)
  /-- ACAS (R259). -/
  | acas (tk : BitVec 4) (rd ra : BitVec 5) (w64 : BitVec 1) (ord : BitVec 2) (scope : BitVec 3)
  /-- BARA (R263). -/
  | bara (tk : BitVec 4) (rd ra : BitVec 5)
  /-- BARW (R263). -/
  | barw (tk : BitVec 4) (rd ra rb : BitVec 5)
  /-- CARM (R264). -/
  | carm (tk : BitVec 4) (ra rb rc : BitVec 5)
  /-- CARR (R264). -/
  | carr (tk : BitVec 4) (ra rb : BitVec 5)
  /-- CWAIT (R264). -/
  | cwait (tk : BitVec 4) (rd ra rb : BitVec 5)
  /-- SEMP (R265). -/
  | semp (tk : BitVec 4) (rd ra : BitVec 5)
  /-- SEMV (R265). -/
  | semv (tk : BitVec 4) (ra rb : BitVec 5)
  /-- WAITC (R267). -/
  | waitc (tk : BitVec 4) (ra rb rc : BitVec 5)
  /-- SIGNAL (R269). -/
  | signal (tk : BitVec 4) (ra rb : BitVec 5)
  /-- ST (R277). -/
  | st (tk : BitVec 4) (rs : BitVec 5) (h : BitVec 3) (ra : BitVec 5) (size : BitVec 2)
  /-- ST_REL (R301). -/
  | stRel (tk : BitVec 4) (rs : BitVec 5) (h : BitVec 3) (ra : BitVec 5) (size : BitVec 2) (scope : BitVec 3)
  /-- STV (R279). -/
  | stv (tk : BitVec 4) (q : BitVec 1) (h : BitVec 3) (ra : BitVec 5)
  /-- STVS (R279). -/
  | stvs (tk : BitVec 4) (q : BitVec 1) (width : BitVec 2) (h : BitVec 3) (ra rb : BitVec 5)
  /-- STVX (R280). -/
  | stvx (tk : BitVec 4) (q : BitVec 1) (width : BitVec 2) (h : BitVec 3) (ra rb : BitVec 5)
  /-- STP (R281). -/
  | stp (tk : BitVec 4) (ra rs : BitVec 5) (size : BitVec 2)
  /-- STPV (R281). -/
  | stpv (tk : BitVec 4) (q : BitVec 1) (width : BitVec 2) (orient : BitVec 1) (ra : BitVec 5)
  /-- DBIND (R283). -/
  | dbind (tk : BitVec 4) (q : BitVec 1) (ra : BitVec 5)
  /-- DUNBIND (R284). -/
  | dunbind (tk : BitVec 4) (q : BitVec 1)
  /-- DRAIN (R292). -/
  | drain (tk tile : BitVec 4) (rc ra rx : BitVec 5)
  /-- CLAIM (R298). -/
  | claim (tk : BitVec 4) (rd ra rb : BitVec 5)
  /-- SPAWN (R323). -/
  | spawn (tk : BitVec 4) (rd ra rb : BitVec 5)
  /-- ENDT (R327). -/
  | endt (tk : BitVec 4)
  /-- JOIN (R326). -/
  | join (tk : BitVec 4) (rd : BitVec 5)
  /-- CHECK (R327). -/
  | check (tk : BitVec 4) (rd : BitVec 5)
  /-- LAUNCH (R329). -/
  | launch (tk : BitVec 4) (rd ra rb : BitVec 5)
  /-- JCANCEL (R330). -/
  | jcancel (tk : BitVec 4) (rd ra : BitVec 5)
  /-- TINFO (R328). -/
  | tinfo (tk : BitVec 4) (rd ra : BitVec 5)
  /-- RQSET (R329). -/
  | rqset (tk : BitVec 4) (rd ra rb : BitVec 5)
  /-- RINJ (R356). -/
  | rinj (rd ra rb : BitVec 5)
  /-- RDROP (R357). -/
  | rdrop (rd ra : BitVec 5)
  /-- RKEEP (R358). -/
  | rkeep (rd ra rb : BitVec 5)
  /-- RFWD (R358). -/
  | rfwd (rd ra : BitVec 5)
  /-- RHOLD (R359). -/
  | rhold (rd ra : BitVec 5)
  /-- RTAG (R360). -/
  | rtag (rd ra rb : BitVec 5)
  /-- RPAR (R361). -/
  | rpar (rd ra rb : BitVec 5)
  /-- RBYP (R362). -/
  | rbyp (rd ra : BitVec 5)
  /-- RSTAT (R363). -/
  | rstat (rd ra : BitVec 5)
  /-- FXFILL (R402). -/
  | fxfill (tk : BitVec 4) (rd ra rb : BitVec 5)
  /-- FKEY (R403). -/
  | fkey (tk : BitVec 4) (rd ra : BitVec 5)
  /-- FLANE (R404). -/
  | flane (tk : BitVec 4) (rd ra rb : BitVec 5)
  /-- STRAND_END (R99). -/
  | strandEnd
  /-- STALL_WATCHDOG_TRAP (R65); inputs: st. -/
  | stallWatchdogTrap
  /-- VECTOR_LOAD_COMPLETE (R128). -/
  | vectorLoadComplete
  /-- LOAD_STREAM_FETCH (R149); inputs: q. -/
  | loadStreamFetch
  /-- REQUESTER_TIMEOUT (R152); inputs: req. -/
  | requesterTimeout
  /-- TAG_REST_END (R152); inputs: tag. -/
  | tagRestEnd
  /-- XENT_WRITE (R139); inputs: entry, word, value. -/
  | xentWrite
  /-- FRCLOSE (R143); inputs: value. -/
  | frclose
  /-- BFMT_PERFORM (R212); inputs: entry. -/
  | bfmtPerform
  /-- COPY_COMMAND_START (R213). -/
  | copyCommandStart
  /-- COPY_UNIT_LAND (R202); inputs: entry, unit. -/
  | copyUnitLand
  /-- FOLLOW_ON_HANDOFF (R195); inputs: entry. -/
  | followOnHandoff
  /-- COPY_SUSPEND (R216); inputs: entry, unit. -/
  | copySuspend
  /-- COPY_ENGINE_RESET (R220). -/
  | copyEngineReset
  /-- MATRIX_COMMAND_START (R243); inputs: urgent. -/
  | matrixCommandStart
  /-- TILE_ACQUIRE (R234); inputs: tile. -/
  | tileAcquire
  /-- SLAB_STEP_ISSUE (R244). -/
  | slabStepIssue
  /-- MMAG_LENGTH_REREAD (R239); inputs: urgent. -/
  | mmagLengthReread
  /-- MATRIX_COMMAND_RETIRE (R233); inputs: urgent. -/
  | matrixCommandRetire
  /-- RING_CONFIG_EFFECT (R241); inputs: urgent. -/
  | ringConfigEffect
  /-- MATRIX_ENGINE_RESET (R249). -/
  | matrixEngineReset
  /-- SYNC_COMMAND_SEND (R260). -/
  | syncCommandSend
  /-- SYNC_WAIT_LIMIT (R266); inputs: waiter. -/
  | syncWaitLimit
  /-- TRIGGER_TAKE (R264). -/
  | triggerTake
  /-- SYNC_ENGINE_RESET (R273). -/
  | syncEngineReset
  /-- DRAIN_STREAM_WRITE (R284); inputs: q. -/
  | drainStreamWrite
  /-- CLAIM_WINDOW_CLOSE (R298); inputs: object. -/
  | claimWindowClose
  /-- RECORD_ADMISSION (R310); inputs: queue. -/
  | recordAdmission
  /-- OVERLAP_WORD_READ (R314); inputs: queue. -/
  | overlapWordRead
  /-- TASK_DISPATCH (R315). -/
  | taskDispatch
  /-- GANG_START (R307); inputs: task. -/
  | gangStart
  /-- TASK_END (R324); inputs: task. -/
  | taskEnd
  /-- LAUNCH_RETIRE (R309); inputs: launch. -/
  | launchRetire
  /-- GRAPH_NODE_FIRE (R317); inputs: launch, node. -/
  | graphNodeFire
  /-- RAMP_WINDOW_END (R334). -/
  | rampWindowEnd
  /-- TASK_ENGINE_RESET (R337). -/
  | taskEngineReset
  /-- TASK_ENGINE_RESUME_TIMEOUT (R337). -/
  | taskEngineResumeTimeout
  /-- PREEMPT_GO (R338). -/
  | preemptGo
  /-- PREEMPT_HOLD (R338). -/
  | preemptHold
  /-- PREEMPT_RESUME (R338). -/
  | preemptResume
  /-- PREEMPT_DISCARD (R341). -/
  | preemptDiscard
  /-- PREEMPT_STOP_COMPLETE (R338). -/
  | preemptStopComplete
  /-- JOBCLR (R335); inputs: value. -/
  | jobclr
  /-- QPUSH (R335); inputs: queue, value. -/
  | qpush
  /-- SNAPDATA_WRITE (R335); inputs: value. -/
  | snapdataWrite
  /-- RPCTL_START (R353). -/
  | rpctlStart
  /-- RPCTL_STOP (R352). -/
  | rpctlStop
  /-- SEGMENT_ARRIVAL (R344); inputs: crcBad. -/
  | segmentArrival
  /-- SEGMENT_FORWARD_COMPLETE (R347). -/
  | segmentForwardComplete
  /-- DROP_RECORD (R357). -/
  | dropRecord
  /-- LOST_RECORD (R369). -/
  | lostRecord
  /-- MIRROR_UPDATE (R370). -/
  | mirrorUpdate
  /-- RING_FAILURE_DETECT (R366); inputs: linkOnly. -/
  | ringFailureDetect
  /-- RING_RESUME (R367); inputs: lit. -/
  | ringResume
  /-- RING_ENGINE_RESET (R372). -/
  | ringEngineReset
  /-- RING_ENGINE_RESTART_TIMEOUT (R372). -/
  | ringEngineRestartTimeout
  /-- FLIT_SEND (R378); inputs: link. -/
  | flitSend
  /-- FLIT_RECEIVE (R379); inputs: link, damage. -/
  | flitReceive
  /-- CONGESTION_DETECT (R386); inputs: dest. -/
  | congestionDetect
  /-- SET_ASIDE_NOTICE (R387); inputs: link. -/
  | setAsideNotice
  /-- SET_ASIDE_RELEASE (R387); inputs: dest. -/
  | setAsideRelease
  /-- AUTO_KEY_ROTATION (R396); inputs: link. -/
  | autoKeyRotation
  /-- LANE_THRESHOLD_CROSS (R398); inputs: link, lane, count. -/
  | laneThresholdCross
  /-- LANE_WINDOW_END (R398); inputs: link, lane, count, uncorr. -/
  | laneWindowEnd
  /-- LANE_NOTICE (R399); inputs: link, lane. -/
  | laneNotice
  /-- TRAINING_ATTEMPT_END (R400); inputs: link, lane, count, uncorr. -/
  | trainingAttemptEnd
  /-- READ_REQUEST (R390); inputs: n. -/
  | readRequest
  /-- WRITE_REQUEST (R390); inputs: n. -/
  | writeRequest
  /-- SYNC_COMMAND_REQUEST (R390); inputs: n. -/
  | syncCommandRequest
  /-- TRANSLATION_REQUEST (R392); inputs: n. -/
  | translationRequest
  /-- INVALIDATION_REQUEST (R393); inputs: n. -/
  | invalidationRequest
  /-- ENGINE_NOTICE (R382); inputs: n. -/
  | engineNotice
  /-- READ_DATA (R389); inputs: n. -/
  | readData
  /-- WRITE_ACKNOWLEDGEMENT (R389); inputs: n. -/
  | writeAcknowledgement
  /-- SYNC_REPLY (R260); inputs: n. -/
  | syncReply
  /-- TRANSLATION_REPLY (R402); inputs: n. -/
  | translationReply
  /-- INVALIDATION_ACKNOWLEDGEMENT (R393); inputs: n. -/
  | invalidationAcknowledgement
  /-- NOTICE_ACKNOWLEDGEMENT (R382); inputs: n. -/
  | noticeAcknowledgement
  /-- INVALIDATION_RESEND (R393); inputs: entry. -/
  | invalidationResend
  /-- FABRIC_ENGINE_RESET (R407). -/
  | fabricEngineReset
  /-- SLCTL_GO (R415). -/
  | slctlGo
  /-- DRAIN_MARKER (R417); inputs: link. -/
  | drainMarker
  /-- SLUICE_DRAIN_COMPLETE (R417). -/
  | sluiceDrainComplete
  /-- SLUICE_DRAIN_TIMEOUT (R417). -/
  | sluiceDrainTimeout
  /-- SLUICE_DARK_END (R416). -/
  | sluiceDarkEnd
  /-- PATH_RELOCK_COMPLETE (R418); inputs: path. -/
  | pathRelockComplete
  /-- PATH_RELOCK_TIMEOUT (R418); inputs: path. -/
  | pathRelockTimeout
  /-- CONFIG_REQUEST (R425); inputs: off, write, value. -/
  | configRequest
  /-- INBOUND_BAR_READ (R428); inputs: bar, off, len. -/
  | inboundBarRead
  /-- INBOUND_BAR_WRITE (R428); inputs: bar, off, ep, bytes. -/
  | inboundBarWrite
  /-- INBOUND_ATOMICOP (R428); inputs: bar, off. -/
  | inboundAtomicop
  /-- UQNOTIFY (R437); inputs: u. -/
  | uqnotify
  /-- UQCTL_WRITE (R432); inputs: u, value. -/
  | uqctlWrite
  /-- PACKET_FETCH (R437); inputs: u, failed. -/
  | packetFetch
  /-- LAUNCH_PACKET (R438); inputs: u. -/
  | launchPacket
  /-- CANCEL_PACKET (R438); inputs: u. -/
  | cancelPacket
  /-- BARRIER_PACKET (R438); inputs: u. -/
  | barrierPacket
  /-- LAUNCH_INTERRUPT (R441); inputs: entry. -/
  | launchInterrupt
  /-- DEVICE_HOST_ACCESS (R442); inputs: req. -/
  | deviceHostAccess
  /-- HOST_COMPLETION (R444); inputs: req, fate. -/
  | hostCompletion
  /-- PCIE_COMPLETION_TIMEOUT (R444); inputs: req. -/
  | pcieCompletionTimeout
  /-- HOST_LINK_DOWN (R444). -/
  | hostLinkDown
  /-- HOST_ENGINE_RESET (R439). -/
  | hostEngineReset
  /-- IDENTITY (R451). -/
  | identity
  /-- ATTEST (R452). -/
  | attest
  /-- KEYSET (R453). -/
  | keyset
  /-- KEYCLR (R453). -/
  | keyclr
  /-- CTXBIND (R453). -/
  | ctxbind
  /-- DOMKEY (R454). -/
  | domkey
  /-- JOURNAL_READ (R448). -/
  | journalRead
  /-- JOURNAL_CLEAR (R448). -/
  | journalClear
  /-- FWSTAGE (R449). -/
  | fwstage
  /-- FENCE_DIE (R458). -/
  | fenceDie
  /-- UNFENCE_DIE (R458). -/
  | unfenceDie
  /-- DIERESET (R458). -/
  | diereset
  /-- PWRCAP (R457). -/
  | pwrcap
  /-- TELEM (R459); inputs: samples. -/
  | telem
  /-- MODULE_RESET (R458). -/
  | moduleReset
  /-- BOOT_STEP (R447); inputs: ok. -/
  | bootStep
  /-- BOOT_WATCHDOG (R448). -/
  | bootWatchdog
  /-- POWER_THERMAL_TICK (R457); inputs: watts, tenths. -/
  | powerThermalTick
  /-- CORRECTED_ERROR_THRESHOLD (R455); inputs: engine. -/
  | correctedErrorThreshold
  /-- REGISTER_WRITE (R460); inputs: space, off, value. -/
  | registerWrite
  /-- ILLEGAL_INSTRUCTION (R73); inputs: culprit, reason, word. -/
  | illegalInstruction
  /-- INSTRUCTION_FETCH_FAULT (R87); inputs: addr. -/
  | instructionFetchFault
  /-- RAMP_FILLER_ISSUE (R334). -/
  | rampFillerIssue
  /-- LINK_RELOCK_COMPLETE (R407); inputs: link. -/
  | linkRelockComplete
  /-- HOST_LINK_UP (R444). -/
  | hostLinkUp
  deriving DecidableEq, Repr, Inhabited

end Sys2Proof
end

