-- ==== Sys2Proof/Word.lean ====
section
/-! DEFINITION. The word types of the machine and their plainest arithmetic. -/

namespace Sys2Proof

/-- A scalar register, a system register or a fabric physical address (R74, R2). -/
abbrev Word := BitVec 64

/-- One byte of memory (R4). -/
abbrev Byte := BitVec 8

/-- A vector register, 512 bytes (R74). -/
abbrev Vec := BitVec 4096

/-- A predicate register, 1,024 bits (R74). -/
abbrev Pred := BitVec 1024

/-- Microseconds in cycles of the 1.2 GHz clock (R3, R5). -/
def microseconds (n : Nat) : Nat := n * 1200

end Sys2Proof
end

