-- ==== Sys2Proof/Config.lean ====
section
/-! DEFINITION. What is fixed for a run but not by the spec: who moves when the listed turns are used up, and the
values the spec leaves open. Every free value is an opaque constant, so no proof can see what it is. -/

namespace Sys2Proof

/-- The three streams of a strand (R13, R20). -/
inductive Str where
  | a | x | d
  deriving DecidableEq, Repr, Inhabited

/-- Who moves in one step of the model: one stream of a strand, the rotation program of a die, or an engine
performing one of the events of the opcode table (log 1). -/
inductive Act where
  | stream (str : Str)
  | rotation
  | event (i : Instr)
  deriving DecidableEq, Repr, Inhabited

/-- One turn: the cycles that pass before it, the die, polder and strand it concerns, who moves there, and the inputs
of the event from outside the model, in the order its constructor names them (log 1, log 12). -/
structure Turn where
  dt : Nat
  die : Nat
  polder : Nat
  strand : Nat
  act : Act
  inp : List Nat
  deriving DecidableEq, Repr, Inhabited

/-- The turn that is taken when no turn is listed: which agent moves next is open (R18, R25; log 1). -/
opaque Config.freeTurn : Nat → Turn

/-- A fresh free value, by the number the state counts up (R10; log 3). -/
opaque Config.freeWord : Nat → Word

/-- The design's fixed choice of a special function's result before it is brought within the bound, by the function,
the format and the input bits (R172; log 10). -/
opaque Config.special : Nat → Nat → Nat → Nat

/-- The engine code of an error record, for which no table of codes is given (R455; log 12): 0 for none, 1 copy, 2 matrix,
3 sync, 4 remote cache and fabric, 5 task, 6 ring, 7 host. -/
opaque Config.engineCode : Nat → BitVec 8

/-- The kind-specific detail of an error record, which is named and not laid down (R455; log 12), by kind and status. -/
opaque Config.errorDetail : Nat → Nat → Word

/-- The signatures of the management controller, whose scheme is named and not laid down in this manual (R449-R452; log 11): by
use, key and text. -/
opaque Config.cipher : Nat → Nat → Nat → Nat

/-- AES-256-XTS of one 128-byte sector under a key and a tweak: some permutation of sectors (R46, R442, R453; log 11). -/
opaque Config.xts : Nat → Nat → Equiv.Perm (BitVec 1024)

/-- AES-256-XTS of the data slots of a packet bound for another module, under a key and the packet's address: some permutation of
that many slots (R46, R453; log 11). -/
opaque Config.xtsSlots : Nat → Nat → (n : Nat) → Equiv.Perm (BitVec (256 * n))

/-- Facts of the device at hand that its identity record and its configuration header report (R425, R451; log 8): 0 the stepping
of the I/O die, 1 the serial number, 2 the device public key, 3 the certificate, 4 the digest of the fused vendor key, 5 the
device's private key. -/
opaque Config.deviceFact : Nat → Nat

end Sys2Proof
end

