-- ==== Sys2Proof/WellFormed.lean ====
section
/-! DEFINITION. Which instructions are legal where: the reason codes of R73 that a word of each form can carry
because of its fields, and those that come from the executor that decodes it (a polder program, a system strand,
the rotation program of R353). Reserved fields and unallocated codes are found by the decoder. -/

namespace Sys2Proof

/-- Who decodes a word: a strand (a system strand or not) or a die's rotation program (R73, R353). -/
inductive Executor where
  | polder (system : Bool)
  | rotation
  deriving DecidableEq, Repr

namespace Legal

/-- The reason `r` when `c` holds. -/
def bad (c : Bool) (r : Nat) : List Nat := if c then [r] else []

/-- A register a word reads from the files its stream field names (R75; R353 for the rotation program). -/
def rd (x : Executor) (st : BitVec 2) (r : BitVec 5) : List Nat :=
  match x with
  | .rotation => bad (r == 31) 9
  | .polder _ => bad ((st == 0 && 30 ≤ r.toNat) || (st == 2 && r == 30)) 9

/-- A register a word writes in the files its stream field names (R75; R353). -/
def wr (x : Executor) (st : BitVec 2) (r : BitVec 5) : List Nat :=
  match x with
  | .rotation => bad (r == 31) 9
  | .polder _ => bad ((st == 0 && 30 ≤ r.toNat) || (st == 3 && r == 31)) 9

/-- A register field of a word that goes to all three streams (R75; R353). -/
def all3 (x : Executor) (r : BitVec 5) : List Nat :=
  match x with
  | .rotation => bad (r == 31) 9
  | .polder _ => bad (30 ≤ r.toNat) 9

/-- A register field of a word of the access or copy block: a31 is a queue port of a polder's A stream, and none of a rotation
program's (R75, R353). -/
def port (x : Executor) (r : BitVec 5) : List Nat := match x with
  | .rotation => bad (r == 31) 9
  | .polder _ => []

/-- An evaluator or stream field that must name one stream (R71). -/
def evaluator (st : BitVec 2) : List Nat := bad (st == 0) 8

/-- A scope code that must be allocated (R69). -/
def scopeCode (s : BitVec 3) : List Nat := bad (6 ≤ s.toNat) 10

/-- Outward token bits of a word of the A stream: take.l and give.l (R24). -/
def outwardA (t : BitVec 4) : List Nat := bad (t[3] || t[1]) 5

/-- Outward token bits of a word of the D stream: take.r and give.r (R24). -/
def outwardD (t : BitVec 4) : List Nat := bad (t[2] || t[0]) 5

/-- A predicate field in which 15 is a meaning of its own (R68). -/
def statusPred (p : BitVec 4) : List Nat := bad (12 ≤ p.toNat && p.toNat ≤ 14) 4

/-- A predicate field that must name a register (R161). DESIGN CHOICE (log 62): 15 in the field of a BPANY or BPNONE is illegal
with reason 3; R73 gives reason 4 to 12-14 alone and R86 names no fate. -/
def needPred (p : BitVec 5) : List Nat := statusPred (p.setWidth 4) ++ bad (p == 15) 3

/-- A predicate in a five-bit register field, 15 for all elements (R175). -/
def maskPred (p : BitVec 5) : List Nat := bad (12 ≤ p.toNat && p.toNat ≤ 14) 4 ++ bad (16 ≤ p.toNat) 3

/-- WIDTH or FTYPE 0b00 where the form has no such elements (R132, R161, R164). -/
def width0 (w : BitVec 2) : List Nat := bad (w == 0) 3

/-- An s register that is read (R75). -/
def sRd (r : BitVec 5) : List Nat := bad (r == 30) 9

/-- A d register that is written (R75, R276). -/
def dDst (r : BitVec 5) : List Nat := bad (r == 31) 9

/-- A vector source (R162). -/
def vSrc (v : BitVec 5) : List Nat := bad (30 ≤ v.toNat) 9

/-- A vector destination (R162). -/
def vDst (v : BitVec 5) : List Nat := bad (v == 28 || v == 29) 9

/-- A group of four vector registers (R177). -/
def vGroup (v : BitVec 5) : List Nat := bad (24 < v.toNat) 9

/-- a31 named by a ring word (R353). -/
def a31 (r : BitVec 5) : List Nat := bad (r == 31) 9

/-- PUSH and POP: the class against the stream field, and the register number against the class (R71, R94). -/
def spillClass (st : BitVec 2) (cls : BitVec 2) (reg : BitVec 5) : List Nat :=
  bad (st == 0 && cls != 0) 8
  ++ bad ((cls == 1 || cls == 2) && st != 2) 3
  ++ bad (cls == 2 && 11 < reg.toNat) 3
  ++ bad (cls == 3 && !((st == 1 && reg.toNat ≤ 7) || (st == 3 && 8 ≤ reg.toNat && reg.toNat ≤ 15))) 3

/-- ORD and SCOPE of an atomic (R254). -/
def atomOrd (ord : BitVec 2) (scope : BitVec 3) : List Nat :=
  bad (ord == 0 && scope != 0) 3 ++ bad (ord != 0 && 6 ≤ scope.toNat) 10

/-- Bits of a VCVT format code (R174). -/
def cvtBits (c : Nat) : Nat :=
  if c ≤ 1 then 4 else if c ≤ 3 then 8 else if c == 4 then 16 else if c ≤ 6 then 32
  else if c ≤ 8 then 16 else if c ≤ 10 then 8 else if c ≤ 12 then 16 else 8

/-- VCVT: its codes, its width ratio and its register groups (R174). -/
def cvtReasons (vd va : BitVec 5) (srcf dstf : BitVec 4) (rm : BitVec 3) : List Nat :=
  let s := srcf.toNat; let d := dstf.toNat
  let bs := cvtBits s; let bd := cvtBits d
  let ok := s < 11 && d < 14
  let kd := bd / bs; let ks := bs / bd
  bad (11 ≤ s || 14 ≤ d || 5 ≤ rm.toNat) 3
  ++ bad (d < 14 && rm == 4 && 16 < bd) 2
  ++ bad (ok && (kd == 8 || ks == 8)) 3
  ++ (if ok && 2 ≤ kd then bad (28 < vd.toNat + kd) 9 else vDst vd)
  ++ (if ok && 2 ≤ ks then bad (28 < va.toNat + ks) 9 else vSrc va)

end Legal

/-- The reasons R73 gives a word of this form because of its own fields. An event is no word and has none. -/
def Instr.reasons (x : Executor) : Instr → List Nat
  | .add sf rd ra rb => Legal.wr x sf rd ++ Legal.rd x sf ra ++ Legal.rd x sf rb
  | .sub sf rd ra rb => Legal.wr x sf rd ++ Legal.rd x sf ra ++ Legal.rd x sf rb
  | .and sf rd ra rb => Legal.wr x sf rd ++ Legal.rd x sf ra ++ Legal.rd x sf rb
  | .or sf rd ra rb => Legal.wr x sf rd ++ Legal.rd x sf ra ++ Legal.rd x sf rb
  | .xor sf rd ra rb => Legal.wr x sf rd ++ Legal.rd x sf ra ++ Legal.rd x sf rb
  | .sll sf rd ra rb => Legal.wr x sf rd ++ Legal.rd x sf ra ++ Legal.rd x sf rb
  | .srl sf rd ra rb => Legal.wr x sf rd ++ Legal.rd x sf ra ++ Legal.rd x sf rb
  | .sra sf rd ra rb => Legal.wr x sf rd ++ Legal.rd x sf ra ++ Legal.rd x sf rb
  | .mul sf rd ra rb => Legal.wr x sf rd ++ Legal.rd x sf ra ++ Legal.rd x sf rb
  | .mulhu sf rd ra rb => Legal.wr x sf rd ++ Legal.rd x sf ra ++ Legal.rd x sf rb
  | .mulh sf rd ra rb => Legal.wr x sf rd ++ Legal.rd x sf ra ++ Legal.rd x sf rb
  | .slt sf rd ra rb => Legal.wr x sf rd ++ Legal.rd x sf ra ++ Legal.rd x sf rb
  | .sltu sf rd ra rb => Legal.wr x sf rd ++ Legal.rd x sf ra ++ Legal.rd x sf rb
  | .min sf rd ra rb => Legal.wr x sf rd ++ Legal.rd x sf ra ++ Legal.rd x sf rb
  | .max sf rd ra rb => Legal.wr x sf rd ++ Legal.rd x sf ra ++ Legal.rd x sf rb
  | .minu sf rd ra rb => Legal.wr x sf rd ++ Legal.rd x sf ra ++ Legal.rd x sf rb
  | .maxu sf rd ra rb => Legal.wr x sf rd ++ Legal.rd x sf ra ++ Legal.rd x sf rb
  | .addi sf rd ra _ => Legal.wr x sf rd ++ Legal.rd x sf ra
  | .slti sf rd ra _ => Legal.wr x sf rd ++ Legal.rd x sf ra
  | .andi sf rd ra _ => Legal.wr x sf rd ++ Legal.rd x sf ra
  | .ori sf rd ra _ => Legal.wr x sf rd ++ Legal.rd x sf ra
  | .xori sf rd ra _ => Legal.wr x sf rd ++ Legal.rd x sf ra
  | .slli sf rd ra _ => Legal.wr x sf rd ++ Legal.rd x sf ra
  | .srli sf rd ra _ => Legal.wr x sf rd ++ Legal.rd x sf ra
  | .srai sf rd ra _ => Legal.wr x sf rd ++ Legal.rd x sf ra
  | .lui sf rd _ => Legal.wr x sf rd
  | .beq ev _ ra rb _ => Legal.evaluator ev ++ Legal.all3 x ra ++ Legal.all3 x rb
  | .bne ev _ ra rb _ => Legal.evaluator ev ++ Legal.all3 x ra ++ Legal.all3 x rb
  | .blt ev _ ra rb _ => Legal.evaluator ev ++ Legal.all3 x ra ++ Legal.all3 x rb
  | .bge ev _ ra rb _ => Legal.evaluator ev ++ Legal.all3 x ra ++ Legal.all3 x rb
  | .bltu ev _ ra rb _ => Legal.evaluator ev ++ Legal.all3 x ra ++ Legal.all3 x rb
  | .bgeu ev _ ra rb _ => Legal.evaluator ev ++ Legal.all3 x ra ++ Legal.all3 x rb
  | .bpany _ pn _ => Legal.needPred (pn.setWidth 5)
  | .bpnone _ pn _ => Legal.needPred (pn.setWidth 5)
  | .j _ => []
  | .jal rd _ => Legal.all3 x rd
  | .jr ev ra => Legal.evaluator ev ++ Legal.all3 x ra
  | .jalr ev rd ra => Legal.evaluator ev ++ Legal.all3 x rd ++ Legal.all3 x ra
  | .loopi _ _ => []
  | .loopr ev ra _ => Legal.evaluator ev ++ Legal.all3 x ra
  | .loopq _ => []
  | .tagw sf rd ra => Legal.wr x sf rd ++ Legal.rd x sf ra
  | .tok sf tk => Legal.evaluator sf ++ Legal.bad (sf == 1 && (tk[3] || tk[1])) 5 ++ Legal.bad (sf == 3 && (tk[2] || tk[0])) 5
  | .fenceX scope p1 p2 => Legal.scopeCode scope ++ Legal.bad (p1 == 0 || p2 == 0) 10
  | .push sf reg cls => Legal.spillClass sf cls reg ++ (if cls == 0 then Legal.rd x sf reg else []) ++ Legal.bad (cls == 1 && 30 ≤ reg.toNat) 9
  | .pop sf reg cls => Legal.spillClass sf cls reg ++ (if cls == 0 then Legal.wr x sf reg else []) ++ Legal.bad (cls == 1 && (reg == 28 || reg == 29)) 9
  | .trap sf _ => Legal.evaluator sf
  | .eret => []
  | .sysr sf rd _ => Legal.wr x sf rd
  | .sysw sf ra _ => Legal.rd x sf ra
  | .exit => []
  | .ld tk rd _ ra size u _ => Legal.outwardA tk ++ Legal.bad (u == 1 && size == 3) 3 ++ Legal.port x rd ++ Legal.port x ra
  | .ldAcq tk rd _ ra size u _ scope => Legal.outwardA tk ++ Legal.bad (u == 1 && size == 3) 3 ++ Legal.scopeCode scope ++ Legal.port x rd ++ Legal.port x ra
  | .ldv tk _ _ _ ra statp => Legal.outwardA tk ++ Legal.statusPred statp ++ Legal.port x ra
  | .ldvAcq tk _ _ _ ra scope statp => Legal.outwardA tk ++ Legal.statusPred statp ++ Legal.scopeCode scope ++ Legal.port x ra
  | .ldvs tk _ width _ ra rb statp => Legal.outwardA tk ++ Legal.statusPred statp ++ Legal.width0 width ++ Legal.port x ra ++ Legal.port x rb
  | .ldvg tk _ width _ ra rb statp => Legal.outwardA tk ++ Legal.statusPred statp ++ Legal.width0 width ++ Legal.port x ra ++ Legal.port x rb
  | .ldp tk rd ra size u => Legal.outwardA tk ++ Legal.bad (u == 1 && size == 3) 3 ++ Legal.port x rd ++ Legal.port x ra
  | .ldpv tk _ width orient ra => Legal.outwardA tk ++ Legal.bad (orient == 1 && width == 0) 3 ++ Legal.port x ra
  | .ldpvg tk _ width ra rb => Legal.outwardA tk ++ Legal.width0 width ++ Legal.port x ra ++ Legal.port x rb
  | .xlate tk rd _ ra => Legal.outwardA tk ++ Legal.port x rd ++ Legal.port x ra
  | .htest tk rd _ => Legal.outwardA tk ++ Legal.port x rd
  | .hrel tk _ => Legal.outwardA tk
  | .hmov tk _ _ => Legal.outwardA tk
  | .preq tk rd ra => Legal.outwardA tk ++ Legal.port x rd ++ Legal.port x ra
  | .pref tk _ ra _ => Legal.outwardA tk ++ Legal.port x ra
  | .scbq tk rd ra rb _ => Legal.outwardA tk ++ Legal.port x rd ++ Legal.port x ra ++ Legal.port x rb
  | .scbwait tk ra => Legal.outwardA tk ++ Legal.port x ra
  | .sbind tk _ ra => Legal.outwardA tk ++ Legal.port x ra
  | .sunbind tk _ => Legal.outwardA tk
  | .sbget tk _ rd => Legal.outwardA tk ++ Legal.port x rd
  | .sbadv tk _ ra => Legal.outwardA tk ++ Legal.port x ra
  | .sbwait tk _ => Legal.outwardA tk
  | .cpy tk _ sc rd ra rb => Legal.outwardA tk ++ Legal.bad (sc == 1 && (30 ≤ rd.toNat || 30 ≤ ra.toNat)) 9 ++ Legal.port x rd ++ Legal.port x ra ++ Legal.port x rb
  | .cpym tk _ sc rd ra rb _ => Legal.outwardA tk ++ Legal.bad (sc == 1 && (30 ≤ rd.toNat || 30 ≤ ra.toNat)) 9 ++ Legal.port x rd ++ Legal.port x ra ++ Legal.port x rb
  | .cpyr tk _ _ ra rb => Legal.outwardA tk ++ Legal.port x ra ++ Legal.port x rb
  | .cpyrAt tk _ _ rp ra rb => Legal.outwardA tk ++ Legal.port x rp ++ Legal.port x ra ++ Legal.port x rb
  | .cpyg tk rd ra rb => Legal.outwardA tk ++ Legal.port x rd ++ Legal.port x ra ++ Legal.port x rb
  | .cpymeta tk rd ra rb => Legal.outwardA tk ++ Legal.port x rd ++ Legal.port x ra ++ Legal.port x rb
  | .cpyq tk ra rb => Legal.outwardA tk ++ Legal.port x ra ++ Legal.port x rb
  | .cmerge tk op rd ra rb => Legal.outwardA tk ++ Legal.bad (8 < op.toNat) 2 ++ Legal.port x rd ++ Legal.port x ra ++ Legal.port x rb
  | .bfmt tk _ _ => Legal.outwardA tk
  | .ccancel tk rd ra => Legal.outwardA tk ++ Legal.port x rd ++ Legal.port x ra
  | .cstat tk rd ra => Legal.outwardA tk ++ Legal.port x rd ++ Legal.port x ra
  | .mma _ _ _ _ _ _ _ _ _ _ => []
  | .mmas _ _ _ _ _ _ _ _ _ _ => []
  | .mmag _ _ _ _ _ _ _ _ => []
  | .mctlZero _ _ _ _ => []
  | .mctlMode _ _ _ sa sb => Legal.sRd sa ++ Legal.sRd sb
  | .mctlRing _ _ _ sa => Legal.sRd sa
  | .mctlPop _ _ _ sa => Legal.sRd sa
  | .mctlWait _ _ => []
  | .vadd _ width vd va vb pred => Legal.width0 width ++ Legal.vDst vd ++ Legal.vSrc va ++ Legal.vSrc vb ++ Legal.statusPred pred
  | .vsub _ width vd va vb pred => Legal.width0 width ++ Legal.vDst vd ++ Legal.vSrc va ++ Legal.vSrc vb ++ Legal.statusPred pred
  | .vmul _ width vd va vb pred => Legal.width0 width ++ Legal.vDst vd ++ Legal.vSrc va ++ Legal.vSrc vb ++ Legal.statusPred pred
  | .vand _ _ vd va vb pred => Legal.vDst vd ++ Legal.vSrc va ++ Legal.vSrc vb ++ Legal.statusPred pred
  | .vor _ _ vd va vb pred => Legal.vDst vd ++ Legal.vSrc va ++ Legal.vSrc vb ++ Legal.statusPred pred
  | .vxor _ _ vd va vb pred => Legal.vDst vd ++ Legal.vSrc va ++ Legal.vSrc vb ++ Legal.statusPred pred
  | .vfnsb _ _ vd va vb pred => Legal.vDst vd ++ Legal.vSrc va ++ Legal.vSrc vb ++ Legal.statusPred pred
  | .vslli _ width vd va sh => Legal.bad (8 * 2 ^ width.toNat ≤ sh.toNat) 3 ++ Legal.vDst vd ++ Legal.vSrc va
  | .vsrli _ width vd va sh => Legal.bad (8 * 2 ^ width.toNat ≤ sh.toNat) 3 ++ Legal.vDst vd ++ Legal.vSrc va
  | .vsrai _ width vd va sh => Legal.bad (8 * 2 ^ width.toNat ≤ sh.toNat) 3 ++ Legal.vDst vd ++ Legal.vSrc va
  | .vfadd _ ftype vd va vb pred => Legal.width0 ftype ++ Legal.vDst vd ++ Legal.vSrc va ++ Legal.vSrc vb ++ Legal.statusPred pred
  | .vfsub _ ftype vd va vb pred => Legal.width0 ftype ++ Legal.vDst vd ++ Legal.vSrc va ++ Legal.vSrc vb ++ Legal.statusPred pred
  | .vfmul _ ftype vd va vb pred => Legal.width0 ftype ++ Legal.vDst vd ++ Legal.vSrc va ++ Legal.vSrc vb ++ Legal.statusPred pred
  | .vfma _ ftype vd va vb pred => Legal.width0 ftype ++ Legal.vDst vd ++ Legal.vSrc vd ++ Legal.vSrc va ++ Legal.vSrc vb ++ Legal.statusPred pred
  | .vcmp _ width fl pd va vb cond => Legal.width0 width ++ Legal.bad (fl == 1 && (cond == 4 || cond == 5)) 3 ++ Legal.needPred (pd.setWidth 5) ++ Legal.vSrc va ++ Legal.vSrc vb
  | .vsel _ _ vd va vb pred => Legal.needPred (pred.setWidth 5) ++ Legal.vDst vd ++ Legal.vSrc va ++ Legal.vSrc vb
  | .vmov _ _ vd va pred => Legal.vDst vd ++ Legal.vSrc va ++ Legal.statusPred pred
  | .vnot _ _ vd va pred => Legal.vDst vd ++ Legal.vSrc va ++ Legal.statusPred pred
  | .vneg _ _ vd va pred => Legal.vDst vd ++ Legal.vSrc va ++ Legal.statusPred pred
  | .vpopc _ _ vd va pred => Legal.vDst vd ++ Legal.vSrc va ++ Legal.statusPred pred
  | .vclz _ _ vd va pred => Legal.vDst vd ++ Legal.vSrc va ++ Legal.statusPred pred
  | .vbrev _ _ vd va pred => Legal.vDst vd ++ Legal.vSrc va ++ Legal.statusPred pred
  | .vfabs _ ftype vd va pred => Legal.width0 ftype ++ Legal.vDst vd ++ Legal.vSrc va ++ Legal.statusPred pred
  | .vexp2 _ ftype vd va pred => Legal.width0 ftype ++ Legal.vDst vd ++ Legal.vSrc va ++ Legal.statusPred pred
  | .vlog2 _ ftype vd va pred => Legal.width0 ftype ++ Legal.vDst vd ++ Legal.vSrc va ++ Legal.statusPred pred
  | .vrcp _ ftype vd va pred => Legal.width0 ftype ++ Legal.vDst vd ++ Legal.vSrc va ++ Legal.statusPred pred
  | .vrsqrt _ ftype vd va pred => Legal.width0 ftype ++ Legal.vDst vd ++ Legal.vSrc va ++ Legal.statusPred pred
  | .vtanh _ ftype vd va pred => Legal.width0 ftype ++ Legal.vDst vd ++ Legal.vSrc va ++ Legal.statusPred pred
  | .vsigm _ ftype vd va pred => Legal.width0 ftype ++ Legal.vDst vd ++ Legal.vSrc va ++ Legal.statusPred pred
  | .vcvt _ vd va srcf dstf rm => Legal.cvtReasons vd va srcf dstf rm
  | .vbcast _ _ vd sa => Legal.vDst vd ++ Legal.sRd sa
  | .vext _ _ _ va sb => Legal.vSrc va ++ Legal.sRd sb
  | .vperm _ width vd va vb => Legal.width0 width ++ Legal.vDst vd ++ Legal.vSrc va ++ Legal.vSrc vb
  | .vrsum _ width _ va pn => Legal.width0 width ++ Legal.vSrc va ++ Legal.maskPred pn
  | .vrmax _ width _ va pn => Legal.width0 width ++ Legal.vSrc va ++ Legal.maskPred pn
  | .vfrsum _ _ va pn => Legal.vSrc va ++ Legal.maskPred pn
  | .vfrmax _ _ va pn => Legal.vSrc va ++ Legal.maskPred pn
  | .vqdx _ _ vd va vb => Legal.vDst vd ++ Legal.vDst vb ++ Legal.vGroup va ++ Legal.bad (vd == vb) 3
  | .vdqdx _ _ vd va vb => Legal.vGroup vd ++ Legal.vSrc va ++ Legal.vSrc vb
  | .fadd _ _ sa sb => Legal.sRd sa ++ Legal.sRd sb
  | .fsub _ _ sa sb => Legal.sRd sa ++ Legal.sRd sb
  | .fmul _ _ sa sb => Legal.sRd sa ++ Legal.sRd sb
  | .fmin _ _ sa sb => Legal.sRd sa ++ Legal.sRd sb
  | .fmax _ _ sa sb => Legal.sRd sa ++ Legal.sRd sb
  | .fcmp _ _ _ sa sb => Legal.sRd sa ++ Legal.sRd sb
  | .fcvtif _ _ sa => Legal.sRd sa
  | .fcvtfi _ _ sa => Legal.sRd sa
  | .vthr _ vd va vb pd => Legal.vDst vd ++ Legal.vSrc va ++ Legal.vSrc vb ++ Legal.needPred (pd.setWidth 5)
  | .vhist _ vd va vb pn => Legal.vDst vd ++ Legal.vSrc va ++ Legal.vSrc vb ++ Legal.statusPred pn
  | .vxrep _ vd va vb pn => Legal.vDst vd ++ Legal.vSrc va ++ Legal.vSrc vb ++ Legal.needPred (pn.setWidth 5)
  | .vgatew _ vd va pn => Legal.vDst vd ++ Legal.vSrc va ++ Legal.needPred (pn.setWidth 5)
  | .cqpush _ va pn => Legal.vSrc va ++ Legal.statusPred pn
  | .vtileRd _ vd _ rs _ => Legal.vDst vd ++ Legal.sRd rs
  | .vtileWr _ va _ rs _ => Legal.vSrc va ++ Legal.sRd rs
  | .plog _ pd pa pb _ => Legal.needPred (pd.setWidth 5) ++ Legal.needPred (pa.setWidth 5) ++ Legal.needPred (pb.setWidth 5)
  | .pcnt _ _ pa => Legal.needPred (pa.setWidth 5)
  | .vtop _ pd va => Legal.needPred (pd.setWidth 5) ++ Legal.vSrc va
  | .ptov _ vd pa => Legal.vDst vd ++ Legal.needPred (pa.setWidth 5)
  | .atom _ rd ra op w64 ord scope => Legal.atomOrd ord scope ++ Legal.bad (13 ≤ op.toNat) 2 ++ Legal.bad (10 ≤ op.toNat && op.toNat ≤ 12 && w64 == 1) 3 ++ Legal.sRd rd ++ Legal.sRd ra ++ Legal.bad (op == 9) 2
  | .red _ rd ra op w64 ord scope => Legal.atomOrd ord scope ++ Legal.bad (13 ≤ op.toNat) 2 ++ Legal.bad (10 ≤ op.toNat && op.toNat ≤ 12 && w64 == 1) 3 ++ Legal.bad (ord == 1 || ord == 3) 3 ++ Legal.bad (op == 9) 2 ++ Legal.sRd rd ++ Legal.sRd ra
  | .acas _ rd ra _ ord scope => Legal.atomOrd ord scope ++ Legal.bad (rd.toNat % 2 == 1 || rd.toNat < 2 || 28 < rd.toNat) 3 ++ Legal.sRd ra
  | .bara _ _ ra => Legal.sRd ra
  | .barw _ _ ra rb => Legal.sRd ra ++ Legal.sRd rb
  | .carm _ ra rb rc => Legal.sRd ra ++ Legal.sRd rb ++ Legal.sRd rc
  | .carr _ ra rb => Legal.sRd ra ++ Legal.sRd rb
  | .cwait _ _ ra rb => Legal.sRd ra ++ Legal.sRd rb
  | .semp _ _ ra => Legal.sRd ra
  | .semv _ ra rb => Legal.sRd ra ++ Legal.sRd rb
  | .waitc _ ra rb rc => Legal.sRd ra ++ Legal.sRd rb ++ Legal.sRd rc
  | .signal _ ra rb => Legal.sRd ra ++ Legal.sRd rb
  | .st tk _ _ _ _ => Legal.outwardD tk
  | .stRel tk _ _ _ _ scope => Legal.outwardD tk ++ Legal.scopeCode scope
  | .stv tk _ _ _ => Legal.outwardD tk
  | .stvs tk _ width _ _ _ => Legal.outwardD tk ++ Legal.width0 width
  | .stvx tk _ width _ _ _ => Legal.outwardD tk ++ Legal.width0 width
  | .stp tk _ _ _ => Legal.outwardD tk
  | .stpv tk _ width orient _ => Legal.outwardD tk ++ Legal.bad (orient == 1 && width == 0) 3
  | .dbind tk _ _ => Legal.outwardD tk
  | .dunbind tk _ => Legal.outwardD tk
  | .drain tk _ rc ra rx => Legal.outwardD tk ++ Legal.bad (29 < ra.toNat) 3 ++ Legal.bad (rc == 31 || rx == 31) 9
  | .claim tk rd _ _ => Legal.outwardD tk ++ Legal.dDst rd
  | .spawn _ rd ra rb => Legal.bad (30 ≤ rd.toNat) 9 ++ Legal.sRd ra ++ Legal.sRd rb
  | .endt _ => []
  | .join _ _ => []
  | .check _ _ => []
  | .launch _ _ ra rb => Legal.sRd ra ++ Legal.sRd rb
  | .jcancel _ _ ra => Legal.sRd ra
  | .tinfo _ _ ra => Legal.sRd ra
  | .rqset _ _ ra rb => Legal.sRd ra ++ Legal.sRd rb
  | .rinj rd ra rb => Legal.a31 rd ++ Legal.a31 ra ++ Legal.a31 rb
  | .rdrop rd ra => Legal.a31 rd ++ Legal.a31 ra
  | .rkeep rd ra rb => Legal.a31 rd ++ Legal.a31 ra ++ Legal.a31 rb
  | .rfwd rd ra => Legal.a31 rd ++ Legal.a31 ra
  | .rhold rd ra => Legal.a31 rd ++ Legal.a31 ra
  | .rtag rd ra rb => Legal.a31 rd ++ Legal.a31 ra ++ Legal.a31 rb
  | .rpar rd ra rb => Legal.a31 rd ++ Legal.a31 ra ++ Legal.a31 rb
  | .rbyp rd ra => Legal.a31 rd ++ Legal.a31 ra
  | .rstat rd ra => Legal.a31 rd ++ Legal.a31 ra
  | .fxfill tk rd _ _ => Legal.outwardD tk ++ Legal.dDst rd
  | .fkey tk rd _ => Legal.outwardD tk ++ Legal.dDst rd
  | .flane tk rd _ _ => Legal.outwardD tk ++ Legal.dDst rd
  | .strandEnd => []
  | .stallWatchdogTrap => []
  | .vectorLoadComplete => []
  | .loadStreamFetch => []
  | .requesterTimeout => []
  | .tagRestEnd => []
  | .xentWrite => []
  | .frclose => []
  | .bfmtPerform => []
  | .copyCommandStart => []
  | .copyUnitLand => []
  | .followOnHandoff => []
  | .copySuspend => []
  | .copyEngineReset => []
  | .matrixCommandStart => []
  | .tileAcquire => []
  | .slabStepIssue => []
  | .mmagLengthReread => []
  | .matrixCommandRetire => []
  | .ringConfigEffect => []
  | .matrixEngineReset => []
  | .syncCommandSend => []
  | .syncWaitLimit => []
  | .triggerTake => []
  | .syncEngineReset => []
  | .drainStreamWrite => []
  | .claimWindowClose => []
  | .recordAdmission => []
  | .overlapWordRead => []
  | .taskDispatch => []
  | .gangStart => []
  | .taskEnd => []
  | .launchRetire => []
  | .graphNodeFire => []
  | .rampWindowEnd => []
  | .taskEngineReset => []
  | .taskEngineResumeTimeout => []
  | .preemptGo => []
  | .preemptHold => []
  | .preemptResume => []
  | .preemptDiscard => []
  | .preemptStopComplete => []
  | .jobclr => []
  | .qpush => []
  | .snapdataWrite => []
  | .rpctlStart => []
  | .rpctlStop => []
  | .segmentArrival => []
  | .segmentForwardComplete => []
  | .dropRecord => []
  | .lostRecord => []
  | .mirrorUpdate => []
  | .ringFailureDetect => []
  | .ringResume => []
  | .ringEngineReset => []
  | .ringEngineRestartTimeout => []
  | .flitSend => []
  | .flitReceive => []
  | .congestionDetect => []
  | .setAsideNotice => []
  | .setAsideRelease => []
  | .autoKeyRotation => []
  | .laneThresholdCross => []
  | .laneWindowEnd => []
  | .laneNotice => []
  | .trainingAttemptEnd => []
  | .readRequest => []
  | .writeRequest => []
  | .syncCommandRequest => []
  | .translationRequest => []
  | .invalidationRequest => []
  | .engineNotice => []
  | .readData => []
  | .writeAcknowledgement => []
  | .syncReply => []
  | .translationReply => []
  | .invalidationAcknowledgement => []
  | .noticeAcknowledgement => []
  | .invalidationResend => []
  | .fabricEngineReset => []
  | .slctlGo => []
  | .drainMarker => []
  | .sluiceDrainComplete => []
  | .sluiceDrainTimeout => []
  | .sluiceDarkEnd => []
  | .pathRelockComplete => []
  | .pathRelockTimeout => []
  | .configRequest => []
  | .inboundBarRead => []
  | .inboundBarWrite => []
  | .inboundAtomicop => []
  | .uqnotify => []
  | .uqctlWrite => []
  | .packetFetch => []
  | .launchPacket => []
  | .cancelPacket => []
  | .barrierPacket => []
  | .launchInterrupt => []
  | .deviceHostAccess => []
  | .hostCompletion => []
  | .pcieCompletionTimeout => []
  | .hostLinkDown => []
  | .hostEngineReset => []
  | .identity => []
  | .attest => []
  | .keyset => []
  | .keyclr => []
  | .ctxbind => []
  | .domkey => []
  | .journalRead => []
  | .journalClear => []
  | .fwstage => []
  | .fenceDie => []
  | .unfenceDie => []
  | .diereset => []
  | .pwrcap => []
  | .telem => []
  | .moduleReset => []
  | .bootStep => []
  | .bootWatchdog => []
  | .powerThermalTick => []
  | .correctedErrorThreshold => []
  | .registerWrite => []
  | .illegalInstruction => []
  | .instructionFetchFault => []
  | .rampFillerIssue => []
  | .linkRelockComplete => []
  | .hostLinkUp => []

/-- The major opcode [31:25] of a word; an event has none (R71, R72). -/
def Instr.major : Instr → Option Nat
  | .add _ _ _ _ => some 0x00
  | .sub _ _ _ _ => some 0x00
  | .and _ _ _ _ => some 0x00
  | .or _ _ _ _ => some 0x00
  | .xor _ _ _ _ => some 0x00
  | .sll _ _ _ _ => some 0x00
  | .srl _ _ _ _ => some 0x00
  | .sra _ _ _ _ => some 0x00
  | .mul _ _ _ _ => some 0x00
  | .mulhu _ _ _ _ => some 0x00
  | .mulh _ _ _ _ => some 0x00
  | .slt _ _ _ _ => some 0x00
  | .sltu _ _ _ _ => some 0x00
  | .min _ _ _ _ => some 0x00
  | .max _ _ _ _ => some 0x00
  | .minu _ _ _ _ => some 0x00
  | .maxu _ _ _ _ => some 0x00
  | .addi _ _ _ _ => some 0x01
  | .slti _ _ _ _ => some 0x02
  | .andi _ _ _ _ => some 0x03
  | .ori _ _ _ _ => some 0x04
  | .xori _ _ _ _ => some 0x05
  | .slli _ _ _ _ => some 0x06
  | .srli _ _ _ _ => some 0x06
  | .srai _ _ _ _ => some 0x06
  | .lui _ _ _ => some 0x07
  | .beq _ _ _ _ _ => some 0x10
  | .bne _ _ _ _ _ => some 0x11
  | .blt _ _ _ _ _ => some 0x12
  | .bge _ _ _ _ _ => some 0x13
  | .bltu _ _ _ _ _ => some 0x14
  | .bgeu _ _ _ _ _ => some 0x15
  | .bpany _ _ _ => some 0x16
  | .bpnone _ _ _ => some 0x17
  | .j _ => some 0x18
  | .jal _ _ => some 0x19
  | .jr _ _ => some 0x1A
  | .jalr _ _ _ => some 0x1B
  | .loopi _ _ => some 0x20
  | .loopr _ _ _ => some 0x21
  | .loopq _ => some 0x22
  | .tagw _ _ _ => some 0x24
  | .tok _ _ => some 0x25
  | .fenceX _ _ _ => some 0x26
  | .push _ _ _ => some 0x28
  | .pop _ _ _ => some 0x29
  | .trap _ _ => some 0x30
  | .eret => some 0x31
  | .sysr _ _ _ => some 0x32
  | .sysw _ _ _ => some 0x33
  | .exit => some 0x34
  | .ld _ _ _ _ _ _ _ => some 0x40
  | .ldAcq _ _ _ _ _ _ _ _ => some 0x40
  | .ldv _ _ _ _ _ _ => some 0x41
  | .ldvAcq _ _ _ _ _ _ _ => some 0x41
  | .ldvs _ _ _ _ _ _ _ => some 0x42
  | .ldvg _ _ _ _ _ _ _ => some 0x43
  | .ldp _ _ _ _ _ => some 0x44
  | .ldpv _ _ _ _ _ => some 0x44
  | .ldpvg _ _ _ _ _ => some 0x44
  | .xlate _ _ _ _ => some 0x45
  | .htest _ _ _ => some 0x45
  | .hrel _ _ => some 0x45
  | .hmov _ _ _ => some 0x45
  | .preq _ _ _ => some 0x46
  | .pref _ _ _ _ => some 0x46
  | .scbq _ _ _ _ _ => some 0x46
  | .scbwait _ _ => some 0x46
  | .sbind _ _ _ => some 0x47
  | .sunbind _ _ => some 0x47
  | .sbget _ _ _ => some 0x47
  | .sbadv _ _ _ => some 0x47
  | .sbwait _ _ => some 0x47
  | .cpy _ _ _ _ _ _ => some 0x48
  | .cpym _ _ _ _ _ _ _ => some 0x48
  | .cpyr _ _ _ _ _ => some 0x49
  | .cpyrAt _ _ _ _ _ _ => some 0x49
  | .cpyg _ _ _ _ => some 0x4A
  | .cpymeta _ _ _ _ => some 0x4A
  | .cpyq _ _ _ => some 0x4A
  | .cmerge _ _ _ _ _ => some 0x4A
  | .bfmt _ _ _ => some 0x4B
  | .ccancel _ _ _ => some 0x4B
  | .cstat _ _ _ => some 0x4B
  | .mma _ _ _ _ _ _ _ _ _ _ => some 0x4C
  | .mmas _ _ _ _ _ _ _ _ _ _ => some 0x4D
  | .mmag _ _ _ _ _ _ _ _ => some 0x4E
  | .mctlZero _ _ _ _ => some 0x4F
  | .mctlMode _ _ _ _ _ => some 0x4F
  | .mctlRing _ _ _ _ => some 0x4F
  | .mctlPop _ _ _ _ => some 0x4F
  | .mctlWait _ _ => some 0x4F
  | .vadd _ _ _ _ _ _ => some 0x50
  | .vsub _ _ _ _ _ _ => some 0x51
  | .vmul _ _ _ _ _ _ => some 0x52
  | .vand _ _ _ _ _ _ => some 0x53
  | .vor _ _ _ _ _ _ => some 0x54
  | .vxor _ _ _ _ _ _ => some 0x55
  | .vfnsb _ _ _ _ _ _ => some 0x56
  | .vslli _ _ _ _ _ => some 0x57
  | .vsrli _ _ _ _ _ => some 0x57
  | .vsrai _ _ _ _ _ => some 0x57
  | .vfadd _ _ _ _ _ _ => some 0x58
  | .vfsub _ _ _ _ _ _ => some 0x59
  | .vfmul _ _ _ _ _ _ => some 0x5A
  | .vfma _ _ _ _ _ _ => some 0x5B
  | .vcmp _ _ _ _ _ _ _ => some 0x5C
  | .vsel _ _ _ _ _ _ => some 0x5D
  | .vmov _ _ _ _ _ => some 0x5E
  | .vnot _ _ _ _ _ => some 0x5E
  | .vneg _ _ _ _ _ => some 0x5E
  | .vpopc _ _ _ _ _ => some 0x5E
  | .vclz _ _ _ _ _ => some 0x5E
  | .vbrev _ _ _ _ _ => some 0x5E
  | .vfabs _ _ _ _ _ => some 0x5F
  | .vexp2 _ _ _ _ _ => some 0x5F
  | .vlog2 _ _ _ _ _ => some 0x5F
  | .vrcp _ _ _ _ _ => some 0x5F
  | .vrsqrt _ _ _ _ _ => some 0x5F
  | .vtanh _ _ _ _ _ => some 0x5F
  | .vsigm _ _ _ _ _ => some 0x5F
  | .vcvt _ _ _ _ _ _ => some 0x60
  | .vbcast _ _ _ _ => some 0x61
  | .vext _ _ _ _ _ => some 0x61
  | .vperm _ _ _ _ _ => some 0x61
  | .vrsum _ _ _ _ _ => some 0x61
  | .vrmax _ _ _ _ _ => some 0x61
  | .vfrsum _ _ _ _ => some 0x61
  | .vfrmax _ _ _ _ => some 0x61
  | .vqdx _ _ _ _ _ => some 0x61
  | .vdqdx _ _ _ _ _ => some 0x61
  | .fadd _ _ _ _ => some 0x62
  | .fsub _ _ _ _ => some 0x62
  | .fmul _ _ _ _ => some 0x62
  | .fmin _ _ _ _ => some 0x62
  | .fmax _ _ _ _ => some 0x62
  | .fcmp _ _ _ _ _ => some 0x62
  | .fcvtif _ _ _ => some 0x62
  | .fcvtfi _ _ _ => some 0x62
  | .vthr _ _ _ _ _ => some 0x63
  | .vhist _ _ _ _ _ => some 0x64
  | .vxrep _ _ _ _ _ => some 0x64
  | .vgatew _ _ _ _ => some 0x64
  | .cqpush _ _ _ => some 0x64
  | .vtileRd _ _ _ _ _ => some 0x65
  | .vtileWr _ _ _ _ _ => some 0x65
  | .plog _ _ _ _ _ => some 0x65
  | .pcnt _ _ _ => some 0x65
  | .vtop _ _ _ => some 0x65
  | .ptov _ _ _ => some 0x65
  | .atom _ _ _ _ _ _ _ => some 0x66
  | .red _ _ _ _ _ _ _ => some 0x66
  | .acas _ _ _ _ _ _ => some 0x66
  | .bara _ _ _ => some 0x67
  | .barw _ _ _ _ => some 0x67
  | .carm _ _ _ _ => some 0x67
  | .carr _ _ _ => some 0x67
  | .cwait _ _ _ _ => some 0x67
  | .semp _ _ _ => some 0x67
  | .semv _ _ _ => some 0x67
  | .waitc _ _ _ _ => some 0x67
  | .signal _ _ _ => some 0x67
  | .st _ _ _ _ _ => some 0x68
  | .stRel _ _ _ _ _ _ => some 0x68
  | .stv _ _ _ _ => some 0x69
  | .stvs _ _ _ _ _ _ => some 0x69
  | .stvx _ _ _ _ _ _ => some 0x69
  | .stp _ _ _ _ => some 0x6A
  | .stpv _ _ _ _ _ => some 0x6A
  | .dbind _ _ _ => some 0x6A
  | .dunbind _ _ => some 0x6A
  | .drain _ _ _ _ _ => some 0x6B
  | .claim _ _ _ _ => some 0x6B
  | .spawn _ _ _ _ => some 0x6C
  | .endt _ => some 0x6C
  | .join _ _ => some 0x6C
  | .check _ _ => some 0x6C
  | .launch _ _ _ _ => some 0x6D
  | .jcancel _ _ _ => some 0x6D
  | .tinfo _ _ _ => some 0x6D
  | .rqset _ _ _ _ => some 0x6D
  | .rinj _ _ _ => some 0x6E
  | .rdrop _ _ => some 0x6E
  | .rkeep _ _ _ => some 0x6E
  | .rfwd _ _ => some 0x6E
  | .rhold _ _ => some 0x6F
  | .rtag _ _ _ => some 0x6F
  | .rpar _ _ _ => some 0x70
  | .rbyp _ _ => some 0x71
  | .rstat _ _ => some 0x71
  | .fxfill _ _ _ _ => some 0x72
  | .fkey _ _ _ => some 0x72
  | .flane _ _ _ _ => some 0x72
  | .strandEnd => none
  | .stallWatchdogTrap => none
  | .vectorLoadComplete => none
  | .loadStreamFetch => none
  | .requesterTimeout => none
  | .tagRestEnd => none
  | .xentWrite => none
  | .frclose => none
  | .bfmtPerform => none
  | .copyCommandStart => none
  | .copyUnitLand => none
  | .followOnHandoff => none
  | .copySuspend => none
  | .copyEngineReset => none
  | .matrixCommandStart => none
  | .tileAcquire => none
  | .slabStepIssue => none
  | .mmagLengthReread => none
  | .matrixCommandRetire => none
  | .ringConfigEffect => none
  | .matrixEngineReset => none
  | .syncCommandSend => none
  | .syncWaitLimit => none
  | .triggerTake => none
  | .syncEngineReset => none
  | .drainStreamWrite => none
  | .claimWindowClose => none
  | .recordAdmission => none
  | .overlapWordRead => none
  | .taskDispatch => none
  | .gangStart => none
  | .taskEnd => none
  | .launchRetire => none
  | .graphNodeFire => none
  | .rampWindowEnd => none
  | .taskEngineReset => none
  | .taskEngineResumeTimeout => none
  | .preemptGo => none
  | .preemptHold => none
  | .preemptResume => none
  | .preemptDiscard => none
  | .preemptStopComplete => none
  | .jobclr => none
  | .qpush => none
  | .snapdataWrite => none
  | .rpctlStart => none
  | .rpctlStop => none
  | .segmentArrival => none
  | .segmentForwardComplete => none
  | .dropRecord => none
  | .lostRecord => none
  | .mirrorUpdate => none
  | .ringFailureDetect => none
  | .ringResume => none
  | .ringEngineReset => none
  | .ringEngineRestartTimeout => none
  | .flitSend => none
  | .flitReceive => none
  | .congestionDetect => none
  | .setAsideNotice => none
  | .setAsideRelease => none
  | .autoKeyRotation => none
  | .laneThresholdCross => none
  | .laneWindowEnd => none
  | .laneNotice => none
  | .trainingAttemptEnd => none
  | .readRequest => none
  | .writeRequest => none
  | .syncCommandRequest => none
  | .translationRequest => none
  | .invalidationRequest => none
  | .engineNotice => none
  | .readData => none
  | .writeAcknowledgement => none
  | .syncReply => none
  | .translationReply => none
  | .invalidationAcknowledgement => none
  | .noticeAcknowledgement => none
  | .invalidationResend => none
  | .fabricEngineReset => none
  | .slctlGo => none
  | .drainMarker => none
  | .sluiceDrainComplete => none
  | .sluiceDrainTimeout => none
  | .sluiceDarkEnd => none
  | .pathRelockComplete => none
  | .pathRelockTimeout => none
  | .configRequest => none
  | .inboundBarRead => none
  | .inboundBarWrite => none
  | .inboundAtomicop => none
  | .uqnotify => none
  | .uqctlWrite => none
  | .packetFetch => none
  | .launchPacket => none
  | .cancelPacket => none
  | .barrierPacket => none
  | .launchInterrupt => none
  | .deviceHostAccess => none
  | .hostCompletion => none
  | .pcieCompletionTimeout => none
  | .hostLinkDown => none
  | .hostEngineReset => none
  | .identity => none
  | .attest => none
  | .keyset => none
  | .keyclr => none
  | .ctxbind => none
  | .domkey => none
  | .journalRead => none
  | .journalClear => none
  | .fwstage => none
  | .fenceDie => none
  | .unfenceDie => none
  | .diereset => none
  | .pwrcap => none
  | .telem => none
  | .moduleReset => none
  | .bootStep => none
  | .bootWatchdog => none
  | .powerThermalTick => none
  | .correctedErrorThreshold => none
  | .registerWrite => none
  | .illegalInstruction => none
  | .instructionFetchFault => none
  | .rampFillerIssue => none
  | .linkRelockComplete => none
  | .hostLinkUp => none

/-- The value of a lower-half word's stream or evaluator field; 0 where the form has none (R71). -/
def Instr.streamField : Instr → BitVec 2
  | .add sf _ _ _ => sf
  | .sub sf _ _ _ => sf
  | .and sf _ _ _ => sf
  | .or sf _ _ _ => sf
  | .xor sf _ _ _ => sf
  | .sll sf _ _ _ => sf
  | .srl sf _ _ _ => sf
  | .sra sf _ _ _ => sf
  | .mul sf _ _ _ => sf
  | .mulhu sf _ _ _ => sf
  | .mulh sf _ _ _ => sf
  | .slt sf _ _ _ => sf
  | .sltu sf _ _ _ => sf
  | .min sf _ _ _ => sf
  | .max sf _ _ _ => sf
  | .minu sf _ _ _ => sf
  | .maxu sf _ _ _ => sf
  | .addi sf _ _ _ => sf
  | .slti sf _ _ _ => sf
  | .andi sf _ _ _ => sf
  | .ori sf _ _ _ => sf
  | .xori sf _ _ _ => sf
  | .slli sf _ _ _ => sf
  | .srli sf _ _ _ => sf
  | .srai sf _ _ _ => sf
  | .lui sf _ _ => sf
  | .beq ev _ _ _ _ => ev
  | .bne ev _ _ _ _ => ev
  | .blt ev _ _ _ _ => ev
  | .bge ev _ _ _ _ => ev
  | .bltu ev _ _ _ _ => ev
  | .bgeu ev _ _ _ _ => ev
  | .bpany _ _ _ => 2
  | .bpnone _ _ _ => 2
  | .j _ => 0
  | .jal _ _ => 0
  | .jr ev _ => ev
  | .jalr ev _ _ => ev
  | .loopi _ _ => 0
  | .loopr ev _ _ => ev
  | .loopq _ => 0
  | .tagw sf _ _ => sf
  | .tok sf _ => sf
  | .fenceX _ _ _ => 0
  | .push sf _ _ => sf
  | .pop sf _ _ => sf
  | .trap sf _ => sf
  | .eret => 0
  | .sysr sf _ _ => sf
  | .sysw sf _ _ => sf
  | .exit => 0
  | .ld _ _ _ _ _ _ _ => 0
  | .ldAcq _ _ _ _ _ _ _ _ => 0
  | .ldv _ _ _ _ _ _ => 0
  | .ldvAcq _ _ _ _ _ _ _ => 0
  | .ldvs _ _ _ _ _ _ _ => 0
  | .ldvg _ _ _ _ _ _ _ => 0
  | .ldp _ _ _ _ _ => 0
  | .ldpv _ _ _ _ _ => 0
  | .ldpvg _ _ _ _ _ => 0
  | .xlate _ _ _ _ => 0
  | .htest _ _ _ => 0
  | .hrel _ _ => 0
  | .hmov _ _ _ => 0
  | .preq _ _ _ => 0
  | .pref _ _ _ _ => 0
  | .scbq _ _ _ _ _ => 0
  | .scbwait _ _ => 0
  | .sbind _ _ _ => 0
  | .sunbind _ _ => 0
  | .sbget _ _ _ => 0
  | .sbadv _ _ _ => 0
  | .sbwait _ _ => 0
  | .cpy _ _ _ _ _ _ => 0
  | .cpym _ _ _ _ _ _ _ => 0
  | .cpyr _ _ _ _ _ => 0
  | .cpyrAt _ _ _ _ _ _ => 0
  | .cpyg _ _ _ _ => 0
  | .cpymeta _ _ _ _ => 0
  | .cpyq _ _ _ => 0
  | .cmerge _ _ _ _ _ => 0
  | .bfmt _ _ _ => 0
  | .ccancel _ _ _ => 0
  | .cstat _ _ _ => 0
  | .mma _ _ _ _ _ _ _ _ _ _ => 0
  | .mmas _ _ _ _ _ _ _ _ _ _ => 0
  | .mmag _ _ _ _ _ _ _ _ => 0
  | .mctlZero _ _ _ _ => 0
  | .mctlMode _ _ _ _ _ => 0
  | .mctlRing _ _ _ _ => 0
  | .mctlPop _ _ _ _ => 0
  | .mctlWait _ _ => 0
  | .vadd _ _ _ _ _ _ => 0
  | .vsub _ _ _ _ _ _ => 0
  | .vmul _ _ _ _ _ _ => 0
  | .vand _ _ _ _ _ _ => 0
  | .vor _ _ _ _ _ _ => 0
  | .vxor _ _ _ _ _ _ => 0
  | .vfnsb _ _ _ _ _ _ => 0
  | .vslli _ _ _ _ _ => 0
  | .vsrli _ _ _ _ _ => 0
  | .vsrai _ _ _ _ _ => 0
  | .vfadd _ _ _ _ _ _ => 0
  | .vfsub _ _ _ _ _ _ => 0
  | .vfmul _ _ _ _ _ _ => 0
  | .vfma _ _ _ _ _ _ => 0
  | .vcmp _ _ _ _ _ _ _ => 0
  | .vsel _ _ _ _ _ _ => 0
  | .vmov _ _ _ _ _ => 0
  | .vnot _ _ _ _ _ => 0
  | .vneg _ _ _ _ _ => 0
  | .vpopc _ _ _ _ _ => 0
  | .vclz _ _ _ _ _ => 0
  | .vbrev _ _ _ _ _ => 0
  | .vfabs _ _ _ _ _ => 0
  | .vexp2 _ _ _ _ _ => 0
  | .vlog2 _ _ _ _ _ => 0
  | .vrcp _ _ _ _ _ => 0
  | .vrsqrt _ _ _ _ _ => 0
  | .vtanh _ _ _ _ _ => 0
  | .vsigm _ _ _ _ _ => 0
  | .vcvt _ _ _ _ _ _ => 0
  | .vbcast _ _ _ _ => 0
  | .vext _ _ _ _ _ => 0
  | .vperm _ _ _ _ _ => 0
  | .vrsum _ _ _ _ _ => 0
  | .vrmax _ _ _ _ _ => 0
  | .vfrsum _ _ _ _ => 0
  | .vfrmax _ _ _ _ => 0
  | .vqdx _ _ _ _ _ => 0
  | .vdqdx _ _ _ _ _ => 0
  | .fadd _ _ _ _ => 0
  | .fsub _ _ _ _ => 0
  | .fmul _ _ _ _ => 0
  | .fmin _ _ _ _ => 0
  | .fmax _ _ _ _ => 0
  | .fcmp _ _ _ _ _ => 0
  | .fcvtif _ _ _ => 0
  | .fcvtfi _ _ _ => 0
  | .vthr _ _ _ _ _ => 0
  | .vhist _ _ _ _ _ => 0
  | .vxrep _ _ _ _ _ => 0
  | .vgatew _ _ _ _ => 0
  | .cqpush _ _ _ => 0
  | .vtileRd _ _ _ _ _ => 0
  | .vtileWr _ _ _ _ _ => 0
  | .plog _ _ _ _ _ => 0
  | .pcnt _ _ _ => 0
  | .vtop _ _ _ => 0
  | .ptov _ _ _ => 0
  | .atom _ _ _ _ _ _ _ => 0
  | .red _ _ _ _ _ _ _ => 0
  | .acas _ _ _ _ _ _ => 0
  | .bara _ _ _ => 0
  | .barw _ _ _ _ => 0
  | .carm _ _ _ _ => 0
  | .carr _ _ _ => 0
  | .cwait _ _ _ _ => 0
  | .semp _ _ _ => 0
  | .semv _ _ _ => 0
  | .waitc _ _ _ _ => 0
  | .signal _ _ _ => 0
  | .st _ _ _ _ _ => 0
  | .stRel _ _ _ _ _ _ => 0
  | .stv _ _ _ _ => 0
  | .stvs _ _ _ _ _ _ => 0
  | .stvx _ _ _ _ _ _ => 0
  | .stp _ _ _ _ => 0
  | .stpv _ _ _ _ _ => 0
  | .dbind _ _ _ => 0
  | .dunbind _ _ => 0
  | .drain _ _ _ _ _ => 0
  | .claim _ _ _ _ => 0
  | .spawn _ _ _ _ => 0
  | .endt _ => 0
  | .join _ _ => 0
  | .check _ _ => 0
  | .launch _ _ _ _ => 0
  | .jcancel _ _ _ => 0
  | .tinfo _ _ _ => 0
  | .rqset _ _ _ _ => 0
  | .rinj _ _ _ => 0
  | .rdrop _ _ => 0
  | .rkeep _ _ _ => 0
  | .rfwd _ _ => 0
  | .rhold _ _ => 0
  | .rtag _ _ _ => 0
  | .rpar _ _ _ => 0
  | .rbyp _ _ => 0
  | .rstat _ _ => 0
  | .fxfill _ _ _ _ => 0
  | .fkey _ _ _ => 0
  | .flane _ _ _ _ => 0
  | .strandEnd => 0
  | .stallWatchdogTrap => 0
  | .vectorLoadComplete => 0
  | .loadStreamFetch => 0
  | .requesterTimeout => 0
  | .tagRestEnd => 0
  | .xentWrite => 0
  | .frclose => 0
  | .bfmtPerform => 0
  | .copyCommandStart => 0
  | .copyUnitLand => 0
  | .followOnHandoff => 0
  | .copySuspend => 0
  | .copyEngineReset => 0
  | .matrixCommandStart => 0
  | .tileAcquire => 0
  | .slabStepIssue => 0
  | .mmagLengthReread => 0
  | .matrixCommandRetire => 0
  | .ringConfigEffect => 0
  | .matrixEngineReset => 0
  | .syncCommandSend => 0
  | .syncWaitLimit => 0
  | .triggerTake => 0
  | .syncEngineReset => 0
  | .drainStreamWrite => 0
  | .claimWindowClose => 0
  | .recordAdmission => 0
  | .overlapWordRead => 0
  | .taskDispatch => 0
  | .gangStart => 0
  | .taskEnd => 0
  | .launchRetire => 0
  | .graphNodeFire => 0
  | .rampWindowEnd => 0
  | .taskEngineReset => 0
  | .taskEngineResumeTimeout => 0
  | .preemptGo => 0
  | .preemptHold => 0
  | .preemptResume => 0
  | .preemptDiscard => 0
  | .preemptStopComplete => 0
  | .jobclr => 0
  | .qpush => 0
  | .snapdataWrite => 0
  | .rpctlStart => 0
  | .rpctlStop => 0
  | .segmentArrival => 0
  | .segmentForwardComplete => 0
  | .dropRecord => 0
  | .lostRecord => 0
  | .mirrorUpdate => 0
  | .ringFailureDetect => 0
  | .ringResume => 0
  | .ringEngineReset => 0
  | .ringEngineRestartTimeout => 0
  | .flitSend => 0
  | .flitReceive => 0
  | .congestionDetect => 0
  | .setAsideNotice => 0
  | .setAsideRelease => 0
  | .autoKeyRotation => 0
  | .laneThresholdCross => 0
  | .laneWindowEnd => 0
  | .laneNotice => 0
  | .trainingAttemptEnd => 0
  | .readRequest => 0
  | .writeRequest => 0
  | .syncCommandRequest => 0
  | .translationRequest => 0
  | .invalidationRequest => 0
  | .engineNotice => 0
  | .readData => 0
  | .writeAcknowledgement => 0
  | .syncReply => 0
  | .translationReply => 0
  | .invalidationAcknowledgement => 0
  | .noticeAcknowledgement => 0
  | .invalidationResend => 0
  | .fabricEngineReset => 0
  | .slctlGo => 0
  | .drainMarker => 0
  | .sluiceDrainComplete => 0
  | .sluiceDrainTimeout => 0
  | .sluiceDarkEnd => 0
  | .pathRelockComplete => 0
  | .pathRelockTimeout => 0
  | .configRequest => 0
  | .inboundBarRead => 0
  | .inboundBarWrite => 0
  | .inboundAtomicop => 0
  | .uqnotify => 0
  | .uqctlWrite => 0
  | .packetFetch => 0
  | .launchPacket => 0
  | .cancelPacket => 0
  | .barrierPacket => 0
  | .launchInterrupt => 0
  | .deviceHostAccess => 0
  | .hostCompletion => 0
  | .pcieCompletionTimeout => 0
  | .hostLinkDown => 0
  | .hostEngineReset => 0
  | .identity => 0
  | .attest => 0
  | .keyset => 0
  | .keyclr => 0
  | .ctxbind => 0
  | .domkey => 0
  | .journalRead => 0
  | .journalClear => 0
  | .fwstage => 0
  | .fenceDie => 0
  | .unfenceDie => 0
  | .diereset => 0
  | .pwrcap => 0
  | .telem => 0
  | .moduleReset => 0
  | .bootStep => 0
  | .bootWatchdog => 0
  | .powerThermalTick => 0
  | .correctedErrorThreshold => 0
  | .registerWrite => 0
  | .illegalInstruction => 0
  | .instructionFetchFault => 0
  | .rampFillerIssue => 0
  | .linkRelockComplete => 0
  | .hostLinkUp => 0

/-- The majors a rotation program may hold (R353). -/
def rotationMajor (m : Nat) : Bool :=
  m ≤ 0x07 || (0x10 ≤ m && m ≤ 0x15) || (0x18 ≤ m && m ≤ 0x1B) || m == 0x20 || m == 0x21 || m == 0x30 || m == 0x34
  || (0x6E ≤ m && m ≤ 0x71)

/-- The reasons a word carries where it stands: its own, the block that the executor may not run (6, 7), and the
subset of the rotation program (8, 12), in which a field that names a31 is misuse everywhere (9)
(R73, R353, R355, R401). -/
def Instr.reasonsIn (x : Executor) (i : Instr) : List Nat :=
  match i.major with
  | none => [1]
  | some m =>
    match x with
    | .polder system =>
      i.reasons x ++ Legal.bad (0x6E ≤ m && m ≤ 0x71) 6 ++ Legal.bad (m == 0x72 && !system) 7
    | .rotation =>
      i.reasons .rotation ++ (if rotationMajor m then [] else 12 :: i.reasons (.polder true))
      ++ Legal.bad (2 ≤ i.streamField.toNat) 8

/-- The lowest of a list of reason codes (R73). -/
def lowestReason : List Nat → Option Nat
  | [] => none
  | r :: rs => some (rs.foldl min r)

/-- A word that some executor may run: no reason of R73 applies to it in a system strand, or in a rotation program. -/
def WellFormed (i : Instr) : Prop :=
  i.reasonsIn (.polder true) = [] ∨ i.reasonsIn .rotation = []

/-- The test of `WellFormed`. -/
def wellFormed (i : Instr) : Bool :=
  (i.reasonsIn (.polder true)).isEmpty || (i.reasonsIn .rotation).isEmpty

theorem wellFormed_iff (i : Instr) : wellFormed i = true ↔ WellFormed i := by
  simp [wellFormed, WellFormed]

end Sys2Proof
end

