-- ==== Sys2Proof/Decode.lean ====
section
/-! DEFINITION. From the bits of a word to an instruction or the reason that makes it illegal (R66-R73 and the
block tables R125, R160, R193, R224, R253, R275, R321, R355, R401), and the encoder of the same tables. Decoding
never guesses: every word is an instruction, or is illegal with the lowest reason that applies. -/

namespace Sys2Proof

/-- `n` bits of the word `w` from bit `lo` up. -/
def fld (w : Nat) (lo n : Nat) : BitVec n := BitVec.ofNat n (w / 2 ^ lo)

/-- The reason 3 of a reserved field that is not zero. -/
def rsv (v : Nat) : List Nat := if v = 0 then [] else [3]

/-- The reason `r` of a field that must hold `want`. -/
def mustBe (v want r : Nat) : List Nat := if v = want then [] else [r]

/-- What the tables make of a word: no row (with the reason), or a row with the reasons of its fixed fields. -/
inductive Parsed where
  | none (reason : Nat)
  | row (i : Instr) (reasons : List Nat)
  deriving DecidableEq, Repr

/-- Major 0x00 (R83). -/
def parse00 (w : Nat) : Parsed :=
  let fn := w / 0x1 % 256
  if fn = 0 then .row (.add (fld w 23 2) (fld w 18 5) (fld w 13 5) (fld w 8 5)) ([])
  else if fn = 1 then .row (.sub (fld w 23 2) (fld w 18 5) (fld w 13 5) (fld w 8 5)) ([])
  else if fn = 2 then .row (.and (fld w 23 2) (fld w 18 5) (fld w 13 5) (fld w 8 5)) ([])
  else if fn = 3 then .row (.or (fld w 23 2) (fld w 18 5) (fld w 13 5) (fld w 8 5)) ([])
  else if fn = 4 then .row (.xor (fld w 23 2) (fld w 18 5) (fld w 13 5) (fld w 8 5)) ([])
  else if fn = 5 then .row (.sll (fld w 23 2) (fld w 18 5) (fld w 13 5) (fld w 8 5)) ([])
  else if fn = 6 then .row (.srl (fld w 23 2) (fld w 18 5) (fld w 13 5) (fld w 8 5)) ([])
  else if fn = 7 then .row (.sra (fld w 23 2) (fld w 18 5) (fld w 13 5) (fld w 8 5)) ([])
  else if fn = 8 then .row (.mul (fld w 23 2) (fld w 18 5) (fld w 13 5) (fld w 8 5)) ([])
  else if fn = 9 then .row (.mulhu (fld w 23 2) (fld w 18 5) (fld w 13 5) (fld w 8 5)) ([])
  else if fn = 10 then .row (.mulh (fld w 23 2) (fld w 18 5) (fld w 13 5) (fld w 8 5)) ([])
  else if fn = 11 then .row (.slt (fld w 23 2) (fld w 18 5) (fld w 13 5) (fld w 8 5)) ([])
  else if fn = 12 then .row (.sltu (fld w 23 2) (fld w 18 5) (fld w 13 5) (fld w 8 5)) ([])
  else if fn = 13 then .row (.min (fld w 23 2) (fld w 18 5) (fld w 13 5) (fld w 8 5)) ([])
  else if fn = 14 then .row (.max (fld w 23 2) (fld w 18 5) (fld w 13 5) (fld w 8 5)) ([])
  else if fn = 15 then .row (.minu (fld w 23 2) (fld w 18 5) (fld w 13 5) (fld w 8 5)) ([])
  else if fn = 16 then .row (.maxu (fld w 23 2) (fld w 18 5) (fld w 13 5) (fld w 8 5)) ([])
  else .none 2

/-- Major 0x01 (R84). -/
def parse01 (w : Nat) : Parsed :=
  .row (.addi (fld w 23 2) (fld w 18 5) (fld w 13 5) (fld w 0 13)) ([])

/-- Major 0x02 (R84). -/
def parse02 (w : Nat) : Parsed :=
  .row (.slti (fld w 23 2) (fld w 18 5) (fld w 13 5) (fld w 0 13)) ([])

/-- Major 0x03 (R84). -/
def parse03 (w : Nat) : Parsed :=
  .row (.andi (fld w 23 2) (fld w 18 5) (fld w 13 5) (fld w 0 13)) ([])

/-- Major 0x04 (R84). -/
def parse04 (w : Nat) : Parsed :=
  .row (.ori (fld w 23 2) (fld w 18 5) (fld w 13 5) (fld w 0 13)) ([])

/-- Major 0x05 (R84). -/
def parse05 (w : Nat) : Parsed :=
  .row (.xori (fld w 23 2) (fld w 18 5) (fld w 13 5) (fld w 0 13)) ([])

/-- Major 0x06 (R84). -/
def parse06 (w : Nat) : Parsed :=
  let fn := w / 0x40 % 4
  if fn = 0 then .row (.slli (fld w 23 2) (fld w 18 5) (fld w 13 5) (fld w 0 6)) (rsv (w / 0x100 % 32))
  else if fn = 1 then .row (.srli (fld w 23 2) (fld w 18 5) (fld w 13 5) (fld w 0 6)) (rsv (w / 0x100 % 32))
  else if fn = 2 then .row (.srai (fld w 23 2) (fld w 18 5) (fld w 13 5) (fld w 0 6)) (rsv (w / 0x100 % 32))
  else .none 2

/-- Major 0x07 (R84). -/
def parse07 (w : Nat) : Parsed :=
  .row (.lui (fld w 23 2) (fld w 18 5) (fld w 0 18)) ([])

/-- Major 0x10 (R86). -/
def parse10 (w : Nat) : Parsed :=
  .row (.beq (fld w 23 2) (fld w 18 5) (fld w 13 5) (fld w 8 5) (fld w 0 8)) ([])

/-- Major 0x11 (R86). -/
def parse11 (w : Nat) : Parsed :=
  .row (.bne (fld w 23 2) (fld w 18 5) (fld w 13 5) (fld w 8 5) (fld w 0 8)) ([])

/-- Major 0x12 (R86). -/
def parse12 (w : Nat) : Parsed :=
  .row (.blt (fld w 23 2) (fld w 18 5) (fld w 13 5) (fld w 8 5) (fld w 0 8)) ([])

/-- Major 0x13 (R86). -/
def parse13 (w : Nat) : Parsed :=
  .row (.bge (fld w 23 2) (fld w 18 5) (fld w 13 5) (fld w 8 5) (fld w 0 8)) ([])

/-- Major 0x14 (R86). -/
def parse14 (w : Nat) : Parsed :=
  .row (.bltu (fld w 23 2) (fld w 18 5) (fld w 13 5) (fld w 8 5) (fld w 0 8)) ([])

/-- Major 0x15 (R86). -/
def parse15 (w : Nat) : Parsed :=
  .row (.bgeu (fld w 23 2) (fld w 18 5) (fld w 13 5) (fld w 8 5) (fld w 0 8)) ([])

/-- Major 0x16 (R86). -/
def parse16 (w : Nat) : Parsed :=
  .row (.bpany (fld w 18 5) (fld w 13 4) (fld w 0 8)) (mustBe (w / 0x800000 % 4) 2 8 ++ rsv (w / 0x100 % 32) ++ rsv (w / 0x20000 % 2))

/-- Major 0x17 (R86). -/
def parse17 (w : Nat) : Parsed :=
  .row (.bpnone (fld w 18 5) (fld w 13 4) (fld w 0 8)) (mustBe (w / 0x800000 % 4) 2 8 ++ rsv (w / 0x100 % 32) ++ rsv (w / 0x20000 % 2))

/-- Major 0x18 (R87). -/
def parse18 (w : Nat) : Parsed :=
  .row (.j (fld w 0 23)) (mustBe (w / 0x800000 % 4) 0 8)

/-- Major 0x19 (R87). -/
def parse19 (w : Nat) : Parsed :=
  .row (.jal (fld w 18 5) (fld w 0 18)) (mustBe (w / 0x800000 % 4) 0 8)

/-- Major 0x1A (R87). -/
def parse1A (w : Nat) : Parsed :=
  .row (.jr (fld w 23 2) (fld w 13 5)) (rsv (w / 0x1 % 8192) ++ rsv (w / 0x40000 % 32))

/-- Major 0x1B (R87). -/
def parse1B (w : Nat) : Parsed :=
  .row (.jalr (fld w 23 2) (fld w 18 5) (fld w 13 5)) (rsv (w / 0x1 % 8192))

/-- Major 0x20 (R89). -/
def parse20 (w : Nat) : Parsed :=
  .row (.loopi (fld w 8 15) (fld w 0 8)) (mustBe (w / 0x800000 % 4) 0 8)

/-- Major 0x21 (R89). -/
def parse21 (w : Nat) : Parsed :=
  .row (.loopr (fld w 23 2) (fld w 13 5) (fld w 0 8)) (rsv (w / 0x100 % 32) ++ rsv (w / 0x40000 % 32))

/-- Major 0x22 (R89). -/
def parse22 (w : Nat) : Parsed :=
  .row (.loopq (fld w 0 8)) (mustBe (w / 0x800000 % 4) 0 8 ++ rsv (w / 0x100 % 32768))

/-- Major 0x24 (R91). -/
def parse24 (w : Nat) : Parsed :=
  .row (.tagw (fld w 23 2) (fld w 18 5) (fld w 13 5)) (rsv (w / 0x1 % 8192))

/-- Major 0x25 (R92). -/
def parse25 (w : Nat) : Parsed :=
  .row (.tok (fld w 23 2) (fld w 0 4)) (rsv (w / 0x10 % 524288))

/-- Major 0x26 (R93). -/
def parse26 (w : Nat) : Parsed :=
  .row (.fenceX (fld w 20 3) (fld w 8 8) (fld w 0 8)) (mustBe (w / 0x800000 % 4) 0 8 ++ rsv (w / 0x10000 % 16))

/-- Major 0x28 (R94). -/
def parse28 (w : Nat) : Parsed :=
  .row (.push (fld w 23 2) (fld w 13 5) (fld w 11 2)) (rsv (w / 0x1 % 2048) ++ rsv (w / 0x40000 % 32))

/-- Major 0x29 (R94). -/
def parse29 (w : Nat) : Parsed :=
  .row (.pop (fld w 23 2) (fld w 13 5) (fld w 11 2)) (rsv (w / 0x1 % 2048) ++ rsv (w / 0x40000 % 32))

/-- Major 0x30 (R95). -/
def parse30 (w : Nat) : Parsed :=
  .row (.trap (fld w 23 2) (fld w 0 13)) (rsv (w / 0x2000 % 1024))

/-- Major 0x31 (R97). -/
def parse31 (w : Nat) : Parsed :=
  .row (.eret) (mustBe (w / 0x800000 % 4) 0 8 ++ rsv (w / 0x1 % 8388608))

/-- Major 0x32 (R98). -/
def parse32 (w : Nat) : Parsed :=
  .row (.sysr (fld w 23 2) (fld w 18 5) (fld w 0 13)) (rsv (w / 0x2000 % 32))

/-- Major 0x33 (R98). -/
def parse33 (w : Nat) : Parsed :=
  .row (.sysw (fld w 23 2) (fld w 13 5) (fld w 0 13)) (rsv (w / 0x40000 % 32))

/-- Major 0x34 (R99). -/
def parse34 (w : Nat) : Parsed :=
  .row (.exit) (mustBe (w / 0x800000 % 4) 0 8 ++ rsv (w / 0x1 % 8388608))

/-- Major 0x40 (R130). -/
def parse40 (w : Nat) : Parsed :=
  let fn := w / 0x10 % 2
  if fn = 0 then .row (.ld (fld w 21 4) (fld w 16 5) (fld w 13 3) (fld w 8 5) (fld w 6 2) (fld w 5 1) (fld w 3 1)) (rsv (w / 0x1 % 8))
  else if fn = 1 then .row (.ldAcq (fld w 21 4) (fld w 16 5) (fld w 13 3) (fld w 8 5) (fld w 6 2) (fld w 5 1) (fld w 3 1) (fld w 0 3)) ([])
  else .none 2

/-- Major 0x41 (R132). -/
def parse41 (w : Nat) : Parsed :=
  let fn := w / 0x200 % 2
  if fn = 0 then .row (.ldv (fld w 21 4) (fld w 20 1) (fld w 18 2) (fld w 15 3) (fld w 10 5) (fld w 0 4)) (rsv (w / 0x10 % 32))
  else if fn = 1 then .row (.ldvAcq (fld w 21 4) (fld w 20 1) (fld w 18 2) (fld w 15 3) (fld w 10 5) (fld w 6 3) (fld w 0 4)) (rsv (w / 0x10 % 4))
  else .none 2

/-- Major 0x42 (R132). -/
def parse42 (w : Nat) : Parsed :=
  .row (.ldvs (fld w 21 4) (fld w 20 1) (fld w 18 2) (fld w 15 3) (fld w 10 5) (fld w 5 5) (fld w 0 4)) (rsv (w / 0x10 % 2))

/-- Major 0x43 (R133). -/
def parse43 (w : Nat) : Parsed :=
  .row (.ldvg (fld w 21 4) (fld w 20 1) (fld w 18 2) (fld w 15 3) (fld w 10 5) (fld w 5 5) (fld w 0 4)) (rsv (w / 0x10 % 2))

/-- Major 0x44 (R136). -/
def parse44 (w : Nat) : Parsed :=
  let fn := w / 0x80000 % 4
  if fn = 0 then .row (.ldp (fld w 21 4) (fld w 14 5) (fld w 9 5) (fld w 7 2) (fld w 6 1)) (rsv (w / 0x1 % 64))
  else if fn = 1 then .row (.ldpv (fld w 21 4) (fld w 18 1) (fld w 16 2) (fld w 15 1) (fld w 10 5)) (rsv (w / 0x1 % 1024))
  else if fn = 2 then .row (.ldpvg (fld w 21 4) (fld w 18 1) (fld w 16 2) (fld w 10 5) (fld w 5 5)) (rsv (w / 0x1 % 32) ++ rsv (w / 0x8000 % 2))
  else .none 2

/-- Major 0x45 (R141). -/
def parse45 (w : Nat) : Parsed :=
  let fn := w / 0x80000 % 4
  if fn = 0 then .row (.xlate (fld w 21 4) (fld w 14 5) (fld w 10 4) (fld w 5 5)) (rsv (w / 0x1 % 32))
  else if fn = 1 then .row (.htest (fld w 21 4) (fld w 14 5) (fld w 10 4)) (rsv (w / 0x1 % 1024))
  else if fn = 2 then .row (.hrel (fld w 21 4) (fld w 10 4)) (rsv (w / 0x1 % 1024) ++ rsv (w / 0x4000 % 32))
  else if fn = 3 then .row (.hmov (fld w 21 4) (fld w 10 4) (fld w 6 4)) (rsv (w / 0x1 % 64) ++ rsv (w / 0x4000 % 32))
  else .none 2

/-- Major 0x46 (R142). -/
def parse46 (w : Nat) : Parsed :=
  let fn := w / 0x80000 % 4
  if fn = 0 then .row (.preq (fld w 21 4) (fld w 14 5) (fld w 9 5)) (rsv (w / 0x1 % 512))
  else if fn = 1 then .row (.pref (fld w 21 4) (fld w 16 3) (fld w 11 5) (fld w 9 2)) (rsv (w / 0x1 % 512))
  else if fn = 2 then .row (.scbq (fld w 21 4) (fld w 14 5) (fld w 9 5) (fld w 4 5) (fld w 3 1)) (rsv (w / 0x1 % 8))
  else if fn = 3 then .row (.scbwait (fld w 21 4) (fld w 9 5)) (rsv (w / 0x1 % 512) ++ rsv (w / 0x4000 % 32))
  else .none 2

/-- Major 0x47 (R148). -/
def parse47 (w : Nat) : Parsed :=
  let fn := w / 0x40000 % 8
  if fn = 0 then .row (.sbind (fld w 21 4) (fld w 17 1) (fld w 12 5)) (rsv (w / 0x1 % 4096))
  else if fn = 1 then .row (.sunbind (fld w 21 4) (fld w 17 1)) (rsv (w / 0x1 % 131072))
  else if fn = 2 then .row (.sbget (fld w 21 4) (fld w 17 1) (fld w 12 5)) (rsv (w / 0x1 % 4096))
  else if fn = 3 then .row (.sbadv (fld w 21 4) (fld w 17 1) (fld w 12 5)) (rsv (w / 0x1 % 4096))
  else if fn = 4 then .row (.sbwait (fld w 21 4) (fld w 17 1)) (rsv (w / 0x1 % 131072))
  else .none 2

/-- Major 0x48 (R199). -/
def parse48 (w : Nat) (follow : BitVec 32) : Parsed :=
  let fn := w / 0x100000 % 2
  if fn = 0 then .row (.cpy (fld w 21 4) (fld w 19 1) (fld w 17 1) (fld w 12 5) (fld w 7 5) (fld w 2 5)) (rsv (w / 0x1 % 4) ++ rsv (w / 0x40000 % 2))
  else if fn = 1 then .row (.cpym (fld w 21 4) (fld w 19 1) (fld w 17 1) (fld w 12 5) (fld w 7 5) (fld w 2 5) follow) (rsv (w / 0x1 % 4) ++ rsv (w / 0x40000 % 2))
  else .none 2

/-- Major 0x49 (R205). -/
def parse49 (w : Nat) : Parsed :=
  let fn := w / 0x100000 % 2
  if fn = 0 then .row (.cpyr (fld w 21 4) (fld w 19 1) (fld w 16 3) (fld w 6 5) (fld w 1 5)) (rsv (w / 0x1 % 2) ++ rsv (w / 0x800 % 32))
  else if fn = 1 then .row (.cpyrAt (fld w 21 4) (fld w 19 1) (fld w 16 3) (fld w 11 5) (fld w 6 5) (fld w 1 5)) (rsv (w / 0x1 % 2))
  else .none 2

/-- Major 0x4A (R207). -/
def parse4A (w : Nat) : Parsed :=
  let fn := w / 0x80000 % 4
  if fn = 0 then .row (.cpyg (fld w 21 4) (fld w 14 5) (fld w 9 5) (fld w 4 5)) (rsv (w / 0x1 % 16))
  else if fn = 1 then .row (.cpymeta (fld w 21 4) (fld w 14 5) (fld w 9 5) (fld w 4 5)) (rsv (w / 0x1 % 16))
  else if fn = 2 then .row (.cpyq (fld w 21 4) (fld w 9 5) (fld w 4 5)) (rsv (w / 0x1 % 16) ++ rsv (w / 0x4000 % 32))
  else if fn = 3 then .row (.cmerge (fld w 21 4) (fld w 15 4) (fld w 10 5) (fld w 5 5) (fld w 0 5)) ([])
  else .none 2

/-- Major 0x4B (R212). -/
def parse4B (w : Nat) : Parsed :=
  let fn := w / 0x80000 % 4
  if fn = 0 then .row (.bfmt (fld w 21 4) (fld w 12 7) (fld w 4 8)) (rsv (w / 0x1 % 16))
  else if fn = 1 then .row (.ccancel (fld w 21 4) (fld w 14 5) (fld w 9 5)) (rsv (w / 0x1 % 512))
  else if fn = 2 then .row (.cstat (fld w 21 4) (fld w 14 5) (fld w 9 5)) (rsv (w / 0x1 % 512))
  else .none 2

/-- Major 0x4C (R233). -/
def parse4C (w : Nat) : Parsed :=
  .row (.mma (fld w 21 4) (fld w 20 1) (fld w 19 1) (fld w 15 4) (fld w 12 3) (fld w 9 3) (fld w 8 1) (fld w 7 1) (fld w 5 2) (fld w 0 5)) ([])

/-- Major 0x4D (R236). -/
def parse4D (w : Nat) : Parsed :=
  .row (.mmas (fld w 21 4) (fld w 20 1) (fld w 19 1) (fld w 15 4) (fld w 12 3) (fld w 9 3) (fld w 8 1) (fld w 7 1) (fld w 5 2) (fld w 0 5)) ([])

/-- Major 0x4E (R238). -/
def parse4E (w : Nat) : Parsed :=
  .row (.mmag (fld w 21 4) (fld w 20 1) (fld w 19 1) (fld w 15 4) (fld w 9 3) (fld w 7 1) (fld w 5 2) (fld w 0 5)) (rsv (w / 0x100 % 2) ++ rsv (w / 0x1000 % 8))

/-- Major 0x4F (R240). -/
def parse4F (w : Nat) : Parsed :=
  let fn := w / 0x20000 % 8
  if fn = 0 then .row (.mctlZero (fld w 21 4) (fld w 20 1) (fld w 13 4) (fld w 12 1)) (rsv (w / 0x1 % 4096))
  else if fn = 1 then .row (.mctlMode (fld w 21 4) (fld w 20 1) (fld w 15 2) (fld w 10 5) (fld w 5 5)) (rsv (w / 0x1 % 32))
  else if fn = 2 then .row (.mctlRing (fld w 21 4) (fld w 20 1) (fld w 14 3) (fld w 9 5)) (rsv (w / 0x1 % 512))
  else if fn = 3 then .row (.mctlPop (fld w 21 4) (fld w 20 1) (fld w 14 3) (fld w 9 5)) (rsv (w / 0x1 % 512))
  else if fn = 4 then .row (.mctlWait (fld w 21 4) (fld w 12 5)) (rsv (w / 0x1 % 4096) ++ rsv (w / 0x100000 % 2))
  else .none 2

/-- Major 0x50 (R164). -/
def parse50 (w : Nat) : Parsed :=
  .row (.vadd (fld w 21 4) (fld w 19 2) (fld w 14 5) (fld w 9 5) (fld w 4 5) (fld w 0 4)) ([])

/-- Major 0x51 (R164). -/
def parse51 (w : Nat) : Parsed :=
  .row (.vsub (fld w 21 4) (fld w 19 2) (fld w 14 5) (fld w 9 5) (fld w 4 5) (fld w 0 4)) ([])

/-- Major 0x52 (R164). -/
def parse52 (w : Nat) : Parsed :=
  .row (.vmul (fld w 21 4) (fld w 19 2) (fld w 14 5) (fld w 9 5) (fld w 4 5) (fld w 0 4)) ([])

/-- Major 0x53 (R165). -/
def parse53 (w : Nat) : Parsed :=
  .row (.vand (fld w 21 4) (fld w 19 2) (fld w 14 5) (fld w 9 5) (fld w 4 5) (fld w 0 4)) ([])

/-- Major 0x54 (R165). -/
def parse54 (w : Nat) : Parsed :=
  .row (.vor (fld w 21 4) (fld w 19 2) (fld w 14 5) (fld w 9 5) (fld w 4 5) (fld w 0 4)) ([])

/-- Major 0x55 (R165). -/
def parse55 (w : Nat) : Parsed :=
  .row (.vxor (fld w 21 4) (fld w 19 2) (fld w 14 5) (fld w 9 5) (fld w 4 5) (fld w 0 4)) ([])

/-- Major 0x56 (R165). -/
def parse56 (w : Nat) : Parsed :=
  .row (.vfnsb (fld w 21 4) (fld w 19 2) (fld w 14 5) (fld w 9 5) (fld w 4 5) (fld w 0 4)) ([])

/-- Major 0x57 (R166). -/
def parse57 (w : Nat) : Parsed :=
  let fn := w / 0x2 % 4
  if fn = 0 then .row (.vslli (fld w 21 4) (fld w 19 2) (fld w 14 5) (fld w 9 5) (fld w 3 6)) (rsv (w / 0x1 % 2))
  else if fn = 1 then .row (.vsrli (fld w 21 4) (fld w 19 2) (fld w 14 5) (fld w 9 5) (fld w 3 6)) (rsv (w / 0x1 % 2))
  else if fn = 2 then .row (.vsrai (fld w 21 4) (fld w 19 2) (fld w 14 5) (fld w 9 5) (fld w 3 6)) (rsv (w / 0x1 % 2))
  else .none 2

/-- Major 0x58 (R169). -/
def parse58 (w : Nat) : Parsed :=
  .row (.vfadd (fld w 21 4) (fld w 19 2) (fld w 14 5) (fld w 9 5) (fld w 4 5) (fld w 0 4)) ([])

/-- Major 0x59 (R169). -/
def parse59 (w : Nat) : Parsed :=
  .row (.vfsub (fld w 21 4) (fld w 19 2) (fld w 14 5) (fld w 9 5) (fld w 4 5) (fld w 0 4)) ([])

/-- Major 0x5A (R169). -/
def parse5A (w : Nat) : Parsed :=
  .row (.vfmul (fld w 21 4) (fld w 19 2) (fld w 14 5) (fld w 9 5) (fld w 4 5) (fld w 0 4)) ([])

/-- Major 0x5B (R169). -/
def parse5B (w : Nat) : Parsed :=
  .row (.vfma (fld w 21 4) (fld w 19 2) (fld w 14 5) (fld w 9 5) (fld w 4 5) (fld w 0 4)) ([])

/-- Major 0x5C (R170). -/
def parse5C (w : Nat) : Parsed :=
  .row (.vcmp (fld w 21 4) (fld w 19 2) (fld w 18 1) (fld w 14 4) (fld w 9 5) (fld w 4 5) (fld w 1 3)) (rsv (w / 0x1 % 2))

/-- Major 0x5D (R168). -/
def parse5D (w : Nat) : Parsed :=
  .row (.vsel (fld w 21 4) (fld w 19 2) (fld w 14 5) (fld w 9 5) (fld w 4 5) (fld w 0 4)) ([])

/-- Major 0x5E (R167). -/
def parse5E (w : Nat) : Parsed :=
  let fn := w / 0x10 % 32
  if fn = 0 then .row (.vmov (fld w 21 4) (fld w 19 2) (fld w 14 5) (fld w 9 5) (fld w 0 4)) ([])
  else if fn = 1 then .row (.vnot (fld w 21 4) (fld w 19 2) (fld w 14 5) (fld w 9 5) (fld w 0 4)) ([])
  else if fn = 2 then .row (.vneg (fld w 21 4) (fld w 19 2) (fld w 14 5) (fld w 9 5) (fld w 0 4)) ([])
  else if fn = 3 then .row (.vpopc (fld w 21 4) (fld w 19 2) (fld w 14 5) (fld w 9 5) (fld w 0 4)) ([])
  else if fn = 4 then .row (.vclz (fld w 21 4) (fld w 19 2) (fld w 14 5) (fld w 9 5) (fld w 0 4)) ([])
  else if fn = 5 then .row (.vbrev (fld w 21 4) (fld w 19 2) (fld w 14 5) (fld w 9 5) (fld w 0 4)) ([])
  else .none 2

/-- Major 0x5F (R172). -/
def parse5F (w : Nat) : Parsed :=
  let fn := w / 0x10 % 32
  if fn = 0 then .row (.vfabs (fld w 21 4) (fld w 19 2) (fld w 14 5) (fld w 9 5) (fld w 0 4)) ([])
  else if fn = 1 then .row (.vexp2 (fld w 21 4) (fld w 19 2) (fld w 14 5) (fld w 9 5) (fld w 0 4)) ([])
  else if fn = 2 then .row (.vlog2 (fld w 21 4) (fld w 19 2) (fld w 14 5) (fld w 9 5) (fld w 0 4)) ([])
  else if fn = 3 then .row (.vrcp (fld w 21 4) (fld w 19 2) (fld w 14 5) (fld w 9 5) (fld w 0 4)) ([])
  else if fn = 4 then .row (.vrsqrt (fld w 21 4) (fld w 19 2) (fld w 14 5) (fld w 9 5) (fld w 0 4)) ([])
  else if fn = 5 then .row (.vtanh (fld w 21 4) (fld w 19 2) (fld w 14 5) (fld w 9 5) (fld w 0 4)) ([])
  else if fn = 6 then .row (.vsigm (fld w 21 4) (fld w 19 2) (fld w 14 5) (fld w 9 5) (fld w 0 4)) ([])
  else .none 2

/-- Major 0x60 (R174). -/
def parse60 (w : Nat) : Parsed :=
  .row (.vcvt (fld w 21 4) (fld w 16 5) (fld w 11 5) (fld w 7 4) (fld w 3 4) (fld w 0 3)) ([])

/-- Major 0x61 (R175). -/
def parse61 (w : Nat) : Parsed :=
  let fn := w / 0x1 % 16
  if fn = 0 then .row (.vbcast (fld w 21 4) (fld w 19 2) (fld w 14 5) (fld w 9 5)) (rsv (w / 0x10 % 32))
  else if fn = 1 then .row (.vext (fld w 21 4) (fld w 19 2) (fld w 14 5) (fld w 9 5) (fld w 4 5)) ([])
  else if fn = 2 then .row (.vperm (fld w 21 4) (fld w 19 2) (fld w 14 5) (fld w 9 5) (fld w 4 5)) ([])
  else if fn = 3 then .row (.vrsum (fld w 21 4) (fld w 19 2) (fld w 14 5) (fld w 9 5) (fld w 4 5)) ([])
  else if fn = 4 then .row (.vrmax (fld w 21 4) (fld w 19 2) (fld w 14 5) (fld w 9 5) (fld w 4 5)) ([])
  else if fn = 5 then .row (.vfrsum (fld w 21 4) (fld w 14 5) (fld w 9 5) (fld w 4 5)) (mustBe (w / 0x80000 % 4) 3 3)
  else if fn = 6 then .row (.vfrmax (fld w 21 4) (fld w 14 5) (fld w 9 5) (fld w 4 5)) (mustBe (w / 0x80000 % 4) 3 3)
  else if fn = 7 then .row (.vqdx (fld w 21 4) (fld w 19 1) (fld w 14 5) (fld w 9 5) (fld w 4 5)) (rsv (w / 0x100000 % 2))
  else if fn = 8 then .row (.vdqdx (fld w 21 4) (fld w 19 1) (fld w 14 5) (fld w 9 5) (fld w 4 5)) (rsv (w / 0x100000 % 2))
  else .none 2

/-- Major 0x62 (R178). -/
def parse62 (w : Nat) : Parsed :=
  let fn := w / 0x1 % 16
  if fn = 0 then .row (.fadd (fld w 21 4) (fld w 14 5) (fld w 9 5) (fld w 4 5)) (rsv (w / 0x80000 % 4))
  else if fn = 1 then .row (.fsub (fld w 21 4) (fld w 14 5) (fld w 9 5) (fld w 4 5)) (rsv (w / 0x80000 % 4))
  else if fn = 2 then .row (.fmul (fld w 21 4) (fld w 14 5) (fld w 9 5) (fld w 4 5)) (rsv (w / 0x80000 % 4))
  else if fn = 3 then .row (.fmin (fld w 21 4) (fld w 14 5) (fld w 9 5) (fld w 4 5)) (rsv (w / 0x80000 % 4))
  else if fn = 4 then .row (.fmax (fld w 21 4) (fld w 14 5) (fld w 9 5) (fld w 4 5)) (rsv (w / 0x80000 % 4))
  else if fn = 5 then .row (.fcmp (fld w 21 4) (fld w 19 2) (fld w 14 5) (fld w 9 5) (fld w 4 5)) ([])
  else if fn = 6 then .row (.fcvtif (fld w 21 4) (fld w 14 5) (fld w 9 5)) (rsv (w / 0x10 % 32) ++ rsv (w / 0x80000 % 4))
  else if fn = 7 then .row (.fcvtfi (fld w 21 4) (fld w 14 5) (fld w 9 5)) (rsv (w / 0x10 % 32) ++ rsv (w / 0x80000 % 4))
  else .none 2

/-- Major 0x63 (R179). -/
def parse63 (w : Nat) : Parsed :=
  .row (.vthr (fld w 21 4) (fld w 16 5) (fld w 11 5) (fld w 6 5) (fld w 2 4)) (rsv (w / 0x1 % 4))

/-- Major 0x64 (R183). -/
def parse64 (w : Nat) : Parsed :=
  let fn := w / 0x80000 % 4
  if fn = 0 then .row (.vhist (fld w 21 4) (fld w 14 5) (fld w 9 5) (fld w 4 5) (fld w 0 4)) ([])
  else if fn = 1 then .row (.vxrep (fld w 21 4) (fld w 14 5) (fld w 9 5) (fld w 4 5) (fld w 0 4)) ([])
  else if fn = 2 then .row (.vgatew (fld w 21 4) (fld w 14 5) (fld w 9 5) (fld w 0 4)) (rsv (w / 0x10 % 32))
  else if fn = 3 then .row (.cqpush (fld w 21 4) (fld w 9 5) (fld w 0 4)) (rsv (w / 0x10 % 32) ++ rsv (w / 0x4000 % 32))
  else .none 2

/-- Major 0x65 (R185). -/
def parse65 (w : Nat) : Parsed :=
  let fn := w / 0x20000 % 16
  if fn = 0 then .row (.vtileRd (fld w 21 4) (fld w 12 5) (fld w 8 4) (fld w 3 5) (fld w 2 1)) (rsv (w / 0x1 % 4))
  else if fn = 1 then .row (.vtileWr (fld w 21 4) (fld w 12 5) (fld w 8 4) (fld w 3 5) (fld w 2 1)) (rsv (w / 0x1 % 4))
  else if fn = 2 then .row (.plog (fld w 21 4) (fld w 13 4) (fld w 9 4) (fld w 5 4) (fld w 3 2)) (rsv (w / 0x1 % 8))
  else if fn = 3 then .row (.pcnt (fld w 21 4) (fld w 12 5) (fld w 8 4)) (rsv (w / 0x1 % 256))
  else if fn = 4 then .row (.vtop (fld w 21 4) (fld w 13 4) (fld w 8 5)) (rsv (w / 0x1 % 256))
  else if fn = 5 then .row (.ptov (fld w 21 4) (fld w 12 5) (fld w 8 4)) (rsv (w / 0x1 % 256))
  else .none 2

/-- Major 0x66 (R259). -/
def parse66 (w : Nat) : Parsed :=
  if w / 0x20 % 2 = 0 then .row (.red (fld w 21 4) (fld w 16 5) (fld w 11 5) (fld w 7 4) (fld w 6 1) (fld w 3 2) (fld w 0 3)) ([])
  else if w / 0x80 % 16 = 9 then .row (.acas (fld w 21 4) (fld w 16 5) (fld w 11 5) (fld w 6 1) (fld w 3 2) (fld w 0 3)) ([])
  else .row (.atom (fld w 21 4) (fld w 16 5) (fld w 11 5) (fld w 7 4) (fld w 6 1) (fld w 3 2) (fld w 0 3)) ([])

/-- Major 0x67 (R263). -/
def parse67 (w : Nat) : Parsed :=
  let fn := w / 0x20000 % 16
  if fn = 0 then .row (.bara (fld w 21 4) (fld w 12 5) (fld w 7 5)) (rsv (w / 0x1 % 128))
  else if fn = 1 then .row (.barw (fld w 21 4) (fld w 12 5) (fld w 7 5) (fld w 2 5)) (rsv (w / 0x1 % 4))
  else if fn = 2 then .row (.carm (fld w 21 4) (fld w 12 5) (fld w 7 5) (fld w 2 5)) (rsv (w / 0x1 % 4))
  else if fn = 3 then .row (.carr (fld w 21 4) (fld w 7 5) (fld w 2 5)) (rsv (w / 0x1 % 4) ++ rsv (w / 0x1000 % 32))
  else if fn = 4 then .row (.cwait (fld w 21 4) (fld w 12 5) (fld w 7 5) (fld w 2 5)) (rsv (w / 0x1 % 4))
  else if fn = 5 then .row (.semp (fld w 21 4) (fld w 12 5) (fld w 7 5)) (rsv (w / 0x1 % 128))
  else if fn = 6 then .row (.semv (fld w 21 4) (fld w 7 5) (fld w 2 5)) (rsv (w / 0x1 % 4) ++ rsv (w / 0x1000 % 32))
  else if fn = 7 then .row (.waitc (fld w 21 4) (fld w 12 5) (fld w 7 5) (fld w 2 5)) (rsv (w / 0x1 % 4))
  else if fn = 8 then .row (.signal (fld w 21 4) (fld w 7 5) (fld w 2 5)) (rsv (w / 0x1 % 4) ++ rsv (w / 0x1000 % 32))
  else .none 2

/-- Major 0x68 (R277). -/
def parse68 (w : Nat) : Parsed :=
  let fn := w / 0x10 % 2
  if fn = 0 then .row (.st (fld w 21 4) (fld w 16 5) (fld w 13 3) (fld w 8 5) (fld w 6 2)) (rsv (w / 0x1 % 16) ++ rsv (w / 0x20 % 2))
  else if fn = 1 then .row (.stRel (fld w 21 4) (fld w 16 5) (fld w 13 3) (fld w 8 5) (fld w 6 2) (fld w 0 3)) (rsv (w / 0x8 % 2) ++ rsv (w / 0x20 % 2))
  else .none 2

/-- Major 0x69 (R279). -/
def parse69 (w : Nat) : Parsed :=
  let fn := w / 0x80000 % 4
  if fn = 0 then .row (.stv (fld w 21 4) (fld w 18 1) (fld w 13 3) (fld w 8 5)) (rsv (w / 0x1 % 256) ++ rsv (w / 0x10000 % 4))
  else if fn = 1 then .row (.stvs (fld w 21 4) (fld w 18 1) (fld w 16 2) (fld w 13 3) (fld w 8 5) (fld w 3 5)) (rsv (w / 0x1 % 8))
  else if fn = 2 then .row (.stvx (fld w 21 4) (fld w 18 1) (fld w 16 2) (fld w 13 3) (fld w 8 5) (fld w 3 5)) (rsv (w / 0x1 % 8))
  else .none 2

/-- Major 0x6A (R281). -/
def parse6A (w : Nat) : Parsed :=
  let fn := w / 0x80000 % 4
  if fn = 0 then .row (.stp (fld w 21 4) (fld w 14 5) (fld w 9 5) (fld w 7 2)) (rsv (w / 0x1 % 128))
  else if fn = 1 then .row (.stpv (fld w 21 4) (fld w 18 1) (fld w 16 2) (fld w 15 1) (fld w 10 5)) (rsv (w / 0x1 % 1024))
  else if fn = 2 then .row (.dbind (fld w 21 4) (fld w 18 1) (fld w 13 5)) (rsv (w / 0x1 % 8192))
  else if fn = 3 then .row (.dunbind (fld w 21 4) (fld w 18 1)) (rsv (w / 0x1 % 262144))
  else .none 2

/-- Major 0x6B (R292). -/
def parse6B (w : Nat) : Parsed :=
  let fn := w / 0x100000 % 2
  if fn = 0 then .row (.drain (fld w 21 4) (fld w 16 4) (fld w 11 5) (fld w 6 5) (fld w 1 5)) (rsv (w / 0x1 % 2))
  else if fn = 1 then .row (.claim (fld w 21 4) (fld w 15 5) (fld w 10 5) (fld w 5 5)) (rsv (w / 0x1 % 32))
  else .none 2

/-- Major 0x6C (R323). -/
def parse6C (w : Nat) : Parsed :=
  let fn := w / 0x80000 % 4
  if fn = 0 then .row (.spawn (fld w 21 4) (fld w 14 5) (fld w 9 5) (fld w 4 5)) (rsv (w / 0x1 % 16))
  else if fn = 1 then .row (.endt (fld w 21 4)) (rsv (w / 0x1 % 524288))
  else if fn = 2 then .row (.join (fld w 21 4) (fld w 14 5)) (rsv (w / 0x1 % 16384))
  else if fn = 3 then .row (.check (fld w 21 4) (fld w 14 5)) (rsv (w / 0x1 % 16384))
  else .none 2

/-- Major 0x6D (R329). -/
def parse6D (w : Nat) : Parsed :=
  let fn := w / 0x80000 % 4
  if fn = 0 then .row (.launch (fld w 21 4) (fld w 14 5) (fld w 9 5) (fld w 4 5)) (rsv (w / 0x1 % 16))
  else if fn = 1 then .row (.jcancel (fld w 21 4) (fld w 14 5) (fld w 9 5)) (rsv (w / 0x1 % 512))
  else if fn = 2 then .row (.tinfo (fld w 21 4) (fld w 14 5) (fld w 9 5)) (rsv (w / 0x1 % 512))
  else if fn = 3 then .row (.rqset (fld w 21 4) (fld w 14 5) (fld w 9 5) (fld w 4 5)) (rsv (w / 0x1 % 16))
  else .none 2

/-- Major 0x6E (R356). -/
def parse6E (w : Nat) : Parsed :=
  let fn := w / 0x40000 % 8
  if fn = 0 then .row (.rinj (fld w 13 5) (fld w 8 5) (fld w 3 5)) (mustBe (w / 0x200000 % 16) 0 5 ++ rsv (w / 0x1 % 8))
  else if fn = 1 then .row (.rdrop (fld w 13 5) (fld w 8 5)) (mustBe (w / 0x200000 % 16) 0 5 ++ rsv (w / 0x1 % 256))
  else if fn = 2 then .row (.rkeep (fld w 13 5) (fld w 8 5) (fld w 3 5)) (mustBe (w / 0x200000 % 16) 0 5 ++ rsv (w / 0x1 % 8))
  else if fn = 3 then .row (.rfwd (fld w 13 5) (fld w 8 5)) (mustBe (w / 0x200000 % 16) 0 5 ++ rsv (w / 0x1 % 256))
  else .none 2

/-- Major 0x6F (R359). -/
def parse6F (w : Nat) : Parsed :=
  let fn := w / 0x40000 % 8
  if fn = 0 then .row (.rhold (fld w 13 5) (fld w 8 5)) (mustBe (w / 0x200000 % 16) 0 5 ++ rsv (w / 0x1 % 256))
  else if fn = 1 then .row (.rtag (fld w 13 5) (fld w 8 5) (fld w 3 5)) (mustBe (w / 0x200000 % 16) 0 5 ++ rsv (w / 0x1 % 8))
  else .none 2

/-- Major 0x70 (R361). -/
def parse70 (w : Nat) : Parsed :=
  let fn := w / 0x40000 % 8
  if fn = 0 then .row (.rpar (fld w 13 5) (fld w 8 5) (fld w 3 5)) (mustBe (w / 0x200000 % 16) 0 5 ++ rsv (w / 0x1 % 8))
  else .none 2

/-- Major 0x71 (R362). -/
def parse71 (w : Nat) : Parsed :=
  let fn := w / 0x40000 % 8
  if fn = 0 then .row (.rbyp (fld w 13 5) (fld w 8 5)) (mustBe (w / 0x200000 % 16) 0 5 ++ rsv (w / 0x1 % 256))
  else if fn = 1 then .row (.rstat (fld w 13 5) (fld w 8 5)) (mustBe (w / 0x200000 % 16) 0 5 ++ rsv (w / 0x1 % 256))
  else .none 2

/-- Major 0x72 (R402). -/
def parse72 (w : Nat) : Parsed :=
  let fn := w / 0x80000 % 4
  if fn = 0 then .row (.fxfill (fld w 21 4) (fld w 14 5) (fld w 9 5) (fld w 4 5)) (rsv (w / 0x1 % 16))
  else if fn = 1 then .row (.fkey (fld w 21 4) (fld w 14 5) (fld w 9 5)) (rsv (w / 0x1 % 512))
  else if fn = 2 then .row (.flane (fld w 21 4) (fld w 14 5) (fld w 9 5) (fld w 4 5)) (rsv (w / 0x1 % 16))
  else .none 2

/-- A word with its major opcode looked up (R71, R72). `follow` is the word after it, which only CPYM takes. -/
def parse (w : Nat) (follow : BitVec 32) : Parsed :=
  match w / 0x2000000 % 128 with
  | 0x00 => parse00 w
  | 0x01 => parse01 w
  | 0x02 => parse02 w
  | 0x03 => parse03 w
  | 0x04 => parse04 w
  | 0x05 => parse05 w
  | 0x06 => parse06 w
  | 0x07 => parse07 w
  | 0x10 => parse10 w
  | 0x11 => parse11 w
  | 0x12 => parse12 w
  | 0x13 => parse13 w
  | 0x14 => parse14 w
  | 0x15 => parse15 w
  | 0x16 => parse16 w
  | 0x17 => parse17 w
  | 0x18 => parse18 w
  | 0x19 => parse19 w
  | 0x1A => parse1A w
  | 0x1B => parse1B w
  | 0x20 => parse20 w
  | 0x21 => parse21 w
  | 0x22 => parse22 w
  | 0x24 => parse24 w
  | 0x25 => parse25 w
  | 0x26 => parse26 w
  | 0x28 => parse28 w
  | 0x29 => parse29 w
  | 0x30 => parse30 w
  | 0x31 => parse31 w
  | 0x32 => parse32 w
  | 0x33 => parse33 w
  | 0x34 => parse34 w
  | 0x40 => parse40 w
  | 0x41 => parse41 w
  | 0x42 => parse42 w
  | 0x43 => parse43 w
  | 0x44 => parse44 w
  | 0x45 => parse45 w
  | 0x46 => parse46 w
  | 0x47 => parse47 w
  | 0x48 => parse48 w follow
  | 0x49 => parse49 w
  | 0x4A => parse4A w
  | 0x4B => parse4B w
  | 0x4C => parse4C w
  | 0x4D => parse4D w
  | 0x4E => parse4E w
  | 0x4F => parse4F w
  | 0x50 => parse50 w
  | 0x51 => parse51 w
  | 0x52 => parse52 w
  | 0x53 => parse53 w
  | 0x54 => parse54 w
  | 0x55 => parse55 w
  | 0x56 => parse56 w
  | 0x57 => parse57 w
  | 0x58 => parse58 w
  | 0x59 => parse59 w
  | 0x5A => parse5A w
  | 0x5B => parse5B w
  | 0x5C => parse5C w
  | 0x5D => parse5D w
  | 0x5E => parse5E w
  | 0x5F => parse5F w
  | 0x60 => parse60 w
  | 0x61 => parse61 w
  | 0x62 => parse62 w
  | 0x63 => parse63 w
  | 0x64 => parse64 w
  | 0x65 => parse65 w
  | 0x66 => parse66 w
  | 0x67 => parse67 w
  | 0x68 => parse68 w
  | 0x69 => parse69 w
  | 0x6A => parse6A w
  | 0x6B => parse6B w
  | 0x6C => parse6C w
  | 0x6D => parse6D w
  | 0x6E => parse6E w
  | 0x6F => parse6F w
  | 0x70 => parse70 w
  | 0x71 => parse71 w
  | 0x72 => parse72 w
  | _ => .none 1

/-- The outcome of decoding a word. -/
inductive Decoded where
  /-- an instruction and the number of its words -/
  | ok (i : Instr) (words : Nat)
  /-- an illegal instruction: the word TRAPINFO[31:0] holds, the reason (R73), and the number of words a stream that does
  not execute it passes by: two for a CPYM copy word, whose pair is one instruction (R70, log 22) -/
  | illegal (word : BitVec 32) (reason words : Nat)
  /-- a CPYM copy word whose follow-on lies outside the text (R70) -/
  | noFollow
  deriving DecidableEq, Repr

/-- Every reason that applies to a word where it stands, its follow-on left out (R73). -/
def wordReasons (x : Executor) (p : Parsed) : List Nat :=
  match p with
  | .none r => [r]
  | .row i rs => rs ++ i.reasonsIn x

/-- The lowest reason found in a CPYM follow-on word: 11 if it is no word of the matrix block, 3 if its token bits are
not zero, else its own (R70, R195). -/
def followReason (follow : BitVec 32) : Option Nat :=
  let major := follow.toNat / 0x2000000
  if 0x4C ≤ major && major ≤ 0x4F then
    lowestReason (Legal.bad (follow.toNat / 0x200000 % 16 != 0) 3
      ++ wordReasons (.polder true) (parse follow.toNat 0))
  else some 11

/-- Decode the word `w`; `follow` is the word after it, absent where that lies outside the text (R70, R73). -/
def decode (x : Executor) (w : BitVec 32) (follow : Option (BitVec 32)) : Decoded :=
  let p := parse w.toNat (follow.getD 0)
  let own := lowestReason (wordReasons x p)
  match p, own with
  | .row (.cpym tok scol sc rd ra rb f) _, own =>
    match own, follow with
    | some r, none => .illegal w r 2
    | none, none => .noFollow
    | own, some fw =>
      match own, followReason fw with
      | none, none => .ok (.cpym tok scol sc rd ra rb f) 2
      | some r, none => .illegal w r 2
      | none, some q => .illegal fw q 2
      | some r, some q => if r ≤ q then .illegal w r 2 else .illegal fw q 2
  | .row i _, none => .ok i 1
  | _, some r => .illegal w r 1
  | .none r, none => .illegal w r 1

/-- A little-endian word of four bytes (R4). -/
def word32 (b0 b1 b2 b3 : BitVec 8) : BitVec 32 := b3 ++ b2 ++ b1 ++ b0

/-- Decode the instruction at the front of a list of bytes, and the bytes that follow it: total on any bytes. Fewer
than four bytes hold no word. -/
def decodeBytes (x : Executor) : List (BitVec 8) → Option (Decoded × List (BitVec 8))
  | b0 :: b1 :: b2 :: b3 :: rest =>
    let w := word32 b0 b1 b2 b3
    let follow := match rest with
      | c0 :: c1 :: c2 :: c3 :: _ => some (word32 c0 c1 c2 c3)
      | _ => none
    let r := decode x w follow
    match r with
    | .ok _ 2 => some (r, rest.drop 4)
    | _ => some (r, rest)
  | _ => none

/-- The bytes of a word, lowest address first (R4). -/
def bytes32 (w : BitVec 32) : List (BitVec 8) :=
  [w.setWidth 8, (w >>> 8).setWidth 8, (w >>> 16).setWidth 8, (w >>> 24).setWidth 8]

/-- The instruction read from the bits `w` of an instruction of the opcode table, its words lowest address first: as a
system strand decodes it, or else as a rotation program does. -/
def decodeTableWord (nbits w : Nat) : Option Instr :=
  if nbits % 8 ≠ 0 then none
  else
    let bs := bytes32 (BitVec.ofNat 32 w) ++ bytes32 (BitVec.ofNat 32 (w / 0x100000000))
    match decodeBytes (.polder true) bs with
    | some (.ok i _, _) => some i
    | _ =>
      match decodeBytes .rotation bs with
      | some (.ok i _, _) => some i
      | _ => none

/-- The words of an instruction, from the encoding tables. An event is no word and has none. -/
def encode : Instr → List (BitVec 32)
  | .add sf rd ra rb => [BitVec.ofNat 32 (0x00000000 + sf.toNat * 0x800000 + rd.toNat * 0x40000 + ra.toNat * 0x2000 + rb.toNat * 0x100)]
  | .sub sf rd ra rb => [BitVec.ofNat 32 (0x00000001 + sf.toNat * 0x800000 + rd.toNat * 0x40000 + ra.toNat * 0x2000 + rb.toNat * 0x100)]
  | .and sf rd ra rb => [BitVec.ofNat 32 (0x00000002 + sf.toNat * 0x800000 + rd.toNat * 0x40000 + ra.toNat * 0x2000 + rb.toNat * 0x100)]
  | .or sf rd ra rb => [BitVec.ofNat 32 (0x00000003 + sf.toNat * 0x800000 + rd.toNat * 0x40000 + ra.toNat * 0x2000 + rb.toNat * 0x100)]
  | .xor sf rd ra rb => [BitVec.ofNat 32 (0x00000004 + sf.toNat * 0x800000 + rd.toNat * 0x40000 + ra.toNat * 0x2000 + rb.toNat * 0x100)]
  | .sll sf rd ra rb => [BitVec.ofNat 32 (0x00000005 + sf.toNat * 0x800000 + rd.toNat * 0x40000 + ra.toNat * 0x2000 + rb.toNat * 0x100)]
  | .srl sf rd ra rb => [BitVec.ofNat 32 (0x00000006 + sf.toNat * 0x800000 + rd.toNat * 0x40000 + ra.toNat * 0x2000 + rb.toNat * 0x100)]
  | .sra sf rd ra rb => [BitVec.ofNat 32 (0x00000007 + sf.toNat * 0x800000 + rd.toNat * 0x40000 + ra.toNat * 0x2000 + rb.toNat * 0x100)]
  | .mul sf rd ra rb => [BitVec.ofNat 32 (0x00000008 + sf.toNat * 0x800000 + rd.toNat * 0x40000 + ra.toNat * 0x2000 + rb.toNat * 0x100)]
  | .mulhu sf rd ra rb => [BitVec.ofNat 32 (0x00000009 + sf.toNat * 0x800000 + rd.toNat * 0x40000 + ra.toNat * 0x2000 + rb.toNat * 0x100)]
  | .mulh sf rd ra rb => [BitVec.ofNat 32 (0x0000000A + sf.toNat * 0x800000 + rd.toNat * 0x40000 + ra.toNat * 0x2000 + rb.toNat * 0x100)]
  | .slt sf rd ra rb => [BitVec.ofNat 32 (0x0000000B + sf.toNat * 0x800000 + rd.toNat * 0x40000 + ra.toNat * 0x2000 + rb.toNat * 0x100)]
  | .sltu sf rd ra rb => [BitVec.ofNat 32 (0x0000000C + sf.toNat * 0x800000 + rd.toNat * 0x40000 + ra.toNat * 0x2000 + rb.toNat * 0x100)]
  | .min sf rd ra rb => [BitVec.ofNat 32 (0x0000000D + sf.toNat * 0x800000 + rd.toNat * 0x40000 + ra.toNat * 0x2000 + rb.toNat * 0x100)]
  | .max sf rd ra rb => [BitVec.ofNat 32 (0x0000000E + sf.toNat * 0x800000 + rd.toNat * 0x40000 + ra.toNat * 0x2000 + rb.toNat * 0x100)]
  | .minu sf rd ra rb => [BitVec.ofNat 32 (0x0000000F + sf.toNat * 0x800000 + rd.toNat * 0x40000 + ra.toNat * 0x2000 + rb.toNat * 0x100)]
  | .maxu sf rd ra rb => [BitVec.ofNat 32 (0x00000010 + sf.toNat * 0x800000 + rd.toNat * 0x40000 + ra.toNat * 0x2000 + rb.toNat * 0x100)]
  | .addi sf rd ra imm => [BitVec.ofNat 32 (0x02000000 + sf.toNat * 0x800000 + rd.toNat * 0x40000 + ra.toNat * 0x2000 + imm.toNat)]
  | .slti sf rd ra imm => [BitVec.ofNat 32 (0x04000000 + sf.toNat * 0x800000 + rd.toNat * 0x40000 + ra.toNat * 0x2000 + imm.toNat)]
  | .andi sf rd ra imm => [BitVec.ofNat 32 (0x06000000 + sf.toNat * 0x800000 + rd.toNat * 0x40000 + ra.toNat * 0x2000 + imm.toNat)]
  | .ori sf rd ra imm => [BitVec.ofNat 32 (0x08000000 + sf.toNat * 0x800000 + rd.toNat * 0x40000 + ra.toNat * 0x2000 + imm.toNat)]
  | .xori sf rd ra imm => [BitVec.ofNat 32 (0x0A000000 + sf.toNat * 0x800000 + rd.toNat * 0x40000 + ra.toNat * 0x2000 + imm.toNat)]
  | .slli sf rd ra sh => [BitVec.ofNat 32 (0x0C000000 + sf.toNat * 0x800000 + rd.toNat * 0x40000 + ra.toNat * 0x2000 + sh.toNat)]
  | .srli sf rd ra sh => [BitVec.ofNat 32 (0x0C000040 + sf.toNat * 0x800000 + rd.toNat * 0x40000 + ra.toNat * 0x2000 + sh.toNat)]
  | .srai sf rd ra sh => [BitVec.ofNat 32 (0x0C000080 + sf.toNat * 0x800000 + rd.toNat * 0x40000 + ra.toNat * 0x2000 + sh.toNat)]
  | .lui sf rd imm => [BitVec.ofNat 32 (0x0E000000 + sf.toNat * 0x800000 + rd.toNat * 0x40000 + imm.toNat)]
  | .beq ev offHi ra rb offLo => [BitVec.ofNat 32 (0x20000000 + ev.toNat * 0x800000 + offHi.toNat * 0x40000 + ra.toNat * 0x2000 + rb.toNat * 0x100 + offLo.toNat)]
  | .bne ev offHi ra rb offLo => [BitVec.ofNat 32 (0x22000000 + ev.toNat * 0x800000 + offHi.toNat * 0x40000 + ra.toNat * 0x2000 + rb.toNat * 0x100 + offLo.toNat)]
  | .blt ev offHi ra rb offLo => [BitVec.ofNat 32 (0x24000000 + ev.toNat * 0x800000 + offHi.toNat * 0x40000 + ra.toNat * 0x2000 + rb.toNat * 0x100 + offLo.toNat)]
  | .bge ev offHi ra rb offLo => [BitVec.ofNat 32 (0x26000000 + ev.toNat * 0x800000 + offHi.toNat * 0x40000 + ra.toNat * 0x2000 + rb.toNat * 0x100 + offLo.toNat)]
  | .bltu ev offHi ra rb offLo => [BitVec.ofNat 32 (0x28000000 + ev.toNat * 0x800000 + offHi.toNat * 0x40000 + ra.toNat * 0x2000 + rb.toNat * 0x100 + offLo.toNat)]
  | .bgeu ev offHi ra rb offLo => [BitVec.ofNat 32 (0x2A000000 + ev.toNat * 0x800000 + offHi.toNat * 0x40000 + ra.toNat * 0x2000 + rb.toNat * 0x100 + offLo.toNat)]
  | .bpany offHi pn offLo => [BitVec.ofNat 32 (0x2D000000 + offHi.toNat * 0x40000 + pn.toNat * 0x2000 + offLo.toNat)]
  | .bpnone offHi pn offLo => [BitVec.ofNat 32 (0x2F000000 + offHi.toNat * 0x40000 + pn.toNat * 0x2000 + offLo.toNat)]
  | .j off => [BitVec.ofNat 32 (0x30000000 + off.toNat)]
  | .jal rd off => [BitVec.ofNat 32 (0x32000000 + rd.toNat * 0x40000 + off.toNat)]
  | .jr ev ra => [BitVec.ofNat 32 (0x34000000 + ev.toNat * 0x800000 + ra.toNat * 0x2000)]
  | .jalr ev rd ra => [BitVec.ofNat 32 (0x36000000 + ev.toNat * 0x800000 + rd.toNat * 0x40000 + ra.toNat * 0x2000)]
  | .loopi count body => [BitVec.ofNat 32 (0x40000000 + count.toNat * 0x100 + body.toNat)]
  | .loopr ev ra body => [BitVec.ofNat 32 (0x42000000 + ev.toNat * 0x800000 + ra.toNat * 0x2000 + body.toNat)]
  | .loopq body => [BitVec.ofNat 32 (0x44000000 + body.toNat)]
  | .tagw sf rd ra => [BitVec.ofNat 32 (0x48000000 + sf.toNat * 0x800000 + rd.toNat * 0x40000 + ra.toNat * 0x2000)]
  | .tok sf tk => [BitVec.ofNat 32 (0x4A000000 + sf.toNat * 0x800000 + tk.toNat)]
  | .fenceX scope p1 p2 => [BitVec.ofNat 32 (0x4C000000 + scope.toNat * 0x100000 + p1.toNat * 0x100 + p2.toNat)]
  | .push sf reg cls => [BitVec.ofNat 32 (0x50000000 + sf.toNat * 0x800000 + reg.toNat * 0x2000 + cls.toNat * 0x800)]
  | .pop sf reg cls => [BitVec.ofNat 32 (0x52000000 + sf.toNat * 0x800000 + reg.toNat * 0x2000 + cls.toNat * 0x800)]
  | .trap sf imm => [BitVec.ofNat 32 (0x60000000 + sf.toNat * 0x800000 + imm.toNat)]
  | .eret => [BitVec.ofNat 32 (0x62000000)]
  | .sysr sf rd num => [BitVec.ofNat 32 (0x64000000 + sf.toNat * 0x800000 + rd.toNat * 0x40000 + num.toNat)]
  | .sysw sf ra num => [BitVec.ofNat 32 (0x66000000 + sf.toNat * 0x800000 + ra.toNat * 0x2000 + num.toNat)]
  | .exit => [BitVec.ofNat 32 (0x68000000)]
  | .ld tk rd h ra size u stf => [BitVec.ofNat 32 (0x80000000 + tk.toNat * 0x200000 + rd.toNat * 0x10000 + h.toNat * 0x2000 + ra.toNat * 0x100 + size.toNat * 0x40 + u.toNat * 0x20 + stf.toNat * 0x8)]
  | .ldAcq tk rd h ra size u stf scope => [BitVec.ofNat 32 (0x80000010 + tk.toNat * 0x200000 + rd.toNat * 0x10000 + h.toNat * 0x2000 + ra.toNat * 0x100 + size.toNat * 0x40 + u.toNat * 0x20 + stf.toNat * 0x8 + scope.toNat)]
  | .ldv tk q width h ra statp => [BitVec.ofNat 32 (0x82000000 + tk.toNat * 0x200000 + q.toNat * 0x100000 + width.toNat * 0x40000 + h.toNat * 0x8000 + ra.toNat * 0x400 + statp.toNat)]
  | .ldvAcq tk q width h ra scope statp => [BitVec.ofNat 32 (0x82000200 + tk.toNat * 0x200000 + q.toNat * 0x100000 + width.toNat * 0x40000 + h.toNat * 0x8000 + ra.toNat * 0x400 + scope.toNat * 0x40 + statp.toNat)]
  | .ldvs tk q width h ra rb statp => [BitVec.ofNat 32 (0x84000000 + tk.toNat * 0x200000 + q.toNat * 0x100000 + width.toNat * 0x40000 + h.toNat * 0x8000 + ra.toNat * 0x400 + rb.toNat * 0x20 + statp.toNat)]
  | .ldvg tk q width h ra rb statp => [BitVec.ofNat 32 (0x86000000 + tk.toNat * 0x200000 + q.toNat * 0x100000 + width.toNat * 0x40000 + h.toNat * 0x8000 + ra.toNat * 0x400 + rb.toNat * 0x20 + statp.toNat)]
  | .ldp tk rd ra size u => [BitVec.ofNat 32 (0x88000000 + tk.toNat * 0x200000 + rd.toNat * 0x4000 + ra.toNat * 0x200 + size.toNat * 0x80 + u.toNat * 0x40)]
  | .ldpv tk q width orient ra => [BitVec.ofNat 32 (0x88080000 + tk.toNat * 0x200000 + q.toNat * 0x40000 + width.toNat * 0x10000 + orient.toNat * 0x8000 + ra.toNat * 0x400)]
  | .ldpvg tk q width ra rb => [BitVec.ofNat 32 (0x88100000 + tk.toNat * 0x200000 + q.toNat * 0x40000 + width.toNat * 0x10000 + ra.toNat * 0x400 + rb.toNat * 0x20)]
  | .xlate tk rd hn ra => [BitVec.ofNat 32 (0x8A000000 + tk.toNat * 0x200000 + rd.toNat * 0x4000 + hn.toNat * 0x400 + ra.toNat * 0x20)]
  | .htest tk rd hn => [BitVec.ofNat 32 (0x8A080000 + tk.toNat * 0x200000 + rd.toNat * 0x4000 + hn.toNat * 0x400)]
  | .hrel tk hn => [BitVec.ofNat 32 (0x8A100000 + tk.toNat * 0x200000 + hn.toNat * 0x400)]
  | .hmov tk hn hm => [BitVec.ofNat 32 (0x8A180000 + tk.toNat * 0x200000 + hn.toNat * 0x400 + hm.toNat * 0x40)]
  | .preq tk rd ra => [BitVec.ofNat 32 (0x8C000000 + tk.toNat * 0x200000 + rd.toNat * 0x4000 + ra.toNat * 0x200)]
  | .pref tk h ra len => [BitVec.ofNat 32 (0x8C080000 + tk.toNat * 0x200000 + h.toNat * 0x10000 + ra.toNat * 0x800 + len.toNat * 0x200)]
  | .scbq tk rd ra rb space => [BitVec.ofNat 32 (0x8C100000 + tk.toNat * 0x200000 + rd.toNat * 0x4000 + ra.toNat * 0x200 + rb.toNat * 0x10 + space.toNat * 0x8)]
  | .scbwait tk ra => [BitVec.ofNat 32 (0x8C180000 + tk.toNat * 0x200000 + ra.toNat * 0x200)]
  | .sbind tk q ra => [BitVec.ofNat 32 (0x8E000000 + tk.toNat * 0x200000 + q.toNat * 0x20000 + ra.toNat * 0x1000)]
  | .sunbind tk q => [BitVec.ofNat 32 (0x8E040000 + tk.toNat * 0x200000 + q.toNat * 0x20000)]
  | .sbget tk q rd => [BitVec.ofNat 32 (0x8E080000 + tk.toNat * 0x200000 + q.toNat * 0x20000 + rd.toNat * 0x1000)]
  | .sbadv tk q ra => [BitVec.ofNat 32 (0x8E0C0000 + tk.toNat * 0x200000 + q.toNat * 0x20000 + ra.toNat * 0x1000)]
  | .sbwait tk q => [BitVec.ofNat 32 (0x8E100000 + tk.toNat * 0x200000 + q.toNat * 0x20000)]
  | .cpy tk scol sc rd ra rb => [BitVec.ofNat 32 (0x90000000 + tk.toNat * 0x200000 + scol.toNat * 0x80000 + sc.toNat * 0x20000 + rd.toNat * 0x1000 + ra.toNat * 0x80 + rb.toNat * 0x4)]
  | .cpym tk scol sc rd ra rb follow => [BitVec.ofNat 32 (0x90100000 + tk.toNat * 0x200000 + scol.toNat * 0x80000 + sc.toNat * 0x20000 + rd.toNat * 0x1000 + ra.toNat * 0x80 + rb.toNat * 0x4), follow]
  | .cpyr tk scol ring ra rb => [BitVec.ofNat 32 (0x92000000 + tk.toNat * 0x200000 + scol.toNat * 0x80000 + ring.toNat * 0x10000 + ra.toNat * 0x40 + rb.toNat * 0x2)]
  | .cpyrAt tk scol ring rp ra rb => [BitVec.ofNat 32 (0x92100000 + tk.toNat * 0x200000 + scol.toNat * 0x80000 + ring.toNat * 0x10000 + rp.toNat * 0x800 + ra.toNat * 0x40 + rb.toNat * 0x2)]
  | .cpyg tk rd ra rb => [BitVec.ofNat 32 (0x94000000 + tk.toNat * 0x200000 + rd.toNat * 0x4000 + ra.toNat * 0x200 + rb.toNat * 0x10)]
  | .cpymeta tk rd ra rb => [BitVec.ofNat 32 (0x94080000 + tk.toNat * 0x200000 + rd.toNat * 0x4000 + ra.toNat * 0x200 + rb.toNat * 0x10)]
  | .cpyq tk ra rb => [BitVec.ofNat 32 (0x94100000 + tk.toNat * 0x200000 + ra.toNat * 0x200 + rb.toNat * 0x10)]
  | .cmerge tk op rd ra rb => [BitVec.ofNat 32 (0x94180000 + tk.toNat * 0x200000 + op.toNat * 0x8000 + rd.toNat * 0x400 + ra.toNat * 0x20 + rb.toNat)]
  | .bfmt tk bank code => [BitVec.ofNat 32 (0x96000000 + tk.toNat * 0x200000 + bank.toNat * 0x1000 + code.toNat * 0x10)]
  | .ccancel tk rd ra => [BitVec.ofNat 32 (0x96080000 + tk.toNat * 0x200000 + rd.toNat * 0x4000 + ra.toNat * 0x200)]
  | .cstat tk rd ra => [BitVec.ofNat 32 (0x96100000 + tk.toNat * 0x200000 + rd.toNat * 0x4000 + ra.toNat * 0x200)]
  | .mma tk u fill td ringA ringB oa ob ms ks => [BitVec.ofNat 32 (0x98000000 + tk.toNat * 0x200000 + u.toNat * 0x100000 + fill.toNat * 0x80000 + td.toNat * 0x8000 + ringA.toNat * 0x1000 + ringB.toNat * 0x200 + oa.toNat * 0x100 + ob.toNat * 0x80 + ms.toNat * 0x20 + ks.toNat)]
  | .mmas tk u fill td ringA ringB oa ob ms ks => [BitVec.ofNat 32 (0x9A000000 + tk.toNat * 0x200000 + u.toNat * 0x100000 + fill.toNat * 0x80000 + td.toNat * 0x8000 + ringA.toNat * 0x1000 + ringB.toNat * 0x200 + oa.toNat * 0x100 + ob.toNat * 0x80 + ms.toNat * 0x20 + ks.toNat)]
  | .mmag tk u fill td ringB ob ms ks => [BitVec.ofNat 32 (0x9C000000 + tk.toNat * 0x200000 + u.toNat * 0x100000 + fill.toNat * 0x80000 + td.toNat * 0x8000 + ringB.toNat * 0x200 + ob.toNat * 0x80 + ms.toNat * 0x20 + ks.toNat)]
  | .mctlZero tk u tile fill => [BitVec.ofNat 32 (0x9E000000 + tk.toNat * 0x200000 + u.toNat * 0x100000 + tile.toNat * 0x2000 + fill.toNat * 0x1000)]
  | .mctlMode tk u ms sa sb => [BitVec.ofNat 32 (0x9E020000 + tk.toNat * 0x200000 + u.toNat * 0x100000 + ms.toNat * 0x8000 + sa.toNat * 0x400 + sb.toNat * 0x20)]
  | .mctlRing tk u ring sa => [BitVec.ofNat 32 (0x9E040000 + tk.toNat * 0x200000 + u.toNat * 0x100000 + ring.toNat * 0x4000 + sa.toNat * 0x200)]
  | .mctlPop tk u ring sa => [BitVec.ofNat 32 (0x9E060000 + tk.toNat * 0x200000 + u.toNat * 0x100000 + ring.toNat * 0x4000 + sa.toNat * 0x200)]
  | .mctlWait tk rd => [BitVec.ofNat 32 (0x9E080000 + tk.toNat * 0x200000 + rd.toNat * 0x1000)]
  | .vadd tk width vd va vb pred => [BitVec.ofNat 32 (0xA0000000 + tk.toNat * 0x200000 + width.toNat * 0x80000 + vd.toNat * 0x4000 + va.toNat * 0x200 + vb.toNat * 0x10 + pred.toNat)]
  | .vsub tk width vd va vb pred => [BitVec.ofNat 32 (0xA2000000 + tk.toNat * 0x200000 + width.toNat * 0x80000 + vd.toNat * 0x4000 + va.toNat * 0x200 + vb.toNat * 0x10 + pred.toNat)]
  | .vmul tk width vd va vb pred => [BitVec.ofNat 32 (0xA4000000 + tk.toNat * 0x200000 + width.toNat * 0x80000 + vd.toNat * 0x4000 + va.toNat * 0x200 + vb.toNat * 0x10 + pred.toNat)]
  | .vand tk width vd va vb pred => [BitVec.ofNat 32 (0xA6000000 + tk.toNat * 0x200000 + width.toNat * 0x80000 + vd.toNat * 0x4000 + va.toNat * 0x200 + vb.toNat * 0x10 + pred.toNat)]
  | .vor tk width vd va vb pred => [BitVec.ofNat 32 (0xA8000000 + tk.toNat * 0x200000 + width.toNat * 0x80000 + vd.toNat * 0x4000 + va.toNat * 0x200 + vb.toNat * 0x10 + pred.toNat)]
  | .vxor tk width vd va vb pred => [BitVec.ofNat 32 (0xAA000000 + tk.toNat * 0x200000 + width.toNat * 0x80000 + vd.toNat * 0x4000 + va.toNat * 0x200 + vb.toNat * 0x10 + pred.toNat)]
  | .vfnsb tk width vd va vb pred => [BitVec.ofNat 32 (0xAC000000 + tk.toNat * 0x200000 + width.toNat * 0x80000 + vd.toNat * 0x4000 + va.toNat * 0x200 + vb.toNat * 0x10 + pred.toNat)]
  | .vslli tk width vd va sh => [BitVec.ofNat 32 (0xAE000000 + tk.toNat * 0x200000 + width.toNat * 0x80000 + vd.toNat * 0x4000 + va.toNat * 0x200 + sh.toNat * 0x8)]
  | .vsrli tk width vd va sh => [BitVec.ofNat 32 (0xAE000002 + tk.toNat * 0x200000 + width.toNat * 0x80000 + vd.toNat * 0x4000 + va.toNat * 0x200 + sh.toNat * 0x8)]
  | .vsrai tk width vd va sh => [BitVec.ofNat 32 (0xAE000004 + tk.toNat * 0x200000 + width.toNat * 0x80000 + vd.toNat * 0x4000 + va.toNat * 0x200 + sh.toNat * 0x8)]
  | .vfadd tk ftype vd va vb pred => [BitVec.ofNat 32 (0xB0000000 + tk.toNat * 0x200000 + ftype.toNat * 0x80000 + vd.toNat * 0x4000 + va.toNat * 0x200 + vb.toNat * 0x10 + pred.toNat)]
  | .vfsub tk ftype vd va vb pred => [BitVec.ofNat 32 (0xB2000000 + tk.toNat * 0x200000 + ftype.toNat * 0x80000 + vd.toNat * 0x4000 + va.toNat * 0x200 + vb.toNat * 0x10 + pred.toNat)]
  | .vfmul tk ftype vd va vb pred => [BitVec.ofNat 32 (0xB4000000 + tk.toNat * 0x200000 + ftype.toNat * 0x80000 + vd.toNat * 0x4000 + va.toNat * 0x200 + vb.toNat * 0x10 + pred.toNat)]
  | .vfma tk ftype vd va vb pred => [BitVec.ofNat 32 (0xB6000000 + tk.toNat * 0x200000 + ftype.toNat * 0x80000 + vd.toNat * 0x4000 + va.toNat * 0x200 + vb.toNat * 0x10 + pred.toNat)]
  | .vcmp tk width fl pd va vb cond => [BitVec.ofNat 32 (0xB8000000 + tk.toNat * 0x200000 + width.toNat * 0x80000 + fl.toNat * 0x40000 + pd.toNat * 0x4000 + va.toNat * 0x200 + vb.toNat * 0x10 + cond.toNat * 0x2)]
  | .vsel tk width vd va vb pred => [BitVec.ofNat 32 (0xBA000000 + tk.toNat * 0x200000 + width.toNat * 0x80000 + vd.toNat * 0x4000 + va.toNat * 0x200 + vb.toNat * 0x10 + pred.toNat)]
  | .vmov tk width vd va pred => [BitVec.ofNat 32 (0xBC000000 + tk.toNat * 0x200000 + width.toNat * 0x80000 + vd.toNat * 0x4000 + va.toNat * 0x200 + pred.toNat)]
  | .vnot tk width vd va pred => [BitVec.ofNat 32 (0xBC000010 + tk.toNat * 0x200000 + width.toNat * 0x80000 + vd.toNat * 0x4000 + va.toNat * 0x200 + pred.toNat)]
  | .vneg tk width vd va pred => [BitVec.ofNat 32 (0xBC000020 + tk.toNat * 0x200000 + width.toNat * 0x80000 + vd.toNat * 0x4000 + va.toNat * 0x200 + pred.toNat)]
  | .vpopc tk width vd va pred => [BitVec.ofNat 32 (0xBC000030 + tk.toNat * 0x200000 + width.toNat * 0x80000 + vd.toNat * 0x4000 + va.toNat * 0x200 + pred.toNat)]
  | .vclz tk width vd va pred => [BitVec.ofNat 32 (0xBC000040 + tk.toNat * 0x200000 + width.toNat * 0x80000 + vd.toNat * 0x4000 + va.toNat * 0x200 + pred.toNat)]
  | .vbrev tk width vd va pred => [BitVec.ofNat 32 (0xBC000050 + tk.toNat * 0x200000 + width.toNat * 0x80000 + vd.toNat * 0x4000 + va.toNat * 0x200 + pred.toNat)]
  | .vfabs tk ftype vd va pred => [BitVec.ofNat 32 (0xBE000000 + tk.toNat * 0x200000 + ftype.toNat * 0x80000 + vd.toNat * 0x4000 + va.toNat * 0x200 + pred.toNat)]
  | .vexp2 tk ftype vd va pred => [BitVec.ofNat 32 (0xBE000010 + tk.toNat * 0x200000 + ftype.toNat * 0x80000 + vd.toNat * 0x4000 + va.toNat * 0x200 + pred.toNat)]
  | .vlog2 tk ftype vd va pred => [BitVec.ofNat 32 (0xBE000020 + tk.toNat * 0x200000 + ftype.toNat * 0x80000 + vd.toNat * 0x4000 + va.toNat * 0x200 + pred.toNat)]
  | .vrcp tk ftype vd va pred => [BitVec.ofNat 32 (0xBE000030 + tk.toNat * 0x200000 + ftype.toNat * 0x80000 + vd.toNat * 0x4000 + va.toNat * 0x200 + pred.toNat)]
  | .vrsqrt tk ftype vd va pred => [BitVec.ofNat 32 (0xBE000040 + tk.toNat * 0x200000 + ftype.toNat * 0x80000 + vd.toNat * 0x4000 + va.toNat * 0x200 + pred.toNat)]
  | .vtanh tk ftype vd va pred => [BitVec.ofNat 32 (0xBE000050 + tk.toNat * 0x200000 + ftype.toNat * 0x80000 + vd.toNat * 0x4000 + va.toNat * 0x200 + pred.toNat)]
  | .vsigm tk ftype vd va pred => [BitVec.ofNat 32 (0xBE000060 + tk.toNat * 0x200000 + ftype.toNat * 0x80000 + vd.toNat * 0x4000 + va.toNat * 0x200 + pred.toNat)]
  | .vcvt tk vd va srcf dstf rm => [BitVec.ofNat 32 (0xC0000000 + tk.toNat * 0x200000 + vd.toNat * 0x10000 + va.toNat * 0x800 + srcf.toNat * 0x80 + dstf.toNat * 0x8 + rm.toNat)]
  | .vbcast tk width vd sa => [BitVec.ofNat 32 (0xC2000000 + tk.toNat * 0x200000 + width.toNat * 0x80000 + vd.toNat * 0x4000 + sa.toNat * 0x200)]
  | .vext tk width sd va sb => [BitVec.ofNat 32 (0xC2000001 + tk.toNat * 0x200000 + width.toNat * 0x80000 + sd.toNat * 0x4000 + va.toNat * 0x200 + sb.toNat * 0x10)]
  | .vperm tk width vd va vb => [BitVec.ofNat 32 (0xC2000002 + tk.toNat * 0x200000 + width.toNat * 0x80000 + vd.toNat * 0x4000 + va.toNat * 0x200 + vb.toNat * 0x10)]
  | .vrsum tk width sd va pn => [BitVec.ofNat 32 (0xC2000003 + tk.toNat * 0x200000 + width.toNat * 0x80000 + sd.toNat * 0x4000 + va.toNat * 0x200 + pn.toNat * 0x10)]
  | .vrmax tk width sd va pn => [BitVec.ofNat 32 (0xC2000004 + tk.toNat * 0x200000 + width.toNat * 0x80000 + sd.toNat * 0x4000 + va.toNat * 0x200 + pn.toNat * 0x10)]
  | .vfrsum tk sd va pn => [BitVec.ofNat 32 (0xC2180005 + tk.toNat * 0x200000 + sd.toNat * 0x4000 + va.toNat * 0x200 + pn.toNat * 0x10)]
  | .vfrmax tk sd va pn => [BitVec.ofNat 32 (0xC2180006 + tk.toNat * 0x200000 + sd.toNat * 0x4000 + va.toNat * 0x200 + pn.toNat * 0x10)]
  | .vqdx tk dx8 vd va vb => [BitVec.ofNat 32 (0xC2000007 + tk.toNat * 0x200000 + dx8.toNat * 0x80000 + vd.toNat * 0x4000 + va.toNat * 0x200 + vb.toNat * 0x10)]
  | .vdqdx tk dx8 vd va vb => [BitVec.ofNat 32 (0xC2000008 + tk.toNat * 0x200000 + dx8.toNat * 0x80000 + vd.toNat * 0x4000 + va.toNat * 0x200 + vb.toNat * 0x10)]
  | .fadd tk sd sa sb => [BitVec.ofNat 32 (0xC4000000 + tk.toNat * 0x200000 + sd.toNat * 0x4000 + sa.toNat * 0x200 + sb.toNat * 0x10)]
  | .fsub tk sd sa sb => [BitVec.ofNat 32 (0xC4000001 + tk.toNat * 0x200000 + sd.toNat * 0x4000 + sa.toNat * 0x200 + sb.toNat * 0x10)]
  | .fmul tk sd sa sb => [BitVec.ofNat 32 (0xC4000002 + tk.toNat * 0x200000 + sd.toNat * 0x4000 + sa.toNat * 0x200 + sb.toNat * 0x10)]
  | .fmin tk sd sa sb => [BitVec.ofNat 32 (0xC4000003 + tk.toNat * 0x200000 + sd.toNat * 0x4000 + sa.toNat * 0x200 + sb.toNat * 0x10)]
  | .fmax tk sd sa sb => [BitVec.ofNat 32 (0xC4000004 + tk.toNat * 0x200000 + sd.toNat * 0x4000 + sa.toNat * 0x200 + sb.toNat * 0x10)]
  | .fcmp tk cond sd sa sb => [BitVec.ofNat 32 (0xC4000005 + tk.toNat * 0x200000 + cond.toNat * 0x80000 + sd.toNat * 0x4000 + sa.toNat * 0x200 + sb.toNat * 0x10)]
  | .fcvtif tk sd sa => [BitVec.ofNat 32 (0xC4000006 + tk.toNat * 0x200000 + sd.toNat * 0x4000 + sa.toNat * 0x200)]
  | .fcvtfi tk sd sa => [BitVec.ofNat 32 (0xC4000007 + tk.toNat * 0x200000 + sd.toNat * 0x4000 + sa.toNat * 0x200)]
  | .vthr tk vd va vb pd => [BitVec.ofNat 32 (0xC6000000 + tk.toNat * 0x200000 + vd.toNat * 0x10000 + va.toNat * 0x800 + vb.toNat * 0x40 + pd.toNat * 0x4)]
  | .vhist tk vd va vb pn => [BitVec.ofNat 32 (0xC8000000 + tk.toNat * 0x200000 + vd.toNat * 0x4000 + va.toNat * 0x200 + vb.toNat * 0x10 + pn.toNat)]
  | .vxrep tk vd va vb pn => [BitVec.ofNat 32 (0xC8080000 + tk.toNat * 0x200000 + vd.toNat * 0x4000 + va.toNat * 0x200 + vb.toNat * 0x10 + pn.toNat)]
  | .vgatew tk vd va pn => [BitVec.ofNat 32 (0xC8100000 + tk.toNat * 0x200000 + vd.toNat * 0x4000 + va.toNat * 0x200 + pn.toNat)]
  | .cqpush tk va pn => [BitVec.ofNat 32 (0xC8180000 + tk.toNat * 0x200000 + va.toNat * 0x200 + pn.toNat)]
  | .vtileRd tk vd tile rs clr => [BitVec.ofNat 32 (0xCA000000 + tk.toNat * 0x200000 + vd.toNat * 0x1000 + tile.toNat * 0x100 + rs.toNat * 0x8 + clr.toNat * 0x4)]
  | .vtileWr tk va tile rs fill => [BitVec.ofNat 32 (0xCA020000 + tk.toNat * 0x200000 + va.toNat * 0x1000 + tile.toNat * 0x100 + rs.toNat * 0x8 + fill.toNat * 0x4)]
  | .plog tk pd pa pb op => [BitVec.ofNat 32 (0xCA040000 + tk.toNat * 0x200000 + pd.toNat * 0x2000 + pa.toNat * 0x200 + pb.toNat * 0x20 + op.toNat * 0x8)]
  | .pcnt tk sd pa => [BitVec.ofNat 32 (0xCA060000 + tk.toNat * 0x200000 + sd.toNat * 0x1000 + pa.toNat * 0x100)]
  | .vtop tk pd va => [BitVec.ofNat 32 (0xCA080000 + tk.toNat * 0x200000 + pd.toNat * 0x2000 + va.toNat * 0x100)]
  | .ptov tk vd pa => [BitVec.ofNat 32 (0xCA0A0000 + tk.toNat * 0x200000 + vd.toNat * 0x1000 + pa.toNat * 0x100)]
  | .atom tk rd ra op w64 ord scope => [BitVec.ofNat 32 (0xCC000020 + tk.toNat * 0x200000 + rd.toNat * 0x10000 + ra.toNat * 0x800 + op.toNat * 0x80 + w64.toNat * 0x40 + ord.toNat * 0x8 + scope.toNat)]
  | .red tk rd ra op w64 ord scope => [BitVec.ofNat 32 (0xCC000000 + tk.toNat * 0x200000 + rd.toNat * 0x10000 + ra.toNat * 0x800 + op.toNat * 0x80 + w64.toNat * 0x40 + ord.toNat * 0x8 + scope.toNat)]
  | .acas tk rd ra w64 ord scope => [BitVec.ofNat 32 (0xCC0004A0 + tk.toNat * 0x200000 + rd.toNat * 0x10000 + ra.toNat * 0x800 + w64.toNat * 0x40 + ord.toNat * 0x8 + scope.toNat)]
  | .bara tk rd ra => [BitVec.ofNat 32 (0xCE000000 + tk.toNat * 0x200000 + rd.toNat * 0x1000 + ra.toNat * 0x80)]
  | .barw tk rd ra rb => [BitVec.ofNat 32 (0xCE020000 + tk.toNat * 0x200000 + rd.toNat * 0x1000 + ra.toNat * 0x80 + rb.toNat * 0x4)]
  | .carm tk ra rb rc => [BitVec.ofNat 32 (0xCE040000 + tk.toNat * 0x200000 + ra.toNat * 0x1000 + rb.toNat * 0x80 + rc.toNat * 0x4)]
  | .carr tk ra rb => [BitVec.ofNat 32 (0xCE060000 + tk.toNat * 0x200000 + ra.toNat * 0x80 + rb.toNat * 0x4)]
  | .cwait tk rd ra rb => [BitVec.ofNat 32 (0xCE080000 + tk.toNat * 0x200000 + rd.toNat * 0x1000 + ra.toNat * 0x80 + rb.toNat * 0x4)]
  | .semp tk rd ra => [BitVec.ofNat 32 (0xCE0A0000 + tk.toNat * 0x200000 + rd.toNat * 0x1000 + ra.toNat * 0x80)]
  | .semv tk ra rb => [BitVec.ofNat 32 (0xCE0C0000 + tk.toNat * 0x200000 + ra.toNat * 0x80 + rb.toNat * 0x4)]
  | .waitc tk ra rb rc => [BitVec.ofNat 32 (0xCE0E0000 + tk.toNat * 0x200000 + ra.toNat * 0x1000 + rb.toNat * 0x80 + rc.toNat * 0x4)]
  | .signal tk ra rb => [BitVec.ofNat 32 (0xCE100000 + tk.toNat * 0x200000 + ra.toNat * 0x80 + rb.toNat * 0x4)]
  | .st tk rs h ra size => [BitVec.ofNat 32 (0xD0000000 + tk.toNat * 0x200000 + rs.toNat * 0x10000 + h.toNat * 0x2000 + ra.toNat * 0x100 + size.toNat * 0x40)]
  | .stRel tk rs h ra size scope => [BitVec.ofNat 32 (0xD0000010 + tk.toNat * 0x200000 + rs.toNat * 0x10000 + h.toNat * 0x2000 + ra.toNat * 0x100 + size.toNat * 0x40 + scope.toNat)]
  | .stv tk q h ra => [BitVec.ofNat 32 (0xD2000000 + tk.toNat * 0x200000 + q.toNat * 0x40000 + h.toNat * 0x2000 + ra.toNat * 0x100)]
  | .stvs tk q width h ra rb => [BitVec.ofNat 32 (0xD2080000 + tk.toNat * 0x200000 + q.toNat * 0x40000 + width.toNat * 0x10000 + h.toNat * 0x2000 + ra.toNat * 0x100 + rb.toNat * 0x8)]
  | .stvx tk q width h ra rb => [BitVec.ofNat 32 (0xD2100000 + tk.toNat * 0x200000 + q.toNat * 0x40000 + width.toNat * 0x10000 + h.toNat * 0x2000 + ra.toNat * 0x100 + rb.toNat * 0x8)]
  | .stp tk ra rs size => [BitVec.ofNat 32 (0xD4000000 + tk.toNat * 0x200000 + ra.toNat * 0x4000 + rs.toNat * 0x200 + size.toNat * 0x80)]
  | .stpv tk q width orient ra => [BitVec.ofNat 32 (0xD4080000 + tk.toNat * 0x200000 + q.toNat * 0x40000 + width.toNat * 0x10000 + orient.toNat * 0x8000 + ra.toNat * 0x400)]
  | .dbind tk q ra => [BitVec.ofNat 32 (0xD4100000 + tk.toNat * 0x200000 + q.toNat * 0x40000 + ra.toNat * 0x2000)]
  | .dunbind tk q => [BitVec.ofNat 32 (0xD4180000 + tk.toNat * 0x200000 + q.toNat * 0x40000)]
  | .drain tk tile rc ra rx => [BitVec.ofNat 32 (0xD6000000 + tk.toNat * 0x200000 + tile.toNat * 0x10000 + rc.toNat * 0x800 + ra.toNat * 0x40 + rx.toNat * 0x2)]
  | .claim tk rd ra rb => [BitVec.ofNat 32 (0xD6100000 + tk.toNat * 0x200000 + rd.toNat * 0x8000 + ra.toNat * 0x400 + rb.toNat * 0x20)]
  | .spawn tk rd ra rb => [BitVec.ofNat 32 (0xD8000000 + tk.toNat * 0x200000 + rd.toNat * 0x4000 + ra.toNat * 0x200 + rb.toNat * 0x10)]
  | .endt tk => [BitVec.ofNat 32 (0xD8080000 + tk.toNat * 0x200000)]
  | .join tk rd => [BitVec.ofNat 32 (0xD8100000 + tk.toNat * 0x200000 + rd.toNat * 0x4000)]
  | .check tk rd => [BitVec.ofNat 32 (0xD8180000 + tk.toNat * 0x200000 + rd.toNat * 0x4000)]
  | .launch tk rd ra rb => [BitVec.ofNat 32 (0xDA000000 + tk.toNat * 0x200000 + rd.toNat * 0x4000 + ra.toNat * 0x200 + rb.toNat * 0x10)]
  | .jcancel tk rd ra => [BitVec.ofNat 32 (0xDA080000 + tk.toNat * 0x200000 + rd.toNat * 0x4000 + ra.toNat * 0x200)]
  | .tinfo tk rd ra => [BitVec.ofNat 32 (0xDA100000 + tk.toNat * 0x200000 + rd.toNat * 0x4000 + ra.toNat * 0x200)]
  | .rqset tk rd ra rb => [BitVec.ofNat 32 (0xDA180000 + tk.toNat * 0x200000 + rd.toNat * 0x4000 + ra.toNat * 0x200 + rb.toNat * 0x10)]
  | .rinj rd ra rb => [BitVec.ofNat 32 (0xDC000000 + rd.toNat * 0x2000 + ra.toNat * 0x100 + rb.toNat * 0x8)]
  | .rdrop rd ra => [BitVec.ofNat 32 (0xDC040000 + rd.toNat * 0x2000 + ra.toNat * 0x100)]
  | .rkeep rd ra rb => [BitVec.ofNat 32 (0xDC080000 + rd.toNat * 0x2000 + ra.toNat * 0x100 + rb.toNat * 0x8)]
  | .rfwd rd ra => [BitVec.ofNat 32 (0xDC0C0000 + rd.toNat * 0x2000 + ra.toNat * 0x100)]
  | .rhold rd ra => [BitVec.ofNat 32 (0xDE000000 + rd.toNat * 0x2000 + ra.toNat * 0x100)]
  | .rtag rd ra rb => [BitVec.ofNat 32 (0xDE040000 + rd.toNat * 0x2000 + ra.toNat * 0x100 + rb.toNat * 0x8)]
  | .rpar rd ra rb => [BitVec.ofNat 32 (0xE0000000 + rd.toNat * 0x2000 + ra.toNat * 0x100 + rb.toNat * 0x8)]
  | .rbyp rd ra => [BitVec.ofNat 32 (0xE2000000 + rd.toNat * 0x2000 + ra.toNat * 0x100)]
  | .rstat rd ra => [BitVec.ofNat 32 (0xE2040000 + rd.toNat * 0x2000 + ra.toNat * 0x100)]
  | .fxfill tk rd ra rb => [BitVec.ofNat 32 (0xE4000000 + tk.toNat * 0x200000 + rd.toNat * 0x4000 + ra.toNat * 0x200 + rb.toNat * 0x10)]
  | .fkey tk rd ra => [BitVec.ofNat 32 (0xE4080000 + tk.toNat * 0x200000 + rd.toNat * 0x4000 + ra.toNat * 0x200)]
  | .flane tk rd ra rb => [BitVec.ofNat 32 (0xE4100000 + tk.toNat * 0x200000 + rd.toNat * 0x4000 + ra.toNat * 0x200 + rb.toNat * 0x10)]
  | .strandEnd => []
  | .stallWatchdogTrap => []
  | .vectorLoadComplete => []
  | .loadStreamFetch => []
  | .requesterTimeout => []
  | .tagRestEnd => []
  | .xentWrite => []
  | .frclose => []
  | .bfmtPerform => []
  | .copyCommandStart => []
  | .copyUnitLand => []
  | .followOnHandoff => []
  | .copySuspend => []
  | .copyEngineReset => []
  | .matrixCommandStart => []
  | .tileAcquire => []
  | .slabStepIssue => []
  | .mmagLengthReread => []
  | .matrixCommandRetire => []
  | .ringConfigEffect => []
  | .matrixEngineReset => []
  | .syncCommandSend => []
  | .syncWaitLimit => []
  | .triggerTake => []
  | .syncEngineReset => []
  | .drainStreamWrite => []
  | .claimWindowClose => []
  | .recordAdmission => []
  | .overlapWordRead => []
  | .taskDispatch => []
  | .gangStart => []
  | .taskEnd => []
  | .launchRetire => []
  | .graphNodeFire => []
  | .rampWindowEnd => []
  | .taskEngineReset => []
  | .taskEngineResumeTimeout => []
  | .preemptGo => []
  | .preemptHold => []
  | .preemptResume => []
  | .preemptDiscard => []
  | .preemptStopComplete => []
  | .jobclr => []
  | .qpush => []
  | .snapdataWrite => []
  | .rpctlStart => []
  | .rpctlStop => []
  | .segmentArrival => []
  | .segmentForwardComplete => []
  | .dropRecord => []
  | .lostRecord => []
  | .mirrorUpdate => []
  | .ringFailureDetect => []
  | .ringResume => []
  | .ringEngineReset => []
  | .ringEngineRestartTimeout => []
  | .flitSend => []
  | .flitReceive => []
  | .congestionDetect => []
  | .setAsideNotice => []
  | .setAsideRelease => []
  | .autoKeyRotation => []
  | .laneThresholdCross => []
  | .laneWindowEnd => []
  | .laneNotice => []
  | .trainingAttemptEnd => []
  | .readRequest => []
  | .writeRequest => []
  | .syncCommandRequest => []
  | .translationRequest => []
  | .invalidationRequest => []
  | .engineNotice => []
  | .readData => []
  | .writeAcknowledgement => []
  | .syncReply => []
  | .translationReply => []
  | .invalidationAcknowledgement => []
  | .noticeAcknowledgement => []
  | .invalidationResend => []
  | .fabricEngineReset => []
  | .slctlGo => []
  | .drainMarker => []
  | .sluiceDrainComplete => []
  | .sluiceDrainTimeout => []
  | .sluiceDarkEnd => []
  | .pathRelockComplete => []
  | .pathRelockTimeout => []
  | .configRequest => []
  | .inboundBarRead => []
  | .inboundBarWrite => []
  | .inboundAtomicop => []
  | .uqnotify => []
  | .uqctlWrite => []
  | .packetFetch => []
  | .launchPacket => []
  | .cancelPacket => []
  | .barrierPacket => []
  | .launchInterrupt => []
  | .deviceHostAccess => []
  | .hostCompletion => []
  | .pcieCompletionTimeout => []
  | .hostLinkDown => []
  | .hostEngineReset => []
  | .identity => []
  | .attest => []
  | .keyset => []
  | .keyclr => []
  | .ctxbind => []
  | .domkey => []
  | .journalRead => []
  | .journalClear => []
  | .fwstage => []
  | .fenceDie => []
  | .unfenceDie => []
  | .diereset => []
  | .pwrcap => []
  | .telem => []
  | .moduleReset => []
  | .bootStep => []
  | .bootWatchdog => []
  | .powerThermalTick => []
  | .correctedErrorThreshold => []
  | .registerWrite => []
  | .illegalInstruction => []
  | .instructionFetchFault => []
  | .rampFillerIssue => []
  | .linkRelockComplete => []
  | .hostLinkUp => []

end Sys2Proof
end

