-- ==== Sys2Proof/Machine/Formats.lean ====
section
/-! DEFINITION. Number formats and exact arithmetic (03 R103-R124): decoding to an exact value, the rounding steps,
encoding, DX blocks, the stochastic generator and the K-step. -/

namespace Sys2Proof.Machine

/-- The element formats of R103, R104 and R107; `raw` stands for RAW and INT64, whose bytes are never decoded. -/
inductive Fmt where
  | raw
  | int (bits : Nat) (signed : Bool)
  | fp32 | fp16 | bf16 | e4m3 | e5m2 | e3m2 | e2m3
  | dx (w : Nat)
  deriving DecidableEq, Repr, Inhabited

/-- Bits of one element (R103, R104, R107). -/
def Fmt.bits : Fmt → Nat
  | .raw => 8
  | .int b _ => b
  | .fp32 => 32
  | .fp16 => 16
  | .bf16 => 16
  | .e4m3 => 8
  | .e5m2 => 8
  | .e3m2 => 6
  | .e2m3 => 6
  | .dx w => w

/-- Exponent bits, mantissa bits and bias of a floating-point format (R104). -/
def Fmt.params : Fmt → Nat × Nat × Nat
  | .fp32 => (8, 23, 127)
  | .fp16 => (5, 10, 15)
  | .bf16 => (8, 7, 127)
  | .e4m3 => (4, 3, 7)
  | .e5m2 => (5, 2, 15)
  | .e3m2 => (3, 2, 3)
  | .e2m3 => (2, 3, 1)
  | _ => (8, 23, 127)

/-- Whether the format has infinities (R104). -/
def Fmt.hasInf : Fmt → Bool
  | .fp32 | .fp16 | .bf16 | .e5m2 => true
  | _ => false

/-- Whether the format has NaN encodings (R104). -/
def Fmt.hasNaN : Fmt → Bool
  | .fp32 | .fp16 | .bf16 | .e5m2 | .e4m3 => true
  | _ => false

/-- The magnitude encoding of the largest finite value (R104). -/
def Fmt.maxFinite (f : Fmt) : Nat :=
  let (e, m, _) := f.params
  if f.hasInf then (2 ^ e - 1) * 2 ^ m - 1
  else if f = .e4m3 then 2 ^ (e + m) - 2
  else 2 ^ (e + m) - 1

/-- The canonical NaN (R105). -/
def Fmt.nan (f : Fmt) : Nat :=
  let (e, m, _) := f.params
  if f = .e4m3 then 0x7F else (2 ^ e - 1) * 2 ^ m + 2 ^ (m - 1)

/-- An exact value: NaN, a signed infinity, or a sign with the magnitude num ÷ den (R120). -/
inductive XVal where
  | nan
  | inf (neg : Bool)
  | fin (neg : Bool) (num den : Nat)
  deriving DecidableEq, Repr, Inhabited

namespace XVal

/-- `m × 2^k` as a numerator and a denominator. -/
def scale (m : Nat) (k : Int) : Nat × Nat := (m * 2 ^ k.toNat, 2 ^ (-k).toNat)

/-- The finite value `± m × 2^k`. -/
def dyadic (neg : Bool) (m : Nat) (k : Int) : XVal :=
  let p := scale m k
  .fin neg p.1 p.2

/-- An integer as an exact value. -/
def ofInt (i : Int) : XVal := .fin (i < 0) i.natAbs 1

/-- The sign, which a NaN does not have. -/
def isNeg : XVal → Bool
  | .nan => false
  | .inf n => n
  | .fin n _ _ => n

def isNaN : XVal → Bool
  | .nan => true
  | _ => false

def isInf : XVal → Bool
  | .inf _ => true
  | _ => false

def isZero : XVal → Bool
  | .fin _ 0 _ => true
  | _ => false

def neg : XVal → XVal
  | .nan => .nan
  | .inf n => .inf (!n)
  | .fin n a b => .fin (!n) a b

def abs : XVal → XVal
  | .nan => .nan
  | .inf _ => .inf false
  | .fin _ a b => .fin false a b

/-- The exact sum; a zero sum of operands of opposite signs is +0 (R106), and ∞ − ∞ is NaN (R169). -/
def add : XVal → XVal → XVal
  | .nan, _ => .nan
  | _, .nan => .nan
  | .inf a, .inf b => if a = b then .inf a else .nan
  | .inf a, _ => .inf a
  | _, .inf b => .inf b
  | .fin s a b, .fin t c d =>
    let x := a * d
    let y := c * b
    if s = t then .fin s (x + y) (b * d)
    else if x = y then .fin false 0 1
    else if y < x then .fin s (x - y) (b * d)
    else .fin t (y - x) (b * d)

def sub (x y : XVal) : XVal := x.add y.neg

/-- The exact product; ∞ × 0 is NaN (R169). -/
def mul : XVal → XVal → XVal
  | .nan, _ => .nan
  | _, .nan => .nan
  | .inf a, .inf b => .inf (a != b)
  | .inf a, .fin t c _ => if c = 0 then .nan else .inf (a != t)
  | .fin s a _, .inf b => if a = 0 then .nan else .inf (s != b)
  | .fin s a b, .fin t c d => .fin (s != t) (a * c) (b * d)

/-- The exact quotient of two finite values, the second not zero. -/
def quot : XVal → XVal → XVal
  | .fin s a b, .fin t c d => if c = 0 then .nan else .fin (s != t) (a * d) (b * c)
  | _, _ => .nan

/-- x < y for values that are no NaN; +0 equals −0. -/
def lt : XVal → XVal → Bool
  | .nan, _ => false
  | _, .nan => false
  | .inf a, .inf b => a && !b
  | .inf a, _ => a
  | _, .inf b => !b
  | .fin s a b, .fin t c d =>
    let x := a * d
    let y := c * b
    match s, t with
    | false, false => x < y
    | true, true => y < x
    | true, false => x ≠ 0 || y ≠ 0
    | false, true => false

/-- x = y for values that are no NaN; +0 equals −0. -/
def eq : XVal → XVal → Bool
  | .nan, _ => false
  | _, .nan => false
  | .inf a, .inf b => a == b
  | .inf _, _ => false
  | _, .inf _ => false
  | .fin s a b, .fin t c d => if a = 0 then c == 0 else s == t && a * d == c * b

/-- ⌊log2 (num ÷ den)⌋ of a positive value. -/
def floorLog2 (num den : Nat) : Int :=
  let l : Int := (num.log2 : Int) - (den.log2 : Int)
  if den * 2 ^ l.toNat ≤ num * 2 ^ (-l).toNat then l else l - 1

end XVal

/-- The rounding modes of R117; any other code acts as no mode of the spec and rounds as 0b000 does. -/
inductive Rm where
  | rne | rtz | rdn | rup | sr
  deriving DecidableEq, Repr, Inhabited

/-- RM codes (R117). -/
def Rm.ofCode (n : Nat) : Rm :=
  if n = 1 then .rtz else if n = 2 then .rdn else if n = 3 then .rup else if n = 4 then .sr else .rne

/-- RoundInt of ± num ÷ den, as a magnitude; the sign stays (R118). `draw` is the generator's draw, used by SR. -/
def roundMag (neg : Bool) (num den : Nat) (rm : Rm) (draw : Nat) : Nat :=
  let q := num / den
  let r := num % den
  if r = 0 then q
  else match rm with
    | .rne => if 2 * r < den then q else if den < 2 * r then q + 1 else if q % 2 = 0 then q else q + 1
    | .rtz => q
    | .rdn => if neg then q + 1 else q
    | .rup => if neg then q else q + 1
    | .sr =>
      if neg then (if draw < (den - r) * 65536 / den then q else q + 1)
      else (if draw < r * 65536 / den then q + 1 else q)

/-- RoundInt (R118). -/
def roundInt (x : XVal) (rm : Rm) (draw : Nat) : Int :=
  match x with
  | .fin neg num den =>
    let m : Int := (roundMag neg num den rm draw : Nat)
    if neg then -m else m
  | _ => 0

/-- The magnitude encoding, with an unbounded exponent above, of a non-zero finite value rounded to the format (R118). -/
def roundBits (f : Fmt) (neg : Bool) (num den : Nat) (rm : Rm) (draw : Nat) : Nat :=
  let (_, m, bias) := f.params
  let emin : Int := 1 - (bias : Int)
  let g : Int := max (XVal.floorLog2 num den) emin - m
  let q := roundMag neg (num * 2 ^ (-g).toNat) (den * 2 ^ g.toNat) rm draw
  let e := (g + m + bias).toNat
  (e - 1) * 2 ^ m + q

/-- Encode for a floating-point format (R118). -/
def encodeF (f : Fmt) (x : XVal) (rm : Rm) (sat : Bool) (draw : Nat) : Nat :=
  let (e, m, _) := f.params
  let sign (neg : Bool) : Nat := if neg then 2 ^ (e + m) else 0
  let infinity := (2 ^ e - 1) * 2 ^ m
  match x with
  | .nan => if f.hasNaN then f.nan else f.maxFinite
  | .inf neg => sign neg + (if sat || !f.hasInf then f.maxFinite else infinity)
  | .fin neg num den =>
    if num = 0 then sign neg
    else
      let b := roundBits f neg num den rm draw
      if b ≤ f.maxFinite then sign neg + b
      else if sat || !f.hasInf || rm = .rtz || (rm = .rdn && !neg) || (rm = .rup && neg) then sign neg + f.maxFinite
      else sign neg + infinity

/-- The range of an integer format (R103). -/
def intRange (bits : Nat) (signed : Bool) : Int × Int :=
  if signed then (-(2 ^ (bits - 1) : Nat), (2 ^ (bits - 1) : Nat) - 1) else (0, (2 ^ bits : Nat) - 1)

/-- Encode for an integer format: NaN gives 0, the rest is rounded and clamped (R118). -/
def encodeI (bits : Nat) (signed : Bool) (x : XVal) (rm : Rm) (draw : Nat) : Nat :=
  let (lo, hi) := intRange bits signed
  let v : Int := match x with
    | .nan => 0
    | .inf neg => if neg then lo else hi
    | x => max lo (min hi (roundInt x rm draw))
  (v % (2 ^ bits : Nat)).toNat

/-- Encode (R118). RAW and DX elements are never the destination of an element-wise conversion. -/
def encode (f : Fmt) (x : XVal) (rm : Rm) (sat : Bool) (draw : Nat) : Nat :=
  match f with
  | .int b s => encodeI b s x rm draw
  | .raw => 0
  | .dx _ => 0
  | f => encodeF f x rm sat draw

/-- The signed value of a `b`-bit pattern. -/
def signedOf (b n : Nat) : Int := if 2 ^ (b - 1) ≤ n % 2 ^ b then ((n % 2 ^ b : Nat) : Int) - (2 ^ b : Nat) else (n % 2 ^ b : Nat)

/-- Decode (R104, R124). -/
def decodeElt (f : Fmt) (bits : Nat) : XVal :=
  match f with
  | .int b s => XVal.ofInt (if s then signedOf b bits else (bits % 2 ^ b : Nat))
  | .raw => .fin false 0 1
  | .dx _ => .fin false 0 1
  | f =>
    let (eb, mb, bias) := f.params
    let neg := bits / 2 ^ (eb + mb) % 2 = 1
    let e := bits / 2 ^ mb % 2 ^ eb
    let m := bits % 2 ^ mb
    if f.hasInf && e = 2 ^ eb - 1 then (if m = 0 then .inf neg else .nan)
    else if f = .e4m3 && e = 15 && m = 7 then .nan
    else if e = 0 then XVal.dyadic neg m (1 - (bias : Int) - mb)
    else XVal.dyadic neg (2 ^ mb + m) ((e : Int) - bias - mb)

/-- FP32 results that round to nearest, the implicit mode (R117). -/
def fp32Rne (x : XVal) : Nat := encodeF .fp32 x .rne false 0

/-- DecodeDX (R109). -/
def decodeDX (e0 e1 code w : Nat) : XVal :=
  let m := w - 2
  let e := if code / 2 ^ (w - 1) % 2 = 1 then e1 else e0
  if e = 0xFF then .nan
  else XVal.dyadic (code / 2 ^ (w - 2) % 2 = 1) (code % 2 ^ m) ((e : Int) - 127 - m)

/-- The magnitude of a finite value, else zero. -/
def XVal.mag : XVal → Nat × Nat
  | .fin _ a b => (a, b)
  | _ => (0, 1)

/-- One element of QuantDX: its code under the exponents `e0`, `e1` (R110). -/
def quantElt (x : XVal) (w e0 e1 : Nat) (rm : Rm) (draw : Nat) : Nat :=
  let m := w - 2
  let (num, den) := x.mag
  let cand (e : Nat) : Nat × (Nat × Nat) :=
    -- the candidate and its error |num ÷ den − q × 2^(e − 127 − m)| as a fraction
    let k : Int := 127 + (m : Int) - e
    let q := min (2 ^ m - 1) (roundMag false (num * 2 ^ k.toNat) (den * 2 ^ (-k).toNat) .rne 0)
    let a := num * 2 ^ k.toNat
    let b := q * den * 2 ^ (-k).toNat
    (q, ((a - b) + (b - a), den * 2 ^ k.toNat))
  let r0 := (cand e0).2
  let r1 := (cand e1).2
  let sel := if r0.1 * r1.2 < r1.1 * r0.2 then 0 else 1
  let e := if sel = 0 then e0 else e1
  let k : Int := 127 + (m : Int) - e
  let q := roundMag x.isNeg (num * 2 ^ k.toNat) (den * 2 ^ (-k).toNat) rm draw
  sel * 2 ^ (w - 1) + (if x.isNeg then 2 ^ (w - 2) else 0) + min (2 ^ m - 1) q

/-- QuantDX: E0, E1 and the codes of a block; `draws` is one draw of the generator for each element (R110). -/
def quantDX (xs : List XVal) (w : Nat) (rm : Rm) (draws : List Nat) : Nat × Nat × List Nat :=
  if xs.any (fun x => x.isNaN || x.isInf) then (0xFF, 0xFF, xs.map fun _ => 2 ^ (w - 1))
  else
    let big := xs.foldl (fun (m : Nat × Nat) x => let p := x.mag; if m.1 * p.2 < p.1 * m.2 then p else m) (0, 1)
    let e1 := if big.1 = 0 then 0 else (min 254 (max 0 (XVal.floorLog2 big.1 big.2 + 128))).toNat
    let e0 := e1 - (w - 2)
    (e0, e1, (List.range xs.length).map fun i => quantElt (xs.getD i default) w e0 e1 rm (draws.getD i 0))

/-- One draw of the generator: the new state and its 16 bits (R119). -/
def nextRandom (s : Word) : Word × Nat :=
  let s := s ^^^ (s <<< 13)
  let s := s ^^^ (s >>> 7)
  let s := s ^^^ (s <<< 17)
  (s, s.toNat / 2 ^ 48)

/-- `n` draws in order (R119). -/
def draws : Nat → Word → Word × List Nat
  | 0, s => (s, [])
  | n + 1, s =>
    let (s1, d) := nextRandom s
    let (s2, ds) := draws n s1
    (s2, d :: ds)

/-- The generator's value that a SYSW of 0 stores (R119). -/
def srSeed : Word := 0x9E3779B97F4A7C15

/-- One product or accumulator of a K-step within the window: its truncated magnitude in units of u, and whether bits
fell below (R122). `k` is 95 − emax. -/
def windowTerm (num den : Nat) (k : Int) : Nat × Bool :=
  let a := num * 2 ^ k.toNat
  let b := den * 2 ^ (-k).toNat
  (a / b, a % b ≠ 0)

/-- KStep: the FP32 bits of an accumulator and the products of one step (R122, R123). -/
def kStep (c : XVal) (prods : List XVal) : Nat :=
  let terms := c :: prods
  if terms.any XVal.isNaN || (terms.any (· == .inf false) && terms.any (· == .inf true)) then 0x7FC00000
  else if terms.any (· == .inf false) then 0x7F800000
  else if terms.any (· == .inf true) then 0xFF800000
  else
    let nz := terms.filter fun t => !t.isZero
    match nz with
    | [] => if terms.all XVal.isNeg then 0x80000000 else 0
    | t :: ts =>
      let lg (x : XVal) : Int := XVal.floorLog2 x.mag.1 x.mag.2
      let emax := ts.foldl (fun m x => max m (lg x)) (lg t)
      let k : Int := 95 - emax
      let (s, sticky) := nz.foldl (fun (acc : Int × Bool) x =>
        let r := windowTerm x.mag.1 x.mag.2 k
        ((if x.isNeg then acc.1 - (r.1 : Int) else acc.1 + (r.1 : Int)), acc.2 || r.2)) ((0 : Int), false)
      if s = 0 then 0
      else fp32Rne (XVal.dyadic (s < 0) (2 * s.natAbs + (if sticky then 1 else 0)) (emax - 96))

/-- Elements of `b` bits of a bit string of `n` elements, element 0 lowest (R111). -/
def elems (b n bits : Nat) : List Nat := (List.range n).map fun i => (bits >>> (b * i)) % 2 ^ b

/-- The bit string of elements of `b` bits (R111). -/
def packElems (b : Nat) : List Nat → Nat
  | [] => 0
  | x :: xs => x % 2 ^ b + 2 ^ b * packElems b xs

/-- Bank format codes (R115); `none` for a reserved code. -/
def bankFmt (code : Nat) : Option Fmt :=
  match code with
  | 0x00 => some .raw
  | 0x01 => some (.int 4 true)
  | 0x02 => some (.int 4 false)
  | 0x03 => some (.int 8 true)
  | 0x04 => some (.int 8 false)
  | 0x05 => some (.int 16 true)
  | 0x06 => some (.int 32 true)
  | 0x07 => some .raw
  | 0x10 => some .fp32
  | 0x11 => some .fp16
  | 0x12 => some .bf16
  | 0x13 => some .e4m3
  | 0x14 => some .e5m2
  | 0x15 => some .e3m2
  | 0x16 => some .e2m3
  | c =>
    if 0xC1 ≤ c && c ≤ 0xCF then some (.dx 4)
    else if 0xD1 ≤ c && c ≤ 0xDF then some (.dx 6)
    else if 0xE1 ≤ c && c ≤ 0xEF then some (.dx 8)
    else none

/-- VCVT format codes (R174): the format and its SAT. -/
def cvtFmt (code : Nat) : Fmt × Bool :=
  match code with
  | 0 => (.int 4 true, false)
  | 1 => (.int 4 false, false)
  | 2 => (.int 8 true, false)
  | 3 => (.int 8 false, false)
  | 4 => (.int 16 true, false)
  | 5 => (.int 32 true, false)
  | 6 => (.fp32, false)
  | 7 => (.fp16, false)
  | 8 => (.bf16, false)
  | 9 => (.e4m3, false)
  | 10 => (.e5m2, false)
  | 11 => (.fp16, true)
  | 12 => (.bf16, true)
  | _ => (.e5m2, true)

/-- A 6-bit element widened to 8 bits: FP6 by value, DX6 to DX8 with MANT × 4 (R114). -/
def widen6 (f : Fmt) (code : Nat) : Nat :=
  match f with
  | .e3m2 => encodeF .e5m2 (decodeElt .e3m2 code) .rne false 0
  | .e2m3 => encodeF .e4m3 (decodeElt .e2m3 code) .rne false 0
  | _ => code / 16 * 64 + code % 16 * 4

end Sys2Proof.Machine
end

