-- ==== Sys2Proof/Machine/State.lean ====
section
/-! DEFINITION. The state of one module: its strands and crews, the registers and records of every engine of its
sixteen dies, its sluice, host engine and management controller, and every byte of memory. Plain data only. -/

namespace Sys2Proof.Machine

/-- Why a run stops with a fault. -/
inductive Fault where
  /-- no meaning of this model raises it: every event of the spec has a next state. Safe. -/
  | none
  deriving DecidableEq, Repr

/-- Why a step has no meaning. -/
inductive Refusal where
  /-- an arm of the dispatch whose instruction has no meaning yet, by its mnemonic. Safe. -/
  | notModelled (mnemonic : String)
  deriving DecidableEq, Repr

/-- The agent that performs a step: a stream of a strand, the rotation program of a die, or an engine of a die or of
one of its polders (log 1). -/
structure Ctx where
  die : Nat
  polder : Nat
  strand : Nat
  str : Str
  rot : Bool
  deriving DecidableEq, Repr, Inhabited

/-- A handle h0-h15 (R140). -/
structure Handle where
  gen : BitVec 16
  entry : BitVec 12
  valid : Bool
  kind : BitVec 2
  size : BitVec 2
  wr : Bool
  seg : Bool
  base : BitVec 52
  deriving DecidableEq, Repr, Inhabited

/-- An active hardware loop level (R89). -/
structure Loop where
  start : Word
  stop : Word
  lc : BitVec 32
  deriving DecidableEq, Repr, Inhabited

/-- What a stream waits on, as far as the stall watchdog tells waits apart (R65, R102 cause 0x7C); `uncounted` is a
wait the watchdog does not count. -/
inductive Wait where
  | dataQueue | token | branchQueue | countQueue | tileBit | commandQueue | uncounted
  deriving DecidableEq, Repr, Inhabited

/-- A word in progress: the requests it has sent, and what it captured at issue (R151, R260, R339). -/
structure Pend where
  ids : List Nat
  data : List Nat
  deriving DecidableEq, Repr, Inhabited

/-- Where a stream has passed by words of other streams that order its own accesses: one more than the place in program
order of the last A load, D store, X sync command, and acquire of A, of X and of D (R18, R49, R155, R299, R301), and of
the last VTILE word or CPYM follow-on on each tile (R186). -/
structure Marks where
  ld : Nat
  st : Nat
  syn : Nat
  acqA : Nat
  acqX : Nat
  acqD : Nat
  tiles : List (Nat × Nat)
  deriving DecidableEq, Repr, Inhabited

/-- One stream of a strand, or a die's rotation program (R74, R79, R353). Loop levels are listed innermost first. -/
structure Stream where
  pc : Word
  regs : Vector Word 32
  loops : List Loop
  loopBuf : List (Nat × BitVec 32)
  cqPos : Nat
  spillSp : Nat
  ovBase : Word
  ovPtr : Word
  ovLimit : Word
  trapPc : Word
  trapResume : Word
  ended : Bool
  arrived : Bool
  wait : Option Wait
  waited : Nat
  pend : Option Pend
  seq : Nat
  marks : Marks
  deriving DecidableEq, Repr, Inhabited

/-- An entry of an A-to-X vector queue (R128, R149): the data, its status mask and where the mask goes, the cause and
information of a failure marker, and poison. -/
structure VEntry where
  data : Vec
  statp : BitVec 4
  mask : Pred
  fail : Option (Nat × Word)
  poison : Bool
  deriving DecidableEq, Repr, Inhabited

/-- A load or drain stream's descriptor, as SBIND or DBIND read it, with its copy of the handle (R147, R283). -/
structure AffineStream where
  desc : Vector Word 8
  handle : Handle
  word : Word
  next : Nat
  count : Nat
  pushed : Nat
  /-- the vector in flight, if one has begun and not ended, with the stream's place in program order when it began and
  its place among all fetches (R156) -/
  flight : Option Nat
  place : Nat
  began : Nat
  reqs : List Nat
  stopped : Option (Nat × Word)
  deriving DecidableEq, Repr, Inhabited

/-- What TRAPMODE sets aside of one stream, with the position in cq after the newest entry of that moment (R96). -/
structure SetAside where
  loops : List Loop
  loopBuf : List (Nat × BitVec 32)
  cqPos : Nat
  cqTop : Nat
  ended : Bool
  pend : Option Pend
  seq : Nat
  marks : Marks
  deriving DecidableEq, Repr, Inhabited

/-- A sync command in a strand's sync queue, with what its stream had passed when it was enqueued, and the write-backs it
waits for (R260, R274). `op` is the model's number of the operation. -/
structure SyncCmd where
  word : BitVec 32
  target : Nat
  pageKind : BitVec 2
  op : Nat
  val1 : Nat
  val2 : Nat
  release : Bool
  wide : Bool
  seq : Nat
  marks : Marks
  wb : Option (List Nat)
  deriving DecidableEq, Repr, Inhabited

/-- A continuation that WAITC has reserved a chunk for, until its strand has ended, with the write-backs that the word as a
release of the strand's accesses waits for (R262, R267). -/
structure Waitc where
  chunk : Nat
  object : Nat
  entry : Word
  mask : Word
  s : List Word
  v : List Vec
  wb : Option (List Nat)
  deriving DecidableEq, Repr, Inhabited

/-- A release of the D stream that has retired and is not yet performed: the bytes of an ST.REL, or the word and value of the
absolute-maximum atomic of a DRAIN; its place in program order, what D had passed, the requests made before it, and the
write-backs it waits for (R294, R301, R305). -/
structure Release where
  amax : Bool
  kind : BitVec 2
  addr : Nat
  len : Nat
  value : Nat
  wide : Bool
  seq : Nat
  marks : Marks
  upTo : Nat
  wb : Option (List Nat)
  deriving DecidableEq, Repr, Inhabited

/-- A load that a stop has abandoned: its word, the values of its address registers, and the pc and loop levels of its place
(R158, R159). -/
structure PendLoad where
  word : BitVec 32
  ra : Word
  rb : Word
  pc : Word
  loops : List Loop
  deriving DecidableEq, Repr, Inhabited

/-- One strand (R74, R78, R79 and the system registers of its streams). -/
structure Strand where
  a : Stream
  x : Stream
  d : Stream
  v : Vector Vec 28
  p : Vector Pred 12
  h : Vector Handle 16
  qAX : List Word
  qXA : List Word
  qXD : List Word
  vAX0 : List VEntry
  vAX1 : List VEntry
  vXD0 : List Vec
  vXD1 : List Vec
  /-- the six branch queues, numbered as R102 numbers them -/
  bq : Vector (List Word) 6
  cq : List (BitVec 32)
  cqBase : Nat
  tokAX : Nat
  tokXA : Nat
  tokXD : Nat
  tokDX : Nat
  trapEntry : Word
  trapCause : Word
  trapInfo : Word
  trapMode : Bool
  setAside : Option (SetAside × SetAside × SetAside × Vector (List Word) 6)
  ldstat : Word
  ldstatpc : Word
  ls0 : Option AffineStream
  ls1 : Option AffineStream
  cplast : BitVec 4
  xctl : Word
  srX : Word
  srD : Word
  syncstat : Word
  syncQ : List SyncCmd
  waitc : Option Waitc
  ststat : Word
  ststatAddr : Word
  ds0 : Option AffineStream
  ds1 : Option AffineStream
  /-- vectors written since the DBIND of each drain stream (R287) -/
  written0 : Nat
  written1 : Nat
  rels : List Release
  load : Option PendLoad
  fault : Option (BitVec 8)
  /-- the pending reply of an X word and of a D word that a stop has kept: register, value, status (R274, R305, R339) -/
  reply : Option (Nat × Nat × Nat)
  replyD : Option (Nat × Nat × Nat)
  deriving DecidableEq, Repr, Inhabited

/-- The fate of a request: its status (R127, R217), its data, and the poisoned 8-byte words of that data (R381). -/
structure Reply where
  status : Nat
  data : Nat
  poison : Nat
  deriving DecidableEq, Repr, Inhabited

/-- The packet fields of R381. -/
structure Packet where
  kind : Nat
  dstMod : Nat
  dstDie : Nat
  srcMod : Nat
  srcDie : Nat
  unit : Nat
  eng : Bool
  tag : Nat
  gen : Nat
  cls : Nat
  host : Bool
  deadline : Nat
  context : Nat
  addr : Nat
  poison : Nat
  status : Nat
  op : Nat
  arg : Nat
  data : Nat
  mask : Nat
  deriving DecidableEq, Repr, Inhabited

/-- What a request is for, where its reply does more than wait to be read. -/
inductive Purpose where
  /-- a word or an engine reads the reply from the record -/
  | plain
  /-- a request whose word has been dropped: its reply is not used -/
  | dropped
  /-- a remote-cache fill of the sector at `addr` for a context (R44, R151) -/
  | fill (context : Nat)
  /-- a remote-cache write-back (R53); strand keys that report its failure -/
  | writeBack (context : Nat) (strand : Option Nat)
  /-- a store handed to path st: the strand and the address STSTATADDR would name (R286) -/
  | store (strand : Nat) (first : Nat)
  /-- a queued sync command of a strand (R260) -/
  | sync (strand : Nat)
  /-- the absolute-maximum atomic of a DRAIN of a strand (R286, R294) -/
  | amax (strand : Nat)
  /-- a request for host memory that another module's die has sent to this proxy (R391) -/
  | proxied (p : Packet)
  deriving DecidableEq, Repr, Inhabited

/-- An outstanding request that leaves its requester (R151, R152, R260, R389): who asks, what, its tag and generation
once it has left with its place in the order of leaving, and its reply. `cls` tells loads, stores and sync commands apart. -/
structure Req where
  die : Nat
  unit : Nat
  cls : Nat
  kind : Nat
  addr : Nat
  len : Nat
  data : Nat
  mask : Nat
  poison : Nat
  op : Nat
  arg : Nat
  context : Nat
  owner : Option Nat
  purpose : Purpose
  tag : Option Nat
  gen : Nat
  sent : Nat
  order : Nat
  asked : Bool
  /-- a read of host memory whose request is on the PCI Express link (R442), or a fill that an invalidation has overtaken (R394)
  -/
  mark : Bool
  reply : Option Reply
  deriving DecidableEq, Repr, Inhabited

/-- A sector of the remote cache, by its physical address ÷ 128 (R44, R53). -/
structure Sector where
  context : Nat
  data : Nat
  present : Nat
  dirty : Nat
  poison : Nat
  deriving DecidableEq, Repr, Inhabited

/-- Who asked for a sync operation: a request of this die, or a packet of another (R260, R382). -/
inductive Origin where
  | here (id : Nat)
  | packet (p : Packet)
  deriving DecidableEq, Repr, Inhabited

/-- A registered waiter: BARW 0 with its generation, CWAIT 1 with its threshold, SEMP 2; the cycle it registered, and the
overflow chunk that holds it, if one does (R258, R266). -/
structure Waiter where
  origin : Origin
  kind : Nat
  object : Nat
  value : Nat
  since : Nat
  chunk : Option Nat
  deriving DecidableEq, Repr, Inhabited

/-- A registered continuation record: its chunk, its object and its registration sequence (R267-R269). -/
structure Cont where
  chunk : Nat
  object : Nat
  seq : Nat
  task : Nat
  deriving DecidableEq, Repr, Inhabited

/-- A claim in the combining tree (R298). -/
structure Claim where
  object : Nat
  window : Nat
  polder : Nat
  strand : Nat
  want : Nat
  req : Nat
  deriving DecidableEq, Repr, Inhabited

/-- A fired trigger that the task engine has not taken: the counter, the record and the scope of the acquire (R264). -/
structure Trigger where
  counter : Nat
  record : Nat
  scope : Nat
  deriving DecidableEq, Repr, Inhabited

/-- The state of a scoreboard entry (R219). -/
inductive CopyState where
  | free | queued | active | suspended
  deriving DecidableEq, Repr, Inhabited

/-- What a copy command does. -/
inductive CopyOp where
  | bytes | convert | gather | sidecar | queue | merge (op : Nat) | bfmt (bank code : Nat)
  deriving DecidableEq, Repr, Inhabited

/-- A unit in flight: whether it is being written, and its requests (R213, R218). -/
structure Flight where
  unit : Nat
  writing : Bool
  ids : List Nat
  deriving DecidableEq, Repr, Inhabited

/-- A scoreboard entry and the copy command it holds (R39, R213, R219, R222). -/
structure CopyCmd where
  state : CopyState
  op : CopyOp
  word : BitVec 32
  follow : Option (BitVec 32)
  /-- the operand registers as captured: source, destination, length, scale address or position -/
  src : Word
  dst : Word
  len : Word
  aux : Word
  srcH : Option Handle
  dstH : Option Handle
  auxH : Option Handle
  scol : Bool
  sc : Bool
  strand : Nat
  /-- place in program order, order of issue in the crew, the number of its follow-on, and what its stream had passed -/
  seq : Nat
  order : Nat
  stamp : Nat
  marks : Marks
  /-- where the source, the destination and their scale words begin, and the bytes of the destination -/
  srcPa : Nat
  dstPa : Nat
  srcScale : Option Nat
  dstScale : Option Nat
  dstLen : Nat
  /-- the recorded ranges of both sides -/
  srcR : List (Nat × Nat)
  dstR : List (Nat × Nat)
  /-- operand ring, 8 for none, and the sequence index of its stage -/
  ring : Nat
  stage : Nat
  units : Nat
  /-- the lowest unit that has not landed, and the units above it that have -/
  next : Nat
  landed : List Nat
  flight : List Flight
  /-- a merge's result, once every read has its result (R210) -/
  merged : Option Nat
  counted : Nat
  overfill : Bool
  poisoned : Bool
  cancelled : Bool
  seg : Nat
  status : Nat
  note : Option Nat
  deriving DecidableEq, Repr, Inhabited

/-- An operand ring buffer (R203, R204, R232). Stage indices count without bound. -/
structure OpRing where
  bank : Nat
  stages : Nat
  stageSize : Nat
  head : Nat
  tail : Nat
  fillStage : Nat
  fillOff : Nat
  counts : List Nat
  consStage : Nat
  consSlab : Nat
  deriving DecidableEq, Repr, Inhabited

/-- A matrix command in a queue (R243, R252). -/
structure MatCmd where
  word : BitVec 32
  follow : Bool
  strand : Nat
  val1 : Word
  val2 : Word
  /-- its number for MCTL.WAIT, and for a follow-on the X words on its tile that precede its pair (R186) -/
  stamp : Nat
  after : Nat
  deriving DecidableEq, Repr, Inhabited

/-- The active command of a matrix queue (R233, R236, R238, R252). -/
structure MatActive where
  cmd : MatCmd
  mode : Word
  addr : Word
  /-- first positions of A and B as slab numbers of their rings, and how many of each are held -/
  aPos : Nat
  bPos : Nat
  aHeld : Nat
  bHeld : Nat
  /-- the tile it waits for with its place in the order of waiting, and the tile it owns -/
  wants : Option (Nat × Nat)
  owns : Option Nat
  /-- partial sums, row-major FP32, element 0 lowest; K-steps done, the next slab-step, and the K-steps done of it (R251) -/
  z : Nat
  kDone : Nat
  step : Nat
  part : Nat
  /-- MMAG: row-tile number, rows done, the rows of the current row-tile, its table and tile rows, whether it is in one -/
  rowTile : Nat
  rowsDone : Nat
  rowCount : Nat
  rows : List (Nat × Nat)
  looping : Bool
  /-- MCTL.POP: positions left; MMAG: 1 once the published length has not passed the rows done -/
  left : Nat
  overflow : Bool
  status : Option Nat
  deriving DecidableEq, Repr, Inhabited

/-- A matrix command that ended with a status other than 0 or set the overflow flag: its strand, its number, its status
and the flag (R242). -/
structure MatFail where
  strand : Nat
  stamp : Nat
  status : Nat
  overflow : Bool
  deriving DecidableEq, Repr, Inhabited

/-! ## The task engine's records (R306-R341) -/

/-- A gang launch record as the task engine read it, with its argument words, its tag-key table as segments and entries,
and its bank format codes (R306, R308, R310). -/
structure LaunchRec where
  addr : Nat
  words : List Word
  args : List Word
  tags : List (Nat × Nat)
  banks : List Nat
  deriving DecidableEq, Repr, Inhabited

/-- A record pending in a hardware queue: the entry of the host engine's table that entered it, its word 0 if that has
been read, and the cycle it was enqueued (R306, R313, R314, R438). -/
structure PendingRec where
  addr : Nat
  host : Option Nat
  word0 : Option Word
  since : Nat
  deriving DecidableEq, Repr, Inhabited

/-- A hardware queue: QCFG, its pass, its pending records, and the launch that is its head until it has retired
(R313-R315, R335). -/
structure Queue where
  cfg : Word
  pass : Nat
  pending : List PendingRec
  head : Option Nat
  deriving DecidableEq, Repr, Inhabited

/-- A graph being run: the tokens of its nodes, the nodes due to fire, the firings of its loop nodes, the launches of its
nodes that have not retired, and whether it has completed (R316-R318). -/
structure Graph where
  tokens : List (Nat × Nat)
  due : List Nat
  fires : List (Nat × Nat)
  running : List (Nat × Nat)
  done : Bool
  deriving DecidableEq, Repr, Inhabited

/-- Where the launches of a family stand towards pre-emption (R338-R341). -/
inductive Hold where
  | none | stopping | held | saved
  deriving DecidableEq, Repr, Inhabited

/-- An admitted launch: its record, queue, timestamp, job and context; the host's entry, and the graph launch and node
that its retirement sends tokens for; the gangs started and ended; its tag-key slot and whether that is closed (R309,
R312, R317, R319). -/
structure Launch where
  record : LaunchRec
  queue : Nat
  timestamp : Nat
  job : Nat
  context : Nat
  host : Option Nat
  node : Option (Nat × Nat)
  nextGang : Nat
  ended : Nat
  graph : Option Graph
  slot : Option Nat
  closed : Bool
  hold : Hold
  deriving DecidableEq, Repr, Inhabited

/-- How a child's position stands (R325). -/
inductive Fate where
  | unresolved | ended | cancelled | faulted | mergeFaulted
  deriving DecidableEq, Repr, Inhabited

/-- A child's position in its parent's fold, with its reserve slot as a run and a slot number (R323-R325). -/
structure Child where
  task : Nat
  fate : Fate
  slot : Option (Nat × Nat)
  deriving DecidableEq, Repr, Inhabited

/-- A task record (R323, R325, R328, R337): its launch, the record it runs under, its gang index, its parent with its
position, whether it is a child, its own registers at the start, its request and tag, whether an ancestor's end has
cancelled it; its unjoined children, fold position, prefix and folded count; what the latest JOIN recorded; and the slot
of views that a continuation takes up. -/
structure Task where
  launch : Nat
  record : LaunchRec
  entry : Nat
  gang : Nat
  parent : Option Nat
  child : Bool
  position : Nat
  depth : Nat
  job : Nat
  context : Nat
  queue : Nat
  timestamp : Nat
  origin : Nat
  first : List Word
  request : Option Nat
  tag : Nat
  doomed : Bool
  cancelled : Bool
  fault : Option Nat
  children : List Child
  foldAt : Nat
  pre : Option (Nat × Nat)
  folded : Nat
  cancelMask : Nat
  faultMask : Nat
  retained : List (Nat × Nat)
  ownSlot : Option (Nat × Nat)
  deriving DecidableEq, Repr, Inhabited

/-- A gang or a continuation on its polders: its task, the chunk of its continuation record, its origin and shape, whether
it has started, how it was stopped, and the write-backs of its end (R267, R311, R324, R327, R332). -/
structure Run where
  task : Nat
  cont : Option Nat
  origin : Nat
  width : Nat
  height : Nat
  strands : Nat
  started : Bool
  cancelled : Bool
  fault : Option Nat
  wb : Option (List Nat)
  joined : Bool
  deriving DecidableEq, Repr, Inhabited

/-- What is ready to be dispatched (R313). -/
inductive ReadyWork where
  | gang (launch : Nat)
  | child (task : Nat)
  | cont (task chunk : Nat)
  | tag (launch request entry tag : Nat)
  deriving DecidableEq, Repr, Inhabited

/-- Ready work with its queue, its timestamp and its place in the order of becoming ready (R313). -/
structure Ready where
  work : ReadyWork
  queue : Nat
  timestamp : Nat
  order : Nat
  deriving DecidableEq, Repr, Inhabited

/-- An entry of the request table (R319). -/
structure Request where
  id : Nat
  next : Nat
  rot : Nat
  late : Nat
  budget : Nat
  close : Bool
  state : Nat
  slot : Nat
  ts : Nat
  setNext : Nat
  seq : Nat
  deriving DecidableEq, Repr, Inhabited

/-- One crew: what its launch record fixes, and the state its strands share (R31, R307). -/
structure Crew where
  partition : BitVec 32
  strands : Nat
  textBase : Nat
  textSize : Nat
  debug : Bool
  system : Bool
  context : Nat
  crewX : Nat
  crewY : Nat
  stage : Nat
  /-- the number of the run (R307) and whether it is a root gang whose views are not saved (R267) -/
  task : Nat
  viewsUnsaved : Bool
  /-- the strands that have ended (R99), and whether a stop holds the crew's streams (R338) -/
  endedStrands : List Nat
  halted : Bool
  bankFmt : Vector (BitVec 8) 128
  rings : Vector OpRing 8
  copies : Vector CopyCmd 16
  copyOrder : Nat
  cpstat : Word
  /-- the metadata queue: entries of 512 bytes with a poison mark (R209) -/
  metaQ : List (Nat × Bool)
  /-- matrix engine: mode slots, the normal and the urgent queue with their active commands, tile full bits, the
  arbiter's streak, MXSTAT, the numbers handed out and the failures in retirement order (R228, R242-R244, R248) -/
  modes : Vector (Word × Word) 4
  matQ : List MatCmd
  matU : List MatCmd
  actQ : Option MatActive
  actU : Option MatActive
  tilesFull : Nat
  streakUrgent : Bool
  streakSteps : Nat
  mxstat : Word
  matOrder : Nat
  matFails : List MatFail
  deriving DecidableEq, Repr, Inhabited

/-- A crew of a saved launch: its run, its place in the run, its crew, and its strands by index. -/
structure SavedCrew where
  run : Nat
  place : Nat
  /-- its polder before, and where its container lies in the save area, in bytes -/
  polder : Nat
  offset : Nat
  crew : Crew
  strands : List (Nat × Strand)
  deriving DecidableEq, Repr, Inhabited

/-- The task engine of a die (R306-R341): TECTL and TESTAT's counts, the 32 queues, V, the number of the next ready task,
launches, the task table, runs, ready work, the cancelled-job table, tag-key slots, the request table, the die's tag
sequence, the cycle of a reset that the engine has not resumed from, and the pre-emption registers. -/
structure TaskEngine where
  ctl : Word
  drops : Nat
  rejects : Nat
  queues : Vector Queue 32
  served : Nat
  order : Nat
  launches : List (Nat × Launch)
  launchNo : Nat
  tasks : List (Nat × Task)
  runs : List (Nat × Run)
  runNo : Nat
  ready : List Ready
  jobs : List (Nat × Nat)
  slots : List (Nat × Nat)
  requests : List (Nat × Request)
  tagSeq : Nat
  down : Option Nat
  preempt : Word
  preemptRec : Word
  saveBase : Word
  saveSize : Word
  snapSel : Word
  /-- the launch that a stop in progress stops, and whether it is to be saved; the containers of held crews by polder;
  the crews of saved launches: their run, their place in it, and what their containers do not carry -/
  stopping : Option (Nat × Bool)
  containers : List (Nat × List Word)
  saved : List SavedCrew
  deriving DecidableEq, Repr, Inhabited

/-- An arrival record of a segment (R91). -/
structure ArrivalRec where
  rotation : BitVec 8
  seq : Nat
  deriving DecidableEq, Repr, Inhabited

/-- A segment on its way, with its frame (R343): the payload as one number, byte 0 lowest, and whether it holds poison. -/
structure Frame where
  index : Nat
  rot : Nat
  kind : Nat
  bad : Bool
  stripe : Nat
  member : Nat
  crc : Nat
  payload : Nat
  poison : Bool
  deriving DecidableEq, Repr, Inhabited

/-- A control record on the ring links: a drop, a lost segment, each with the die it came from, or the request table of the
upstream neighbour as identifiers and slots (R351, R357, R369, R370). -/
inductive RingCtl where
  | drop (index origin : Nat)
  | lost (index origin : Nat)
  | mirror (table : List (Nat × Nat))
  deriving DecidableEq, Repr, Inhabited

/-- What leaves the module through its ring-out connector. -/
inductive RingMsg where
  | frame (f : Frame)
  | ctl (c : RingCtl)
  deriving DecidableEq, Repr, Inhabited

/-- A parity build 0, a rebuild by RPAR 1, or a rebuild in a repair 2, with its accumulator (R361, R368). -/
structure RingJob where
  mode : Nat
  target : Nat
  stripe : Nat
  first : Option Nat
  folded : List Nat
  payload : Nat
  crc : Nat
  bad : Bool
  done : Bool
  deriving DecidableEq, Repr, Inhabited

/-- Why a ring holds, at the die that sees it through: entering 1 or leaving 2 bypass, the failure of a die 3 or of its
ring link 4, an engine reset 5 (R362, R366, R372); the die concerned; the cycle it began. -/
structure RingHold where
  kind : Nat
  target : Nat
  since : Nat
  deriving DecidableEq, Repr, Inhabited

/-- A repair: the segment before the gap, the segments to be rebuilt in stream order, those inserted, those reported lost,
and how many were re-sent (R367-R369). -/
structure Repair where
  gap : Option Nat
  order : List Nat
  inserted : List Nat
  lost : List Nat
  resent : Nat
  deriving DecidableEq, Repr, Inhabited

/-- The ring engine of a die behind its registers (R342-R372): the forwarding queue and whether its head is being sent;
retained copies, oldest first; kept copies with whether they are withheld, and the requests to keep; the CRC of the copies
held; segments found bad here; queued events; RGCOUNT; the freeboard request; jobs; the last forwards; the last segment
received; frames and control records that have come in; drops issued here as record back and left; dropped segments that
may still pass, and dropped ones; the mirror; RGSTAT.STATE when it is neither stopped nor running; the hold and the
repair; RGLOSS and RGLOSSCNT; and how often the die's ring has changed. -/
structure RingEngine where
  queue : List Nat
  sending : Bool
  retained : List Nat
  kept : List (Nat × Bool)
  pins : List Nat
  withholds : List Nat
  crcs : List (Nat × Nat)
  found : List Nat
  events : List Nat
  count : Word
  request : Nat
  jobs : List RingJob
  log : List Nat
  lastIn : Option Nat
  ingress : List Frame
  ctl : List RingCtl
  drops : List (Nat × Bool × Bool)
  past : List Nat
  dropped : List Nat
  mirror : List (Nat × Nat)
  state : Nat
  hold : Option RingHold
  repair : Option Repair
  loss : Word
  lossCnt : Nat
  gen : Nat
  deriving DecidableEq, Repr, Inhabited

/-- A control record in a control flit: a set-aside notice for a destination, a lane notice that takes a lane out or brings
it back, a drain marker, the confirmation of a key change (R378, R387, R396, R399, R417). -/
inductive LinkRec where
  | aside (dest : Nat)
  | lane (lane : Nat) (back : Bool)
  | marker
  | keyDone
  deriving DecidableEq, Repr, Inhabited

/-- The fields of a flit header (R377). Types are 0 idle, 1 data, 2 control. -/
structure FlitHeader where
  seq : Nat
  ack : Nat
  nak : Bool
  keyIdx : Nat
  ftype : Nat
  lmap : Nat
  sop : Nat
  crq : Nat
  crs : Nat
  deriving DecidableEq, Repr, Inhabited

/-- A sequenced flit in the replay buffer: its 256 bytes as first sent, byte 0 lowest, the lane mask that its predecessor
announced, and the payload it was encrypted from (R380). -/
structure Sent where
  bytes : Nat
  mask : Nat
  payload : Nat
  deriving DecidableEq, Repr, Inhabited

/-- A fabric link of a die (R375-R400, R405): its peer, a die of the domain; whether it is up, lit, and since when it relocks;
LINKCTL and LINKERR; the inbound lanes' LANESTAT, and those refused in this window; the outbound lane mask, the one last announced
and whether it is to be announced, the inbound mask; outbound sequence, replay buffer, oldest first, and how many of it have been
sent again; the sequence expected, whether a NAK is due, and the tag failures in a row; the link secret, the outbound key number,
the sequence from which the new key is in use while an old one is not retired, the flits under the key, the cycle of the last
automatic rotation, the inbound key number and the flits accepted under it; the slots of a packet that has been sent in part, and
of one that has come in in part; the packet buffers of each class lent by the peer, and those to be returned to it; control
records to be sent, lane notices, set-aside notices and a drain marker received; and the flits on their way to this die, each as
its beats with their lanes. -/
structure Link where
  peer : Option Nat
  up : Bool
  lit : Bool
  relock : Option Nat
  ctl : Word
  err : Word
  lanes : Vector Word 8
  refused : List Nat
  txMask : Nat
  txLast : Nat
  rxMask : Nat
  maskDue : Bool
  txSeq : Nat
  replay : List Sent
  resend : Option Nat
  rxSeq : Nat
  nakDue : Bool
  authFails : Nat
  secret : Nat
  keyNum : Nat
  oldKey : Option Nat
  keyCount : Nat
  rotated : Option Nat
  rxKey : Nat
  rxCount : Nat
  outSlots : List Nat
  inSlots : List Nat
  creditQ : Nat
  creditS : Nat
  owedQ : Nat
  owedS : Nat
  records : List LinkRec
  notices : List (Nat × Bool)
  asideIn : List Nat
  marked : Bool
  wire : List (List (Nat × Nat))
  deriving DecidableEq, Repr, Inhabited

/-- A set-aside queue: its destination, the packets of its flow with their inbound links, the cycle since which it has been empty,
and the links it has sent notices on (R386, R387). A packet in one of its sixteen places has 8 added to its link; the others of
the flow that follow it still hold an input buffer. -/
structure Aside where
  dest : Nat
  packets : List (Packet × Nat)
  since : Nat
  noticed : List Nat
  deriving DecidableEq, Repr, Inhabited

/-- An invalidation that awaits its acknowledgement: the entry, the holder, the page and its size code, when it was last
handed on, whose write waits for it, and its request under the translation agent's tags (R389, R393). -/
structure Inval where
  entry : Nat
  holder : Nat
  base : Nat
  size : Nat
  sent : Nat
  owner : Option Nat
  req : Option Nat
  deriving DecidableEq, Repr, Inhabited

/-- An invalidation that this die performs: its packet, the write-backs it waits for, and the requests made before it, of
which those to its page must end (R139, R388, R393). -/
structure Clearing where
  packet : Packet
  wb : List Nat
  upTo : Nat
  deriving DecidableEq, Repr, Inhabited

/-- The corrected errors of a class of arrays: all of them, and those of the present second with the cycle it began (R55, R455).
-/
structure ArrayErrors where
  total : Nat
  count : Nat
  since : Nat
  deriving DecidableEq, Repr, Inhabited

/-- One compute die. -/
structure Die where
  cycle0 : Nat
  /-- translation table: entry k as its two words (R139); entries not listed are zero -/
  xent : List (Nat × (Word × Word))
  holders : List (Nat × (List Nat × Bool))
  filled : List (Nat × Nat)
  frbase : Word
  frctl : Word
  frlost : Nat
  remtimeout : Word
  stallwd : Word
  gmap : Word
  gmember : Word
  gpos : List (Nat × Word)
  cache : List (Nat × Sector)
  inbox : List (Packet × Nat)
  router : List (Packet × Nat)
  fbstat : Word
  errBase : Word
  errCtl : Word
  errHead : Nat
  errTail : Word
  errDrop : Nat
  /-- corrected errors of each class of arrays (R55, R455, R459) -/
  corrected : List (Nat × ArrayErrors)
  /-- the slab-step ramp: its registers, the slab-steps and fillers of this window and the cycle it began (R334, R456) -/
  rampctl : Word
  rampstat : Word
  rampSteps : Nat
  rampFills : Nat
  rampStart : Nat
  mxcap : Word
  /-- sync engine: registers, waiters, overflow chunks (0 reserved, 1 record, 2 spilled waiters), registered and released
  continuations, next registration sequence of each object, counters it has operated on, triggers fired and not taken, claims
  (R258-R273) -/
  syncctl : Word
  syncOvBase : Word
  syncOvSize : Word
  syncRefused : Nat
  waiters : List Waiter
  chunks : List (Nat × Nat)
  conts : List Cont
  released : List Cont
  sigSeq : List (Nat × Nat)
  armed : List Nat
  fired : List Trigger
  claims : List Claim
  /-- releases that had retired in strands of a discarded launch: strand key and release (R305, R341) -/
  orphans : List (Nat × Release)
  te : TaskEngine
  /-- ring engine -/
  rgctl : Word
  desc : List (Nat × Word)
  arrivals : List (Nat × ArrivalRec)
  rptext : Word
  rpentry : Word
  rprunning : Bool
  rpreason : BitVec 8
  rpcause : BitVec 8
  rppc : Word
  rotStream : Stream
  rg : RingEngine
  /-- fabric engine: links, set-aside queues, since when a destination has had enough packets here, when a link last brought
  packets of a flow, CONGCTL, XASTAT's counts, invalidations sent and received; the requests made before a reconfiguration froze
  injection, and the links on which its drain markers have come (R375-R394, R405, R417) -/
  links : Vector Link 4
  asides : List Aside
  busy : List (Nat × Nat)
  flows : List (Nat × Nat)
  congctl : Word
  xaFills : Nat
  xaBcast : Nat
  invals : List Inval
  performing : List Clearing
  frozen : Option Nat
  markers : List Nat
  /-- out of reset and not fenced (R447, R458) -/
  live : Bool
  deriving DecidableEq, Repr, Inhabited

/-- An entry of the outstanding-launch table: its user queue, its interrupt vector, whether the launch has retired, and the
request of a decrement whose reply its interrupt follows (R438, R441). -/
structure HostLaunch where
  user : Nat
  irq : Option Nat
  retired : Bool
  after : Option Nat
  deriving DecidableEq, Repr, Inhabited

/-- A user queue: UQBASE, UQCTL, UQRPTR, UQERR, its notify flag, whether it is being served, the packet fetched and not yet
performed, and the request of a barrier's decrement whose reply its interrupt follows (R432, R437, R439, R441). -/
structure UserQueue where
  base : Word
  ctl : Word
  rptr : Nat
  err : Word
  notify : Bool
  busy : Bool
  packet : Option (List Word)
  sent : Option Nat
  deriving DecidableEq, Repr, Inhabited

/-- The host engine and the PCI Express function (R424-R444). -/
structure HostEngine where
  launches : List (Nat × HostLaunch)
  linkUp : Bool
  hectl : Word
  hestat : Word
  introute : List (Nat × Word)
  /-- the MSI-X table's addresses and data, masked and pending vectors -/
  msix : List (Nat × Word)
  msixMasked : List Nat
  msixPending : List Nat
  /-- MSI-X messages sent, oldest first -/
  messages : List Nat
  uqs : List (Nat × UserQueue)
  /-- the queue served last -/
  served : Nat
  /-- writable words of the configuration header by their byte offset (log 7) -/
  config : List (Nat × BitVec 32)
  /-- completions returned to the host, oldest first: status 0 success, 1 unsupported request, 2 success with poisoned data,
  4 completer abort; and data -/
  completions : List (Nat × Nat)
  /-- requests on the link whose requesters have timed out, and requests that a fall of the link or a reset has lost (R444) -/
  late : List (Nat × Req)
  lost : List Nat
  deriving DecidableEq, Repr, Inhabited

/-- The sluice (R408-R423): its registers; the dies of the request in progress; when its step began; the paths to be relocked with
the attempts each has failed; how many have been relocked, whether one is published down; the times of its steps; whether a die of
the scope has been fenced meanwhile; the maps in force on dies of other modules that have been in a request with this one, and
those that the request in progress proposes for them, with the greatest epoch among their modules (R415, R420). Paths 0 to 63 are
the outbound directions 4d + l of link l of die d, 64 + d the ring egress of die d. -/
structure Sluice where
  ctl : Word
  time : Word
  scope : Word
  stat : Word
  next : Vector Word 16
  ext : List (Nat × Word)
  dies : List Nat
  began : Nat
  paths : List (Nat × Nat)
  relocked : Nat
  failed : Bool
  drainUs : Nat
  darkUs : Nat
  fenced : Bool
  others : List (Nat × Word)
  offers : List (Nat × Word)
  farEpoch : Nat
  deriving DecidableEq, Repr, Inhabited

/-- A journal entry (R448). -/
structure JournalEntry where
  step : Nat
  target : Nat
  begun : Bool
  ended : Bool
  ok : Bool
  fails : Nat
  deriving DecidableEq, Repr, Inhabited

/-- The management controller (R446-R459): the mailbox with its request and response bytes by offset; replies on the management
port; the boot step and target, when it began, and recovery; the journal; the staged image and whether it has been verified, the
running image, MEAS0, the security version and the fused minimum; key slots, bindings (1 clear, 2 + k slot k), the domain secret,
the relock counts of links, the links whose tag failures it has recorded; the fabric ports, and 256 + the dies whose ring
ingresses, left dark at this start; fenced dies; PWRCAP; and the dies whose caps a hot sensor holds down, each with one more than
the cycle since which it has been above 95 °C at the lowest cap, or 0. The two images are a length and bytes. -/
structure Mgmt where
  cmd : Word
  stat : Word
  tag : Nat
  req : List Host.Cell
  resp : List Host.Cell
  port : List (Nat × List Nat)
  boot : Nat
  target : Nat
  since : Nat
  recovery : Bool
  journal : List JournalEntry
  staged : Nat × List Host.Cell
  verified : Bool
  image : Nat × List Host.Cell
  meas0 : Nat
  version : Nat
  fused : Nat
  keys : List (Nat × Nat)
  binds : List (Nat × Nat)
  secret : Option Nat
  relocks : List (Nat × Nat)
  linkFails : List Nat
  dark : List Nat
  fenced : List Nat
  pwrcap : Nat
  hot : List (Nat × Nat)
  deriving DecidableEq, Repr, Inhabited

/-- The whole module. -/
structure State where
  cycle : Nat
  turns : List Turn
  turnNo : Nat
  fresh : Nat
  cur : Ctx
  inp : List Nat
  mem : List Host.Cell
  poison : List Nat
  crews : List (Nat × Crew)
  strands : List (Nat × Strand)
  dies : Vector Die 16
  reqs : List (Nat × Req)
  reqNo : Nat
  /-- generations of the tags of each requester, and the tags at rest with the cycle their rest ends (R151, R152) -/
  tagGen : List (Nat × Nat)
  tagRest : List (Nat × Nat)
  host : HostEngine
  ringOut : List RingMsg
  /-- flits that have left the module, with the external fabric port they left by (R408) -/
  fabricOut : List (Nat × List (Nat × Nat))
  sluice : Sluice
  mgmt : Mgmt
  deriving DecidableEq, Repr, Inhabited

/-! ## Reset: the Reset columns of the registers; what no rule gives is zero, or empty (log 6) -/

/-- A stream that has not started (R77). -/
def Stream.reset : Stream :=
  { pc := 0, regs := Vector.replicate 32 0, loops := [], loopBuf := [], cqPos := 0, spillSp := 0, ovBase := 0, ovPtr := 0
    ovLimit := 0, trapPc := 0, trapResume := 0, ended := false, arrived := false, wait := none, waited := 0, pend := none
    seq := 0, marks := { ld := 0, st := 0, syn := 0, acqA := 0, acqX := 0, acqD := 0, tiles := [] } }

/-- The task engine: TECTL enabled, every queue off and at pass 0, nothing pending (R315, R335). -/
def TaskEngine.reset : TaskEngine :=
  { ctl := 1, drops := 0, rejects := 0, queues := Vector.replicate 32 { cfg := 0, pass := 0, pending := [], head := none }
    served := 0, order := 0, launches := [], launchNo := 0, tasks := [], runs := [], runNo := 0, ready := [], jobs := []
    slots := [], requests := [], tagSeq := 0, down := none, preempt := 0, preemptRec := 0, saveBase := 0, saveSize := 0
    snapSel := 0, stopping := none, containers := [], saved := [] }

/-- The ring engine: stopped, with a freeboard request of 16 (R359). -/
def RingEngine.reset : RingEngine :=
  { queue := [], sending := false, retained := [], kept := [], pins := [], withholds := [], crcs := [], found := []
    events := [], count := 0, request := 16, jobs := [], log := [], lastIn := none, ingress := [], ctl := [], drops := []
    past := [], dropped := [], mirror := [], state := 0, hold := none, repair := none, loss := 0, lossCnt := 0, gen := 0 }

/-- A link: down and dark, LINKCTL with THRESH 4,096 and AUTOKEY 1 (R405). -/
def Link.reset : Link :=
  { peer := none, up := false, lit := false, relock := none, ctl := 0x0000100000000001, err := 0
    lanes := Vector.replicate 8 0, refused := [], txMask := 0, txLast := 0, rxMask := 0, maskDue := false, txSeq := 0, replay := []
    resend := none, rxSeq := 0, nakDue := false, authFails := 0, secret := 0, keyNum := 0, oldKey := none, keyCount := 0
    rotated := none, rxKey := 0, rxCount := 0, outSlots := [], inSlots := [], creditQ := 0, creditS := 0, owedQ := 0, owedS := 0
    records := [], notices := [], asideIn := [], marked := false, wire := [] }

/-- A die: REMTIMEOUT 64, STALLWD on at 100, WAITLIMIT 100, RAMPCTL on with STEP 300, SEGSIZE 2, CONGCTL 256, 12 and 512
(R64, R152, R258, R335, R352, R405). It has not left reset (R447). -/
def Die.reset : Die :=
  { cycle0 := 0, xent := [], holders := [], filled := [], frbase := 0, frctl := 0, frlost := 0, remtimeout := 64
    stallwd := 0x80000064, gmap := 0, gmember := 0, gpos := [], cache := [], inbox := [], router := [], fbstat := 0
    errBase := 0, errCtl := 0, errHead := 0, errTail := 0, errDrop := 0, corrected := [], rampctl := 0x800000000000012C, rampstat := 0
    rampSteps := 0, rampFills := 0, rampStart := 0, mxcap := 0, syncctl := 100, syncOvBase := 0, syncOvSize := 0
    syncRefused := 0, waiters := [], chunks := [], conts := [], released := [], sigSeq := [], armed := [], fired := []
    claims := [], orphans := [], te := TaskEngine.reset, rgctl := 0x0000100000000000, desc := [], arrivals := [], rptext := 0, rpentry := 0
    rprunning := false, rpreason := 0, rpcause := 0, rppc := 0, rotStream := Stream.reset, rg := RingEngine.reset
    links := Vector.replicate 4 Link.reset, asides := [], busy := [], flows := [], congctl := 0x00000100000C0200, xaFills := 0
    xaBcast := 0, invals := [], performing := [], frozen := none, markers := [], live := false }

/-- The host engine: nothing enabled, every MSI-X vector masked (R430-R432; log 7). -/
def HostEngine.reset : HostEngine :=
  { launches := [], linkUp := false, hectl := 0, hestat := 0, introute := [], msix := [], msixMasked := List.range 256
    msixPending := [], messages := [], uqs := [], served := 0, config := [], completions := [], late := [], lost := [] }

/-- The sluice: SLTIME 200, no map (R413). -/
def Sluice.reset : Sluice :=
  { ctl := 0, time := 200, scope := 0, stat := 0, next := Vector.replicate 16 0, ext := []
    dies := [], began := 0, paths := [], relocked := 0, failed := false, drainUs := 0, darkUs := 0, fenced := false
    others := [], offers := [], farEpoch := 0 }

/-- The management controller at a first module start: boot step 1 begun, no key, PWRCAP 5,300 W (R447, R448, R453, R457). -/
def Mgmt.reset : Mgmt :=
  { cmd := 0, stat := 0, tag := 0, req := [], resp := [], port := [], boot := 1, target := 0, since := 0, recovery := false
    journal := [{ step := 1, target := 0, begun := true, ended := false, ok := false, fails := 0 }], staged := (0, [])
    verified := false, image := (0, []), meas0 := 0, version := 0, fused := 0, keys := [], binds := [], secret := none
    relocks := [], linkFails := [], dark := [], fenced := [], pwrcap := 5300, hot := [] }

/-- The module right after reset: no crew, no strand, memory with nothing listed, every die in reset, the boot about to
begin. The lists of turns and of free values begin at 0 (log 1, log 3). -/
def State.reset : State :=
  { cycle := 0, turns := [], turnNo := 0, fresh := 0, cur := { die := 0, polder := 0, strand := 0, str := .x, rot := false }
    inp := [], mem := [], poison := [], crews := [], strands := [], dies := Vector.replicate 16 Die.reset, reqs := []
    reqNo := 0, tagGen := [], tagRest := [], host := HostEngine.reset, ringOut := [], fabricOut := [], sluice := Sluice.reset
    mgmt := Mgmt.reset }

end Sys2Proof.Machine
end

