-- ==== Sys2Proof/Machine/Ops.lean ====
section
/-! DEFINITION. The named operations over the state: tables, memory, registers and queue ports, tokens, hardware
loops, retiring a word, taking a trap and returning from one. -/

namespace Sys2Proof.Machine

/-! ## Tables: lists of keys and values with keys strictly rising -/

/-- The value at a key. -/
def look {α : Type} (k : Nat) : List (Nat × α) → Option α
  | [] => none
  | (j, a) :: r => if j = k then some a else look k r

/-- Set the value at a key. -/
def put {α : Type} (k : Nat) (a : α) : List (Nat × α) → List (Nat × α)
  | [] => [(k, a)]
  | (j, b) :: r =>
    if k < j then (k, a) :: (j, b) :: r
    else if j = k then (k, a) :: r
    else (j, b) :: put k a r

/-- Remove a key. -/
def unput {α : Type} (k : Nat) : List (Nat × α) → List (Nat × α)
  | [] => []
  | (j, b) :: r => if j = k then r else (j, b) :: unput k r

/-- Keys strictly rising from `lo`. -/
def risingFrom {α : Type} (lo : Nat) : List (Nat × α) → Bool
  | [] => true
  | (j, _) :: r => lo ≤ j && risingFrom (j + 1) r

/-! ## Memory -/

/-- What an address that is not listed reads as (log 4). -/
def Memory.unlisted : Byte := 0

/-- The byte at an address. -/
def Memory.get (a : Nat) : List Host.Cell → Byte
  | [] => Memory.unlisted
  | (j, b) :: r => if j = a then b else Memory.get a r

/-- The canonical form: addresses strictly rising, no entry equal to what an unlisted address reads as. -/
def Memory.wfFrom (lo : Nat) : List Host.Cell → Bool
  | [] => true
  | (j, b) :: r => lo ≤ j && b != Memory.unlisted && Memory.wfFrom (j + 1) r

/-- The canonical form of a memory. -/
def Memory.wf (m : List Host.Cell) : Bool := Memory.wfFrom 0 m

/-- One byte at a fabric physical address. -/
def State.byteAt (s : State) (a : Nat) : Byte := Memory.get a s.mem

/-- `n` bytes from an address up, as one little-endian number (R4), of a list that begins at that address or above. -/
def Memory.gather (a : Nat) : Nat → List Host.Cell → Nat
  | 0, _ => 0
  | _ + 1, [] => 0
  | n + 1, (j, b) :: r =>
    if j = a then b.toNat + 256 * Memory.gather (a + 1) n r else 256 * Memory.gather (a + 1) n ((j, b) :: r)

/-- `n` bytes from an address up, as one little-endian number (R4). -/
def Memory.readN (m : List Host.Cell) (a n : Nat) : Nat := Memory.gather a n (m.filter fun c => a ≤ c.1)

/-- The entries of the low `n` bytes of a number from an address up (R4). -/
def Memory.cells (a v : Nat) : Nat → List Host.Cell
  | 0 => []
  | n + 1 =>
    if BitVec.ofNat 8 v = Memory.unlisted then Memory.cells (a + 1) (v / 256) n
    else (a, BitVec.ofNat 8 v) :: Memory.cells (a + 1) (v / 256) n

/-- Write the low `n` bytes of a number from an address up (R4). -/
def Memory.writeN (a v n : Nat) (m : List Host.Cell) : List Host.Cell :=
  m.filter (fun c => c.1 < a) ++ (Memory.cells a v n ++ m.filter fun c => a + n ≤ c.1)

/-- Read `n` bytes (R4). -/
def State.readN (s : State) (a n : Nat) : Nat := Memory.readN s.mem a n

/-- Read an aligned 64-bit word of memory (R4). -/
def State.word64 (s : State) (a : Nat) : Word := BitVec.ofNat 64 (s.readN a 8)

/-- The aligned 8-byte words that the bytes from `a` touch (R55). -/
def wordsOf (a n : Nat) : List Nat :=
  if n = 0 then [] else (List.range ((a + n - 1) / 8 - a / 8 + 1)).map (a / 8 + ·)

/-- The first poisoned 8-byte word that the bytes touch, as an address (R55, R57). -/
def State.poisonIn (s : State) (a n : Nat) : Option Nat :=
  ((wordsOf a n).find? fun w => s.poison.contains w).map (8 * ·)

/-- Good data written over a whole 8-byte word replaces its poison; a word written in part keeps it (R55; log 15). -/
def clearPoison (a n : Nat) (ps : List Nat) : List Nat :=
  ps.filter fun w => !(a ≤ 8 * w && 8 * w + 8 ≤ a + n)

/-- Mark the 8-byte words of a range poisoned, in rising order (R55). -/
def addPoison (a n : Nat) (ps : List Nat) : List Nat :=
  (wordsOf a n).foldl (fun ps w => if ps.contains w then ps else (ps.filter (· < w)) ++ w :: ps.filter (w < ·)) ps

/-- Write `n` bytes of good data. -/
def State.writeN (s : State) (a v n : Nat) : State :=
  { s with mem := Memory.writeN a v n s.mem, poison := if s.poison.isEmpty then [] else clearPoison a n s.poison }

/-- The bits of the bytes selected by a byte mask (R44). -/
def byteBits (mask : Nat) : Nat → Nat
  | 0 => 0
  | n + 1 => (if mask % 2 = 1 then 255 else 0) + 256 * byteBits (mask / 2) n

/-- Replace the bytes a mask selects. -/
def mergeBytes (old new mask n : Nat) : Nat :=
  let b := byteBits mask n
  (new &&& b) ||| (old &&& (b ^^^ (2 ^ (8 * n) - 1)))

/-- Write bytes under a mask of bytes (R44, R382): byte i is written where bit i of the mask is set. Only a word written whole
loses its poison (R55). -/
def State.writeMasked (s : State) (a v mask n : Nat) : State :=
  { s with
    mem := Memory.writeN a (mergeBytes (s.readN a n) v mask n) n s.mem
    poison := s.poison.filter fun w => !(a ≤ 8 * w && 8 * w + 8 ≤ a + n && mask / 2 ^ (8 * w - a) % 256 = 255) }

/-! ## Fabric physical addresses (R2, R40) -/

/-- The module field. -/
def paModule (a : Nat) : Nat := a / 2 ^ 48 % 16

/-- The die field. -/
def paDie (a : Nat) : Nat := a / 2 ^ 44 % 16

/-- The offset field. -/
def paOffset (a : Nat) : Nat := a % 2 ^ 44

/-- The address of an offset of a die of this module, module 0 (log 2). -/
def dieAddr (die off : Nat) : Nat := die * 2 ^ 44 + off

/-- Where the pool of a polder begins within its die (R40). -/
def poolOffset (polder : Nat) : Nat := 0x500000000 + polder * 0x800000

/-! ## Agents -/

/-- The key of a crew in its table. -/
def crewKey (die polder : Nat) : Nat := die * 64 + polder

/-- The key of a strand in its table. -/
def strandKey (die polder strand : Nat) : Nat := (die * 64 + polder) * 4 + strand

/-- A die's state. -/
def State.die (s : State) (d : Nat) : Die := (s.dies[d]?).getD default

/-- Replace a die's state. -/
def State.setDie (s : State) (d : Nat) (x : Die) : State := { s with dies := s.dies.setIfInBounds d x }

/-- The crew of a polder, if it holds one (R13). -/
def State.crew? (s : State) (die polder : Nat) : Option Crew := look (crewKey die polder) s.crews

/-- The crew of a polder. -/
def State.crew (s : State) (die polder : Nat) : Crew := (s.crew? die polder).getD default

/-- The crew of a polder that no stop holds (R338). -/
def State.going? (s : State) (die polder : Nat) : Option Crew :=
  match s.crew? die polder with
  | none => none
  | some c => if c.halted then none else some c

/-- Replace the crew of a polder. -/
def State.setCrew (s : State) (die polder : Nat) (c : Crew) : State :=
  { s with crews := put (crewKey die polder) c s.crews }

/-- A strand, if it exists (R13). -/
def State.strand? (s : State) (c : Ctx) : Option Strand := look (strandKey c.die c.polder c.strand) s.strands

/-- A strand. -/
def State.strand (s : State) (c : Ctx) : Strand := (s.strand? c).getD default

/-- Replace a strand. -/
def State.setStrand (s : State) (c : Ctx) (st : Strand) : State :=
  { s with strands := put (strandKey c.die c.polder c.strand) st s.strands }

/-- One stream of a strand. -/
def Strand.get (st : Strand) : Str → Stream
  | .a => st.a
  | .x => st.x
  | .d => st.d

/-- Replace one stream of a strand. -/
def Strand.set (st : Strand) (k : Str) (x : Stream) : Strand :=
  match k with
  | .a => { st with a := x }
  | .x => { st with x := x }
  | .d => { st with d := x }

/-- The stream an agent runs: its strand's, or its die's rotation program (R353). -/
def State.stream (s : State) (c : Ctx) : Stream :=
  if c.rot then (s.die c.die).rotStream else (s.strand c).get c.str

/-- Replace the stream an agent runs. -/
def State.setStream (s : State) (c : Ctx) (x : Stream) : State :=
  if c.rot then s.setDie c.die { s.die c.die with rotStream := x }
  else s.setStrand c ((s.strand c).set c.str x)

/-- The number of a stream: A 0, X 1, D 2 (R32). -/
def Str.num : Str → Nat
  | .a => 0
  | .x => 1
  | .d => 2

/-- The code of a stream in a stream field and in TRAPCAUSE.STREAM (R20, R82). -/
def Str.code (k : Str) : Nat := Str.num k + 1

/-- The stream a code names (R20). -/
def strOf (code : BitVec 2) : Str := if code = 1 then .a else if code = 2 then .x else .d

/-- CYCLE of a die (R79). -/
def State.cycleOf (s : State) (die : Nat) : Nat := (s.cycle - (s.die die).cycle0) % 2 ^ 64

/-! ## What a word's body answers -/

/-- Why a word does not retire now: it waits, or its stream takes a trap (R25, R59). -/
inductive Stop where
  | wait (w : Wait)
  | trap (cause : Nat) (info : Word)
  deriving DecidableEq, Repr, Inhabited

/-- What a word's body does: it retires and the stream goes on, retires by a transfer of control, stays in progress
(its state change is kept, the word is not retired), or leaves a state in which nothing more is to be done. -/
inductive Eff where
  | next (s : State)
  | jump (s : State) (target : Word)
  | stay (s : State)
  | done (s : State)
  deriving DecidableEq, Repr, Inhabited

/-- Results of the parts of a word's body. -/
abbrev Res := Except Stop

def stop {α : Type} (x : Stop) : Res α := .error x
def trap {α : Type} (cause : Nat) (info : Word) : Res α := .error (.trap cause info)
def hold {α : Type} (w : Wait) : Res α := .error (.wait w)

/-! ## Queue ports and registers (R23, R75) -/

/-- Whether a push would go to a consumer that has ended, with the hazard detector on (R63). -/
def State.deadPush (s : State) (c : Ctx) (consumer : Str) : Bool :=
  (s.crew c.die c.polder).debug && ((s.strand c).get consumer).ended

/-- Pop a scalar queue. -/
def popScalar (q : List Word) : Res (Word × List Word) :=
  match q with
  | [] => hold .dataQueue
  | w :: r => pure (w, r)

/-- Read a scalar register of the executing stream; a popping port pops (R74, R75). -/
def readReg (r : BitVec 5) (s : State) : Res (Word × State) :=
  let c := s.cur
  if r = 0 then pure (0, s)
  else if c.rot then pure ((s.die c.die).rotStream.regs.get r.toFin, s)
  else
    let st := s.strand c
    match c.str with
    | .a =>
      if r = 31 then do
        let (w, q) ← popScalar st.qXA
        pure (w, s.setStrand c { st with qXA := q })
      else pure (st.a.regs.get r.toFin, s)
    | .x =>
      if r = 31 then do
        let (w, q) ← popScalar st.qAX
        pure (w, s.setStrand c { st with qAX := q })
      else pure (st.x.regs.get r.toFin, s)
    | .d =>
      if r = 31 then do
        let (w, q) ← popScalar st.qXD
        pure (w, s.setStrand c { st with qXD := q })
      else pure (st.d.regs.get r.toFin, s)

/-- Push into a queue of `cap` entries; `num` is its number among the QCOUNT fields (R78, R102 cause 0x79). -/
def pushQueue {α : Type} (s : State) (c : Ctx) (consumer : Str) (num cap : Nat) (q : List α) (v : α) : Res (List α) :=
  if s.deadPush c consumer then trap 0x79 (BitVec.ofNat 64 num)
  else if cap ≤ q.length then hold .dataQueue
  else pure (q ++ [v])

/-- Write a scalar register of the executing stream; a pushing port pushes, register 0 discards (R74, R75). -/
def writeReg (r : BitVec 5) (v : Word) (s : State) : Res State :=
  let c := s.cur
  if r = 0 then pure s
  else if c.rot then
    let d := s.die c.die
    pure (s.setDie c.die { d with rotStream := { d.rotStream with regs := d.rotStream.regs.set r.toNat v r.isLt } })
  else
    let st := s.strand c
    match c.str with
    | .a =>
      if r = 31 then do
        let q ← pushQueue s c .x 0 16 st.qAX v
        pure (s.setStrand c { st with qAX := q })
      else pure (s.setStrand c { st with a := { st.a with regs := st.a.regs.set r.toNat v r.isLt } })
    | .x =>
      if r = 30 then do
        let q ← pushQueue s c .a 1 16 st.qXA v
        pure (s.setStrand c { st with qXA := q })
      else if r = 31 then do
        let q ← pushQueue s c .d 2 16 st.qXD v
        pure (s.setStrand c { st with qXD := q })
      else pure (s.setStrand c { st with x := { st.x with regs := st.x.regs.set r.toNat v r.isLt } })
    | .d => pure (s.setStrand c { st with d := { st.d with regs := st.d.regs.set r.toNat v r.isLt } })

/-- Write the mask of a popped entry into its predicate register (R128). -/
def writeMask (e : VEntry) (st : Strand) : Strand :=
  if h : e.statp.toNat < 12 then { st with p := st.p.set e.statp.toNat e.mask h } else st

/-- Check a popped entry: a failure marker and poison trap at the popping word (R149, R57). -/
def openEntry (e : VEntry) : Res Unit :=
  match e.fail with
  | some (cause, info) => trap cause info
  | none => if e.poison then trap 0x08 (BitVec.allOnes 64) else pure ()

/-- Read a vector register; v28 and v29 pop an entry and apply its mask (R75, R128). -/
def readVec (v : BitVec 5) (s : State) : Res (Vec × State) :=
  let c := s.cur
  let st := s.strand c
  if h : v.toNat < 28 then pure (st.v[v.toNat], s)
  else if v = 28 then
    match st.vAX0 with
    | [] => hold .dataQueue
    | e :: r => do
      openEntry e
      pure (e.data, s.setStrand c (writeMask e { st with vAX0 := r }))
  else if v = 29 then
    match st.vAX1 with
    | [] => hold .dataQueue
    | e :: r => do
      openEntry e
      pure (e.data, s.setStrand c (writeMask e { st with vAX1 := r }))
  else pure (0, s)

/-- Write a vector register; v30 and v31 push (R75). -/
def writeVec (v : BitVec 5) (x : Vec) (s : State) : Res State :=
  let c := s.cur
  let st := s.strand c
  if h : v.toNat < 28 then pure (s.setStrand c { st with v := st.v.set v.toNat x h })
  else if v = 30 then do
    let q ← pushQueue s c .d 5 8 st.vXD0 x
    pure (s.setStrand c { st with vXD0 := q })
  else if v = 31 then do
    let q ← pushQueue s c .d 6 8 st.vXD1 x
    pure (s.setStrand c { st with vXD1 := q })
  else pure s

/-- Read a predicate; 15 is every bit (R68). -/
def readPred (p : Nat) (s : State) : Pred :=
  if h : p < 12 then (s.strand s.cur).p[p] else BitVec.allOnes 1024

/-- Write a predicate register. -/
def writePred (p : Nat) (x : Pred) (s : State) : State :=
  if h : p < 12 then
    let st := s.strand s.cur
    s.setStrand s.cur { st with p := st.p.set p x h }
  else s

/-! ## Tokens (R24) -/

/-- The count of a token FIFO: 0 A→X, 1 X→A, 2 X→D, 3 D→X. -/
def Strand.tok (st : Strand) : Nat → Nat
  | 0 => st.tokAX
  | 1 => st.tokXA
  | 2 => st.tokXD
  | _ => st.tokDX

/-- Set the count of a token FIFO. -/
def Strand.setTok (st : Strand) (f n : Nat) : Strand :=
  match f with
  | 0 => { st with tokAX := n }
  | 1 => { st with tokXA := n }
  | 2 => { st with tokXD := n }
  | _ => { st with tokDX := n }

/-- The FIFO a stream takes from its left neighbour, if it has one. -/
def takeLeft : Str → Option Nat
  | .a => none
  | .x => some 0
  | .d => some 2

/-- The FIFO a stream takes from its right neighbour. -/
def takeRight : Str → Option Nat
  | .a => some 1
  | .x => some 3
  | .d => none

/-- The FIFO a stream gives to its left neighbour. -/
def giveLeft : Str → Option Nat
  | .a => none
  | .x => some 1
  | .d => some 3

/-- The FIFO a stream gives to its right neighbour. -/
def giveRight : Str → Option Nat
  | .a => some 0
  | .x => some 2
  | .d => none

/-- The stream that gives into a FIFO. -/
def tokGiver : Nat → Str
  | 0 => .a
  | 1 => .x
  | 2 => .x
  | _ => .d

/-- The stream that takes from a FIFO. -/
def tokTaker : Nat → Str
  | 0 => .x
  | 1 => .a
  | 2 => .d
  | _ => .x

/-- One take: hold until the count is at least 1, then decrement (R24; R63 with the detector on). -/
def takeTok (f : Option Nat) (s : State) : Res State :=
  match f with
  | none => pure s
  | some f =>
    let c := s.cur
    let st := s.strand c
    if st.tok f = 0 then
      if (s.crew c.die c.polder).debug && (st.get (tokGiver f)).ended then trap 0x78 (BitVec.ofNat 64 f)
      else hold .token
    else pure (s.setStrand c (st.setTok f (st.tok f - 1)))

/-- One give: hold while the count is 15, then increment (R24). -/
def giveTok (f : Option Nat) (s : State) : Res State :=
  match f with
  | none => pure s
  | some f =>
    let c := s.cur
    let st := s.strand c
    if 15 ≤ st.tok f then hold .token else pure (s.setStrand c (st.setTok f (st.tok f + 1)))

/-- The take bits of a word (R24). -/
def takeTokens (tk : BitVec 4) (s : State) : Res State := do
  let s1 ← if tk[3] then takeTok (takeLeft s.cur.str) s else pure s
  if tk[2] then takeTok (takeRight s.cur.str) s1 else pure s1

/-- The give bits of a word (R24). -/
def giveTokens (tk : BitVec 4) (s : State) : Res State := do
  let s1 ← if tk[1] then giveTok (giveLeft s.cur.str) s else pure s
  if tk[0] then giveTok (giveRight s.cur.str) s1 else pure s1

/-! ## Hardware loops (R89, R90) -/

/-- The loop-end step after a word that ended at `stop` in the sense of `m` and did not transfer control. -/
def loopEnd (m : Word → Bool) (next : Word) : List Loop → List Loop × Word
  | [] => ([], next)
  | l :: r =>
    if m l.stop then
      if 1 < l.lc.toNat then ({ l with lc := l.lc - 1 } :: r, l.start) else loopEnd m next r
    else (l :: r, next)

/-- A taken transfer ends every level whose body does not hold the target, innermost first. -/
def loopLeave (t : Word) : List Loop → List Loop
  | [] => []
  | l :: r => if l.start.toNat ≤ t.toNat && t.toNat ≤ l.stop.toNat then l :: r else loopLeave t r

/-- The stream after a word of `len` words that did not transfer control: the loop-end step and the next address. A
CPYM pair counts as one word that ends at either of its addresses (R70, R89). -/
def Stream.advance (st : Stream) (len : Nat) : Stream :=
  let next := st.pc + BitVec.ofNat 64 (4 * len)
  let (ls, pc) := loopEnd (fun e => e = st.pc || (len = 2 && e = st.pc + 4)) next st.loops
  { st with
    pc := pc, loops := ls, loopBuf := if ls.isEmpty then [] else st.loopBuf
    wait := none, waited := 0, pend := none, arrived := false, seq := st.seq + 1 }

/-- The stream after a taken transfer (R90). -/
def Stream.transfer (st : Stream) (t : Word) : Stream :=
  let ls := loopLeave t st.loops
  { st with
    pc := t, loops := ls, loopBuf := if ls.isEmpty then [] else st.loopBuf
    wait := none, waited := 0, pend := none, arrived := false, seq := st.seq + 1 }

/-! ## The count queue (R22, R96) -/

/-- Drop the entries that every read pointer has passed. -/
def Strand.trimCq (st : Strand) : Strand :=
  let saved := match st.setAside with
    | none => []
    | some (a, x, d, _) => [a.cqPos, x.cqPos, d.cqPos]
  let low := saved.foldl min (min st.a.cqPos (min st.x.cqPos st.d.cqPos))
  let n := min (low - st.cqBase) st.cq.length
  { st with cq := st.cq.drop n, cqBase := st.cqBase + n }

/-! ## Traps (R59, R95-R97) -/

/-- Whether the hazard detector raises a cause (R102). -/
def hazardCause (cause : Nat) : Bool := cause = 0x78 || cause = 0x79 || cause = 0x7A || cause = 0x7B || cause = 0x7D

/-- TRAPCAUSE (R82). -/
def trapCauseWord (k : Str) (cause : Nat) : Word :=
  BitVec.ofNat 64 (Str.code k * 2 ^ 14 + (if hazardCause cause then 2 ^ 13 else 0) + cause % 256)

/-- What is set aside of a stream at trap entry (R96). -/
def Stream.aside (st : Stream) (top : Nat) : SetAside :=
  { loops := st.loops, loopBuf := st.loopBuf, cqPos := st.cqPos, cqTop := top, ended := st.ended, pend := st.pend
    seq := st.seq, marks := st.marks }

/-- A stream at the start of the trap handler: it records where it stopped (R96). Its place in program order counts on
from `base`, above every place of the stopped streams. -/
def Stream.enter (st : Stream) (entry : Word) (newest base : Nat) : Stream :=
  { st with
    trapPc := st.pc, trapResume := st.pc, pc := entry, loops := [], loopBuf := [], cqPos := newest
    ended := false, arrived := false, wait := none, waited := 0, pend := none, seq := base
    marks := { ld := 0, st := 0, syn := 0, acqA := 0, acqX := 0, acqD := 0, tiles := [] } }

/-- A strand that ends with a strand fault: no handler, or a trap in trap mode (R96). -/
def Strand.faultEnd (st : Strand) (cause : Nat) : Strand :=
  let stopIt (k : Stream) : Stream := { k with ended := true, arrived := false, wait := none, waited := 0, pend := none }
  { st with a := stopIt st.a, x := stopIt st.x, d := stopIt st.d, fault := some (BitVec.ofNat 8 cause) }

/-- Trap entry of a strand whose stream `k` faults (R96). -/
def Strand.trapEnter (st : Strand) (k : Str) (cause : Nat) (info : Word) : Strand :=
  if st.trapMode || st.trapEntry = 0 then st.faultEnd cause
  else
    let newest := st.cqBase + st.cq.length
    let base := max st.a.seq (max st.x.seq st.d.seq) + 1
    -- the faulting word counts as not executed: what it had in progress is dropped
    let st := st.set k { st.get k with pend := none }
    { st with
      trapCause := trapCauseWord k cause
      trapInfo := info
      trapMode := true
      setAside := some (st.a.aside newest, st.x.aside newest, st.d.aside newest, st.bq)
      bq := Vector.replicate 6 []
      a := st.a.enter st.trapEntry newest base
      x := st.x.enter st.trapEntry newest base
      d := st.d.enter st.trapEntry newest base }

/-- A place in program order moved up, if it is one. -/
def shiftMark (d m : Nat) : Nat := if m = 0 then 0 else m + d

/-- Marks moved up with the places they name. -/
def Marks.shift (d : Nat) (m : Marks) : Marks :=
  { ld := shiftMark d m.ld, st := shiftMark d m.st, syn := shiftMark d m.syn, acqA := shiftMark d m.acqA
    acqX := shiftMark d m.acqX, acqD := shiftMark d m.acqD, tiles := m.tiles.map fun e => (e.1, shiftMark d e.2) }

/-- A stream back from the handler (R97). Its places in program order move up by `d`, above those of the handler. -/
def Stream.leave (st : Stream) (d : Nat) (sa : SetAside) : Stream :=
  { st with
    pc := if sa.ended then st.trapPc else st.trapResume
    loops := sa.loops, loopBuf := sa.loopBuf, cqPos := sa.cqPos, ended := sa.ended, arrived := false
    wait := none, waited := 0, seq := sa.seq + d, marks := sa.marks.shift d
    pend := if st.trapResume = st.trapPc then sa.pend else none }

/-- In trap mode, one more than every place in program order of the stopped streams (R96). -/
def Strand.trapBase (st : Strand) : Option Nat :=
  st.setAside.map fun (a, x, d, _) => max a.seq (max x.seq d.seq) + 1

/-- How far the places of the stopped streams move up at the return. -/
def Strand.trapShift (st : Strand) : Nat := max st.a.seq (max st.x.seq st.d.seq) + 1

/-- The entries of cq from position `top` on that every read pointer of the handler has passed leave it at the return (R96). -/
def Strand.dropHandled (st : Strand) (top : Nat) : Strand :=
  let low := min st.a.cqPos (min st.x.cqPos st.d.cqPos)
  { st with cq := st.cq.take (top - st.cqBase) ++ st.cq.drop (max top low - st.cqBase) }

/-- The return from a trap, once all three streams have arrived (R97). -/
def Strand.eretAll (st : Strand) : Strand :=
  match st.setAside with
  | none => { st with trapMode := false }
  | some (a, x, d, bq) =>
    let n := st.trapShift
    let base := max a.seq (max x.seq d.seq) + 1
    let fetch (x : AffineStream) : AffineStream := if x.place < base then { x with place := x.place + n } else x
    let kept := st.dropHandled a.cqTop
    Strand.trimCq
      { kept with
        a := st.a.leave n a, x := st.x.leave n x, d := st.d.leave n d, bq := bq, trapMode := false, setAside := none
        ls0 := st.ls0.map fetch, ls1 := st.ls1.map fetch
        syncQ := st.syncQ.map fun c => if c.seq < base then { c with seq := c.seq + n, marks := c.marks.shift n } else c
        rels := st.rels.map fun c => if c.seq < base then { c with seq := c.seq + n, marks := c.marks.shift n } else c }

/-- The copy commands and matrix commands of a strand that were issued before the trap move up with its streams. -/
def Crew.shiftOrder (c : Crew) (strand base d : Nat) : Crew :=
  let mat (m : MatCmd) : MatCmd := if m.strand = strand && m.after < base then { m with after := shiftMark d m.after } else m
  let act (a : Option MatActive) : Option MatActive := a.map fun a => { a with cmd := mat a.cmd }
  { c with
    copies := c.copies.map fun e =>
      if e.strand = strand && e.seq < base then { e with seq := e.seq + d, marks := e.marks.shift d } else e
    matQ := c.matQ.map mat, matU := c.matU.map mat, actQ := act c.actQ, actU := act c.actU }

end Sys2Proof.Machine
end

