-- ==== Sys2Proof/Machine/Net.lean ====
section
/-! DEFINITION. Memory seen from a die: where an address lies, the remote cache, and the requests that leave a
requester for another die or for host memory (R40-R44, R53, R151-R154, R285-R286, R388-R391), with the interrupts and
error records a die raises (R431, R455). -/

namespace Sys2Proof.Machine

/-- A bit field of a register. -/
def bitsOf (w : Word) (hi lo : Nat) : Nat := w.toNat / 2 ^ lo % 2 ^ (hi - lo + 1)

/-- Replace a bit field of a register. -/
def setBits (w : Word) (hi lo v : Nat) : Word :=
  BitVec.ofNat 64 (w.toNat % 2 ^ lo + v % 2 ^ (hi - lo + 1) * 2 ^ lo + w.toNat / 2 ^ (hi + 1) * 2 ^ (hi + 1))

/-- Add to a saturating count in a field (R144, R405, R430). -/
def satAdd (w : Word) (hi lo n : Nat) : Word :=
  setBits w hi lo (min (bitsOf w hi lo + n) (2 ^ (hi - lo + 1) - 1))

/-! ## Interrupts and error records -/

/-- Whether a vector is masked: by its table entry, by the function mask, or while MSI-X is not enabled (R431; log 7). -/
def HostEngine.masked (h : HostEngine) (v : Nat) : Bool :=
  let ctl := (look 0x40 h.config).getD 0
  h.msixMasked.contains v || ctl.toNat / 2 ^ 30 ≠ 2

/-- Send an MSI-X vector: a message, or its pending bit while it is masked (R431, R441). -/
def State.sendMsi (s : State) (v : Nat) : State :=
  let h := s.host
  if !h.linkUp then { s with host := { h with hestat := satAdd h.hestat 31 16 1 } }
  else if h.masked v then
    { s with host := { h with msixPending := if h.msixPending.contains v then h.msixPending else v :: h.msixPending } }
  else { s with host := { h with messages := h.messages ++ [v] } }

/-- A die raises interrupt source `src`: delivered as INTROUTE says, and otherwise not held (R431). -/
def State.raise (s : State) (die src : Nat) : State :=
  let r := (look (4 * die + src) s.host.introute).getD 0
  if bitsOf r 63 63 = 1 then s.sendMsi (bitsOf r 7 0) else s

/-- Whether a range lies wholly in the berm of a die of this module (R40). -/
def inBerm (die a n : Nat) : Bool :=
  dieAddr die 0x400000000 ≤ a && a + n ≤ dieAddr die 0x41BC00000

/-- The asynchronous error event of a die: a record in its log if it is on and has room, and source 2 (R455). -/
def State.errorEvent (s : State) (die kind engine polder addr detail : Nat) : State :=
  let d := s.die die
  let base := bitsOf d.errBase 51 5 * 32
  let count := bitsOf d.errCtl 11 0
  let on := count ≠ 0 && base ≠ 0 && inBerm die base (32 * count)
  let full := (d.errHead + 1) % count = bitsOf d.errTail 11 0
  let s1 :=
    if on && !full then
      let cell := base + 32 * d.errHead
      let s := s.writeN cell (kind * 2 ^ 56 + (Config.engineCode engine).toNat * 2 ^ 48 + polder * 2 ^ 42) 8
      let s := s.writeN (cell + 8) addr 8
      let s := s.writeN (cell + 16) (s.cycleOf die) 8
      let s := s.writeN (cell + 24) (Config.errorDetail kind detail).toNat 8
      s.setDie die { s.die die with errHead := (d.errHead + 1) % count }
    else s.setDie die { d with errDrop := min (d.errDrop + 1) (2 ^ 32 - 1) }
  s1.raise die 2

/-! ## Where an address lies -/

/-- What an access from a die finds at an address (R40, R41, R410, R412). -/
inductive Place where
  /-- memory of this die: its berm, its sync SRAM or a crew's scratchpad -/
  | mem
  | window
  | dreg
  /-- another die, or the host memory of another module, in the connected group -/
  | remote
  | host
  | unreach
  | bad
  deriving DecidableEq, Repr, Inhabited

/-- What a die finds at one of its own offsets (R40). -/
def State.homePlace (s : State) (die off : Nat) : Place :=
  if off < 0x400000000 then .window
  else if off < 0x41BC00000 then .mem
  else if off < 0x500000000 then .bad
  else if off < 0x520000000 then
    let p := (off - 0x500000000) / 0x800000
    match s.crew? die p with
    | none => .bad
    | some c => if (off - 0x500000000) % 0x800000 < c.partition.toNat / 2 ^ 16 % 256 * 65536 then .mem else .bad
  else if off < 0x600000000 then .bad
  else if off < 0x600400000 then .mem
  else if off < 0x700000000 then .bad
  else if off < 0x701000000 then .dreg
  else .bad

/-- Whether die `d` of module `m` is in the die's group (R412). -/
def State.inGroup (s : State) (die m d : Nat) : Bool := (s.die die).gmember.toNat / 2 ^ (16 * m + d) % 2 = 1

/-- The lowest-numbered die of module `m` in the die's group: the proxy (R391). -/
def State.proxy (s : State) (die m : Nat) : Option Nat := (List.range 16).find? fun d => s.inGroup die m d

/-- What an access from a die finds at an address (R40, R41). -/
def State.place (s : State) (die a : Nat) : Place :=
  let m := paModule a
  if m = 0 && paDie a = die then s.homePlace die (paOffset a)
  else if m < 4 then (if s.inGroup die m (paDie a) then .remote else .unreach)
  else if m < 8 then .bad
  else if m = 8 then .host
  else if m < 12 then (if (s.proxy die (m - 8)).isSome then .remote else .unreach)
  else .bad

/-- The segment size of a die's ring in bytes (R342, R352). -/
def Die.segSize (d : Die) : Nat := 2 ^ (20 + bitsOf d.rgctl 45 43)

/-- Whether the die holds a segment so that the window shows it: SEG.WHERE is not 0 and SEG.BAD is 0 (R345, R351). -/
def Die.holds (d : Die) (seg : Nat) : Bool :=
  let w := (look seg d.desc).getD 0
  bitsOf w 56 54 ≠ 0 && bitsOf w 58 58 = 0

/-- The poisoned 8-byte words among the words the bytes touch, as bits from the first one (R381). -/
def State.poisonBits (s : State) (a n : Nat) : Nat :=
  if s.poison.isEmpty then 0
  else (wordsOf a n).foldr (fun w acc => 2 * acc + (if s.poison.contains w then 1 else 0)) 0

/-- Read bytes of one 128-byte sector of this die's memory or window (R42, R52, R154). -/
def State.readHome (s : State) (die a n : Nat) : Reply :=
  match s.homePlace die (paOffset a) with
  | .mem => { status := 0, data := s.readN a n, poison := s.poisonBits a n }
  | .window =>
    let d := s.die die
    if d.holds (paOffset a / d.segSize) then { status := 0, data := s.readN a n, poison := s.poisonBits a n }
    else { status := 1, data := 0, poison := 0 }
  | _ => { status := 4, data := 0, poison := 0 }

/-- Whether a write of `n` bytes from `a` under a byte mask writes a byte of 8-byte word `w`. -/
def writesWord (a n mask w : Nat) : Bool := (List.range n).any fun i => mask / 2 ^ i % 2 = 1 && (a + i) / 8 = w

/-- The words that a masked write touches take the poison marks its data came with (R57). -/
def State.markWords (s : State) (a n mask poison : Nat) : State :=
  (wordsOf a n).zipIdx.foldl (fun (s : State) wi =>
    if poison / 2 ^ wi.2 % 2 = 1 && writesWord a n mask wi.1 then { s with poison := addPoison (8 * wi.1) 8 s.poison } else s) s

/-- Write bytes of this die's memory under a byte mask and with poison marks; the status (R40, R42, R390). -/
def State.writeHome (s : State) (die a n data mask poison : Nat) : Nat × State :=
  match s.homePlace die (paOffset a) with
  | .mem => (0, (s.writeMasked a data mask n).markWords a n mask poison)
  | _ => (4, s)

/-- The all-ones mask of `n` bytes. -/
def fullMask (n : Nat) : Nat := 2 ^ n - 1

/-! ## Requests -/

/-- The cycles of the requester interval (R152). -/
def Die.interval (d : Die) : Nat := microseconds (min 16000 (max 1 (bitsOf d.remtimeout 23 0)))

/-- Domain time in microseconds (R388, R405; log 6). -/
def State.domTime (s : State) : Nat := s.cycle / 1200

/-- The key of a tag: its requester, its class and its number (R151, R389). -/
def tagKey (die unit cls tag : Nat) : Nat := ((die * 128 + unit) * 4 + cls) * 64 + tag

/-- The lowest tag of a requester that is neither in use nor at rest (R151, R152). -/
def State.freeTag (s : State) (die unit cls : Nat) : Option Nat :=
  (List.range 64).find? fun t =>
    (look (tagKey die unit cls t) s.tagRest).isNone &&
    !(s.reqs.any fun r => r.2.die = die && r.2.unit = unit && r.2.cls = cls && r.2.tag = some t)

/-- The key under which a context's data goes to host memory and to other modules: none where the context is not bound, no key
where it passes in clear, and otherwise its slot's (R453). -/
def Mgmt.binding (m : Mgmt) (context : Nat) : Option (Option Nat) :=
  match look context m.binds with
  | none => none
  | some 1 => some none
  | some b => some (some ((look (b - 2) m.keys).getD 0))

/-- The data slots of a packet, without the slot of a byte mask (R382). -/
def Packet.dataSlots (p : Packet) : Nat :=
  if p.kind = 1 || p.kind = 8 then (p.op % 128 + 32) / 32
  else if p.kind = 2 || p.kind = 10 || p.kind = 11 then 1
  else 0

/-- Whether a packet goes to another module on behalf of a page's context: those of polders and of the remote cache (R46). -/
def Packet.crosses (p : Packet) : Bool := p.dstMod ≠ p.srcMod && (!p.eng || p.unit = 4)

/-- The key under which a packet's payload goes to another module; none where it goes in clear (R46, R453). -/
def State.payloadKey (s : State) (p : Packet) : Option Nat :=
  if p.crosses && (p.kind = 1 || p.kind = 2 || p.kind = 8 || p.kind = 10) then (s.mgmt.binding p.context).getD none else none

/-- Encrypt the payload of a packet that leaves for another module (R46, R453). -/
def State.sealPacket (s : State) (p : Packet) : Packet :=
  match s.payloadKey p with
  | none => p
  | some k => { p with data := (Config.xtsSlots k p.addr p.dataSlots (BitVec.ofNat (256 * p.dataSlots) p.data)).toNat }

/-- Decrypt the payload of a packet that has come from another module (R46, R453). -/
def State.openPacket (s : State) (p : Packet) : Packet :=
  match s.payloadKey p with
  | none => p
  | some k =>
    let n := if p.kind = 1 || p.kind = 8 then p.op % 128 + 1 else 16
    { p with data := ((Config.xtsSlots k p.addr p.dataSlots).symm (BitVec.ofNat (256 * p.dataSlots) p.data)).toNat % 2 ^ (8 * n) }

/-- The response to a request packet (R381, R388, R389). A notice's result is its argument (log 17). -/
def Packet.response (p : Packet) (kind : Nat) (rep : Reply) : Packet :=
  { p with
    kind := kind, dstMod := p.srcMod, dstDie := p.srcDie, srcMod := p.dstMod, srcDie := p.dstDie, host := false
    status := rep.status, data := if kind = 13 then 0 else rep.data, arg := if kind = 13 then rep.data else p.arg
    poison := rep.poison, mask := 0 }

/-- Hand a response to the die's router (R381). -/
def State.respond (s : State) (die : Nat) (p : Packet) (kind : Nat) (rep : Reply) : State :=
  let d := s.die die
  s.setDie die { d with router := d.router ++ [(s.sealPacket (p.response kind rep), 4)] }

/-- Whether a request of a page's context goes to another module though the context is not bound: it is not sent (R453). -/
def State.unbound (s : State) (r : Req) : Bool :=
  let m := paModule r.addr % 8
  m ≠ 0 && r.kind < 3 && (r.unit < 64 || r.unit = 68) && (s.mgmt.binding r.context).isNone

/-- The packet of a request (R381, R388, R391). -/
def State.packetOf (s : State) (r : Req) (tag gen : Nat) : Packet :=
  let m := paModule r.addr
  let host := 8 ≤ m
  { kind := r.kind
    dstMod := if host then m - 8 else m
    dstDie := if host then (s.proxy r.die (m - 8)).getD 0 else paDie r.addr
    srcMod := 0, srcDie := r.die, unit := r.unit % 64, eng := 64 ≤ r.unit, tag := tag, gen := gen, cls := r.cls
    host := host
    deadline := ((s.domTime + 15 * (s.die r.die).interval / 1200 + 15) / 16) % 65536
    context := r.context, addr := if r.kind = 4 then r.arg else r.addr, poison := r.poison, status := 0, op := r.op, arg := r.arg
    data := r.data, mask := r.mask }

/-- Whether an older request of the die for the same sector has not left yet: a fill follows the write-back of its sector, and a
write-back the one before it (R44, R51, R383). -/
def State.behind (s : State) (id : Nat) (r : Req) : Bool :=
  s.reqs.any fun e => e.1 < id && e.2.die = r.die && !e.2.asked && e.2.reply.isNone && e.2.addr / 128 = r.addr / 128

/-- Let one request leave its requester, if a tag is free, no reconfiguration holds it and no older one to its sector does: its
timer starts, and it goes to the router, or to the host channel of the module (R151, R152, R391). -/
def State.leave (s : State) (id : Nat) (r : Req) : State :=
  -- during a reconfiguration new requests are held at the fabric port (R417)
  let held := match (s.die r.die).frozen with
    | some n => s.place r.die r.addr ≠ Place.host && !(id < n && r.unit = 68)
    | none => false
  if held || s.behind id r then s else
  match s.freeTag r.die r.unit r.cls with
  | none => s
  | some t =>
    let g := (look (tagKey r.die r.unit r.cls t) s.tagGen).getD 0
    let s1 := { s with
      reqNo := s.reqNo + 1
      reqs := put id { r with tag := some t, gen := g, sent := s.cycle, order := s.reqNo, asked := true } s.reqs }
    if s.place r.die r.addr = Place.host then s1
    else
      let d := s1.die r.die
      s1.setDie r.die { d with router := d.router ++ [(s.sealPacket (s.packetOf r t g), 4)] }

/-- Let every waiting request leave that can, oldest first (R151). -/
def State.pump (s : State) : State :=
  s.reqs.foldl (fun (s : State) e => if e.2.asked || e.2.reply.isSome then s else s.leave e.1 e.2) s

/-- A request with nothing in it. -/
def Req.blank (die unit cls kind addr len context : Nat) : Req :=
  { die := die, unit := unit, cls := cls, kind := kind, addr := addr, len := len, data := 0, mask := 0, poison := 0
    op := 0, arg := 0, context := context, owner := none, purpose := .plain, tag := none, gen := 0, sent := 0
    order := 0, asked := false, mark := false, reply := none }

/-- Drop a request's record. One that has left its requester keeps its tag until its reply or the end of its time, and
write-backs and stores are performed regardless (R152, R286). -/
def State.forget (s : State) (id : Nat) : State :=
  match look id s.reqs with
  | none => s
  | some r =>
    let reads := match r.purpose with
      | .plain => true
      | .fill _ => true
      | .dropped => true
      | _ => false
    if r.reply.isSome || (reads && r.tag.isNone) then { s with reqs := unput id s.reqs }
    else { s with reqs := put id { r with owner := none, purpose := if r.purpose = .plain then .dropped else r.purpose } s.reqs }

/-- Remove the records of several requests. -/
def State.forgetAll (s : State) (ids : List Nat) : State := ids.foldl State.forget s

/-- The reply of a request, if it has come. -/
def State.replyOf (s : State) (id : Nat) : Option Reply := (look id s.reqs).bind (·.reply)

/-- Whether every one of the requests has ended: a record that is gone has, since another strand that waited for the same
write-back may have dropped it. -/
def State.allReplied (s : State) (ids : List Nat) : Bool := ids.all fun i => (s.replyOf i).isSome || (look i s.reqs).isNone

/-- WAITLIMIT in microseconds; 0 acts as 1 (R258). -/
def Die.waitLimit (d : Die) : Nat := max 1 (bitsOf d.syncctl 23 0)

/-- Whether the timer of a request that has left its requester has reached its interval (R152, R260). -/
def State.expired (s : State) (r : Req) : Bool :=
  let waits := r.kind = 2 && (r.op = 33 || r.op = 36 || r.op = 37)
  let limit := if waits then microseconds (s.die r.die).waitLimit else 0
  r.tag.isSome && r.sent + (s.die r.die).interval + limit ≤ s.cycle

/-! ## How requests end -/

/-- Record a failed store or write-back in STSTAT of a strand's D stream (R286, R287). -/
def State.storeFailed (s : State) (key status addr : Nat) : State :=
  match look key s.strands with
  | none => s
  | some st =>
    let w := setBits (satAdd st.ststat 63 32 1) 7 0 status
    { s with strands := put key { st with ststat := w, ststatAddr := BitVec.ofNat 64 addr } s.strands }

/-- The status of a failed sync operation as R260 numbers it: a request that timed out is 3, an engine reset (14 in this
model) and an address error 4. -/
def syncStatus (status : Nat) : Nat := if status = 2 then 3 else if status = 14 then 4 else status

/-- Record the failure of a queued sync command in SYNCSTAT of its strand (R260, R271). -/
def State.syncFailed (s : State) (key status : Nat) : State :=
  match look key s.strands with
  | none => s
  | some st =>
    { s with strands := put key { st with syncstat := setBits (satAdd st.syncstat 63 32 1) 7 0 (syncStatus status) } s.strands }

/-- The failure of a store has been recorded: its other requests record none (R287). -/
def State.quietStore (s : State) (key : Nat) (group : Option Nat) : State :=
  let reqs : List (Nat × Req) := s.reqs.map fun e => match e.2.purpose with
    | .store k _ => if k = key && e.2.owner = group then (e.1, { e.2 with arg := 0 }) else e
    | _ => e
  { s with reqs := reqs }

/-- The end of a request: its reply is recorded, a failure is reported where its purpose says so, and a record that nothing
waits for is dropped (R53, R286, R391). -/
def State.conclude (s : State) (id : Nat) (rep : Reply) : State :=
  match look id s.reqs with
  | none => s
  | some r =>
    let s1 := { s with reqs := put id { r with reply := some rep, tag := none } s.reqs }
    match r.purpose with
    | .plain => s1
    | .dropped => s1.forget id
    | .fill _ => if r.owner.isNone then s1.forget id else s1
    | .proxied p =>
      -- the proxy answers the die that asked (R391)
      (s1.respond r.die p (if r.kind = 0 then 8 else if r.kind = 1 then 9 else 10) rep).forget id
    | .sync k => (if rep.status = 0 then s1 else s1.syncFailed k rep.status).forget id
    | .amax k =>
      (if rep.status = 0 then s1 else s1.storeFailed k (if rep.status = 14 then 6 else rep.status) r.addr).forget id
    | .writeBack _ strand =>
      let s2 :=
        if rep.status = 0 then s1
        else match strand with
          | some k => s1.storeFailed k rep.status r.addr
          | none => s1.errorEvent r.die 3 4 0 r.addr rep.status
      if r.owner.isNone then s2.forget id else s2
    | .store k first =>
      -- the requests of one store, which share `owner`, count as one failure (R286, R287)
      let s2 := if rep.status = 0 || r.arg = 0 then s1 else (s1.quietStore k r.owner).storeFailed k rep.status first
      s2.forget id

/-- Make a request. One whose target is unreachable or an address error, or whose context is not bound for another module, is
never sent: it ends at once with its status (R41, R453). -/
def State.request (s : State) (r : Req) : Nat × State :=
  let id := s.reqNo
  let s1 := { s with reqNo := id + 1, reqs := put id r s.reqs }
  let failed (status : Nat) : State :=
    { s1 with reqs := put id { r with asked := true } s1.reqs }.conclude id ⟨status, 0, 0⟩
  match s.place r.die r.addr with
  | .unreach => (id, failed 3)
  | .bad => (id, failed 4)
  | _ => if s.unbound r then (id, failed 4) else (id, s1.pump)

/-! ## The remote cache -/

/-- Whether an address may be held in the remote cache: off the die, on an RC or UO page (R44). -/
def cacheable (p : Place) (kind : BitVec 2) : Bool := (p = .remote || p = .host) && kind ≠ 0

/-- Write back the dirty bytes of one sector: a masked write to its home. Its data is taken now, and the bytes are clean from
now on (R44, R53). -/
def State.writeBack (s : State) (die idx : Nat) (c : Sector) (strand : Option Nat) : List Nat × State :=
  if c.dirty = 0 then ([], s)
  else
    let d := s.die die
    let s1 := s.setDie die { d with cache := put idx { c with dirty := 0 } d.cache }
    let (id, s2) := s1.request { Req.blank die 68 1 1 (idx * 128) 128 c.context with
      data := c.data, mask := c.dirty, poison := c.poison, op := 255
      owner := strand, purpose := .writeBack c.context strand }
    ([id], s2)

/-- Write back every dirty sector that `which` selects by its index and context; the requests (R53). -/
def State.writeBackAll (s : State) (die : Nat) (which : Nat → Nat → Bool) (strand : Option Nat) : List Nat × State :=
  (s.die die).cache.foldl (fun (acc : List Nat × State) e =>
    if which e.1 e.2.context then
      let (ids, s1) := acc.2.writeBack die e.1 e.2 strand
      (acc.1 ++ ids, s1)
    else acc) ([], s)

/-- The write-backs of such sectors that are on their way, an eviction's among them (R51, R53). -/
def State.backsOut (s : State) (die : Nat) (which : Nat → Nat → Bool) : List Nat :=
  s.reqs.filterMap fun e => match e.2.purpose with
    | .writeBack ctx _ => if e.2.die = die && e.2.reply.isNone && which (e.2.addr / 128) ctx then some e.1 else none
    | _ => none

/-- Write back such sectors; what must end before they are at their homes: the new write-backs and those on their way (R53). -/
def State.flush (s : State) (die : Nat) (which : Nat → Nat → Bool) (strand : Option Nat) : List Nat × State :=
  let out := s.backsOut die which
  let (ids, s1) := s.writeBackAll die which strand
  (out ++ ids, s1)

/-- Invalidate the sectors that `which` selects; bytes stored since their write-back stay, and a fill under way installs
nothing (R53). -/
def State.invalidate (s : State) (die : Nat) (which : Nat → Nat → Bool) : State :=
  let d := s.die die
  let rest := d.cache.filterMap fun e =>
    if which e.1 e.2.context then (if e.2.dirty = 0 then none else some (e.1, { e.2 with present := e.2.dirty }))
    else some e
  let reqs : List (Nat × Req) := s.reqs.map fun e => match e.2.purpose with
    | .fill ctx =>
      if e.2.die = die && e.2.reply.isNone && which (e.2.addr / 128) ctx then
        (e.1, { e.2 with purpose := if e.2.owner.isNone then .dropped else .plain })
      else e
    | _ => e
  { s with reqs := reqs }.setDie die { d with cache := rest }

/-- Make room for a sector: of a set of 16 lines of eight sectors a free choice is evicted (R44; log 3). -/
def State.evictFor (s : State) (die idx : Nat) : State :=
  let line := idx / 8
  let row := line % 4096
  let lines := ((s.die die).cache.map fun e => e.1 / 8).eraseDups.filter fun l => l % 4096 = row
  if lines.contains line || lines.length < 16 then s
  else
    let victim := lines.getD ((Config.freeWord s.fresh).toNat % 16) line
    let s0 := { s with fresh := s.fresh + 1 }
    let (_, s1) := s0.writeBackAll die (fun i _ => i / 8 = victim) none
    let d := s1.die die
    s1.setDie die { d with cache := d.cache.filter fun e => e.1 / 8 ≠ victim }

/-- The sector of an address for a context: one held for another context is first written back and given up (R44). -/
def State.sectorFor (s : State) (die idx context : Nat) : Option Sector × State :=
  match look idx (s.die die).cache with
  | none => (none, s)
  | some c =>
    if c.context = context then (some c, s)
    else
      let (_, s1) := s.writeBack die idx c none
      let d := s1.die die
      (none, s1.setDie die { d with cache := unput idx d.cache })

/-- Put a sector into the remote cache. -/
def State.putSector (s : State) (die idx : Nat) (c : Sector) : State :=
  let s1 := s.evictFor die idx
  let d := s1.die die
  s1.setDie die { d with cache := put idx c d.cache }

/-- Store bytes into a sector: one that is absent is allocated without a fill (R285). -/
def State.cacheStore (s : State) (die a n v context : Nat) : State :=
  let idx := a / 128
  let sh := a % 128
  let (old, s1) := s.sectorFor die idx context
  let c := old.getD { context := context, data := 0, present := 0, dirty := 0, poison := 0 }
  let mask := fullMask n * 2 ^ sh
  s1.putSector die idx { c with
    data := mergeBytes c.data (v % 2 ^ (8 * n) * 2 ^ (8 * sh)) mask 128
    present := c.present ||| mask, dirty := c.dirty ||| mask
    poison := ((List.range 16).foldl (fun acc i =>
      acc + (if c.poison / 2 ^ i % 2 = 1 && !(sh ≤ 8 * i && 8 * i + 8 ≤ sh + n) then 2 ^ i else 0)) 0) }

/-- A fill's bytes go into the sector where no byte is held; an 8-byte word that was held whole keeps its poison mark, and
another takes the fill's beside its own (R44, R57). -/
def State.cacheFill (s : State) (die a context : Nat) (r : Reply) : State :=
  let idx := a / 128
  let (old, s1) := s.sectorFor die idx context
  let c := old.getD { context := context, data := 0, present := 0, dirty := 0, poison := 0 }
  let word (i : Nat) : Nat :=
    if c.present / 2 ^ (8 * i) % 256 = 255 then c.poison / 2 ^ i % 2 else (c.poison ||| r.poison) / 2 ^ i % 2
  s1.putSector die idx { c with
    data := mergeBytes r.data c.data c.present 128, present := fullMask 128, poison := packElems 1 ((List.range 16).map word) }

/-- Bytes of a sector, if all of them are present (R44). -/
def Sector.read (c : Sector) (a n : Nat) : Option Reply :=
  let sh := a % 128
  let mask := fullMask n * 2 ^ sh
  if (c.present &&& mask) = mask then
    some { status := 0, data := c.data / 2 ^ (8 * sh) % 2 ^ (8 * n), poison := c.poison / 2 ^ (sh / 8) }
  else none

/-! ## Replies -/

/-- A reply, or the end of its time, reaches a request (R44, R127, R151, R152, R286, R389). -/
def State.deliver (s : State) (id : Nat) (rep : Reply) : State :=
  match look id s.reqs with
  | none => s
  | some r =>
    if r.reply.isSome then s
    else
      let filled := match r.purpose with
        | .fill ctx => if rep.status = 0 then s.cacheFill r.die r.addr ctx rep else s
        | _ => s
      (filled.conclude id rep).pump

/-- A tag whose request has ended without its reply takes its next generation and rests for an interval (R152). -/
def State.restTag (s : State) (r : Req) : State :=
  match r.tag with
  | none => s
  | some t =>
    let key := tagKey r.die r.unit r.cls t
    { s with
      tagGen := put key ((r.gen + 1) % 16) s.tagGen
      tagRest := put key (s.cycle + (s.die r.die).interval) s.tagRest }

/-- The request of a requester that a response matches by class, tag and generation, before its timer fires (R152, R389). -/
def State.matchReq (s : State) (die unit cls tag gen : Nat) : Option Nat :=
  (s.reqs.find? fun e => e.2.die = die && e.2.unit = unit && e.2.cls = cls && e.2.tag = some tag && e.2.gen = gen
    && e.2.reply.isNone && !s.expired e.2).map (·.1)

end Sys2Proof.Machine
end

