-- ==== Sys2Proof/Machine/Run.lean ====
section
/-! DEFINITION. Running one word in its stream: passing by the words of other streams, tokens, retirement, waits and
traps (R18-R25, R59, R89, R96, R353). -/

namespace Sys2Proof.Machine

/-- Stop a die's rotation program with a cause and a reason, and raise the ring interrupt (R352, R353). -/
def State.stopRotation (s : State) (die cause reason : Nat) : State :=
  let d := s.die die
  let s1 := s.setDie die { d with
    rprunning := false, rpcause := BitVec.ofNat 8 cause, rpreason := BitVec.ofNat 8 reason, rppc := d.rotStream.pc }
  if cause = 0 then s1 else s1.raise die 1

/-- The reason RPCTL holds for a cause: the illegal-instruction reason, or the register number of 0x68 (R352). -/
def rotationReason (cause : Nat) (info : Word) : Nat :=
  if cause = 0x01 then info.toNat / 2 ^ 32 % 256 else if cause = 0x68 then info.toNat % 256 else 0

/-- Take a trap in the executing stream: trap entry of its strand, or the stop of the rotation program (R59, R96, R353). -/
def State.takeTrap (s : State) (cause : Nat) (info : Word) : State :=
  let c := s.cur
  if c.rot then s.stopRotation c.die cause (rotationReason cause info)
  else
    let st := s.strand c
    let ids := match (st.get c.str).pend with
      | none => []
      | some p => p.ids
    (s.forgetAll ids).setStrand c (st.trapEnter c.str cause info)

/-- The executing stream waits at its word (R25, R65). -/
def State.waitOn (s : State) (w : Wait) : State :=
  s.setStream s.cur { s.stream s.cur with wait := some w }

/-- The executing stream retires its word and goes on (R89). -/
def State.retire (s : State) (len : Nat) : State :=
  s.setStream s.cur ((s.stream s.cur).advance len)

/-- The executing stream retires its word by a transfer of control (R90). -/
def State.retireTo (s : State) (t : Word) : State :=
  s.setStream s.cur ((s.stream s.cur).transfer t)

/-- Whether the executing agent can run a word: its strand exists, the stream has not ended and no stop holds its crew, but
for a word that has been sent (R338), or the rotation program runs. -/
def State.runs (s : State) : Bool :=
  let c := s.cur
  if c.rot then (s.die c.die).rprunning
  else match s.strand? c with
    | none => false
    | some st => !(st.get c.str).ended && (!(s.crew c.die c.polder).halted || (st.get c.str).pend.isSome)

/-- What a word's body came to. -/
def State.finish (s0 : State) (len : Nat) : Res Eff → State
  | .error (.wait w) => s0.waitOn w
  | .error (.trap cause info) => s0.takeTrap cause info
  | .ok (.next s) => s.retire len
  | .ok (.jump s t) => s.retireTo t
  | .ok (.stay s) => s
  | .ok (.done s) => s

/-- Give the token bits of a word that retires (R24). -/
def giveAfter (tk : BitVec 4) : Eff → Res Eff
  | .next s => do
    let s1 ← giveTokens tk s
    pure (.next s1)
  | .jump s t => do
    let s1 ← giveTokens tk s
    pure (.jump s1 t)
  | e => pure e

/-- What a word marks in the streams that pass it by, given one more than its place in program order (R18). -/
abbrev Marking := Nat → Marks → Marks

def markNone : Marking := fun _ m => m
def markLoad : Marking := fun n m => { m with ld := n }
def markLoadAcq : Marking := fun n m => { m with ld := n, acqA := n }
def markStore : Marking := fun n m => { m with st := n }
def markStoreAcq : Marking := fun n m => { m with st := n, acqD := n }
def markSync : Marking := fun n m => { m with syn := n }
def markSyncAcq : Marking := fun n m => { m with syn := n, acqX := n }

/-- Pass a word by: it is not this stream's (R18). -/
def State.passBy (s : State) (len : Nat) (mark : Marking) : State :=
  let st := s.stream s.cur
  s.setStream s.cur ({ st with marks := mark (st.seq + 1) st.marks }.advance len)

/-- The trap of a sync word whose reply is not ok: poison, an object check at the home, or a failed completion (R260-R262). -/
def syncTrap {α : Type} (status data : Nat) : Res α :=
  if status = 5 then trap 0x08 (BitVec.ofNat 64 data)
  else if status = 7 then trap 0x56 (BitVec.ofNat 64 (256 + data))
  else trap 0x55 (BitVec.ofNat 64 (if syncStatus status = 4 then 4 else 3))

/-- The reply of a word in its register. A stop that holds the crew keeps it as the strand's pending reply (R274, R305,
R339). -/
def writeResult (rd : BitVec 5) (v : Word) (s : State) : Res State :=
  let c := s.cur
  if !c.rot && (s.crew c.die c.polder).halted then
    let st := s.strand c
    let r := some (rd.toNat, v.toNat, 0)
    pure (s.setStrand c (if c.str = .d then { st with replyD := r } else { st with reply := r }))
  else writeReg rd v s

/-- The failure of a sync word: its trap, or under a stop the pending reply that takes the trap later (R274). -/
def failResult (rd : BitVec 5) (status data : Nat) (s : State) : Res State :=
  let c := s.cur
  if (s.crew c.die c.polder).halted then
    pure (s.setStrand c { s.strand c with reply := some (rd.toNat, data, status) })
  else syncTrap status data

/-- The trap of a failed claim: poison, or a failure at the home (R261, R297). -/
def claimTrap {α : Type} (status data : Nat) : Res α :=
  if status = 5 then trap 0x08 (BitVec.ofNat 64 data) else trap 0x5F (BitVec.ofNat 64 (256 + status))

/-- The pending reply that the executing stream takes before it issues its next word (R274, R305, R339). -/
def State.replyDue (s : State) : Option (Nat × Nat × Nat) :=
  let c := s.cur
  if c.rot || (s.crew c.die c.polder).halted then none
  else match c.str with
    | .a => none
    | .x => (s.strand c).reply
    | .d => (s.strand c).replyD

/-- Take a pending reply: it is written to its register, or its trap is taken. -/
def State.takeReply (s : State) (r : Nat × Nat × Nat) : State :=
  let c := s.cur
  let st := s.strand c
  let t := s.setStrand c (if c.str = .d then { st with replyD := none } else { st with reply := none })
  let res : Res State :=
    if r.2.2 = 0 then writeReg (BitVec.ofNat 5 r.1) (BitVec.ofNat 64 r.2.1) t
    else if c.str = .d then claimTrap r.2.2 r.2.1
    else syncTrap r.2.2 r.2.1
  match res with
  | .ok s1 => s1
  | .error (.wait w) => s.waitOn w
  | .error (.trap cause info) => t.takeTrap cause info

/-- Run a word of `len` words in the executing stream. A stream that does not execute it passes it by. Otherwise its
tokens are taken, its body runs and its tokens are given; while it waits, none of this has happened (R24, R25). The
body is given the state before the takes and the state after them. A pending reply is taken first. -/
def runWordM (mark : Marking) (len : Nat) (mine : Str → Bool) (tk : BitVec 4) (body : State → State → Res Eff)
    (s : State) : State :=
  if !s.runs then s
  else match s.replyDue with
    | some r => s.takeReply r
    | none =>
      if !s.cur.rot && !mine s.cur.str then s.passBy len mark
      else s.finish len (do
        let s1 ← takeTokens tk s
        let e ← body s s1
        giveAfter tk e)

/-- A word that marks nothing. -/
def runWord (len : Nat) (mine : Str → Bool) (tk : BitVec 4) (body : State → State → Res Eff) (s : State) : State :=
  runWordM markNone len mine tk body s

/-- Whether stream `k` of the executing strand has completed the word that a mark names (R18). -/
def State.passed (s : State) (k : Str) (mark : Nat) : Bool :=
  let st := (s.strand s.cur).get k
  st.ended || mark ≤ st.seq

/-- Whether every acquire of another stream that precedes this word in program order has completed (R49, R155, R299). -/
def State.acquired (s : State) : Bool :=
  let m := (s.stream s.cur).marks
  s.passed .a m.acqA && s.passed .x m.acqX && s.passed .d m.acqD

/-- Wait, uncounted by the watchdog, until a condition holds. -/
def untilTrue (b : Bool) : Res Unit := if b then pure () else hold .uncounted

/-- The outcome of a step that has a next state. -/
def answer (s : State) : Host.Outcome State Fault Refusal := .next s

/-- The streams a lower-half word's stream field names (R20). -/
def namedBy (sf : BitVec 2) (k : Str) : Bool := sf = 0 || strOf sf = k

/-- A lower-half word: no tokens, sent to the streams its field names (R20, R68). -/
def runLower (sf : BitVec 2) (body : State → Res Eff) (s : State) : State :=
  runWord 1 (namedBy sf) 0 (fun _ s => body s) s

/-- A lower-half word that goes to all three streams (R21, R22). -/
def runAll (body : State → Res Eff) (s : State) : State :=
  runWord 1 (fun _ => true) 0 (fun _ s => body s) s

/-- A word of the X stream (R19). -/
def runX (tk : BitVec 4) (body : State → Res Eff) (s : State) : State :=
  runWord 1 (· = .x) tk (fun _ s => body s) s

/-- A word of the A stream (R19). -/
def runA (tk : BitVec 4) (body : State → Res Eff) (s : State) : State :=
  runWord 1 (· = .a) tk (fun _ s => body s) s

/-- A word of the D stream (R19). -/
def runD (tk : BitVec 4) (body : State → Res Eff) (s : State) : State :=
  runWord 1 (· = .d) tk (fun _ s => body s) s

/-- A load of the A stream: it waits for the acquires that precede it (R155). -/
def runLoad (mark : Marking) (tk : BitVec 4) (body : State → State → Res Eff) (s : State) : State :=
  runWordM mark 1 (· = .a) tk (fun s0 s => do
    untilTrue s0.acquired
    body s0 s) s

/-- The address of the word the executing stream runs. -/
def State.pc (s : State) : Word := (s.stream s.cur).pc

/-- The work a word has in progress. -/
def State.pending (s : State) : Option Pend := (s.stream s.cur).pend

/-- Put a word in progress. -/
def State.setPending (s : State) (p : Pend) : State :=
  s.setStream s.cur { s.stream s.cur with pend := some p, wait := some .uncounted }

end Sys2Proof.Machine
end

