-- ==== Sys2Proof/Machine/Control.lean ====
section
/-! DEFINITION. The shared control subset: integer arithmetic, branches, hardware loops, waits on arrival tags, tokens,
register spill, traps and strand end (R83-R99), and the two events of decode and fetch (R73, R307). -/

namespace Sys2Proof.Machine

/-! ## Integer and address arithmetic (R83, R84) -/

/-- rd ← f(ra, rb). -/
def alu (f : Word → Word → Word) (sf : BitVec 2) (rd ra rb : BitVec 5) (s : State) : State :=
  runLower sf (fun s => do
    let (a, s1) ← readReg ra s
    let (b, s2) ← readReg rb s1
    let s3 ← writeReg rd (f a b) s2
    pure (.next s3)) s

/-- rd ← f(ra). -/
def aluImm (f : Word → Word) (sf : BitVec 2) (rd ra : BitVec 5) (s : State) : State :=
  runLower sf (fun s => do
    let (a, s1) ← readReg ra s
    let s2 ← writeReg rd (f a) s1
    pure (.next s2)) s

/-- Bits [127:64] of the unsigned product. -/
def mulHighU (a b : Word) : Word := ((a.setWidth 128 * b.setWidth 128) >>> 64).setWidth 64

/-- Bits [127:64] of the signed product. -/
def mulHighS (a b : Word) : Word := ((a.signExtend 128 * b.signExtend 128) >>> 64).setWidth 64

/-- 1 if signed a < signed b, else 0. -/
def lessS (a b : Word) : Word := if a.slt b then 1 else 0

/-- 1 if unsigned a < unsigned b, else 0. -/
def lessU (a b : Word) : Word := if a.ult b then 1 else 0

def minS (a b : Word) : Word := if b.slt a then b else a
def maxS (a b : Word) : Word := if a.slt b then b else a
def minU (a b : Word) : Word := if b.ult a then b else a
def maxU (a b : Word) : Word := if a.ult b then b else a

/-- b[5:0], a shift amount. -/
def shiftAmount (b : Word) : Nat := b.toNat % 64

def execAdd (sf : BitVec 2) (rd ra rb : BitVec 5) (s : State) := answer (alu (· + ·) sf rd ra rb s)
def execSub (sf : BitVec 2) (rd ra rb : BitVec 5) (s : State) := answer (alu (· - ·) sf rd ra rb s)
def execAnd (sf : BitVec 2) (rd ra rb : BitVec 5) (s : State) := answer (alu (· &&& ·) sf rd ra rb s)
def execOr (sf : BitVec 2) (rd ra rb : BitVec 5) (s : State) := answer (alu (· ||| ·) sf rd ra rb s)
def execXor (sf : BitVec 2) (rd ra rb : BitVec 5) (s : State) := answer (alu (· ^^^ ·) sf rd ra rb s)
def execSll (sf : BitVec 2) (rd ra rb : BitVec 5) (s : State) := answer (alu (fun a b => a <<< shiftAmount b) sf rd ra rb s)
def execSrl (sf : BitVec 2) (rd ra rb : BitVec 5) (s : State) := answer (alu (fun a b => a >>> shiftAmount b) sf rd ra rb s)
def execSra (sf : BitVec 2) (rd ra rb : BitVec 5) (s : State) :=
  answer (alu (fun a b => a.sshiftRight (shiftAmount b)) sf rd ra rb s)
def execMul (sf : BitVec 2) (rd ra rb : BitVec 5) (s : State) := answer (alu (· * ·) sf rd ra rb s)
def execMulhu (sf : BitVec 2) (rd ra rb : BitVec 5) (s : State) := answer (alu mulHighU sf rd ra rb s)
def execMulh (sf : BitVec 2) (rd ra rb : BitVec 5) (s : State) := answer (alu mulHighS sf rd ra rb s)
def execSlt (sf : BitVec 2) (rd ra rb : BitVec 5) (s : State) := answer (alu lessS sf rd ra rb s)
def execSltu (sf : BitVec 2) (rd ra rb : BitVec 5) (s : State) := answer (alu lessU sf rd ra rb s)
def execMin (sf : BitVec 2) (rd ra rb : BitVec 5) (s : State) := answer (alu minS sf rd ra rb s)
def execMax (sf : BitVec 2) (rd ra rb : BitVec 5) (s : State) := answer (alu maxS sf rd ra rb s)
def execMinu (sf : BitVec 2) (rd ra rb : BitVec 5) (s : State) := answer (alu minU sf rd ra rb s)
def execMaxu (sf : BitVec 2) (rd ra rb : BitVec 5) (s : State) := answer (alu maxU sf rd ra rb s)

def execAddi (sf : BitVec 2) (rd ra : BitVec 5) (imm : BitVec 13) (s : State) :=
  answer (aluImm (· + imm.signExtend 64) sf rd ra s)
def execSlti (sf : BitVec 2) (rd ra : BitVec 5) (imm : BitVec 13) (s : State) :=
  answer (aluImm (lessS · (imm.signExtend 64)) sf rd ra s)
def execAndi (sf : BitVec 2) (rd ra : BitVec 5) (imm : BitVec 13) (s : State) :=
  answer (aluImm (· &&& imm.setWidth 64) sf rd ra s)
def execOri (sf : BitVec 2) (rd ra : BitVec 5) (imm : BitVec 13) (s : State) :=
  answer (aluImm (· ||| imm.setWidth 64) sf rd ra s)
def execXori (sf : BitVec 2) (rd ra : BitVec 5) (imm : BitVec 13) (s : State) :=
  answer (aluImm (· ^^^ imm.setWidth 64) sf rd ra s)
def execSlli (sf : BitVec 2) (rd ra : BitVec 5) (sh : BitVec 6) (s : State) :=
  answer (aluImm (· <<< sh.toNat) sf rd ra s)
def execSrli (sf : BitVec 2) (rd ra : BitVec 5) (sh : BitVec 6) (s : State) :=
  answer (aluImm (· >>> sh.toNat) sf rd ra s)
def execSrai (sf : BitVec 2) (rd ra : BitVec 5) (sh : BitVec 6) (s : State) :=
  answer (aluImm (·.sshiftRight sh.toNat) sf rd ra s)

/-- rd ← sext64(IMM18) × 2^13 (R84). -/
def execLui (sf : BitVec 2) (rd : BitVec 5) (imm : BitVec 18) (s : State) :=
  answer (runLower sf (fun s => do
    let s1 ← writeReg rd (imm.signExtend 64 <<< 13) s
    pure (.next s1)) s)

/-! ## Branches (R86-R88) -/

/-- The number of the branch queue between two streams (R102 cause 0x7D). -/
def bqIndex : Str → Str → Fin 6
  | .a, .d => 1
  | .a, _ => 0
  | .x, .d => 3
  | .x, _ => 2
  | .d, .x => 5
  | .d, _ => 4

/-- The other two streams. -/
def otherStreams : Str → Str × Str
  | .a => (.x, .d)
  | .x => (.a, .d)
  | .d => (.a, .x)

/-- Push an outcome into both branch queues of the evaluator; wait until each has a free entry (R86). -/
def pushBranch (v : Word) (s : State) : Res State :=
  let c := s.cur
  let st := s.strand c
  let (f, g) := otherStreams c.str
  let qf := st.bq.get (bqIndex c.str f)
  let qg := st.bq.get (bqIndex c.str g)
  if 8 ≤ qf.length || 8 ≤ qg.length then hold .branchQueue
  else
    let bq := (st.bq.set (bqIndex c.str f).val (qf ++ [v]) (bqIndex c.str f).isLt)
    pure (s.setStrand c { st with bq := bq.set (bqIndex c.str g).val (qg ++ [v]) (bqIndex c.str g).isLt })

/-- Pop an outcome from the evaluator's branch queue; wait while it is empty (R86). -/
def popBranch (ev : Str) (s : State) : Res (Word × State) :=
  let c := s.cur
  let st := s.strand c
  let i := bqIndex ev c.str
  match st.bq.get i with
  | [] => hold .branchQueue
  | v :: r => pure (v, s.setStrand c { st with bq := st.bq.set i.val r i.isLt })

/-- A value that the evaluator computes and the other streams take from their branch queues; a rotation program has one
stream and no queue (R86, R353). -/
def throughBranch (ev : BitVec 2) (value : State → Res (Word × State)) (s : State) : Res (Word × State) :=
  if s.cur.rot then value s
  else if s.cur.str = strOf ev then do
    let (v, s1) ← value s
    let s2 ← pushBranch v s1
    pure (v, s2)
  else popBranch (strOf ev) s

/-- A conditional branch (R86). -/
def branch (ev : BitVec 2) (off : BitVec 13) (value : State → Res (Word × State)) (s : State) : State :=
  runAll (fun s => do
    let (v, s1) ← throughBranch ev value s
    pure (if v ≠ 0 then .jump s1 (s.pc + (off.signExtend 64 <<< 2)) else .next s1)) s

/-- A compare branch: the condition on two registers of the evaluator (R86). -/
def compareBranch (cond : Word → Word → Bool) (ev : BitVec 2) (offHi ra rb : BitVec 5) (offLo : BitVec 8) (s : State) : State :=
  branch ev (offHi ++ offLo) (fun s => do
    let (a, s1) ← readReg ra s
    let (b, s2) ← readReg rb s1
    pure ((if cond a b then 1 else 0), s2)) s

def execBeq (ev : BitVec 2) (offHi ra rb : BitVec 5) (offLo : BitVec 8) (s : State) :=
  answer (compareBranch (· == ·) ev offHi ra rb offLo s)
def execBne (ev : BitVec 2) (offHi ra rb : BitVec 5) (offLo : BitVec 8) (s : State) :=
  answer (compareBranch (· != ·) ev offHi ra rb offLo s)
def execBlt (ev : BitVec 2) (offHi ra rb : BitVec 5) (offLo : BitVec 8) (s : State) :=
  answer (compareBranch (fun a b => a.slt b) ev offHi ra rb offLo s)
def execBge (ev : BitVec 2) (offHi ra rb : BitVec 5) (offLo : BitVec 8) (s : State) :=
  answer (compareBranch (fun a b => !a.slt b) ev offHi ra rb offLo s)
def execBltu (ev : BitVec 2) (offHi ra rb : BitVec 5) (offLo : BitVec 8) (s : State) :=
  answer (compareBranch (fun a b => a.ult b) ev offHi ra rb offLo s)
def execBgeu (ev : BitVec 2) (offHi ra rb : BitVec 5) (offLo : BitVec 8) (s : State) :=
  answer (compareBranch (fun a b => !a.ult b) ev offHi ra rb offLo s)

/-- BPANY: taken when some bit of pN is 1; the evaluator is X (R86). -/
def execBpany (offHi : BitVec 5) (pn : BitVec 4) (offLo : BitVec 8) (s : State) :=
  answer (branch 2 (offHi ++ offLo) (fun s => pure ((if readPred pn.toNat s ≠ 0 then 1 else 0), s)) s)

/-- BPNONE: taken when every bit of pN is 0 (R86). -/
def execBpnone (offHi : BitVec 5) (pn : BitVec 4) (offLo : BitVec 8) (s : State) :=
  answer (branch 2 (offHi ++ offLo) (fun s => pure ((if readPred pn.toNat s = 0 then 1 else 0), s)) s)

/-- J (R87). -/
def execJ (off : BitVec 23) (s : State) :=
  answer (runAll (fun s => pure (.jump s (s.pc + (off.signExtend 64 <<< 2)))) s)

/-- JAL: every stream links and jumps (R87). -/
def execJal (rd : BitVec 5) (off : BitVec 18) (s : State) :=
  answer (runAll (fun s => do
    let s1 ← writeReg rd (s.pc + 4) s
    pure (.jump s1 (s.pc + (off.signExtend 64 <<< 2)))) s)

/-- The target of JR and JALR: read by the evaluator, which traps 0x0B on a misaligned one before it pushes (R87). -/
def jumpTarget (ev : BitVec 2) (ra : BitVec 5) (s : State) : Res (Word × State) :=
  throughBranch ev (fun s => do
    let (t, s1) ← readReg ra s
    if t.toNat % 4 ≠ 0 then trap 0x0B t else pure (t, s1)) s

/-- JR (R87). -/
def execJr (ev : BitVec 2) (ra : BitVec 5) (s : State) :=
  answer (runAll (fun s => do
    let (t, s1) ← jumpTarget ev ra s
    pure (.jump s1 t)) s)

/-- JALR: as JR, and each stream links (R87). -/
def execJalr (ev : BitVec 2) (rd ra : BitVec 5) (s : State) :=
  answer (runAll (fun s => do
    let (t, s1) ← jumpTarget ev ra s
    let s2 ← writeReg rd (s.pc + 4) s1
    pure (.jump s2 t)) s)

/-! ## Hardware loops (R89) -/

/-- The address of the last body word. -/
def loopLast (s : State) (body : BitVec 8) : Word := s.pc + BitVec.ofNat 64 (4 * (body.toNat + 1))

/-- Whether a new level breaks the nesting rules (R89). -/
def nestingBad (ls : List Loop) (last : Word) : Bool :=
  3 ≤ ls.length || (match ls with
    | [] => false
    | l :: _ => l.stop.toNat < last.toNat)

/-- Open a level, or skip the body when the count is 0. `takes` says whether this stream takes the nesting trap.
DESIGN CHOICE (log 61): where the last body word of a skipped body is a CPYM copy word, R89's PC ← last + 4 is taken as it stands
and the follow-on word is executed by itself, although R70 ends a level after the follow-on. -/
def loopBody (body : BitVec 8) (count : BitVec 32) (takes : Bool) (s0 s : State) : Res Eff :=
  let st := s.stream s.cur
  let last := loopLast s0 body
  if count = 0 then
    match st.loops with
    | [] => pure (.next (s.setStream s.cur { st with pc := last }))
    | l :: _ =>
      if l.stop.toNat < last.toNat then pure (.jump s (last + 4))
      else pure (.next (s.setStream s.cur { st with pc := last }))
  else if nestingBad st.loops last then
    if takes then trap 0x03 last else hold .uncounted
  else pure (.jump (s.setStream s.cur { st with loops := { start := st.pc + 4, stop := last, lc := count } :: st.loops }) (st.pc + 4))

/-- LOOPI: the count is an immediate (R89). -/
def execLoopi (count : BitVec 15) (body : BitVec 8) (s : State) :=
  answer (runAll (fun s => loopBody body (count.setWidth 32) (s.cur.rot || s.cur.str = .x) s s) s)

/-- LOOPR: the count is a register of the evaluator, through its branch queues; 2^32 or more traps 0x04 (R89). -/
def execLoopr (ev : BitVec 2) (ra : BitVec 5) (body : BitVec 8) (s : State) :=
  answer (runAll (fun s => do
    let (n, s1) ← throughBranch ev (fun s => do
      let (n, s1) ← readReg ra s
      if 2 ^ 32 ≤ n.toNat then trap 0x04 n
      else if n ≠ 0 && nestingBad (s.stream s.cur).loops (loopLast s body) then trap 0x03 (loopLast s body)
      else pure (n, s1)) s
    loopBody body (n.setWidth 32) (s.cur.rot || s.cur.str = strOf ev) s s1) s)

/-- Pop cq through the stream's own read pointer (R22). -/
def popCount (s : State) : Res (BitVec 32 × State) :=
  let c := s.cur
  let st := s.strand c
  let k := st.get c.str
  match st.cq[k.cqPos - st.cqBase]? with
  | none => hold .countQueue
  | some v => pure (v, s.setStrand c ((st.set c.str { k with cqPos := k.cqPos + 1 }).trimCq))

/-- LOOPQ: the count is popped from cq by each stream (R89). -/
def execLoopq (body : BitVec 8) (s : State) :=
  answer (runAll (fun s => do
    let (n, s1) ← popCount s
    loopBody body n (s.cur.str = .x) s s1) s)

/-! ## Waiting on arrival tags (R91) -/

/-- TAGW: wait for the arrival record of a segment, and read it. A wait that a change of the die's ring has ended is out of
range (R420). -/
def execTagw (sf : BitVec 2) (rd ra : BitVec 5) (s : State) :=
  answer (runLower sf (fun s => do
    let (a, s1) ← readReg ra s
    let d := s.die s.cur.die
    let seg := bitsOf a 27 8
    let waits := Eff.stay (s.setPending { ids := [], data := [900, d.rg.gen] })
    let ended := match s.pending with
      | some p => p.data ≠ [900, d.rg.gen]
      | none => false
    if ended || bitsOf a 31 28 ≠ bitsOf d.rgctl 63 60 || 2 ^ 34 ≤ seg * d.segSize then do
      let s2 ← writeReg rd (BitVec.ofNat 64 (2 ^ 9)) s1
      pure (.next s2)
    else
      match look seg d.arrivals with
      | none => pure waits
      | some r =>
        if (r.rotation - a.setWidth 8).toNat < 128 then do
          let s2 ← writeReg rd (BitVec.ofNat 64 (r.rotation.toNat + (if d.holds seg then 256 else 0))) s1
          pure (.next s2)
        else pure waits) s)

/-! ## Explicit tokens (R92) -/

/-- TOK: the token bits of a word with no other effect. -/
def execTok (sf : BitVec 2) (tk : BitVec 4) (s : State) :=
  answer (runWord 1 (namedBy sf) tk (fun _ s => pure (.next s)) s)

/-! ## Register spill (R78, R94) -/

/-- SPILLSIZE of a crew's streams (R78). -/
def Crew.spillSize (c : Crew) : Nat := c.partition.toNat % 256 * 65536 / (3 * c.strands) / 512 * 512

/-- SCRATCH of a crew, in bytes (R31). -/
def Crew.scratchBytes (c : Crew) : Nat := c.partition.toNat / 2 ^ 16 % 256 * 65536

/-- ACCUM of a crew, in bytes (R31). -/
def Crew.accumBytes (c : Crew) : Nat := c.partition.toNat / 2 ^ 8 % 256 * 65536

/-- Where the executing stream's in-pool spill area begins (R32). -/
def spillBase (s : State) : Nat :=
  let c := s.cur
  let crew := s.crew c.die c.polder
  dieAddr c.die (poolOffset c.polder + crew.scratchBytes + crew.accumBytes
    + (3 * c.strand + Str.num c.str) * crew.spillSize)

/-- Push `n` bytes onto the executing stream's spill stack (R94). -/
def spillPush (v n : Nat) (s : State) : Res State :=
  let c := s.cur
  let st := s.stream c
  let crew := s.crew c.die c.polder
  if st.ovBase.toNat < st.ovPtr.toNat || crew.spillSize < st.spillSp + n then
    if st.ovLimit.toNat < st.ovPtr.toNat + n || !inBerm c.die st.ovBase.toNat (st.ovLimit.toNat - st.ovBase.toNat) then
      trap 0x05 st.ovPtr
    else pure ((s.writeN st.ovPtr.toNat v n).setStream c { st with ovPtr := st.ovPtr + BitVec.ofNat 64 n })
  else pure ((s.writeN (spillBase s + st.spillSp) v n).setStream c { st with spillSp := st.spillSp + n })

/-- Pop `n` bytes from the executing stream's spill stack; poisoned data traps 0x08 (R94). -/
def spillPop (n : Nat) (s : State) : Res (Nat × State) :=
  let c := s.cur
  let st := s.stream c
  let take (a : Nat) (st1 : Stream) : Res (Nat × State) :=
    match s.poisonIn a n with
    | some p => trap 0x08 (BitVec.ofNat 64 p)
    | none => pure (s.readN a n, s.setStream c st1)
  if st.ovBase.toNat < st.ovPtr.toNat then
    take (st.ovPtr.toNat - n) { st with ovPtr := st.ovPtr - BitVec.ofNat 64 n }
  else if n ≤ st.spillSp then take (spillBase s + st.spillSp - n) { st with spillSp := st.spillSp - n }
  else trap 0x06 0

/-- The 16 bytes of a handle (R140). -/
def Handle.toNat (h : Handle) : Nat :=
  h.base.toNat + (if h.seg then 2 ^ 57 else 0) + (if h.wr then 2 ^ 58 else 0) + h.size.toNat * 2 ^ 59
  + h.kind.toNat * 2 ^ 61 + (if h.valid then 2 ^ 63 else 0) + h.entry.toNat * 2 ^ 100 + h.gen.toNat * 2 ^ 112

/-- The page-size code's bytes (R131). -/
def pageBytes (size : BitVec 2) : Nat :=
  if size = 0 then 2 ^ 16 else if size = 1 then 2 ^ 22 else if size = 2 then 2 ^ 30 else 2 ^ 34

/-- Words 0 and 1 of a translation-table entry (R139). -/
def Die.entry (d : Die) (k : Nat) : Word × Word := (look k d.xent).getD (0, 0)

/-- The handle of entry k (R139, R140): bits of the base below the page size are taken as zero. -/
def handleOf (k : Nat) (w0 : Word) (valid : Bool) : Handle :=
  let size : BitVec 2 := BitVec.ofNat 2 (bitsOf w0 60 59)
  { gen := BitVec.ofNat 16 (bitsOf w0 15 0), entry := BitVec.ofNat 12 k, valid := valid
    kind := BitVec.ofNat 2 (bitsOf w0 62 61), size := size
    wr := bitsOf w0 58 58 = 1, seg := bitsOf w0 57 57 = 1
    base := BitVec.ofNat 52 (bitsOf w0 51 16 * 65536 / pageBytes size * pageBytes size) }

/-- A handle as POP or a restore makes it again: everything but the entry and its generation comes from the entry, and it
is valid only if the entry is, with the same generation and the strand's context (R140, R223). -/
def State.reloadHandle (s : State) (die context entry gen : Nat) : Handle :=
  let (w0, w1) := (s.die die).entry entry
  let ok := bitsOf w0 63 63 = 1 && bitsOf w0 15 0 = gen && bitsOf w1 63 58 = context
  { handleOf entry w0 ok with gen := BitVec.ofNat 16 gen }

/-- PUSH: one register onto the spill stack (R94). -/
def execPush (sf : BitVec 2) (reg : BitVec 5) (cls : BitVec 2) (s : State) :=
  answer (runLower sf (fun s => do
    let (v, n, s1) ← (
      if cls = 0 then do
        let (v, s1) ← readReg reg s
        pure (v.toNat, 8, s1)
      else if cls = 1 then do
        let (v, s1) ← readVec reg s
        pure (v.toNat, 512, s1)
      else if cls = 2 then pure ((readPred reg.toNat s).toNat, 128, s)
      else pure ((((s.strand s.cur).h.get (Fin.ofNat 16 reg.toNat)).toNat), 16, s) : Res (Nat × Nat × State))
    let s2 ← spillPush v n s1
    pure (.next s2)) s)

/-- POP: one register from the spill stack (R94, R140). -/
def execPop (sf : BitVec 2) (reg : BitVec 5) (cls : BitVec 2) (s : State) :=
  answer (runLower sf (fun s => do
    if cls = 0 then do
      let (v, s1) ← spillPop 8 s
      let s2 ← writeReg reg (BitVec.ofNat 64 v) s1
      pure (.next s2)
    else if cls = 1 then do
      let (v, s1) ← spillPop 512 s
      let s2 ← writeVec reg (BitVec.ofNat 4096 v) s1
      pure (.next s2)
    else if cls = 2 then do
      let (v, s1) ← spillPop 128 s
      pure (.next (writePred reg.toNat (BitVec.ofNat 1024 v) s1))
    else do
      let (v, s1) ← spillPop 16 s
      let c := s.cur
      let h := s.reloadHandle c.die (s.crew c.die c.polder).context (v / 2 ^ 100 % 4096) (v / 2 ^ 112 % 65536)
      let st := s1.strand c
      let i : Fin 16 := Fin.ofNat 16 reg.toNat
      pure (.next (s1.setStrand c { st with h := st.h.set i.val h i.isLt }))) s)

/-! ## Traps and strand end (R95-R99) -/

/-- TRAP: a software trap in the named stream (R95). -/
def execTrap (sf : BitVec 2) (imm : BitVec 13) (s : State) :=
  answer (runLower sf (fun _ => trap 0x02 (imm.setWidth 64)) s)

/-- ERET: once all three streams have reached it, the set-aside state returns; outside trap mode it traps in X (R97). -/
def execEret (s : State) :=
  answer (runAll (fun s =>
    let c := s.cur
    let st := s.strand c
    if !st.trapMode then (if c.str = .x then trap 0x0C 0 else hold .uncounted)
    else
      let st1 := st.set c.str { st.get c.str with arrived := true, wait := some .uncounted }
      if st1.a.arrived && st1.x.arrived && st1.d.arrived then
        let s1 := s.setStrand c st1.eretAll
        let crew := s1.crew c.die c.polder
        pure (.done (s1.setCrew c.die c.polder (crew.shiftOrder c.strand (st1.trapBase.getD 0) st1.trapShift)))
      else pure (.stay (s.setStrand c st1))) s)

/-- With the hazard detector on, the FIFO between this stream and a neighbour that has ended in which a count is left
(R63). -/
def tokenHazard (st : Strand) (k : Str) : Option Nat :=
  (List.range 4).find? fun f =>
    st.tok f ≠ 0 &&
      ((tokGiver f = k && (st.get (tokTaker f)).ended) || (tokTaker f = k && (st.get (tokGiver f)).ended))

/-- With the hazard detector on, a branch queue towards this stream that still holds entries (R88). -/
def branchHazard (st : Strand) (k : Str) : Option Nat :=
  let (f, g) := otherStreams k
  if !(st.bq.get (bqIndex f k)).isEmpty then some (bqIndex f k).val
  else if !(st.bq.get (bqIndex g k)).isEmpty then some (bqIndex g k).val
  else none

/-- End the executing stream at its word (R99). -/
def endStream (s : State) : Res State :=
  let c := s.cur
  let st := s.strand c
  let debug := (s.crew c.die c.polder).debug
  match debug, branchHazard st c.str, tokenHazard st c.str with
  | true, some q, _ => trap 0x7D (BitVec.ofNat 64 q)
  | true, none, some f => trap 0x78 (BitVec.ofNat 64 f)
  | _, _, _ => pure (s.setStream c { st.get c.str with ended := true, wait := none, waited := 0, pend := none })

/-- EXIT: the stream ends; a rotation program stops with cause 0 (R99, R353). -/
def execExit (s : State) :=
  answer (runAll (fun s =>
    if s.cur.rot then pure (.done (s.stopRotation s.cur.die 0 0))
    else do
      let s1 ← endStream s
      pure (.done s1)) s)

/-! ## Illegal words and fetch faults (R73, R307) -/

/-- The stream in which an illegal word traps (R73). -/
def illegalStream (w : Nat) : Str :=
  let m := w / 2 ^ 25 % 128
  if m < 0x40 then
    let legal := m ≤ 0x07 || (0x10 ≤ m && m ≤ 0x1B) || (0x20 ≤ m && m ≤ 0x22) || (0x24 ≤ m && m ≤ 0x26)
      || m = 0x28 || m = 0x29 || (0x30 ≤ m && m ≤ 0x34)
    if legal && w / 2 ^ 23 % 4 ≠ 0 then strOf (BitVec.ofNat 2 (w / 2 ^ 23)) else .x
  else if m ≤ 0x4B then .a
  else if m ≤ 0x67 then .x
  else if m ≤ 0x6B then .d
  else .x

/-- ILLEGAL_INSTRUCTION: the word at the pc is illegal. Its stream takes cause 0x01 with the culprit word and the reason;
the others pass it by (R73). Inputs: the culprit word, the reason, the word at the pc, the number of words to pass by. -/
def execIllegalInstruction (s : State) :=
  let culprit := s.inp.getD 0 0
  let reason := s.inp.getD 1 0
  let w := s.inp.getD 2 culprit
  answer (runWord (s.inp.getD 3 1) (· = illegalStream w) 0
    (fun _ _ => trap 0x01 (BitVec.ofNat 64 (culprit % 2 ^ 32 + reason * 2 ^ 32))) s)

/-- INSTRUCTION_FETCH_FAULT: a fetch outside the text of the launch (R307); for the follow-on of a CPYM copy word, a fault of
the A stream, which the others pass by with the pair (R70). Inputs: the address, 1 for a follow-on. -/
def execInstructionFetchFault (s : State) :=
  let pair := s.inp.getD 1 0 = 1
  answer (runWord (if pair then 2 else 1) (fun k => !pair || k = .a) 0
    (fun _ _ => trap 0x0A (BitVec.ofNat 64 (s.inp.getD 0 0))) s)

end Sys2Proof.Machine
end

