-- ==== Sys2Proof/Machine/Reach.lean ====
section
/-! DEFINITION. What an access of a strand goes through before its bytes are read or written: the handle check, the
scratchpad and its banks, the range scoreboard, and the sectors it needs (R35-R39, R44, R127, R131, R138, R151-R154). -/

namespace Sys2Proof.Machine

/-! ## The scratchpad -/

/-- The executing strand's crew. -/
def State.myCrew (s : State) : Crew := s.crew s.cur.die s.cur.polder

/-- The fabric physical address of a scratchpad address of the executing crew (R32). -/
def State.scratchPa (s : State) (u : Nat) : Nat := dieAddr s.cur.die (poolOffset s.cur.polder + u)

/-- The format register code of a bank (R37, R115). -/
def Crew.fmtCode (c : Crew) (bank : Nat) : Nat := (c.bankFmt[bank]?.getD 0).toNat

/-- The format of a bank (R115). -/
def Crew.fmtOf (c : Crew) (bank : Nat) : Fmt := (Sys2Proof.Machine.bankFmt (c.fmtCode bank)).getD .raw

/-- Whether a format is stored as the two planes of R113. -/
def Fmt.sixBit : Fmt → Bool
  | .e3m2 | .e2m3 | .dx 6 => true
  | _ => false

/-- Element e of a 6-bit bank whose first byte has the address `base` (R113). -/
def State.sixBitElt (s : State) (base e : Nat) : Nat :=
  (s.byteAt (base + e / 2)).toNat / 16 ^ (e % 2) % 16
    + (s.byteAt (base + 32768 + e / 4)).toNat / 4 ^ (e % 4) % 4 * 16

/-- Replace element e of a 6-bit bank (R113). -/
def State.setSixBit (s : State) (base e v : Nat) : State :=
  let lo := (s.byteAt (base + e / 2)).toNat
  let hi := (s.byteAt (base + 32768 + e / 4)).toNat
  let lo1 := lo - lo / 16 ^ (e % 2) % 16 * 16 ^ (e % 2) + v % 16 * 16 ^ (e % 2)
  let hi1 := hi - hi / 4 ^ (e % 4) % 4 * 4 ^ (e % 4) + v / 16 % 4 * 4 ^ (e % 4)
  (s.writeN (base + e / 2) lo1 1).writeN (base + 32768 + e / 4) hi1 1

/-- Whether the bytes of a range in a polder slot of a die lie in two banks with different format registers; the
scratchpad address of the first byte (R37). -/
def State.bankSplit (s : State) (die a n : Nat) : Option Nat :=
  let off := paOffset a
  if paModule a ≠ 0 || paDie a ≠ die || off < 0x500000000 || 0x520000000 ≤ off || n = 0 then none
  else
    let u := (off - 0x500000000) % 0x800000
    let b0 := u / 65536
    let b1 := (u + n - 1) / 65536
    if b0 = b1 then none
    else match s.crew? die ((off - 0x500000000) / 0x800000) with
      | none => none
      | some c => if c.fmtCode b0 = c.fmtCode b1 then none else some u

/-! ## Handles (R131) -/

/-- The handle in register `n` of the executing strand. -/
def State.handle (s : State) (n : Nat) : Handle := (s.strand s.cur).h.get (Fin.ofNat 16 n)

/-- HandleCheck of the A stream, on the exact offset: cause 0x20 for an invalid handle, 0x21 outside its page (R131). -/
def handleCheck (h : Handle) (n : Nat) (off : Int) (len : Nat) : Res Nat :=
  if !h.valid then trap 0x20 (BitVec.ofNat 64 n)
  else if off < 0 || (pageBytes h.size : Int) < off + len then trap 0x21 (BitVec.ofInt 64 off)
  else pure (h.base.toNat + off.toNat)

/-! ## The range scoreboard (R39, R138) -/

/-- Whether two ranges of bytes overlap. -/
def overlap (a n b m : Nat) : Bool := 0 < n && 0 < m && a < b + m && b < a + n

/-- Whether an entry's recorded ranges overlap a range. -/
def CopyCmd.overlaps (c : CopyCmd) (a n : Nat) : Bool :=
  c.state ≠ .free && (c.srcR ++ c.dstR).any fun r => overlap a n r.1 r.2

/-- Whether an access by the executing stream overlaps a recorded range that holds it back: any of another strand of the
crew, and those of its own strand that come earlier in program order (R39). -/
def State.scoreboardHolds (s : State) (ranges : List (Nat × Nat)) : Bool :=
  let seq := (s.stream s.cur).seq
  s.myCrew.copies.toList.any fun c =>
    c.state ≠ .free && (c.strand ≠ s.cur.strand || c.seq ≤ seq) && ranges.any fun r => c.overlaps r.1 r.2

/-! ## Sectors -/

/-- Record in a table of sectors and byte masks the bytes of a range, cut at sectors (R130). -/
def addRange : Nat → Nat → Nat → List (Nat × Nat) → List (Nat × Nat)
  | 0, _, _, t => t
  | fuel + 1, a, n, t =>
    if n = 0 then t
    else
      let here := min n (128 - a % 128)
      let t1 := put (a / 128) ((look (a / 128) t).getD 0 ||| fullMask here * 2 ^ (a % 128)) t
      addRange fuel (a + here) (n - here) t1

/-- The sectors that ranges touch, with the bytes they touch. -/
def sectorsOf (ranges : List (Nat × Nat)) : List (Nat × Nat) :=
  ranges.foldl (fun t r => addRange (r.2 / 128 + 2) r.1 r.2 t) []

/-- How an access reads: for which requester and context, the page's kind, and whether it is an acquire. -/
structure Reader where
  die : Nat
  unit : Nat
  context : Nat
  kind : BitVec 2
  acquire : Bool
  deriving DecidableEq, Repr, Inhabited

/-- The bytes a read needs of a sector that the remote cache holds for its context (R44); an acquire never uses them (R53). -/
def State.cached (s : State) (r : Reader) (idx mask : Nat) : Option Sector :=
  if r.kind = 0 || r.acquire then none
  else match look idx (s.die r.die).cache with
    | none => none
    | some c => if c.context = r.context && (c.present &&& mask) = mask then some c else none

/-- The sectors that a word's requests read, with the request. -/
def State.readsHeld (s : State) (ids : List Nat) : List (Nat × Nat) :=
  ids.filterMap fun i => (look i s.reqs).bind fun r => if r.kind = 0 then some (r.addr / 128, i) else none

/-- Ask the homes for the sectors that a read still needs (R151); the new requests. -/
def State.askSectors (s : State) (r : Reader) (held : List (Nat × Nat)) (secs : List (Nat × Nat)) : List Nat × State :=
  secs.foldl (fun (acc : List Nat × State) e =>
    let s := acc.2
    let p := s.place r.die (128 * e.1)
    if (p = .remote || p = .host) && !(held.any fun h => h.1 = e.1) && (s.cached r e.1 e.2).isNone then
      -- a sector held for another context is first written back and given up
      let s1 := (s.sectorFor r.die e.1 r.context).2
      let fill := r.kind ≠ 0 && !r.acquire
      let (id, s2) := s1.request { Req.blank r.die r.unit 0 0 (128 * e.1) 128 r.context with
        op := 127, owner := some 0, purpose := if fill then .fill r.context else .plain }
      (acc.1 ++ [id], s2)
    else acc) ([], s)

/-- Read one word of the die-register block: its value and the state after (R460). -/
abbrev RegRead := State → Nat → Nat → Word × State

/-- Read the registers of a die-register sector that a mask touches, in ascending order (R460). -/
def readRegs (rd : RegRead) (die idx mask : Nat) (s : State) : Reply × State :=
  (List.range 16).foldl (fun (acc : Reply × State) i =>
    if mask / 2 ^ (8 * i) % 256 = 0 then acc
    else
      let (w, s1) := rd acc.2 die ((128 * idx + 8 * i) % 2 ^ 24)
      ({ acc.1 with data := acc.1.data + w.toNat * 2 ^ (64 * i) }, s1)) (⟨0, 0, 0⟩, s)

/-- The results of the sectors of a read, each as it stands now: this die's memory, window and registers, the remote
cache, or the reply of its request (R42, R44, R127, R154). -/
def readSectors (rd : RegRead) (r : Reader) (held : List (Nat × Nat)) (secs : List (Nat × Nat)) (s : State) :
    List (Nat × Reply) × State :=
  secs.foldl (fun (acc : List (Nat × Reply) × State) e =>
    let s := acc.2
    let a := 128 * e.1
    match s.place r.die a with
    | .mem => (acc.1 ++ [(e.1, s.readHome r.die a 128)], s)
    | .window => (acc.1 ++ [(e.1, s.readHome r.die a 128)], s)
    | .dreg =>
      let (v, s1) := readRegs rd r.die e.1 e.2 s
      (acc.1 ++ [(e.1, v)], s1)
    | .unreach => (acc.1 ++ [(e.1, ⟨3, 0, 0⟩)], s)
    | .bad => (acc.1 ++ [(e.1, ⟨4, 0, 0⟩)], s)
    | _ =>
      match s.cached r e.1 e.2 with
      | some c => (acc.1 ++ [(e.1, ⟨0, c.data, c.poison⟩)], s)
      | none => (acc.1 ++ [(e.1, ((look e.1 held).bind s.replyOf).getD ⟨2, 0, 0⟩)], s)) ([], s)

/-- What the bytes of a range came to: the first status other than ok and where it begins, the data, and the first
poisoned word. -/
structure Got where
  status : Nat
  failAt : Nat
  data : Nat
  poisonAt : Option Nat
  deriving DecidableEq, Repr, Inhabited

/-- Collect the bytes of a range from the results of its sectors. -/
def collect (rs : List (Nat × Reply)) : Nat → Nat → Nat → Got
  | 0, _, _ => ⟨0, 0, 0, none⟩
  | fuel + 1, a, n =>
    if n = 0 then ⟨0, 0, 0, none⟩
    else
      let here := min n (128 - a % 128)
      let r := (look (a / 128) rs).getD ⟨4, 0, 0⟩
      let g := collect rs fuel (a + here) (n - here)
      if r.status ≠ 0 then ⟨r.status, a, g.data * 2 ^ (8 * here), g.poisonAt⟩
      else
        let bad := (wordsOf (a % 128) here).find? fun w => r.poison / 2 ^ w % 2 = 1
        ⟨g.status, g.failAt, r.data / 2 ^ (8 * (a % 128)) % 2 ^ (8 * here) + g.data * 2 ^ (8 * here),
          match bad with
          | some w => some (a / 128 * 128 + 8 * w)
          | none => g.poisonAt⟩

/-- The bytes of a range. -/
def collectRange (rs : List (Nat × Reply)) (a n : Nat) : Got := collect rs (n / 128 + 2) a n

/-- The trap cause of a load status (R127). -/
def loadCause (status : Nat) : Nat := if status = 1 then 0x25 else if status = 2 then 0x26 else if status = 3 then 0x27 else 0x28

/-- Record a failing status-form load in LDSTAT and LDSTATPC (R128, R129). -/
def State.loadFailed (s : State) (c : Ctx) (status : Nat) (pc : Word) : State :=
  let st := s.strand c
  s.setStrand c { st with ldstat := setBits (satAdd st.ldstat 63 32 1) 3 0 status, ldstatpc := pc }

/-- Write back the sectors of the executing strand's context for an acquire, release or fence at die scope or wider, and
report failures to the strand; the write-backs that must end (R53). -/
def State.writeBackContext (s : State) (c : Ctx) : List Nat × State :=
  let ctx := (s.crew c.die c.polder).context
  s.flush c.die (fun _ x => x = ctx) (some (strandKey c.die c.polder c.strand))

/-- Invalidate the sectors of the executing strand's context (R53). -/
def State.invalidateContext (s : State) (c : Ctx) : State :=
  let ctx := (s.crew c.die c.polder).context
  s.invalidate c.die fun _ x => x = ctx

/-- Whether a scope is die or wider (R47, R69). -/
def dieScope (scope : BitVec 3) : Bool := 3 ≤ scope.toNat

/-! ## Bound streams -/

/-- The parts of a stream descriptor (R147, R283). -/
structure Descr where
  base : Nat
  ctrl : Word
  counts : List Nat
  strides : List Int
  deriving DecidableEq, Repr, Inhabited

/-- A descriptor's fields; dimensions above SD.DIMS count 1. -/
def descrOf (desc : Vector Word 8) : Descr :=
  let ctrl := desc[1]
  let half (i : Nat) : Nat := (desc[2 + i / 2]?.getD 0).toNat / 2 ^ (32 * (i % 2)) % 2 ^ 32
  let dims := bitsOf ctrl 11 10
  { base := desc[0].toNat, ctrl := ctrl
    counts := (List.range 4).map fun i => if i ≤ dims then half i else 1
    strides := (List.range 4).map fun i => (desc[4 + i]?.getD 0).toInt }

/-- The number of vectors of a pattern. -/
def Descr.total (d : Descr) : Nat := d.counts.foldl (· * ·) 1

/-- The address of vector k, index i0 fastest (R147). -/
def Descr.addr (d : Descr) (k : Nat) : Int :=
  ((d.counts.zip d.strides).foldl (fun (acc : Int × Nat) cs =>
    (acc.1 + (acc.2 % cs.1 : Nat) * cs.2, acc.2 / cs.1)) ((d.base : Int), k)).1

/-- Whether a bound load stream has a fetch in flight that comes before place `seq` in program order and before fetch `upTo`
(R156). -/
def AffineStream.fetching (x : AffineStream) (seq upTo : Nat) : Bool := x.flight.isSome && x.place ≤ seq && x.began < upTo

/-- The bound load streams of a strand. -/
def Strand.loadStreams (st : Strand) : List AffineStream := st.ls0.toList ++ st.ls1.toList

/-- The bytes that the vector in flight of a load stream reads, of a crew whose pool begins at `pool` (R136, R137, R147). -/
def AffineStream.flightRanges (x : AffineStream) (c : Crew) (pool : Nat) : List (Nat × Nat) :=
  match x.flight with
  | none => []
  | some k =>
    let d := descrOf x.desc
    let u := (d.addr k).toNat
    if bitsOf d.ctrl 8 8 = 0 then [(x.handle.base.toNat + u, 512)]
    else if (c.fmtOf (u / 65536)).sixBit then
      [(pool + u, 256), (pool + u / 65536 * 65536 + 32768 + u % 65536 / 2, 128)]
    else if bitsOf d.ctrl 9 9 = 1 then [(pool + u / 4096 * 4096, 4096)]
    else [(pool + u, 512)]

end Sys2Proof.Machine
end

