-- ==== Sys2Proof/Machine/Copy.lean ====
section
/-! DEFINITION. The copy engine: issue checks, destination units, operand ring buffers, gathers, metadata, merges, bank
formats, suspension and cancellation (06 R193-R220), but for CPYM's word and hand-off, which Matrix.lean holds. -/

namespace Sys2Proof.Machine

/-! ## Copy addresses and sides (R196) -/

/-- One side of a copy as its address register names it. -/
structure Side where
  global : Bool
  hn : Nat
  off : Nat
  h : Handle
  deriving DecidableEq, Repr, Inhabited

/-- Whether reserved bits of a copy address are set (R196). -/
def copyAddrBad (w : Word) : Bool :=
  bitsOf w 59 34 ≠ 0 || (bitsOf w 63 63 = 0 && (bitsOf w 62 60 ≠ 0 || bitsOf w 33 32 ≠ 0))

/-- The side a copy address names (R196). -/
def sideOf (w : Word) (s : State) : Side :=
  let g := bitsOf w 63 63 = 1
  let hn := bitsOf w 62 60
  { global := g, hn := hn, off := if g then bitsOf w 33 0 else bitsOf w 31 0, h := s.handle hn }

/-- Where a side begins as a fabric physical address. -/
def Side.pa (x : Side) (s : State) : Nat := if x.global then x.h.base.toNat + x.off else s.scratchPa x.off

/-- The handle copy a command keeps of a side. -/
def Side.copy (x : Side) : Option Handle := if x.global then some x.h else none

/-- A handle side whose range passes the end of its page (R131). -/
def Side.outOfPage (x : Side) (n : Nat) : Bool := x.global && pageBytes x.h.size < x.off + n

/-- A scratchpad range that reaches at or beyond the scratchpad (R198 reason 2). -/
def beyondScratch (c : Crew) (r : Nat × Nat) : Bool := r.2 ≠ 0 && c.scratchBytes < r.1 + r.2

/-- The first bank of a scratchpad range whose format code differs from the first bank's (R198 cause 0x41). DESIGN CHOICE:
R198 gives "bank number" and does not say which of the two; this one is reported (log 45). -/
def splitBank (c : Crew) (r : Nat × Nat) : Option Nat :=
  if r.2 = 0 then none
  else
    let b0 := r.1 / 65536
    ((List.range (min 127 ((r.1 + r.2 - 1) / 65536) - b0 + 1)).map (b0 + ·)).find? fun b => c.fmtCode b ≠ c.fmtCode b0

/-- The first check that fails, as a trap (R198). -/
def firstTrap : List (Bool × Nat × Nat) → Res Unit
  | [] => pure ()
  | (bad, cause, info) :: r => if bad then trap cause (BitVec.ofNat 64 info) else firstTrap r

/-! ## Elements of a bank -/

/-- Whether a format code is an element format, neither RAW nor INT64 (R199). -/
def elementCode (code : Nat) : Bool := code ≠ 0 && code ≠ 7 && (bankFmt code).isSome

/-- Bytes of the element plane of `n` elements of `b` bits: 6-bit elements in the nibble plane (R112, R113). -/
def planeBytes (b n : Nat) : Nat := if b < 8 then n / 2 else n * (b / 8)

/-- Bytes of an element for a column traversal, 0 where the format has none (R200). -/
def columnBytes (code : Nat) : Nat :=
  if code = 7 then 8 else match bankFmt code with
    | none => 1
    | some f => if f.bits % 8 = 0 then f.bits / 8 else 0

/-- The scratchpad address of source element e of a column traversal of width w from u (R200). -/
def columnAddr (u w e : Nat) : Nat :=
  let c := u % 64
  let j := e / 64
  let n0 := (64 - c) / w
  let row := e % 64
  if j < n0 then u / 4096 * 4096 + row * 64 + c + w * j
  else
    let k := j - n0
    (u / 4096 + 1 + k / (64 / w)) * 4096 + row * 64 + w * (k % (64 / w))

/-- An element of a bank: its bank and its element index there (R116, R230). -/
structure Elt where
  bank : Nat
  index : Nat
  deriving DecidableEq, Repr, Inhabited

/-- Element e of a row traversal from scratchpad address u, for elements of `b` bits (R199). A 6-bit bank holds 65,536
elements (R113): DESIGN CHOICE, a traversal that passes them goes on with the first element of the next bank (log 45). -/
def rowElt (b u e : Nat) : Elt :=
  if b = 6 then
    let i := 2 * (u % 65536) + e
    { bank := u / 65536 + i / 65536, index := i % 65536 }
  else
    let bit := 8 * u + b * e
    { bank := bit / 524288, index := bit % 524288 / b }

/-- The scratchpad address of an element's scale word in a DX bank (R116). -/
def scaleAddr (code : Nat) (x : Elt) : Nat :=
  (x.bank + code % 16) * 65536 + x.bank % 8 * 8192 + 2 * (x.index / 32)

/-- The code bits of an element of a bank of a crew whose pool begins at `base` (R112, R113). -/
def State.eltBits (s : State) (base b : Nat) (x : Elt) : Nat :=
  let a := base + x.bank * 65536
  if b = 6 then s.sixBitElt a x.index
  else if b = 4 then (s.byteAt (a + x.index / 2)).toNat / 16 ^ (x.index % 2) % 16
  else s.readN (a + x.index * (b / 8)) (b / 8)

/-- Whether the bytes of an element, or its scale word, are poisoned. -/
def State.eltPoisoned (s : State) (base code b : Nat) (x : Elt) : Bool :=
  let a := base + x.bank * 65536
  let main := if b = 6 then (s.poisonIn (a + x.index / 2) 1).isSome || (s.poisonIn (a + 32768 + x.index / 4) 1).isSome
    else if b = 4 then (s.poisonIn (a + x.index / 2) 1).isSome
    else (s.poisonIn (a + x.index * (b / 8)) (b / 8)).isSome
  main || (0xC1 ≤ code && (s.poisonIn (base + scaleAddr code x) 2).isSome)

/-- The value of an element with given code bits in a bank (R120, R230). -/
def State.eltValue (s : State) (base code : Nat) (x : Elt) (bits : Nat) : XVal :=
  match (bankFmt code).getD .raw with
  | .dx w =>
    let sw := s.readN (base + scaleAddr code x) 2
    decodeDX (sw % 256) (sw / 256) bits w
  | f => decodeElt f bits

/-! ## Scoreboard entries -/

/-- An entry of a crew. -/
def Crew.copyAt (c : Crew) (i : Nat) : CopyCmd := (c.copies[i]?).getD default

/-- Replace an entry of a crew. -/
def Crew.setCopy (c : Crew) (i : Nat) (e : CopyCmd) : Crew := { c with copies := c.copies.setIfInBounds i e }

/-- Update an entry of a polder's crew. -/
def State.setCopy (s : State) (die polder i : Nat) (e : CopyCmd) : State :=
  s.setCrew die polder ((s.crew die polder).setCopy i e)

/-- Whether a command is a merge. -/
def CopyCmd.isMerge (e : CopyCmd) : Bool := match e.op with
  | .merge _ => true
  | _ => false

/-- Whether a merge has begun to write: it finishes, whatever stops its crew (R223). -/
def CopyCmd.mergeWrites (e : CopyCmd) : Bool := e.merged.isSome && (0 < e.next || !e.landed.isEmpty || !e.flight.isEmpty)

/-- A command with nothing in it. -/
def CopyCmd.blank (op : CopyOp) : CopyCmd :=
  { (default : CopyCmd) with state := .queued, op := op, ring := 8 }

/-- An operand ring of a crew. -/
def Crew.ring (c : Crew) (n : Nat) : OpRing := (c.rings[n]?).getD default

/-- Replace an operand ring of a crew. -/
def Crew.setRing (c : Crew) (n : Nat) (r : OpRing) : Crew := { c with rings := c.rings.setIfInBounds n r }

/-- COUNT[k] (R204). -/
def OpRing.count (r : OpRing) (k : Nat) : Nat := r.counts.getD (k % r.stages) 0

/-- Set COUNT[k]. -/
def OpRing.setCount (r : OpRing) (k n : Nat) : OpRing := { r with counts := r.counts.set (k % r.stages) n }

/-- TAIL moved past every complete stage in sequence (R206). -/
def OpRing.moveTail (r : OpRing) : Nat → OpRing
  | 0 => r
  | n + 1 =>
    if r.tail < r.head + r.stages && r.count r.tail = r.stageSize then { r with tail := r.tail + 1 }.moveTail n else r

/-- A ring as RBCFG sets it: HEAD, TAIL, FILL, every stage count and CONS are cleared (R203, R219, R241). -/
def ringOf (cfg : Nat) : OpRing :=
  let stages := if cfg = 0 then 0 else cfg / 2 ^ 12 % 16 + 1
  { bank := if cfg = 0 then 0 else cfg / 2 ^ 16 % 128, stages := stages
    stageSize := if cfg = 0 then 0 else cfg % 128 * 4096
    head := 0, tail := 0, fillStage := 0, fillOff := 0, counts := List.replicate stages 0, consStage := 0, consSlab := 0 }

/-- Whether an MCTL.RING on a ring is enqueued and has not taken effect (R241). -/
def Crew.ringPending (c : Crew) (ring : Nat) : Bool :=
  (c.matQ ++ c.matU).any fun m =>
    m.word.toNat / 2 ^ 25 = 0x4F && m.word.toNat / 2 ^ 17 % 8 = 2 && m.word.toNat / 2 ^ 14 % 8 = ring

/-! ## Issue (R198) -/

/-- Enqueue a checked command in the lowest free entry; the stream waits while there is none (R39, R198). -/
def issueCopy (e : CopyCmd) (s : State) : Res State := do
  let c := s.cur
  let crew := s.crew c.die c.polder
  match (List.range 16).find? fun i => (crew.copyAt i).state = .free with
  | none => hold .commandQueue
  | some i =>
    let k := s.stream c
    let e := { e with strand := c.strand, seq := k.seq, order := crew.copyOrder, marks := k.marks }
    let s1 := s.setCrew c.die c.polder { crew.setCopy i e with copyOrder := crew.copyOrder + 1 }
    let st := s1.strand c
    pure (s1.setStrand c { st with cplast := BitVec.ofNat 4 i })

/-- The ranges of a scratchpad side of a converting copy: its element plane, the high plane of 6-bit elements, and the
scale words of DX elements, as scratchpad ranges. 6-bit elements that go on into the next bank take all from the first one's
nibble to the last one's high bits. -/
def planeRanges (code b u n : Nat) : List (Nat × Nat) :=
  let x := rowElt b u 0
  let last := rowElt b u (n - 1)
  let final := last.bank * 65536 + 32768 + last.index / 4 + 1
  let main := if b = 6 && x.bank ≠ last.bank then (u, final - u) else (u, planeBytes b n)
  let high := if b = 6 && x.bank = last.bank then
      [(x.bank * 65536 + 32768 + x.index / 4, last.index / 4 - x.index / 4 + 1)] else []
  let scale := if 0xC1 ≤ code then
      (List.range (last.bank - x.bank + 1)).map fun i =>
        let first : Elt := { bank := x.bank + i, index := if i = 0 then x.index else 0 }
        let final : Elt := { bank := x.bank + i
                             index := if x.bank + i = last.bank then last.index else (if b = 6 then 65536 else 524288 / b) - 1 }
        (scaleAddr code first, scaleAddr code final + 2 - scaleAddr code first)
    else []
  if n = 0 then [] else main :: (high ++ scale)

/-- The blocks a column traversal reads, as one scratchpad range (R200). -/
def columnRange (u w n : Nat) : Nat × Nat :=
  if n = 0 then (u, 0) else (u / 4096 * 4096, columnAddr u w (n - 1) / 4096 * 4096 + 4096 - u / 4096 * 4096)

/-- Whether any two ranges of two lists overlap. -/
def anyOverlap (xs ys : List (Nat × Nat)) : Bool := xs.any fun x => ys.any fun y => overlap x.1 x.2 y.1 y.2

/-- Scratchpad or handle ranges as fabric physical addresses. -/
def Side.ranges (x : Side) (s : State) (rs : List (Nat × Nat)) : List (Nat × Nat) :=
  rs.map fun r => ((if x.global then x.h.base.toNat + r.1 else s.scratchPa r.1), r.2)

/-- The checks of R198 in their order, for a copy of which the caller knows the sides, the ranges that each side touches
as scratchpad addresses or page offsets, and which of the reasons 3 to 7 hold. -/
def copyChecks (s : State) (src dst : Side) (extra : List Side) (reserved : Bool) (srcR dstR : List (Nat × Nat))
    (srcLen dstLen : Nat) (reasons : List Bool) (dstChecked : Bool) (form : List (Bool × Nat × Nat)) : Res Unit :=
  let c := s.myCrew
  let far (x : Side) (rs : List (Nat × Nat)) : Bool := !x.global && rs.any (beyondScratch c)
  let split (x : Side) (rs : List (Nat × Nat)) : Option Nat :=
    if x.global then none else (rs.head?.bind (splitBank c))
  let sp := split src srcR
  let dp := if dstChecked then split dst dstR else none
  firstTrap (
    [(reserved, 0x40, 1), (src.global && !src.h.valid, 0x20, src.hn), (dst.global && !dst.h.valid, 0x20, dst.hn)]
    ++ (extra.map fun x => (x.global && !x.h.valid, 0x20, x.hn))
    ++ [(far src srcR || (dstChecked && far dst dstR), 0x40, 2)]
    ++ (reasons.zipIdx.map fun r => (r.1, 0x40, 3 + r.2))
    ++ [(sp.isSome, 0x41, sp.getD 0), (dp.isSome, 0x41, dp.getD 0),
        (src.outOfPage srcLen, 0x21, src.off), (dst.outOfPage dstLen, 0x21, dst.off)]
    ++ form)

/-- How many destination units a range of bytes has (R202). -/
def unitCount (a n : Nat) : Nat := if n = 0 then 0 else (a + n - 1) / 128 - a / 128 + 1

/-- What a CPY, CPYM or CPYR word comes to before it takes an entry. `dst` is the destination side; a CPYR's is its stage.
`ringOk` says whether the ring rules stand in for the reasons that a CPYR reports as 0x42 reason 5. -/
structure Plan where
  cmd : CopyCmd
  src : Side
  dst : Side
  extra : List Side
  reserved : Bool
  srcR : List (Nat × Nat)
  dstR : List (Nat × Nat)
  srcLen : Nat
  /-- bytes of the scale words that a handle side supplies or receives (R201) -/
  scaleLen : Nat
  reasons : List Bool
  /-- a rule of R199 that CPYR reports as reason 5 of 0x42 -/
  convBad : Bool
  /-- bits of a destination element -/
  dstBits : Nat
  deriving Inhabited

/-- Plan a CPY, CPYM or CPYR from its sides and its length register (R197-R201). The scale copy addresses are those of
SC (R201). -/
def planCopy (s : State) (src dst : Side) (lenReg : Word) (scol sc : Bool) (scaleSrc scaleDst : Option Word)
    (isRing : Bool) : Plan :=
  let c := s.myCrew
  let n := bitsOf lenReg 31 0
  let cs := if src.global then 0 else c.fmtCode (src.off / 65536)
  let cd := if dst.global then 0 else c.fmtCode (dst.off / 65536)
  let fs := (bankFmt cs).getD .raw
  let fd := (bankFmt cd).getD .raw
  let conv := !src.global && !dst.global && elementCode cs && elementCode cd && cs ≠ cd
  let w := columnBytes cs
  -- columns (R200)
  let colBad := scol && (src.global || src.off / 64 % 64 ≠ 0 || w = 0 || src.off % 64 % w ≠ 0)
  let w := max w 1
  let colLenBad := scol && !colBad && !conv && n % (64 * w) ≠ 0
  -- conversion (R199)
  let block := if fd.bits = 8 then 32 else 16
  let isDx (code : Nat) : Bool := 0xC1 ≤ code
  let convLenBad := conv && n % 64 ≠ 0
  let convBad := conv && isDx cd && dst.off % block ≠ 0
  -- scale words (R201)
  let dxCode (code : Nat) : Bool := (0xC1 ≤ code && code ≤ 0xCF) || (0xE1 ≤ code && code ≤ 0xEF)
  let scCode := if src.global then cd else cs
  let scBlock := if 0xE1 ≤ scCode then 32 else 16
  let scSides := (!src.global && !dxCode cs) || (!dst.global && !dxCode cd) || (src.global && dst.global)
  let scaleSides := (if src.global then scaleSrc.toList else []) ++ (if dst.global then scaleDst.toList else [])
  let scaleBad := scaleSides.any fun x => bitsOf x 63 63 = 0
  let sc5 := sc && (conv || scSides || scaleBad)
  let sc3 := sc && !sc5 && (src.off % scBlock ≠ 0 || n % scBlock ≠ 0 || scaleSides.any fun x => x.toNat % 2 ≠ 0)
  let blocks := n / scBlock
  let dstLen := if conv then planeBytes fd.bits n else n
  let block0 := columnRange src.off w (if conv then n else n / w)
  let scaleRange (code u : Nat) : List (Nat × Nat) :=
    if sc && !sc5 then (planeRanges code (if 0xE1 ≤ code then 8 else 4) u (if 0xE1 ≤ code then n else 2 * n)).drop 1 else []
  let srcR := if scol && !colBad then
      block0 :: (if conv then (planeRanges cs fs.bits block0.1 (block0.2 / w)).drop 1 else scaleRange cs src.off)
    else if conv then planeRanges cs fs.bits src.off n
    else (src.off, n) :: (if src.global then [] else scaleRange cs src.off)
  let dstR := if conv then planeRanges cd fd.bits dst.off n
    else (dst.off, n) :: (if dst.global then [] else scaleRange cd dst.off)
  let aux (x : Option Word) (g : Bool) : Option Side := if sc && g then x.map fun x => sideOf x s else none
  let sa := aux scaleSrc src.global
  let da := aux scaleDst dst.global
  let extra := sa.toList ++ da.toList
  let firstScale (x : Side) (code : Nat) (a : Option Side) : Option Nat :=
    if !sc then none
    else match a with
      | some a => some (a.pa s)
      | none => some (s.scratchPa (scaleAddr code (rowElt (if 0xE1 ≤ code then 8 else 4) x.off 0)))
  let auxRanges (a : Option Side) : List (Nat × Nat) := match a with
    | some a => a.ranges s [(a.off, 2 * blocks)]
    | none => []
  { cmd := { CopyCmd.blank (if conv then .convert else .bytes) with
      len := lenReg, srcH := src.copy, dstH := dst.copy, auxH := (sa.or da).bind Side.copy, scol := scol, sc := sc
      aux := if !sc then 0 else if src.global then scaleSrc.getD 0 else if dst.global then scaleDst.getD 0 else 0
      srcPa := src.pa s, dstPa := dst.pa s, srcScale := firstScale src cs sa, dstScale := firstScale dst cd da
      dstLen := dstLen, units := unitCount (dst.pa s) dstLen
      srcR := src.ranges s srcR ++ auxRanges sa, dstR := dst.ranges s dstR ++ auxRanges da }
    src := src, dst := dst, extra := extra
    reserved := bitsOf lenReg 63 32 ≠ 0 || (sc && scaleSides.any copyAddrBad)
    srcR := srcR, dstR := dstR, srcLen := n, scaleLen := 2 * blocks
    reasons := [colLenBad || sc3 || convLenBad || (!isRing && convBad), colBad, sc5,
      (dst.global && !dst.h.wr) || (match da with
        | some a => !a.h.wr
        | none => false),
      conv && anyOverlap (src.ranges s srcR) (dst.ranges s dstR)]
    convBad := convBad, dstBits := fd.bits }

/-- The checks of a plan, with the checks of its form last (R198). -/
def Plan.check (p : Plan) (s : State) (reserved : Bool) (form : List (Bool × Nat × Nat)) : Res Unit :=
  let scaleOut := p.extra.map fun x => (x.outOfPage p.scaleLen, 0x21, x.off)
  copyChecks s p.src p.dst p.extra (p.reserved || reserved) p.srcR p.dstR p.srcLen p.srcLen p.reasons true (scaleOut ++ form)

/-- The address and length registers of a CPY or CPYM, popped in the order RD, RA, RB (R194). -/
def copyRegs (rd ra rb : BitVec 5) (s : State) : Res (Word × Word × Word × State) := do
  let (d, s1) ← readReg rd s
  let (a, s2) ← readReg ra s1
  let (b, s3) ← readReg rb s2
  pure (d, a, b, s3)

/-- Plan a CPY or the copy of a CPYM from its registers. -/
def planCpy (scol sc : BitVec 1) (rd ra rb : BitVec 5) (s : State) : Res (Plan × Bool × State) := do
  let (d, a, b, s1) ← copyRegs rd ra rb s
  let above (r : BitVec 5) : Option Word := some ((s.strand s.cur).a.regs.get (r + 1).toFin)
  let p := planCopy s (sideOf a s) (sideOf d s) b (scol = 1) (sc = 1) (above ra) (above rd) false
  pure ({ p with cmd := { p.cmd with src := a, dst := d } }, copyAddrBad a || copyAddrBad d, s1)

/-- CPY (R194-R201). -/
def execCpy (tk : BitVec 4) (scol sc : BitVec 1) (rd ra rb : BitVec 5) (s : State) :=
  answer (runA tk (fun s => do
    let (p, bad, s1) ← planCpy scol sc rd ra rb s
    p.check s bad []
    let s2 ← issueCopy { p.cmd with word := BitVec.ofNat 32 (0x48 * 2 ^ 25 + tk.toNat * 2 ^ 21 + scol.toNat * 2 ^ 19
      + sc.toNat * 2 ^ 17 + rd.toNat * 2 ^ 12 + ra.toNat * 2 ^ 7 + rb.toNat * 2 ^ 2) } s1
    pure (.next s2)) s)

/-- The destination length L of a CPYR: N bytes, or N × w_d ÷ 8 for a conversion (R205). -/
def Plan.ringLen (p : Plan) : Nat := if p.cmd.op = .convert then p.srcLen * p.dstBits / 8 else p.srcLen

/-- CPYR, and CPYR.AT with its position (R205). -/
def copyRing (tk : BitVec 4) (scol : BitVec 1) (ring : BitVec 3) (rp : Option (BitVec 5)) (ra rb : BitVec 5) (s : State) : State :=
  runA tk (fun s => do
    let crew := s.myCrew
    if crew.ringPending ring.toNat then hold .commandQueue
    let r := crew.ring ring.toNat
    let (p, s1) ← (match rp with
      | some rp => do
        let (p, s1) ← readReg rp s
        pure (some p, s1)
      | none => pure (none, s) : Res (Option Word × State))
    let (a, s2) ← readReg ra s1
    let (b, s3) ← readReg rb s2
    let k := match p with
      | some p => bitsOf p 63 32
      | none => r.fillStage
    let off := match p with
      | some p => bitsOf p 31 0
      | none => r.fillOff
    let dst : Side := { global := false, hn := 0, h := default
                        off := r.bank * 65536 + (if r.stages = 0 then 0 else k % r.stages) * r.stageSize + off }
    let plan := planCopy s (sideOf a s) dst b (scol = 1) false none none true
    let l := plan.ringLen
    let code (reason : Nat) : Nat := ring.toNat + 2 ^ 8 * reason
    -- the destination is checked by the ring rules
    let plan := { plan with dstR := if r.stages = 0 || r.stageSize < off + l then [] else plan.dstR }
    plan.check s (copyAddrBad a)
      [(r.stages = 0, 0x42, code 1),
       (l % 128 ≠ 0 || l < 128 || off % 128 ≠ 0, 0x42, code 2),
       (r.stageSize < off + l, 0x42, code 3),
       (p.isSome && (r.fillStage * r.stageSize + r.fillOff < k * r.stageSize + off + l || k < r.tail), 0x42, code 4),
       (plan.convBad, 0x42, code 5)]
    let e := { plan.cmd with
      src := a, dst := 0, aux := BitVec.ofNat 64 (k * 2 ^ 32 + off), ring := ring.toNat, stage := k
      word := BitVec.ofNat 32 (0x49 * 2 ^ 25 + tk.toNat * 2 ^ 21 + (if p.isSome then 2 ^ 20 else 0) + scol.toNat * 2 ^ 19
        + ring.toNat * 2 ^ 16 + ((rp.getD 0).toNat) * 2 ^ 11 + ra.toNat * 2 ^ 6 + rb.toNat * 2) }
    let s4 ← issueCopy e s3
    let crew1 := s4.myCrew
    let r1 := if p.isSome then r
      else if off + l = r.stageSize then { r with fillStage := k + 1, fillOff := 0 }
      else { r with fillStage := k, fillOff := off + l }
    pure (.next (s4.setCrew s.cur.die s.cur.polder (crew1.setRing ring.toNat r1)))) s

def execCpyr (tk : BitVec 4) (scol : BitVec 1) (ring : BitVec 3) (ra rb : BitVec 5) (s : State) :=
  answer (copyRing tk scol ring none ra rb s)
def execCpyrAt (tk : BitVec 4) (scol : BitVec 1) (ring : BitVec 3) (rp ra rb : BitVec 5) (s : State) :=
  answer (copyRing tk scol ring (some rp) ra rb s)

/-- The word of a major 0x4A form (R194). -/
def wordOf4A (tk : BitVec 4) (fn rd ra rb : Nat) : BitVec 32 :=
  BitVec.ofNat 32 (0x4A * 2 ^ 25 + tk.toNat * 2 ^ 21 + fn * 2 ^ 19 + rd * 2 ^ 14 + ra * 2 ^ 9 + rb * 2 ^ 4)

/-- CPYG (R207). The source range is taken from the base to the end of its page or of the scratchpad. -/
def execCpyg (tk : BitVec 4) (rd ra rb : BitVec 5) (s : State) :=
  answer (runA tk (fun s => do
    let (d, a, b, s1) ← copyRegs rd ra rb s
    let src := sideOf a s
    let dst := sideOf d s
    let row := (bitsOf b 59 52 + 1) * 128
    let m := bitsOf b 51 32
    let list := bitsOf b 31 0
    let n := row * m
    let limit := if src.global then pageBytes src.h.size else s.myCrew.scratchBytes
    let srcR := if m = 0 then [] else [(src.off, limit - src.off)]
    copyChecks s src dst [] (copyAddrBad a || copyAddrBad d || bitsOf b 63 60 ≠ 0)
      (if src.global then [] else [(src.off, min 1 n)]) [(dst.off, n)] 0 n
      [src.off % 128 ≠ 0 || dst.off % 128 ≠ 0
          || (m ≠ 0 && (list % 4 ≠ 0 || list / 65536 ≠ (list + 4 * m - 1) / 65536 || s.myCrew.scratchBytes < list + 4 * m)),
        false, false, dst.global && !dst.h.wr, anyOverlap (src.ranges s srcR) (dst.ranges s [(dst.off, n)])] true []
    let s2 ← issueCopy { CopyCmd.blank .gather with
      word := wordOf4A tk 0 rd.toNat ra.toNat rb.toNat, src := a, dst := d, len := b, srcH := src.copy, dstH := dst.copy
      srcPa := src.pa s, dstPa := dst.pa s, dstLen := n, units := unitCount (dst.pa s) n
      srcR := src.ranges s srcR ++ [(s.scratchPa list, 4 * m)], dstR := dst.ranges s [(dst.off, n)] } s1
    pure (.next s2)) s)

/-- Where the side memory of a polder's crew begins, and its bytes (R208). -/
def Crew.sideMemory (c : Crew) (die polder : Nat) : Nat × Nat :=
  (dieAddr die (poolOffset polder + c.scratchBytes + 262144), c.accumBytes - 262144)

/-- CPYMETA (R208). -/
def execCpymeta (tk : BitVec 4) (rd ra rb : BitVec 5) (s : State) :=
  answer (runA tk (fun s => do
    let (d, a, b, s1) ← copyRegs rd ra rb s
    let src := sideOf a s
    let n := b.toNat
    let (base, size) := s.myCrew.sideMemory s.cur.die s.cur.polder
    copyChecks s src default [] (copyAddrBad a) [(src.off, n)] [] n 0
      [d.toNat % 8 ≠ 0 || n % 8 ≠ 0, false, false, false, false] false
      [(size < d.toNat + n, 0x43, d.toNat)]
    let s2 ← issueCopy { CopyCmd.blank .sidecar with
      word := wordOf4A tk 1 rd.toNat ra.toNat rb.toNat, src := a, dst := d, len := b, srcH := src.copy
      srcPa := src.pa s, dstPa := base + d.toNat, dstLen := n, units := unitCount (base + d.toNat) n
      srcR := src.ranges s [(src.off, n)], dstR := [(base + d.toNat, n)] } s1
    pure (.next s2)) s)

/-- CPYQ (R209). -/
def execCpyq (tk : BitVec 4) (ra rb : BitVec 5) (s : State) :=
  answer (runA tk (fun s => do
    let (a, s1) ← readReg ra s
    let (b, s2) ← readReg rb s1
    let src := sideOf a s
    let n := 512 * b.toNat
    copyChecks s src default [] (copyAddrBad a) [(src.off, n)] [] n 0
      [src.off % 128 ≠ 0, false, false, false, false] false [(65535 < b.toNat, 0x43, b.toNat)]
    let s3 ← issueCopy { CopyCmd.blank .queue with
      word := wordOf4A tk 2 0 ra.toNat rb.toNat, src := a, len := b, srcH := src.copy
      srcPa := src.pa s, units := b.toNat, srcR := src.ranges s [(src.off, n)] } s2
    pure (.next s3)) s)

/-- CMERGE (R210). -/
def execCmerge (tk op : BitVec 4) (rd ra rb : BitVec 5) (s : State) :=
  answer (runA tk (fun s => do
    let (d, a, b, s1) ← copyRegs rd ra rb s
    let src := sideOf a s
    let dst := sideOf d s
    let n := b.toNat
    let rs := [(src.off, n)]
    let rd' := [(dst.off, n)]
    copyChecks s src dst [] (copyAddrBad a || copyAddrBad d) rs rd' n n
      [src.off % 128 ≠ 0 || dst.off % 128 ≠ 0 || n % 128 ≠ 0 || n < 128 || 65536 < n, false, false,
        dst.global && !dst.h.wr, anyOverlap (src.ranges s rs) (dst.ranges s rd')] true []
    let s2 ← issueCopy { CopyCmd.blank (.merge op.toNat) with
      word := BitVec.ofNat 32 (0x4A * 2 ^ 25 + tk.toNat * 2 ^ 21 + 3 * 2 ^ 19 + op.toNat * 2 ^ 15 + rd.toNat * 2 ^ 10
        + ra.toNat * 2 ^ 5 + rb.toNat)
      src := a, dst := d, len := b, srcH := src.copy, dstH := dst.copy
      srcPa := src.pa s, dstPa := dst.pa s, dstLen := n, units := unitCount (dst.pa s) n
      srcR := src.ranges s rs, dstR := dst.ranges s rd' } s1
    pure (.next s2)) s)

/-- BFMT (R212). -/
def execBfmt (tk : BitVec 4) (bank : BitVec 7) (code : BitVec 8) (s : State) :=
  answer (runA tk (fun s => do
    let scratch := s.myCrew.scratchBytes / 65536
    let b := bank.toNat
    let k := code.toNat
    firstTrap [(scratch ≤ b, 0x44, b), ((bankFmt k).isNone, 0x44, 2 ^ 8 + k),
      (0xC1 ≤ k && scratch ≤ b + k % 16, 0x44, 2 ^ 9 + k)]
    let r := [(s.scratchPa (b * 65536), 65536)]
    let s1 ← issueCopy { CopyCmd.blank (.bfmt b k) with
      word := BitVec.ofNat 32 (0x4B * 2 ^ 25 + tk.toNat * 2 ^ 21 + b * 2 ^ 12 + k * 2 ^ 4), srcR := r, dstR := r } s
    pure (.next s1)) s)

/-! ## How a command ends (R206, R217, R219) -/

/-- Whether a CPYR that ends with a status retracts the bytes it counted (R217). -/
def retracts (status : Nat) : Bool :=
  status = 2 || status = 3 || status = 4 || status = 6 || status = 7 || status = 8 || status = 11

/-- End a command: its entry frees, a failure is recorded in CPSTAT, and a CPYR retracts (R213, R217, R219). -/
def State.endCopy (s : State) (die polder i status : Nat) : State :=
  let crew := s.crew die polder
  let e := crew.copyAt i
  let s1 := e.flight.foldl (fun s f => s.forgetAll f.ids) s
  let crew1 := crew.setCopy i { e with state := .free, flight := [], status := status, cancelled := false }
  let crew2 := if status = 0 then crew1
    else { crew1 with cpstat := setBits (setBits (satAdd crew1.cpstat 63 32 1) 11 8 i) 7 0 status }
  let r := crew2.ring e.ring
  let crew3 :=
    if e.ring < 8 && retracts status && r.head ≤ e.stage && r.count e.stage ≠ r.stageSize then
      crew2.setRing e.ring (r.setCount e.stage (r.count e.stage - e.counted))
    else crew2
  s1.setCrew die polder crew3

/-- The units of a command that have landed: those below NEXT and those above it (R219). -/
def CopyCmd.landedCount (e : CopyCmd) : Nat := e.next + e.landed.length

/-- NEXT moved past the units that have landed. -/
def CopyCmd.moveNext (e : CopyCmd) : Nat → CopyCmd
  | 0 => e
  | n + 1 =>
    if e.landed.contains e.next then { e with next := e.next + 1, landed := e.landed.filter (· ≠ e.next) }.moveNext n else e

/-- A unit has landed: it counts on its stage, and the command retires when it was the last, unless a follow-on is still
to be handed on (R195, R202, R206, R213). -/
def State.unitLanded (s : State) (die polder i unit : Nat) (poisoned : Bool) : State :=
  let crew := s.crew die polder
  let e := crew.copyAt i
  let e1 := ({ e with
    landed := e.landed ++ [unit], flight := e.flight.filter (·.unit ≠ unit)
    poisoned := e.poisoned || poisoned }).moveNext (e.landed.length + 1)
  let r := crew.ring e.ring
  let fits := e.ring < 8 && r.head ≤ e.stage && r.count e.stage + 128 ≤ r.stageSize
  let e2 := if e.ring < 8 then (if fits then { e1 with counted := e1.counted + 128 } else { e1 with overfill := true }) else e1
  let crew1 := crew.setCopy i e2
  let crew2 := if fits then crew1.setRing e.ring ((r.setCount e.stage (r.count e.stage + 128)).moveTail r.stages) else crew1
  let s1 := s.setCrew die polder crew2
  if e2.next < e2.units then s1
  else if e2.cancelled then s1.endCopy die polder i 6
  else if e2.follow.isSome then s1
  else s1.endCopy die polder i (if e2.poisoned then 5 else if e2.overfill then 9 else 0)

/-! ## Units (R199-R202, R207-R210) -/

/-- What a unit writes: pieces of bytes at addresses, each within one sector, and whether they carry poison. -/
structure UnitData where
  pieces : List (Nat × Nat × Nat)
  sixBit : List (Nat × Nat × Nat)
  poisoned : Bool
  deriving DecidableEq, Repr, Inhabited

/-- The bytes of unit j of a command: their offset in the destination range and their number (R202). -/
def CopyCmd.unitRange (e : CopyCmd) (j : Nat) : Nat × Nat :=
  let a := e.dstPa
  let lo := max a ((a / 128 + j) * 128)
  let hi := min (a + e.dstLen) ((a / 128 + j + 1) * 128)
  (lo - a, hi - lo)

/-- The scratchpad address behind an address of a crew's own pool. -/
def scratchOf (die polder pa : Nat) : Nat := pa - dieAddr die (poolOffset polder)

/-- The scale blocks whose first byte lies in a unit of an SC copy: first block and their number (R201, R202). -/
def CopyCmd.scaleBlocks (e : CopyCmd) (j blockBytes : Nat) : Nat × Nat :=
  let (o, n) := e.unitRange j
  let first := (o + blockBytes - 1) / blockBytes
  (first, (o + n + blockBytes - 1) / blockBytes - first)

/-- The scale address of block b of a side of an SC copy: through its handle, or by the bank (R116, R201). -/
def scaleOfBlock (die polder : Nat) (crew : Crew) (sidePa : Nat) (scale : Option Nat) (global : Bool) (blockBytes b : Nat) : Nat :=
  if global then scale.getD 0 + 2 * b
  else
    let u := scratchOf die polder sidePa + b * blockBytes
    let code := crew.fmtCode (u / 65536)
    dieAddr die (poolOffset polder) + scaleAddr code (rowElt (if 0xE1 ≤ code then 8 else 4) u 0)

/-- Bytes of a block of an SC copy (R201). -/
def CopyCmd.scBlock (e : CopyCmd) (die polder : Nat) (crew : Crew) : Nat :=
  let pa := if e.srcH.isNone then e.srcPa else e.dstPa
  if 0xE1 ≤ crew.fmtCode (scratchOf die polder pa / 65536) then 32 else 16

/-- The index of the row a gather copies to its destination row i, if it is not null (R207). -/
def State.gatherIndex (s : State) (die polder : Nat) (e : CopyCmd) (i : Nat) : Option Nat :=
  let x := s.readN (dieAddr die (poolOffset polder + bitsOf e.len 31 0 + 4 * i)) 4
  if x = 2 ^ 32 - 1 then none else some x

/-- Bytes of a row of a gather (R207). -/
def CopyCmd.rowBytes (e : CopyCmd) : Nat := (bitsOf e.len 59 52 + 1) * 128

/-- Whether a gather's index passes the end of its page or of the crew's scratchpad (R207). -/
def CopyCmd.rowPast (e : CopyCmd) (c : Crew) (x : Nat) : Bool :=
  let (off, limit) := match e.srcH with
    | some h => (bitsOf e.src 33 0, pageBytes h.size)
    | none => (bitsOf e.src 31 0, c.scratchBytes)
  limit < off + x * e.rowBytes + e.rowBytes

/-- The source ranges that a unit of a byte-moving command reads, in order, as addresses. -/
def State.unitSources (s : State) (die polder : Nat) (e : CopyCmd) (j : Nat) : List (Nat × Nat) :=
  let (o, n) := e.unitRange j
  let crew := s.crew die polder
  match e.op with
  | .gather =>
    let i := o / e.rowBytes
    (match s.gatherIndex die polder e i with
      | some x => [(e.srcPa + x * e.rowBytes + o % e.rowBytes, n)]
      | none => [])
  | .queue => [(e.srcPa + 512 * j, 512)]
  | .merge _ => [(e.srcPa, e.dstLen), (e.dstPa, e.dstLen)]
  | _ =>
    let main := if e.scol then
        let w := columnBytes (crew.fmtCode (scratchOf die polder e.srcPa / 65536))
        (List.range n).map fun k =>
          (dieAddr die (poolOffset polder) + columnAddr (scratchOf die polder e.srcPa) w ((o + k) / w) + (o + k) % w, 1)
      else [(e.srcPa + o, n)]
    let scale := if e.sc then
        let bb := e.scBlock die polder crew
        let (b0, nb) := e.scaleBlocks j bb
        (List.range nb).map fun k =>
          (scaleOfBlock die polder crew e.srcPa e.srcScale e.srcH.isSome bb (b0 + k), 2)
      else []
    main ++ scale

/-- The bytes of several ranges one after another, with the first status and whether any word is poisoned. -/
def joinRanges (rs : List (Nat × Reply)) : List (Nat × Nat) → Got
  | [] => ⟨0, 0, 0, none⟩
  | (a, n) :: r =>
    let g := collectRange rs a n
    let t := joinRanges rs r
    ⟨if g.status ≠ 0 then g.status else t.status, if g.status ≠ 0 then g.failAt else t.failAt,
      g.data + t.data * 2 ^ (8 * n), g.poisonAt.or t.poisonAt⟩

/-- The codes and, for DX, the scale words of the elements e0 to e1 - 1 of a converting copy (R199, R120, R121). -/
def State.convert (s : State) (die polder : Nat) (e : CopyCmd) (e0 e1 : Nat) : List Nat × List Nat × Bool :=
  let crew := s.crew die polder
  let base := dieAddr die (poolOffset polder)
  let us := scratchOf die polder e.srcPa
  let cs := crew.fmtCode (us / 65536)
  let cd := crew.fmtCode (scratchOf die polder e.dstPa / 65536)
  let fs := (bankFmt cs).getD .raw
  let fd := (bankFmt cd).getD .raw
  let w := fs.bits / 8
  let elt (k : Nat) : Elt := if e.scol then rowElt fs.bits (columnAddr us w k) 0 else rowElt fs.bits us k
  let ks := (List.range (e1 - e0)).map (e0 + ·)
  let xs := ks.map elt
  -- a row of elements of whole bytes is read at consecutive addresses, whatever its alignment (R200)
  let byteAddr (k : Nat) : Nat := base + (if e.scol then columnAddr us w k else us + k * w)
  let bits := if w = 0 then xs.map (s.eltBits base fs.bits) else ks.map fun k => s.readN (byteAddr k) w
  let bad := if w < 2 then xs.any (s.eltPoisoned base cs fs.bits) else ks.any fun k => (s.poisonIn (byteAddr k) w).isSome
  let values := (xs.zip bits).map fun p => s.eltValue base cs p.1 p.2
  match fd with
  | .dx w =>
    let carry := 0xC1 ≤ cs && (fd.bits = fs.bits || fd.bits = 8) && !e.scol && (elt 0).index % 32 = 0
    let blocks := (e1 - e0) / 32
    if carry then
      let widened := bits.map fun b => if fs.bits = fd.bits then b
        else if fs.bits = 6 then widen6 fs b else b / 4 * 64 + b % 4 * 16
      (widened, (List.range blocks).map fun j => s.readN (base + scaleAddr cs (xs.getD (32 * j) default)) 2, bad)
    else
      let qs := (List.range blocks).map fun j => quantDX ((values.drop (32 * j)).take 32) w .rne []
      (qs.flatMap fun q => q.2.2, qs.map fun q => q.1 + 256 * q.2.1, bad)
  | fd => (values.map fun v => encode fd v .rne false 0, [], bad)

/-- What a unit of a converting copy writes (R199, R202). -/
def State.convertUnit (s : State) (die polder : Nat) (e : CopyCmd) (j : Nat) : UnitData :=
  let crew := s.crew die polder
  let base := dieAddr die (poolOffset polder)
  let ud := scratchOf die polder e.dstPa
  let cd := crew.fmtCode (ud / 65536)
  let b := ((bankFmt cd).getD .raw).bits
  let (o, n) := e.unitRange j
  let e0 := if b < 8 then 2 * o else o / (b / 8)
  let e1 := if b < 8 then 2 * (o + n) else (o + n + b / 8 - 1) / (b / 8)
  -- a DX unit holds whole blocks
  let (codes, scales, bad) := s.convert die polder e e0 e1
  let scalePieces := scales.zipIdx.map fun p => (base + scaleAddr cd (rowElt b ud (e0 + 32 * p.2)), 2, p.1)
  if b = 6 then
    { pieces := scalePieces, poisoned := bad
      sixBit := codes.zipIdx.map fun p =>
        let x := rowElt 6 ud (e0 + p.2)
        (base + x.bank * 65536, x.index, p.1) }
  else if b = 4 then
    { pieces := (e.dstPa + o, n, packElems 4 codes) :: scalePieces, sixBit := [], poisoned := bad }
  else
    { pieces := (e.dstPa + o, n, packElems b codes / 2 ^ (8 * (o - e0 * (b / 8)))) :: scalePieces, sixBit := []
      poisoned := bad }

/-- The element operators of views (R211). -/
def mergeOp (op d s : Nat) : Nat :=
  match op with
  | 0 => (d + s) % 2 ^ 32
  | 1 => fp32Rne ((decodeElt .fp32 d).add (decodeElt .fp32 s))
  | 2 =>
    let x := decodeElt .fp32 d
    let y := decodeElt .fp32 s
    if x.isNaN || y.isNaN then Fmt.fp32.nan else if x.lt y then s else if y.lt x then d else if x.isNeg then s else d
  | 3 =>
    let x := decodeElt .fp32 d
    let y := decodeElt .fp32 s
    if x.isNaN || y.isNaN then Fmt.fp32.nan else if x.lt y then d else if y.lt x then s else if x.isNeg then d else s
  | 4 => if signedOf 32 d < signedOf 32 s then s else d
  | 5 => if signedOf 32 s < signedOf 32 d then s else d
  | 6 => d &&& s
  | 7 => d ||| s
  | _ => d ^^^ s

/-- The identity of an operator (R211). -/
def mergeIdentity (op : Nat) : Nat :=
  match op with
  | 1 => 0x80000000
  | 2 => 0xFF800000
  | 3 => 0x7F800000
  | 4 => 0x80000000
  | 5 => 0x7FFFFFFF
  | 6 => 0xFFFFFFFF
  | _ => 0

/-- The copy engine as a reader of one crew: handle sides go to the home directly (R215). -/
def copyReader (s : State) (die polder : Nat) : Reader :=
  { die := die, unit := polder, context := (s.crew die polder).context, kind := 0, acquire := true }

/-- The status of a place that a copy cannot write (R40-R42, R217). -/
def writeStatus (p : Place) : Nat :=
  match p with
  | .unreach => 3
  | .window | .dreg | .bad => 4
  | _ => 0

/-- The pieces of a range cut at sectors, each with its own bytes. -/
def cutPieces : Nat → Nat → Nat → Nat → List (Nat × Nat × Nat)
  | 0, _, _, _ => []
  | fuel + 1, a, n, v =>
    if n = 0 then []
    else
      let here := min n (128 - a % 128)
      (a, here, v % 2 ^ (8 * here)) :: cutPieces fuel (a + here) (n - here) (v / 2 ^ (8 * here))

/-- Write the pieces of a unit: at once where they lie in this die's memory, by requests to their homes elsewhere; the
status and the requests (R57, R202, R215, R217). -/
def State.writePieces (s : State) (die polder : Nat) (direct : Bool) (poisoned : Bool) (ps : List (Nat × Nat × Nat)) :
    Nat × List Nat × State :=
  let status := ps.foldl (fun st p => if st ≠ 0 || direct then st else writeStatus (s.place die p.1)) 0
  if status ≠ 0 then (status, [], s)
  else
    ps.foldl (fun (acc : Nat × List Nat × State) p =>
      let (a, n, v) := p
      let s := acc.2.2
      if direct || s.place die a = .mem then
        let s1 := s.writeN a v n
        (acc.1, acc.2.1, if poisoned then { s1 with poison := addPoison a n s1.poison } else s1)
      else
        let words := (wordsOf (a % 128) n).foldl (fun m w => m + 2 ^ w) 0
        let (id, s1) := s.request { Req.blank die polder 1 1 a n (s.crew die polder).context with
          data := v, mask := fullMask n, op := n - 1, poison := if poisoned then words else 0 }
        (acc.1, acc.2.1 ++ [id], s1)) (0, [], s)

/-- Write the data of a unit: the unit lands, goes into flight, or the command ends with a status (R202). -/
def State.writeUnit (s : State) (die polder i j : Nat) (u : UnitData) : State :=
  let e := (s.crew die polder).copyAt i
  let direct := e.op = .sidecar
  let pieces := u.pieces.flatMap fun p => cutPieces (p.2.1 / 128 + 2) p.1 p.2.1 p.2.2
  let (status, ids, s1) := s.writePieces die polder direct u.poisoned pieces
  if status ≠ 0 then s.endCopy die polder i status
  else
    let s2 := u.sixBit.foldl (fun s p =>
      let s1 := s.setSixBit p.1 p.2.1 p.2.2
      if u.poisoned then
        { s1 with poison := addPoison (p.1 + 32768 + p.2.1 / 4) 1 (addPoison (p.1 + p.2.1 / 2) 1 s1.poison) }
      else s1) s1
    if ids.isEmpty then s2.unitLanded die polder i j u.poisoned
    else
      let e1 := (s2.crew die polder).copyAt i
      s2.setCopy die polder i { e1 with
        flight := e1.flight.filter (·.unit ≠ j) ++ [{ unit := j, writing := true, ids := ids }]
        poisoned := e1.poisoned || u.poisoned }

/-- The first poisoned sector of a range (R210). -/
def poisonedSector (rs : List (Nat × Reply)) (a n : Nat) : Option Nat :=
  (List.range (n / 128)).find? fun k => (collectRange rs (a + 128 * k) 128).poisonAt.isSome

/-- The source of a unit has its results: the unit is formed and written, or the command ends (R199, R207-R210, R217). A
result that is not resident is for COPY_SUSPEND. -/
def State.unitRead (s : State) (die polder i j : Nat) (ids : List Nat) (rs : List (Nat × Reply)) : State :=
  let e := (s.crew die polder).copyAt i
  let drop (s : State) : State :=
    let s1 := s.forgetAll ids
    let e1 := (s1.crew die polder).copyAt i
    s1.setCopy die polder i { e1 with flight := e1.flight.filter (·.unit ≠ j) }
  let got := joinRanges rs (s.unitSources die polder e j)
  if got.status = 1 then s
  else if got.status ≠ 0 then s.endCopy die polder i got.status
  else
    let s1 := drop s
    match e.op with
    | .merge op =>
      (match poisonedSector rs e.srcPa e.dstLen, poisonedSector rs e.dstPa e.dstLen with
        | some k, _ => (s1.setCopy die polder i { (s1.crew die polder).copyAt i with note := some k }).endCopy die polder i 5
        | none, some k =>
          (s1.setCopy die polder i { (s1.crew die polder).copyAt i with note := some (2 ^ 23 + k) }).endCopy die polder i 5
        | none, none =>
          let n := e.dstLen / 4
          let src := elems 32 n (collectRange rs e.srcPa e.dstLen).data
          let dst := elems 32 n (collectRange rs e.dstPa e.dstLen).data
          s1.setCopy die polder i { (s1.crew die polder).copyAt i with
            merged := some (packElems 32 (dst.zipWith (mergeOp op) src)) })
    | .queue =>
      let crew := s1.crew die polder
      let s2 := s1.setCrew die polder { crew with metaQ := crew.metaQ ++ [(got.data, got.poisonAt.isSome)] }
      s2.unitLanded die polder i j got.poisonAt.isSome
    | _ =>
      let (o, n) := e.unitRange j
      let crew := s1.crew die polder
      let main := (e.dstPa + o, n, got.data % 2 ^ (8 * n))
      let scale := if e.sc then
          let bb := e.scBlock die polder crew
          let (b0, nb) := e.scaleBlocks j bb
          (List.range nb).map fun k =>
            (scaleOfBlock die polder crew e.dstPa e.dstScale e.dstH.isSome bb (b0 + k), 2,
              got.data / 2 ^ (8 * n + 16 * k) % 2 ^ 16)
        else []
      s1.writeUnit die polder i j { pieces := main :: scale, sixBit := [], poisoned := got.poisonAt.isSome }

/-- The lowest unit, from `j` up, that has neither landed nor been taken up. -/
def CopyCmd.lowestFree (e : CopyCmd) : Nat → Nat → Nat
  | 0, j => j
  | fuel + 1, j => if e.landed.contains j || e.flight.any (·.unit = j) then e.lowestFree fuel (j + 1) else j

/-- Whether a unit may be taken up now: source units in ascending order within the sixteen reads in flight, a merge's writes
after its reads, CPYQ entries in order and while the metadata queue has room (R209, R210, R213). -/
def State.unitMay (s : State) (die polder : Nat) (e : CopyCmd) (j : Nat) : Bool :=
  let crew := s.crew die polder
  j = e.lowestFree (e.landed.length + e.flight.length) e.next && j < e.units && j < e.next + 16 &&
    (match e.op with
      | .merge _ => e.merged.isSome || e.flight.isEmpty
      | .queue => j = e.next && crew.metaQ.length < 16 &&
          !(crew.copies.toList.any fun o => o.state ≠ .free && o.op = .queue && o.order < e.order)
      | .bfmt _ _ => false
      | _ => true)

/-- COPY_UNIT_LAND: one unit of an active command makes its next move: its source is read, its bytes are written, and it
lands when every byte of it has been written (R202, R206, R213, R215). Inputs: the entry and the unit. -/
def State.landUnit (s : State) (die polder i j : Nat) : State :=
  let e := (s.crew die polder).copyAt i
  match e.flight.find? (·.unit = j) with
  | some f =>
    if !s.allReplied f.ids then s
    else if f.writing then
      let status := f.ids.foldl (fun st id => if st ≠ 0 then st else ((s.replyOf id).getD ⟨2, 0, 0⟩).status) 0
      let s1 := s.forgetAll f.ids
      if status ≠ 0 then s1.endCopy die polder i (if e.cancelled then 6 else status)
      else
        let s2 := s1.unitLanded die polder i j false
        let e2 := (s2.crew die polder).copyAt i
        if e2.state = .active && e2.cancelled && e2.flight.isEmpty then s2.endCopy die polder i 6 else s2
    else if e.flight.any fun g => g.unit < j && !g.writing then s
    else
      let r := copyReader s die polder
      let secs := sectorsOf (s.unitSources die polder e j)
      let (rs, s1) := readSectors (fun s _ _ => (0, s)) r (s.readsHeld f.ids) secs s
      s1.unitRead die polder i j f.ids rs
  | none =>
    if e.state ≠ .active || e.cancelled || ((s.crew die polder).halted && !e.mergeWrites) || !s.unitMay die polder e j then s
    else if e.op = .convert then s.writeUnit die polder i j (s.convertUnit die polder e j)
    else if let some v := e.merged then
      s.writeUnit die polder i j
        { pieces := [(e.dstPa + 128 * j, 128, v / 2 ^ (1024 * j) % 2 ^ 1024)], sixBit := [], poisoned := false }
    else
      let i0 := (e.unitRange j).1 / e.rowBytes
      let past := e.op = .gather && (match s.gatherIndex die polder e i0 with
        | some x => e.rowPast (s.crew die polder) x
        | none => false)
      if past then
        if e.next < i0 * (e.rowBytes / 128) then s
        else (s.setCopy die polder i { e with note := some i0 }).endCopy die polder i 10
      else
        let r := copyReader s die polder
        let secs := sectorsOf (s.unitSources die polder e j)
        -- a copy reaches no die register
        if secs.any fun x => s.place die (128 * x.1) = .dreg then s.endCopy die polder i 4
        else
          let (ids, s1) := s.askSectors r [] secs
          if ids.isEmpty then
            -- a unit is written only once every unit before it has its source (R216)
            if e.flight.any (!·.writing) then s
            else
            let (rs, s2) := readSectors (fun s _ _ => (0, s)) r [] secs s1
            s2.unitRead die polder i j [] rs
          else
            let e1 := (s1.crew die polder).copyAt i
            s1.setCopy die polder i { e1 with flight := e1.flight ++ [{ unit := j, writing := false, ids := ids }] }

def execCopyUnitLand (s : State) :=
  let i := s.inp.getD 0 0 % 16
  answer (match s.crew? s.cur.die s.cur.polder with
    | none => s
    | some _ => s.landUnit s.cur.die s.cur.polder i (s.inp.getD 1 0))

/-! ## Start (R39, R205, R213, R214) -/

/-- Whether stream k of a strand has passed the word that a mark names, for a command issued at place `seq` (R18, R96). -/
def State.passedBy (s : State) (die polder strand : Nat) (k : Str) (seq mark : Nat) : Bool :=
  match s.strand? { die := die, polder := polder, strand := strand, str := k, rot := false } with
  | none => true
  | some st =>
    let live := (st.get k).ended || mark ≤ (st.get k).seq
    match st.trapBase, st.setAside with
    | some b, some (a, x, d, _) =>
      let sa := match k with
        | .a => a
        | .x => x
        | .d => d
      if seq < b then sa.ended || mark ≤ sa.seq else live
    | _, _ => live

/-- Whether a command touches an SO page. -/
def CopyCmd.strong (e : CopyCmd) : Bool :=
  [e.srcH, e.dstH, e.auxH].any fun h => match h with
    | some h => h.kind = 0
    | none => false

/-- Whether a queued command may start: its stage is free, no earlier command of the crew overlaps it, and the accesses
of its strand that must come first have been performed (R39, R49, R205, R214). -/
def State.mayStart (s : State) (die polder : Nat) (e : CopyCmd) : Bool :=
  let crew := s.crew die polder
  let r := crew.ring e.ring
  let clash := crew.copies.toList.any fun o =>
    o.state ≠ .free && o.order < e.order &&
      (anyOverlap o.dstR (e.srcR ++ e.dstR) || anyOverlap o.srcR e.dstR
        || (e.strong && o.strong && o.strand = e.strand))
  let passed (k : Str) (m : Nat) : Bool := s.passedBy die polder e.strand k e.seq m
  let key := strandKey die polder e.strand
  let stores := s.reqs.any fun q => match q.2.purpose with
    | .store p _ => p = key && (e.strong || (e.srcR ++ e.dstR).any fun x => overlap q.2.addr q.2.len x.1 x.2)
    | .sync p => p = key && e.strong
    | _ => false
  let st := (look key s.strands).getD default
  let queued := st.syncQ.any fun c => c.seq < e.seq && e.strong && c.pageKind = 0
  let rels := st.rels.any fun r =>
    r.seq < e.seq && ((e.strong && r.kind = 0) || (e.srcR ++ e.dstR).any fun x => overlap r.addr r.len x.1 x.2)
  let fetches := st.loadStreams.any fun x => x.fetching e.seq s.reqNo &&
    ((e.strong && x.handle.kind = 0)
      || anyOverlap (x.flightRanges crew (dieAddr die (poolOffset polder))) (e.srcR ++ e.dstR))
  !(e.ring < 8 && r.head + r.stages ≤ e.stage) && !clash && !queued && !rels && !fetches && passed .d e.marks.st && !stores
    && (!e.strong || passed .x e.marks.syn)
    && (!(e.op = .gather) || (passed .x e.marks.acqX && passed .d e.marks.acqD))

/-- Whether a command is a bank format write, which BFMT_PERFORM performs. -/
def CopyCmd.isBfmt (e : CopyCmd) : Bool := match e.op with
  | .bfmt _ _ => true
  | _ => false

/-- The oldest of the crew's queued commands that may start. -/
def State.oldestReady (s : State) (die polder : Nat) : Option Nat :=
  let crew := s.crew die polder
  let ready := (List.range 16).filter fun i =>
    let e := crew.copyAt i
    e.state = .queued && !e.isBfmt && s.mayStart die polder e
  ready.foldl (fun best i => match best with
    | none => some i
    | some b => if (crew.copyAt i).order < (crew.copyAt b).order then some i else some b) none

/-- COPY_COMMAND_START: the oldest queued command that may start becomes active; one of no units ends at once (R197, R213). -/
def execCopyCommandStart (s : State) :=
  let die := s.cur.die
  let polder := s.cur.polder
  answer (match s.going? die polder with
    | none => s
    | some crew =>
      if 8 ≤ (crew.copies.toList.filter fun e => e.state = .active).length then s
      else match s.oldestReady die polder with
        | none => s
        | some i =>
          let e := crew.copyAt i
          let s1 := s.setCopy die polder i { e with state := .active }
          if e.units = 0 && e.follow.isNone then s1.endCopy die polder i 0 else s1)

/-- BFMT_PERFORM: the bank's format register takes the code once every earlier command that touches the bank has retired
(R212). Input: the entry. -/
def execBfmtPerform (s : State) :=
  let die := s.cur.die
  let polder := s.cur.polder
  let i := s.inp.getD 0 0 % 16
  answer (match s.going? die polder with
    | none => s
    | some crew =>
      let e := crew.copyAt i
      match e.op with
      | .bfmt bank code =>
        if e.state ≠ .queued || !s.mayStart die polder e then s
        else
          (s.setCrew die polder { crew with bankFmt := crew.bankFmt.setIfInBounds bank (BitVec.ofNat 8 code) }).endCopy die polder i 0
      | _ => s)

/-! ## Suspension, cancellation and reset (R216-R220) -/

/-- The segment whose absence stops a unit: of its first byte that the window does not show. -/
def State.missingSegment (s : State) (die : Nat) (rs : List (Nat × Reply)) (ranges : List (Nat × Nat)) : Nat :=
  paOffset (joinRanges rs ranges).failAt / (s.die die).segSize

/-- COPY_SUSPEND: a unit of an active command has found its segment not resident, and every unit before it has landed.
Later units in flight are discarded, and the command waits for the segment (R216). Inputs: the entry and the unit. -/
def execCopySuspend (s : State) :=
  let die := s.cur.die
  let polder := s.cur.polder
  let i := s.inp.getD 0 0 % 16
  let j := s.inp.getD 1 0
  answer (match s.going? die polder with
    | none => s
    | some crew =>
      let e := crew.copyAt i
      let ids := (e.flight.filter (·.unit = j)).flatMap (·.ids)
      if e.state ≠ .active || e.cancelled || j ≠ e.next || e.units ≤ j || e.op = .convert || !s.allReplied ids then s
      else
        let r := copyReader s die polder
        let ranges := s.unitSources die polder e j
        let (rs, _) := readSectors (fun s _ _ => (0, s)) r (s.readsHeld ids) (sectorsOf ranges) s
        -- a unit that still has to ask its home is not known to be absent
        let known := (sectorsOf ranges).all fun x =>
          (s.place die (128 * x.1) ≠ .remote && s.place die (128 * x.1) ≠ .host) || (s.readsHeld ids).any fun h => h.1 = x.1
        if !known || (joinRanges rs ranges).status ≠ 1 then s
        else
          let s1 := e.flight.foldl (fun s f => s.forgetAll f.ids) s
          s1.setCopy die polder i { e with state := .suspended, flight := [], seg := s.missingSegment die rs ranges })

/-- A raised arrival tag: every command of the die suspended on the segment becomes active again (R216). -/
def State.resumeCopies (s : State) (die seg : Nat) : State :=
  s.crews.foldl (fun s c =>
    if c.1 / 64 ≠ die then s
    else s.setCrew die (c.1 % 64) { s.crew die (c.1 % 64) with
      copies := (s.crew die (c.1 % 64)).copies.map fun e =>
        if e.state = .suspended && e.seg = seg then { e with state := .active } else e }) s

/-- End with a status every live command of a die that a test selects (R216, R217). -/
def State.endCopies (s : State) (die status : Nat) (which : CopyCmd → Bool) : State :=
  s.crews.foldl (fun s c =>
    if c.1 / 64 ≠ die then s
    else (List.range 16).foldl (fun s i =>
      let e := (s.crew die (c.1 % 64)).copyAt i
      if e.state ≠ .free && which e then s.endCopy die (c.1 % 64) i status else s) s) s

/-- Commands with a side through a revoked entry end with status 7 (R196, R217). -/
def State.revokeCopies (s : State) (die entry : Nat) : State :=
  s.endCopies die 7 fun e => [e.srcH, e.dstH, e.auxH].any fun h => match h with
    | some h => h.entry.toNat = entry
    | none => false

/-- Cancel a live command: a queued one, and one with no write begun, ends at once; the others end when the writes that
have begun have landed (R218). -/
def State.cancelCopy (s : State) (die polder i : Nat) : State :=
  let e := (s.crew die polder).copyAt i
  if e.state = .free then s
  else
    let writes := e.flight.filter (·.writing)
    let s1 := (e.flight.filter (!·.writing)).foldl (fun s f => s.forgetAll f.ids) s
    let s2 := s1.setCopy die polder i { e with flight := writes, cancelled := true }
    if writes.isEmpty then s2.endCopy die polder i 6 else s2

/-- CCANCEL (R218). -/
def execCcancel (tk : BitVec 4) (rd ra : BitVec 5) (s : State) :=
  answer (runWord 1 (· = .a) tk (fun s0 s => do
    let c := s.cur
    let (m, s1) ← readReg ra s
    let crew := s.myCrew
    let finish (named : Nat) (t : State) : Res Eff := do
      let t1 ← writeReg rd (BitVec.ofNat 64 named) t
      pure (.next t1)
    match s0.pending with
    | some p =>
      let named := p.data.headD 0
      let live := (List.range 16).any fun i => named / 2 ^ i % 2 = 1 && (crew.copyAt i).cancelled
      if live then pure (.stay s0) else finish named s1
    | none =>
      let is := (List.range 16).filter fun i =>
        let e := crew.copyAt i
        e.state ≠ .free && (if m.toNat % 65536 = 0 then e.strand = c.strand else m.toNat / 2 ^ i % 2 = 1)
      let named := is.foldl (fun a i => a + 2 ^ i) 0
      let t := is.foldl (fun s i => s.cancelCopy c.die c.polder i) s0
      if is.any fun i => (t.myCrew.copyAt i).cancelled then pure (.stay (t.setPending { ids := [], data := [named] }))
      else finish named (is.foldl (fun s i => s.cancelCopy c.die c.polder i) s1)) s)

/-- CSTAT of an entry (R219). -/
def CopyCmd.stat (e : CopyCmd) : Nat :=
  let st := match e.state with
    | .free => 0
    | .queued => 1
    | .active => 1
    | .suspended => 2
  st * 2 ^ 62 + e.strand % 4 * 2 ^ 56 + e.seg % 2 ^ 20 * 2 ^ 32 + (e.note.getD e.landedCount) % 2 ^ 24 * 2 ^ 8
    + (if e.state = .free then e.status % 256 else 0)

/-- CSTAT (R219). -/
def execCstat (tk : BitVec 4) (rd ra : BitVec 5) (s : State) :=
  answer (runA tk (fun s => do
    let (a, s1) ← readReg ra s
    if a.toNat / 16 ≠ 0 then trap 0x40 1
    let s2 ← writeReg rd (BitVec.ofNat 64 (s.myCrew.copyAt a.toNat).stat) s1
    pure (.next s2)) s)

/-- COPY_ENGINE_RESET: every live command ends with status 11, and the error event records the reset (R61, R220, R455). -/
def execCopyEngineReset (s : State) :=
  let die := s.cur.die
  let polder := s.cur.polder
  answer (match s.crew? die polder with
    | none => s
    | some crew =>
      let s1 := (List.range 16).foldl (fun s i => if (crew.copyAt i).state = .free then s else s.endCopy die polder i 11) s
      s1.errorEvent die 2 1 polder (2 ^ 64 - 1) 0)

end Sys2Proof.Machine
end

