-- ==== Sys2Proof/Machine/Special.lean ====
section
/-! DEFINITION. The special functions of the execute engine: the exact value to 512 binary places, the results the bound
allows, and the design's choice among them (05 R172, R173; log 10). -/

namespace Sys2Proof.Machine

/-- The binary places of the fixed-point values of this file. -/
def fixBits : Nat := 512

/-- One in fixed point. -/
def fixOne : Nat := 2 ^ fixBits

/-- Σ z^(2k+1) ÷ (2k+1), from the term `t` = z^(2k+1), for a fixed-point z of at most 1/3. -/
def atanhSum (z2 : Nat) : Nat → Nat → Nat → Nat
  | 0, _, _ => 0
  | n + 1, k, t => t / (2 * k + 1) + atanhSum z2 n (k + 1) (t * z2 / fixOne)

/-- ln m of a fixed-point m from 1 to 2. -/
def lnFix (m : Nat) : Nat :=
  let z := (m - fixOne) * fixOne / (m + fixOne)
  2 * atanhSum (z * z / fixOne) 170 0 z

/-- ln 2. -/
def lnTwo : Nat := lnFix (2 * fixOne)

/-- Σ f^k ÷ k!, from the term `t`. -/
def expSum (f : Nat) : Nat → Nat → Nat → Nat
  | 0, _, _ => 0
  | n + 1, k, t => t + expSum f n (k + 1) (t * f / fixOne / (k + 1))

/-- e^f of a fixed-point f below 1. -/
def expFix (f : Nat) : Nat := expSum f 130 0 fixOne

/-- e^a of a fixed-point a that is not negative. -/
def expBig (a : Nat) : Nat := expFix (a % lnTwo) * 2 ^ (a / lnTwo)

/-- ⌊√v⌋ below 2^n. -/
def isqrtBits (v : Nat) : Nat → Nat → Nat
  | 0, r => r
  | n + 1, r => isqrtBits v n (if (r + 2 ^ n) * (r + 2 ^ n) ≤ v then r + 2 ^ n else r)

/-- The functions of R172 that have a bound. -/
inductive SpecialFn where
  | exp2 | log2 | rcp | rsqrt | tanh | sigm
  deriving DecidableEq, Repr, Inhabited

/-- The FN5 code of a function (R172). -/
def SpecialFn.code : SpecialFn → Nat
  | .exp2 => 1
  | .log2 => 2
  | .rcp => 3
  | .rsqrt => 4
  | .tanh => 5
  | .sigm => 6

/-- A fixed-point magnitude of a rational, at most 256. -/
def fixMag (num den : Nat) : Nat := min (num * fixOne / den) (256 * fixOne)

/-- The value of a function at a non-zero finite input, to the precision of this file. -/
def SpecialFn.value (f : SpecialFn) (neg : Bool) (num den : Nat) : XVal :=
  match f with
  | .exp2 =>
    let fl : Int := if neg then -((num + den - 1) / den : Nat) else (num / den : Nat)
    -- an exponent beyond every format's range decides the result by itself
    let e := max (-4096) (min 4096 fl)
    let frac := if neg then (den - num % den) % den else num % den
    let m := expFix (frac * fixOne / den * lnTwo / fixOne)
    .fin false (m * 2 ^ e.toNat) (fixOne * 2 ^ (-e).toNat)
  | .log2 =>
    if neg then .nan
    else
      let e := XVal.floorLog2 num den
      let m := num * 2 ^ (-e).toNat * fixOne / (den * 2 ^ e.toNat)
      let l : Int := e * (fixOne : Int) + ((lnFix m * fixOne / lnTwo : Nat) : Int)
      .fin (l < 0) l.natAbs fixOne
  | .rcp => .fin neg den num
  | .rsqrt => if neg then .nan else .fin false (isqrtBits (den * fixOne * fixOne / num) 1024 0) fixOne
  | .tanh =>
    let e := expBig (2 * fixMag num den)
    .fin neg (e - fixOne) (e + fixOne)
  | .sigm =>
    let e := expBig (fixMag num den)
    .fin false (if neg then fixOne else e) (e + fixOne)

/-- The results at the inputs of R173 that are no finite non-zero number, and at the finite inputs whose result it states.
DESIGN CHOICE (log 66): VRCP of −2^m is exactly −2^−m; R173 states that row for the positive input and leaves the negative one
to the bound. -/
def SpecialFn.exact (f : SpecialFn) (x : XVal) : Option XVal :=
  let one (n : Bool) : XVal := .fin n 1 1
  let zero (n : Bool) : XVal := .fin n 0 1
  match f, x with
  | _, .nan => some .nan
  | .exp2, .inf n => some (if n then zero false else .inf false)
  | .log2, .inf n => some (if n then .nan else .inf false)
  | .rcp, .inf n => some (zero n)
  | .rsqrt, .inf n => some (if n then .nan else zero false)
  | .tanh, .inf n => some (one n)
  | .sigm, .inf n => some (if n then zero false else one false)
  | .exp2, .fin neg num den =>
    if num % den = 0 && num / den ≤ 4096 then
      some (if neg then .fin false 1 (2 ^ (num / den)) else .fin false (2 ^ (num / den)) 1)
    else none
  | .log2, .fin neg num den =>
    if num = 0 then some (.inf true)
    else if neg then some .nan
    else
      let e := XVal.floorLog2 num den
      if num * 2 ^ (-e).toNat = den * 2 ^ e.toNat then some (XVal.ofInt e) else none
  | .rcp, .fin neg num den =>
    if num = 0 then some (.inf neg)
    else
      let e := XVal.floorLog2 num den
      if num * 2 ^ (-e).toNat = den * 2 ^ e.toNat then some (XVal.dyadic neg 1 (-e)) else none
  | .rsqrt, .fin neg num den =>
    if num = 0 then some (.inf neg)
    else if neg then some .nan
    else
      let e := XVal.floorLog2 num den
      if num * 2 ^ (-e).toNat = den * 2 ^ e.toNat && e % 2 = 0 then some (XVal.dyadic false 1 (-(e / 2))) else none
  | .tanh, .fin neg num _ => if num = 0 then some (zero neg) else none
  | .sigm, .fin _ num _ => if num = 0 then some (.fin false 1 2) else none

/-- The bound in units of the last place (R172). -/
def SpecialFn.ulps (f : SpecialFn) (fmt : Fmt) : Nat :=
  match f with
  | .tanh | .sigm => if fmt = .fp32 then 2 else 1
  | _ => 1

/-- The magnitudes the bound allows at an exact non-zero value num ÷ den: encodings of the format, by magnitude (R172,
R173). `top` is the largest magnitude the function may give. -/
def allowed (fmt : Fmt) (ulps top num den : Nat) : List Nat :=
  let (_, m, bias) := fmt.params
  let emin : Int := 1 - (bias : Int)
  let e := max (XVal.floorLog2 num den) emin
  let g : Int := e - m
  let b := encodeF fmt (.fin false num den) .rtz false 0
  let ok (c : Nat) : Bool :=
    match decodeElt fmt c with
    | .fin _ a d =>
      -- |a ÷ d − num ÷ den| against ulps × 2^g
      let x := a * den
      let y := num * d
      ((x - y) + (y - x)) * 2 ^ (-g).toNat ≤ ulps * 2 ^ g.toNat * d * den
    | _ => false
  if b = 0 then [0, 1]
  else ([b - 4, b - 3, b - 2, b - 1, b, b + 1, b + 2].eraseDups).filter fun c => c ≤ top && ok c

/-- The overflow threshold of round to nearest: the largest finite value plus half its unit (R173). -/
def overflows (fmt : Fmt) (num den : Nat) : Bool := fmt.maxFinite < roundBits fmt false num den .rne 0

/-- A special function of the bits of one element (R172, R173): where the bound leaves a choice, it is the design's. -/
def SpecialFn.apply (f : SpecialFn) (fmt : Fmt) (fcode bits : Nat) : Nat :=
  let x := decodeElt fmt bits
  match f.exact x with
  | some y =>
    -- an exact result beyond the range is decided as R173 states; one below it is a zero or the smallest subnormal
    (match y with
      | .fin neg num den =>
        if num ≠ 0 && encodeF fmt y .rtz false 0 % 2 ^ (fmt.bits - 1) = 0 then
          (if neg then 2 ^ (fmt.bits - 1) else 0) + Config.special f.code fcode bits % 2
        else encodeF fmt (.fin neg num den) .rne false 0
      | y => encodeF fmt y .rne false 0)
  | none =>
    let v := match x with
      | .fin neg num den => f.value neg num den
      | _ => .nan
    match v with
    | .fin neg num den =>
      if num = 0 then encodeF fmt v .rne false 0
      else if overflows fmt num den then encodeF fmt (.inf neg) .rne false 0
      else
        let one := encodeF fmt (.fin false 1 1) .rne false 0
        let top := match f with
          | .tanh | .sigm => one
          | _ => fmt.maxFinite
        let cs := allowed fmt (f.ulps fmt) top num den
        (if neg then 2 ^ (fmt.bits - 1) else 0)
          + cs.getD (Config.special f.code fcode bits % cs.length) (encodeF fmt (.fin false num den) .rne false 0)
    | _ => encodeF fmt v .rne false 0

end Sys2Proof.Machine
end

