-- ==== Sys2Proof/Machine/Execute.lean ====
section
/-! DEFINITION. The execute engine's words but for the tile words: integer, bit and floating-point vector operations,
compares and predicates, conversions, reductions, scalar floating point and the post-processing stage (05 R160-R184). -/

namespace Sys2Proof.Machine

/-! ## Elements and predicates (R111, R162) -/

/-- Elements of `b` bits of a vector, element 0 first (R111). -/
def lanes (b : Nat) (v : Vec) : List Nat := elems b (4096 / b) v.toNat

/-- A vector from its elements (R111). -/
def ofLanes (b : Nat) (xs : List Nat) : Vec := BitVec.ofNat 4096 (packElems b xs)

/-- Bits of an element of a width code: 4, 8, 16 or 32 (R67). -/
def widthBits (width : BitVec 2) : Nat := 4 * 2 ^ width.toNat

/-- Bits of an element of a width code on the bit-operation majors: 8, 16, 32 or 64 (R160). -/
def bitOpBits (width : BitVec 2) : Nat := 8 * 2 ^ width.toNat

/-- The format an FTYPE code names (R161). -/
def ftypeOf (ftype : BitVec 2) : Fmt := if ftype = 1 then .bf16 else if ftype = 2 then .fp16 else .fp32

/-- What an inactive element of a destination holds: its previous value, or zero in a push port (R162). -/
def previous (vd : BitVec 5) (s : State) : Vec :=
  if h : vd.toNat < 28 then (s.strand s.cur).v[vd.toNat] else 0

/-- Write results to the active elements of a destination (R162). -/
def writeLanes (b : Nat) (pred : Pred) (vd : BitVec 5) (old : Vec) (xs : List Nat) (s : State) : Res State :=
  let merged := (xs.zip (lanes b old)).zipIdx.map fun e => if pred.getLsbD e.2 then e.1.1 else e.1.2
  writeVec vd (ofLanes b merged) s

/-- A predicated word of two sources (R162). -/
def vecBin (b : Nat) (vd va vb : BitVec 5) (pred : BitVec 4) (f : Nat → Nat → Nat) (tk : BitVec 4) (s : State) : State :=
  runX tk (fun s => do
    let p := readPred pred.toNat s
    let old := previous vd s
    let (x, s1) ← readVec va s
    let (y, s2) ← readVec vb s1
    let s3 ← writeLanes b p vd old ((lanes b x).zipWith f (lanes b y)) s2
    pure (.next s3)) s

/-- A predicated word of one source (R162). -/
def vecUn (b : Nat) (vd va : BitVec 5) (pred : BitVec 4) (f : Nat → Nat) (tk : BitVec 4) (s : State) : State :=
  runX tk (fun s => do
    let p := readPred pred.toNat s
    let old := previous vd s
    let (x, s1) ← readVec va s
    let s2 ← writeLanes b p vd old ((lanes b x).map f) s1
    pure (.next s2)) s

/-! ## Integer and bit operations (R164-R168) -/

def execVadd (tk : BitVec 4) (width : BitVec 2) (vd va vb : BitVec 5) (pred : BitVec 4) (s : State) :=
  answer (vecBin (widthBits width) vd va vb pred (fun x y => (x + y) % 2 ^ widthBits width) tk s)
def execVsub (tk : BitVec 4) (width : BitVec 2) (vd va vb : BitVec 5) (pred : BitVec 4) (s : State) :=
  answer (vecBin (widthBits width) vd va vb pred (fun x y => (x + 2 ^ widthBits width - y) % 2 ^ widthBits width) tk s)
def execVmul (tk : BitVec 4) (width : BitVec 2) (vd va vb : BitVec 5) (pred : BitVec 4) (s : State) :=
  answer (vecBin (widthBits width) vd va vb pred (fun x y => x * y % 2 ^ widthBits width) tk s)
def execVand (tk : BitVec 4) (width : BitVec 2) (vd va vb : BitVec 5) (pred : BitVec 4) (s : State) :=
  answer (vecBin (bitOpBits width) vd va vb pred (fun x y => x &&& y) tk s)
def execVor (tk : BitVec 4) (width : BitVec 2) (vd va vb : BitVec 5) (pred : BitVec 4) (s : State) :=
  answer (vecBin (bitOpBits width) vd va vb pred (fun x y => x ||| y) tk s)
def execVxor (tk : BitVec 4) (width : BitVec 2) (vd va vb : BitVec 5) (pred : BitVec 4) (s : State) :=
  answer (vecBin (bitOpBits width) vd va vb pred (fun x y => x ^^^ y) tk s)

/-- The positions of the set bits of a `w`-bit value, lowest first. -/
def setBitsOf (w x : Nat) : List Nat := (List.range w).filter fun i => x / 2 ^ i % 2 = 1

def execVfnsb (tk : BitVec 4) (width : BitVec 2) (vd va vb : BitVec 5) (pred : BitVec 4) (s : State) :=
  answer (vecBin (bitOpBits width) vd va vb pred
    (fun x n => (setBitsOf (bitOpBits width) x).getD n (bitOpBits width)) tk s)

/-- A shift: every element is written (R166). -/
def vecShift (b : Nat) (vd va : BitVec 5) (f : Nat → Nat) (tk : BitVec 4) (s : State) : State :=
  runX tk (fun s => do
    let (x, s1) ← readVec va s
    let s2 ← writeVec vd (ofLanes b ((lanes b x).map f)) s1
    pure (.next s2)) s

def execVslli (tk : BitVec 4) (width : BitVec 2) (vd va : BitVec 5) (sh : BitVec 6) (s : State) :=
  answer (vecShift (bitOpBits width) vd va (fun x => x * 2 ^ sh.toNat % 2 ^ bitOpBits width) tk s)
def execVsrli (tk : BitVec 4) (width : BitVec 2) (vd va : BitVec 5) (sh : BitVec 6) (s : State) :=
  answer (vecShift (bitOpBits width) vd va (fun x => x / 2 ^ sh.toNat) tk s)
def execVsrai (tk : BitVec 4) (width : BitVec 2) (vd va : BitVec 5) (sh : BitVec 6) (s : State) :=
  answer (vecShift (bitOpBits width) vd va (fun x =>
    ((signedOf (bitOpBits width) x / (2 ^ sh.toNat : Nat)) % (2 ^ bitOpBits width : Nat)).toNat) tk s)

def execVmov (tk : BitVec 4) (width : BitVec 2) (vd va : BitVec 5) (pred : BitVec 4) (s : State) :=
  answer (vecUn (bitOpBits width) vd va pred id tk s)
def execVnot (tk : BitVec 4) (width : BitVec 2) (vd va : BitVec 5) (pred : BitVec 4) (s : State) :=
  answer (vecUn (bitOpBits width) vd va pred (fun x => 2 ^ bitOpBits width - 1 - x) tk s)
def execVneg (tk : BitVec 4) (width : BitVec 2) (vd va : BitVec 5) (pred : BitVec 4) (s : State) :=
  answer (vecUn (bitOpBits width) vd va pred (fun x => (2 ^ bitOpBits width - x) % 2 ^ bitOpBits width) tk s)
def execVpopc (tk : BitVec 4) (width : BitVec 2) (vd va : BitVec 5) (pred : BitVec 4) (s : State) :=
  answer (vecUn (bitOpBits width) vd va pred (fun x => (setBitsOf (bitOpBits width) x).length) tk s)
def execVclz (tk : BitVec 4) (width : BitVec 2) (vd va : BitVec 5) (pred : BitVec 4) (s : State) :=
  answer (vecUn (bitOpBits width) vd va pred
    (fun x => if x = 0 then bitOpBits width else bitOpBits width - 1 - x.log2) tk s)
def execVbrev (tk : BitVec 4) (width : BitVec 2) (vd va : BitVec 5) (pred : BitVec 4) (s : State) :=
  answer (vecUn (bitOpBits width) vd va pred (fun x => packElems 1 (elems 1 (bitOpBits width) x).reverse) tk s)

/-- VSEL: the predicate selects, and every element is written (R168). -/
def execVsel (tk : BitVec 4) (width : BitVec 2) (vd va vb : BitVec 5) (pred : BitVec 4) (s : State) :=
  answer (runX tk (fun s => do
    let p := readPred pred.toNat s
    let (x, s1) ← readVec va s
    let (y, s2) ← readVec vb s1
    let s3 ← writeLanes (widthBits width) p vd y (lanes (widthBits width) x) s2
    pure (.next s3)) s)

/-! ## Rounding mode and the stochastic generator (R163, R119) -/

/-- XCTL.RM of the executing strand. -/
def xMode (s : State) : Nat := bitsOf (s.strand s.cur).xctl 2 0

/-- The mode a word with results of `bits` bits rounds in: stochastic only up to 16 bits (R163). -/
def roundMode (s : State) (bits : Nat) : Rm :=
  let m := Rm.ofCode (xMode s)
  if m = .sr && 16 < bits then .rne else m

/-- Draw for `n` elements if a mode is stochastic (R119). -/
def drawX (rm : Rm) (n : Nat) (s : State) : List Nat × State :=
  if rm = .sr then
    let st := s.strand s.cur
    let (g, ds) := draws n st.srX
    (ds, s.setStrand s.cur { st with srX := g })
  else ([], s)

/-! ## Floating-point vector arithmetic (R169) -/

/-- A floating-point word of two sources and, for VFMA, the destination: each result is encoded in mode XCTL.RM. -/
def vecFloat (ftype : BitVec 2) (vd va vb : BitVec 5) (pred : BitVec 4) (f : XVal → XVal → XVal → XVal) (tk : BitVec 4)
    (s : State) : State :=
  runX tk (fun s => do
    let fmt := ftypeOf ftype
    let b := fmt.bits
    let p := readPred pred.toNat s
    let old := previous vd s
    let (x, s1) ← readVec va s
    let (y, s2) ← readVec vb s1
    let rm := roundMode s b
    let (ds, s3) := drawX rm (4096 / b) s2
    let zs := (((lanes b x).zip (lanes b y)).zip (lanes b old)).zipIdx.map fun e =>
      encode fmt (f (decodeElt fmt e.1.1.1) (decodeElt fmt e.1.1.2) (decodeElt fmt e.1.2)) rm false (ds.getD e.2 0)
    let s4 ← writeLanes b p vd old zs s3
    pure (.next s4)) s

def execVfadd (tk : BitVec 4) (ftype : BitVec 2) (vd va vb : BitVec 5) (pred : BitVec 4) (s : State) :=
  answer (vecFloat ftype vd va vb pred (fun x y _ => x.add y) tk s)
def execVfsub (tk : BitVec 4) (ftype : BitVec 2) (vd va vb : BitVec 5) (pred : BitVec 4) (s : State) :=
  answer (vecFloat ftype vd va vb pred (fun x y _ => x.sub y) tk s)
def execVfmul (tk : BitVec 4) (ftype : BitVec 2) (vd va vb : BitVec 5) (pred : BitVec 4) (s : State) :=
  answer (vecFloat ftype vd va vb pred (fun x y _ => x.mul y) tk s)
def execVfma (tk : BitVec 4) (ftype : BitVec 2) (vd va vb : BitVec 5) (pred : BitVec 4) (s : State) :=
  answer (vecFloat ftype vd va vb pred (fun x y d => (x.mul y).add d) tk s)

/-! ## Compare and predicates (R170, R171) -/

/-- An integer condition of R170 on `w`-bit elements. -/
def intCond (cond : BitVec 3) (w x y : Nat) : Bool :=
  let a := signedOf w x
  let b := signedOf w y
  if cond = 0 then x = y else if cond = 1 then x ≠ y else if cond = 2 then a < b else if cond = 3 then b ≤ a
  else if cond = 4 then x < y else if cond = 5 then y ≤ x else if cond = 6 then a ≤ b else b < a

/-- A floating-point condition of R170. -/
def floatCond (cond : BitVec 3) (x y : XVal) : Bool :=
  if x.isNaN || y.isNaN then cond = 1
  else if cond = 0 then x.eq y else if cond = 1 then !x.eq y else if cond = 2 then x.lt y else if cond = 3 then !x.lt y
  else if cond = 6 then !y.lt x else if cond = 7 then y.lt x else false

/-- The predicate whose bits are given, bit 0 first; the bits above are 0. -/
def predOf (bs : List Bool) : Pred := BitVec.ofNat 1024 (packElems 1 (bs.map fun b => if b then 1 else 0))

def execVcmp (tk : BitVec 4) (width : BitVec 2) (fl : BitVec 1) (pd : BitVec 4) (va vb : BitVec 5) (cond : BitVec 3) (s : State) :=
  answer (runX tk (fun s => do
    let (x, s1) ← readVec va s
    let (y, s2) ← readVec vb s1
    let bs :=
      if fl = 1 then
        let f := ftypeOf width
        (lanes f.bits x).zipWith (fun a b => floatCond cond (decodeElt f a) (decodeElt f b)) (lanes f.bits y)
      else (lanes (widthBits width) x).zipWith (intCond cond (widthBits width)) (lanes (widthBits width) y)
    pure (.next (writePred pd.toNat (predOf bs) s2))) s)

def execPlog (tk pd pa pb : BitVec 4) (op : BitVec 2) (s : State) :=
  answer (runX tk (fun s =>
    let a := readPred pa.toNat s
    let b := readPred pb.toNat s
    let r := if op = 0 then a &&& b else if op = 1 then a ||| b else if op = 2 then a ^^^ b else a &&& ~~~b
    pure (.next (writePred pd.toNat r s))) s)

def execPcnt (tk : BitVec 4) (sd : BitVec 5) (pa : BitVec 4) (s : State) :=
  answer (runX tk (fun s => do
    let n := (setBitsOf 1024 (readPred pa.toNat s).toNat).length
    let s1 ← writeReg sd (BitVec.ofNat 64 n) s
    pure (.next s1)) s)

def execVtop (tk pd : BitVec 4) (va : BitVec 5) (s : State) :=
  answer (runX tk (fun s => do
    let (x, s1) ← readVec va s
    pure (.next (writePred pd.toNat (x.setWidth 1024) s1))) s)

def execPtov (tk : BitVec 4) (vd : BitVec 5) (pa : BitVec 4) (s : State) :=
  answer (runX tk (fun s => do
    let s1 ← writeVec vd ((readPred pa.toNat s).setWidth 4096) s
    pure (.next s1)) s)

/-! ## Special functions (R172, R173) -/

/-- A special function on every active element. -/
def vecSpecial (f : SpecialFn) (ftype : BitVec 2) (vd va : BitVec 5) (pred : BitVec 4) (tk : BitVec 4) (s : State) : State :=
  vecUn (ftypeOf ftype).bits vd va pred (f.apply (ftypeOf ftype) ftype.toNat) tk s

def execVfabs (tk : BitVec 4) (ftype : BitVec 2) (vd va : BitVec 5) (pred : BitVec 4) (s : State) :=
  answer (vecUn (ftypeOf ftype).bits vd va pred
    (fun x => if (decodeElt (ftypeOf ftype) x).isNaN then (ftypeOf ftype).nan else x % 2 ^ ((ftypeOf ftype).bits - 1)) tk s)
def execVexp2 (tk : BitVec 4) (ftype : BitVec 2) (vd va : BitVec 5) (pred : BitVec 4) (s : State) :=
  answer (vecSpecial .exp2 ftype vd va pred tk s)
def execVlog2 (tk : BitVec 4) (ftype : BitVec 2) (vd va : BitVec 5) (pred : BitVec 4) (s : State) :=
  answer (vecSpecial .log2 ftype vd va pred tk s)
def execVrcp (tk : BitVec 4) (ftype : BitVec 2) (vd va : BitVec 5) (pred : BitVec 4) (s : State) :=
  answer (vecSpecial .rcp ftype vd va pred tk s)
def execVrsqrt (tk : BitVec 4) (ftype : BitVec 2) (vd va : BitVec 5) (pred : BitVec 4) (s : State) :=
  answer (vecSpecial .rsqrt ftype vd va pred tk s)
def execVtanh (tk : BitVec 4) (ftype : BitVec 2) (vd va : BitVec 5) (pred : BitVec 4) (s : State) :=
  answer (vecSpecial .tanh ftype vd va pred tk s)
def execVsigm (tk : BitVec 4) (ftype : BitVec 2) (vd va : BitVec 5) (pred : BitVec 4) (s : State) :=
  answer (vecSpecial .sigm ftype vd va pred tk s)

/-! ## Conversions (R174) -/

/-- Read the vector registers of a group of `k` from `v`; one alone may be a port. -/
def readGroup (v : BitVec 5) : Nat → State → Res (List Vec × State)
  | 0, s => pure ([], s)
  | k + 1, s => do
    let (x, s1) ← readVec v s
    let (xs, s2) ← readGroup (v + 1) k s1
    pure (x :: xs, s2)

/-- Write the vector registers of a group from `v`. -/
def writeGroup (v : BitVec 5) : List Vec → State → Res State
  | [], s => pure s
  | x :: xs, s => do
    let s1 ← writeVec v x s
    writeGroup (v + 1) xs s1

/-- The elements of a group of registers, register i mod k and slot i ÷ k for element i (R174). -/
def interleave (b : Nat) (xs : List Vec) : List Nat :=
  let ls := xs.map (lanes b)
  (List.range (4096 / b * xs.length)).map fun i => (ls.getD (i % xs.length) []).getD (i / xs.length) 0

/-- The registers of a group from its elements (R174). -/
def scatter (b k : Nat) (ys : List Nat) : List Vec :=
  (List.range k).map fun r => ofLanes b ((ys.zipIdx.filter fun e => e.2 % k = r).map (·.1))

def execVcvt (tk : BitVec 4) (vd va : BitVec 5) (srcf dstf : BitVec 4) (rm : BitVec 3) (s : State) :=
  answer (runX tk (fun s => do
    let (fs, _) := cvtFmt srcf.toNat
    let (fd, sat) := cvtFmt dstf.toNat
    let bs := fs.bits
    let bd := fd.bits
    let mode := Rm.ofCode rm.toNat
    let cvt (ds : List Nat) (xs : List Nat) : List Nat :=
      xs.zipIdx.map fun e => encode fd (decodeElt fs e.1) mode sat (ds.getD e.2 0)
    if bs < bd then do
      let (x, s1) ← readVec va s
      let (ds, s2) := drawX mode (4096 / bs) s1
      let s3 ← writeGroup vd (scatter bd (bd / bs) (cvt ds (lanes bs x))) s2
      pure (.next s3)
    else do
      let (xs, s1) ← readGroup va (bs / bd) s
      let (ds, s2) := drawX mode (4096 / bd) s1
      let s3 ← writeVec vd (ofLanes bd (cvt ds (interleave bs xs))) s2
      pure (.next s3)) s)

/-! ## Data movement and reductions (R175-R177) -/

def execVbcast (tk : BitVec 4) (width : BitVec 2) (vd sa : BitVec 5) (s : State) :=
  answer (runX tk (fun s => do
    let b := widthBits width
    let (a, s1) ← readReg sa s
    let s2 ← writeVec vd (ofLanes b (List.replicate (4096 / b) (a.toNat % 2 ^ b))) s1
    pure (.next s2)) s)

def execVext (tk : BitVec 4) (width : BitVec 2) (sd va sb : BitVec 5) (s : State) :=
  answer (runX tk (fun s => do
    let b := widthBits width
    let (x, s1) ← readVec va s
    let (i, s2) ← readReg sb s1
    let s3 ← writeReg sd (BitVec.ofNat 64 ((lanes b x).getD (i.toNat % (4096 / b)) 0)) s2
    pure (.next s3)) s)

def execVperm (tk : BitVec 4) (width : BitVec 2) (vd va vb : BitVec 5) (s : State) :=
  answer (runX tk (fun s => do
    let b := widthBits width
    let (x, s1) ← readVec va s
    let (y, s2) ← readVec vb s1
    let s3 ← writeVec vd (ofLanes b ((lanes b y).map fun i => (lanes b x).getD (i % (4096 / b)) 0)) s2
    pure (.next s3)) s)

/-- The active elements of a vector, with their indices, in order. -/
def activeLanes (b : Nat) (p : Pred) (v : Vec) : List (Nat × Nat) :=
  (lanes b v).zipIdx.filter fun e => p.getLsbD e.2

/-- A reduction of the active elements to a scalar register (R175). -/
def reduce (sd va pn : BitVec 5) (f : Pred → Vec → Word) (tk : BitVec 4) (s : State) : State :=
  runX tk (fun s => do
    let p := readPred pn.toNat s
    let (x, s1) ← readVec va s
    let s2 ← writeReg sd (f p x) s1
    pure (.next s2)) s

def execVrsum (tk : BitVec 4) (width : BitVec 2) (sd va pn : BitVec 5) (s : State) :=
  answer (reduce sd va pn (fun p x =>
    BitVec.ofInt 64 ((activeLanes (widthBits width) p x).foldl (fun a e => a + signedOf (widthBits width) e.1) 0)) tk s)

def execVrmax (tk : BitVec 4) (width : BitVec 2) (sd va pn : BitVec 5) (s : State) :=
  answer (reduce sd va pn (fun p x =>
    BitVec.ofInt 64 ((activeLanes (widthBits width) p x).foldl (fun a e => max a (signedOf (widthBits width) e.1))
      (-(2 ^ (widthBits width - 1) : Nat)))) tk s)

/-- FP32 addition rounded to nearest (R176). -/
def fadd32 (x y : Nat) : Nat := fp32Rne ((decodeElt .fp32 x).add (decodeElt .fp32 y))

/-- One level of the tree of R176. -/
def sumPairs : List Nat → List Nat
  | x :: y :: r => fadd32 x y :: sumPairs r
  | r => r

/-- The tree sum of 128 values (R176). -/
def treeSum (xs : List Nat) : Nat := ((List.range 7).foldl (fun ys _ => sumPairs ys) xs).headD 0

def execVfrsum (tk : BitVec 4) (sd va pn : BitVec 5) (s : State) :=
  answer (reduce sd va pn (fun p x =>
    BitVec.ofNat 64 (treeSum ((lanes 32 x).zipIdx.map fun e => if p.getLsbD e.2 then e.1 else 0x80000000))) tk s)

/-- The larger of two FP32 values, +0 above −0 (R176, R178). -/
def fmax32 (x y : Nat) : Nat :=
  let a := decodeElt .fp32 x
  let b := decodeElt .fp32 y
  if a.isNaN || b.isNaN then Fmt.fp32.nan else if a.lt b then y else if b.lt a then x else if a.isNeg then y else x

/-- The smaller of two FP32 values, −0 below +0 (R178). -/
def fmin32 (x y : Nat) : Nat :=
  let a := decodeElt .fp32 x
  let b := decodeElt .fp32 y
  if a.isNaN || b.isNaN then Fmt.fp32.nan else if a.lt b then x else if b.lt a then y else if a.isNeg then x else y

def execVfrmax (tk : BitVec 4) (sd va pn : BitVec 5) (s : State) :=
  answer (reduce sd va pn (fun p x =>
    BitVec.ofNat 64 ((activeLanes 32 p x).foldl (fun a e => fmax32 a e.1) 0xFF800000)) tk s)

/-- Bits of a DX element of VQDX and VDQDX (R175). -/
def dxBits (dx8 : BitVec 1) : Nat := if dx8 = 1 then 8 else 4

/-- The scale word of a block (R108). -/
def scaleWord (e0 e1 : Nat) : Nat := e0 + 256 * e1

def execVqdx (tk : BitVec 4) (dx8 : BitVec 1) (vd va vb : BitVec 5) (s : State) :=
  answer (runX tk (fun s => do
    let w := dxBits dx8
    let (xs, s1) ← readGroup va 4 s
    let rm := roundMode s w
    let (ds, s2) := drawX rm 512 s1
    let vals := (interleave 32 xs).map (decodeElt .fp32)
    let blocks := (List.range 16).map fun j => quantDX ((vals.drop (32 * j)).take 32) w rm ((ds.drop (32 * j)).take 32)
    let s3 ← writeVec vd (ofLanes w (blocks.flatMap fun b => b.2.2)) s2
    let s4 ← writeVec vb (ofLanes 16 (blocks.map fun b => scaleWord b.1 b.2.1)) s3
    pure (.next s4)) s)

def execVdqdx (tk : BitVec 4) (dx8 : BitVec 1) (vd va vb : BitVec 5) (s : State) :=
  answer (runX tk (fun s => do
    let w := dxBits dx8
    let (x, s1) ← readVec va s
    let (y, s2) ← readVec vb s1
    let scales := elems 16 16 y.toNat
    let vals := ((elems w 512 x.toNat)).zipIdx.map fun e =>
      let sw := scales.getD (e.2 / 32) 0
      fp32Rne (decodeDX (sw % 256) (sw / 256) e.1 w)
    let s3 ← writeGroup vd (scatter 32 4 vals) s2
    pure (.next s3)) s)

/-! ## Scalar floating point (R178) -/

/-- A scalar floating-point word on FP32 bits. -/
def scalarFloat (sd sa sb : BitVec 5) (f : State → Nat → Nat → Nat) (tk : BitVec 4) (s : State) : State :=
  runX tk (fun s => do
    let (a, s1) ← readReg sa s
    let (b, s2) ← readReg sb s1
    let s3 ← writeReg sd (BitVec.ofNat 64 (f s (a.toNat % 2 ^ 32) (b.toNat % 2 ^ 32))) s2
    pure (.next s3)) s

/-- An FP32 result in mode XCTL.RM (R163). -/
def round32 (s : State) (z : XVal) : Nat := encodeF .fp32 z (roundMode s 32) false 0

def execFadd (tk : BitVec 4) (sd sa sb : BitVec 5) (s : State) :=
  answer (scalarFloat sd sa sb (fun s a b => round32 s ((decodeElt .fp32 a).add (decodeElt .fp32 b))) tk s)
def execFsub (tk : BitVec 4) (sd sa sb : BitVec 5) (s : State) :=
  answer (scalarFloat sd sa sb (fun s a b => round32 s ((decodeElt .fp32 a).sub (decodeElt .fp32 b))) tk s)
def execFmul (tk : BitVec 4) (sd sa sb : BitVec 5) (s : State) :=
  answer (scalarFloat sd sa sb (fun s a b => round32 s ((decodeElt .fp32 a).mul (decodeElt .fp32 b))) tk s)
def execFmin (tk : BitVec 4) (sd sa sb : BitVec 5) (s : State) := answer (scalarFloat sd sa sb (fun _ => fmin32) tk s)
def execFmax (tk : BitVec 4) (sd sa sb : BitVec 5) (s : State) := answer (scalarFloat sd sa sb (fun _ => fmax32) tk s)
def execFcmp (tk : BitVec 4) (cond : BitVec 2) (sd sa sb : BitVec 5) (s : State) :=
  answer (scalarFloat sd sa sb (fun _ a b =>
    let x := decodeElt .fp32 a
    let y := decodeElt .fp32 b
    let un := x.isNaN || y.isNaN
    let r := if cond = 3 then un else if un then false
      else if cond = 0 then x.eq y else if cond = 1 then x.lt y else !y.lt x
    if r then 1 else 0) tk s)
def execFcvtif (tk : BitVec 4) (sd sa : BitVec 5) (s : State) :=
  answer (runX tk (fun s => do
    let (a, s1) ← readReg sa s
    let s2 ← writeReg sd (BitVec.ofNat 64 (round32 s (XVal.ofInt a.toInt))) s1
    pure (.next s2)) s)
def execFcvtfi (tk : BitVec 4) (sd sa : BitVec 5) (s : State) :=
  answer (runX tk (fun s => do
    let (a, s1) ← readReg sa s
    let s2 ← writeReg sd (BitVec.ofNat 64 (encodeI 64 true (decodeElt .fp32 (a.toNat % 2 ^ 32)) .rtz 0)) s1
    pure (.next s2)) s)

/-! ## The post-processing stage (R179-R184) -/

/-- The row length XCTL.ROW names (R163). -/
def rowLength (s : State) : Nat := 16 * 2 ^ bitsOf (s.strand s.cur).xctl 4 3

/-- Whether VTHR selects a logit at a threshold (R179). -/
def thrSelects (thr x : XVal) : Bool :=
  match x with
  | .nan => false
  | .inf neg => !neg
  | x => !thr.isNaN && !x.lt thr

/-- VTHR (R179). -/
def execVthr (tk : BitVec 4) (vd va vb : BitVec 5) (pd : BitVec 4) (s : State) :=
  answer (runX tk (fun s => do
    let l := rowLength s
    let (x, s1) ← readVec va s
    let (y, s2) ← readVec vb s1
    let xs := (lanes 32 x).map (decodeElt .fp32)
    let thr (r : Nat) : XVal := decodeElt .fp32 ((lanes 32 y).getD r 0)
    let sel := xs.zipIdx.map fun e => thrSelects (thr (e.2 / l)) e.1
    let row (r : Nat) : List XVal := (xs.drop (r * l)).take l
    let count (r : Nat) : Nat := (((sel.drop (r * l)).take l).filter id).length
    let flags (r : Nat) : Nat := (if (row r).any XVal.isNaN then 1 else 0) + (if (row r).any (· == .inf false) then 2 else 0)
    let out := (List.range 128).map fun i =>
      if i < 128 / l then count i else if 64 ≤ i && i - 64 < 128 / l then flags (i - 64) else 0
    let s3 ← writeVec vd (ofLanes 32 out) s2
    pure (.next (writePred pd.toNat (predOf sel) s3))) s)

/-- The gate weights of one row and the lanes that keep their bits (R181). -/
def gateRow (xs : List Nat) (sel : List Bool) : List Nat × List Bool :=
  let vals := xs.map (decodeElt .fp32)
  let act := (vals.zip sel).map fun e => e.2 && !e.1.isNaN
  let infs := (vals.zip act).map fun e => e.2 && e.1 == .inf false
  let c := (infs.filter id).length
  if c ≠ 0 then
    (infs.map fun b => if b then fp32Rne (.fin false 1 c) else 0, infs)
  else
    let m := (xs.zip act).foldl (fun a e => if e.2 then fmax32 a e.1 else a) 0xFF800000
    let mv := decodeElt .fp32 m
    if mv == .inf true then (xs.map fun _ => 0, act)
    else
      let l2e := decodeElt .fp32 0x3FB8AA3B
      let es := (vals.zip act).map fun e =>
        if e.2 then
          let d := fp32Rne (e.1.sub mv)
          let t := fp32Rne ((decodeElt .fp32 d).mul l2e)
          SpecialFn.exp2.apply .fp32 3 t
        else 0
      let total := (es.zip act).foldl (fun a e => if e.2 then fadd32 a e.1 else a) 0
      ((es.zip act).map (fun e =>
        if e.2 then fp32Rne (XVal.quot (decodeElt .fp32 e.1) (decodeElt .fp32 total)) else 0), act)

/-- VGATEW (R181). DESIGN CHOICE (log 67): pN is written whole, from its value before the word, also where the entry it pops puts
its status mask into the same predicate; that mask is then lost. -/
def execVgatew (tk : BitVec 4) (vd va : BitVec 5) (pn : BitVec 4) (s : State) :=
  answer (runX tk (fun s => do
    let l := rowLength s
    let p := readPred pn.toNat s
    let (x, s1) ← readVec va s
    let xs := lanes 32 x
    let sel := (List.range 128).map fun i => p.getLsbD i
    let rows := (List.range (128 / l)).map fun r => gateRow ((xs.drop (r * l)).take l) ((sel.drop (r * l)).take l)
    let s2 ← writeVec vd (ofLanes 32 (rows.flatMap (·.1))) s1
    let high := (List.range 1024).map fun i => 128 ≤ i && p.getLsbD i
    let kept := predOf (rows.flatMap (·.2)) ||| predOf high
    pure (.next (writePred pn.toNat kept s2))) s)

/-- One lane of VXREP: the row's kept lanes so far as (lane, identifier, weight) (R182). -/
def repStep (kept : List (Nat × Nat × Nat)) (lane ident weight : Nat) : List (Nat × Nat × Nat) :=
  if kept.any fun k => k.2.1 = ident then
    kept.map fun k => if k.2.1 = ident then (k.1, k.2.1, fadd32 k.2.2 weight) else k
  else kept ++ [(lane, ident, fp32Rne (decodeElt .fp32 weight))]

/-- The kept lanes of a row (R182). -/
def repRow (ids ws : List Nat) (sel : List Bool) (base : Nat) : List (Nat × Nat × Nat) :=
  (((ids.zip ws).zip sel).zipIdx).foldl (fun kept e =>
    if e.1.2 then repStep kept (base + e.2) e.1.1.1 e.1.1.2 else kept) []

/-- VXREP (R182). DESIGN CHOICE (log 67): pN is written whole, from its value before the word, also where an entry it pops puts
its status mask into the same predicate; that mask is then lost. -/
def execVxrep (tk : BitVec 4) (vd va vb : BitVec 5) (pn : BitVec 4) (s : State) :=
  answer (runX tk (fun s => do
    let l := rowLength s
    let p := readPred pn.toNat s
    let (x, s1) ← readVec va s
    let (y, s2) ← readVec vb s1
    let ids := lanes 32 x
    let ws := lanes 32 y
    let sel := (List.range 128).map fun i => p.getLsbD i
    let kept := (List.range (128 / l)).flatMap fun r =>
      repRow ((ids.drop (r * l)).take l) ((ws.drop (r * l)).take l) ((sel.drop (r * l)).take l) (r * l)
    let at_ (i : Nat) : Option Nat := (kept.find? fun k => k.1 = i).map (·.2.2)
    let s3 ← writeVec vd (ofLanes 32 ((List.range 128).map fun i => (at_ i).getD 0)) s2
    let keep := predOf ((List.range 1024).map fun i => if i < 128 then (at_ i).isSome else p.getLsbD i)
    pure (.next (writePred pn.toNat keep s3))) s)

/-- VHIST (R183). -/
def execVhist (tk : BitVec 4) (vd va vb : BitVec 5) (pn : BitVec 4) (s : State) :=
  answer (runX tk (fun s => do
    let p := readPred pn.toNat s
    let (x, s1) ← readVec va s
    let (y, s2) ← readVec vb s1
    let act := activeLanes 32 p x
    let bins := (lanes 32 y).zipIdx.map fun e => (e.1 + (act.filter fun a => a.1 = e.2).length) % 2 ^ 32
    let s3 ← writeVec vd (ofLanes 32 bins) s2
    pure (.next s3)) s)

/-- CQPUSH (R184). -/
def execCqpush (tk : BitVec 4) (va : BitVec 5) (pn : BitVec 4) (s : State) :=
  answer (runX tk (fun s => do
    let p := readPred pn.toNat s
    let (x, s1) ← readVec va s
    let act := activeLanes 32 p x
    if 64 < act.length then trap 0x31 (BitVec.ofNat 64 act.length)
    else
      let st := s1.strand s1.cur
      if act.length ≠ 0 && 64 < st.cq.length + act.length then hold .countQueue
      else pure (.next (s1.setStrand s1.cur { st with cq := st.cq ++ act.map fun e => BitVec.ofNat 32 e.1 }))) s)

end Sys2Proof.Machine
end

