-- ==== Sys2Proof/Machine/Matrix.lean ====
section
/-! DEFINITION. The matrix engine: its words, its two queues, slabs and K-steps, gathered products, rings and stages,
CPYM with its hand-off, and the X stream's tile words (07 R224-R252, 05 R185-R186, 06 R195). -/

namespace Sys2Proof.Machine

/-! ## Words -/

/-- A matrix word's fields (R225); `major` is 0x4C, 0x4D or 0x4E for products and 0x4F for MCTL. -/
structure MatWord where
  major : Nat
  fn : Nat
  u : Bool
  fill : Bool
  td : Nat
  ra : Nat
  rb : Nat
  oa : Bool
  ob : Bool
  ms : Nat
  ks : Nat
  deriving DecidableEq, Repr, Inhabited

/-- A field of a word. -/
def wordField (w : BitVec 32) (hi lo : Nat) : Nat := w.toNat / 2 ^ lo % 2 ^ (hi - lo + 1)

/-- The fields of a matrix word. For MCTL, `fn` tells the form and `ra` is the ring of RING and POP. -/
def matWord (w : BitVec 32) : MatWord :=
  let major := wordField w 31 25
  let ctl := major = 0x4F
  let fn := wordField w 19 17
  { major := major, fn := if ctl then fn else 8
    u := wordField w 20 20 = 1
    fill := if ctl then wordField w 12 12 = 1 else wordField w 19 19 = 1
    td := if ctl then wordField w 16 13 else wordField w 18 15
    ra := if ctl then wordField w 16 14 else wordField w 14 12
    rb := wordField w 11 9, oa := wordField w 8 8 = 1, ob := wordField w 7 7 = 1
    ms := if ctl then wordField w 16 15 else wordField w 6 5, ks := wordField w 4 0 }

/-- Whether a word is a product: MMA, MMAS or MMAG. -/
def MatWord.product (m : MatWord) : Bool := m.major ≠ 0x4F

/-- Whether a word names a tile: a product or MCTL.ZERO. -/
def MatWord.namesTile (m : MatWord) : Bool := m.product || m.fn = 0

/-! ## Operands (R227-R231) -/

/-- The operand class of a format code: 8, 4 or 16 bits, 0 outside every class (R227). -/
def matClass (code : Nat) : Nat :=
  match bankFmt code with
  | some .e4m3 => 8
  | some .e5m2 => 8
  | some (.int 8 _) => 8
  | some (.dx 8) => 8
  | some (.int 4 _) => 4
  | some (.dx 4) => 4
  | some .bf16 => 16
  | some .fp16 => 16
  | _ => 0

/-- K-steps of one slab, and elements of K in one K-step (R227, R122). -/
def slabKSteps (cls : Nat) : Nat := if cls = 4 then 2 else 1
def kStepLen (cls : Nat) : Nat := if cls = 16 then 32 else 64

/-- Mode-word fields (R228). -/
def modeA (m : Word) : Nat := bitsOf m 63 56
def modeB (m : Word) : Nat := bitsOf m 55 48
def modeAcc (m : Word) : Bool := bitsOf m 47 47 = 1
def modeKeep (m : Word) (b : Bool) : Bool := if b then bitsOf m 45 45 = 1 else bitsOf m 46 46 = 1
def modeFix (m : Word) (b : Bool) : Bool := if b then bitsOf m 43 43 = 1 else bitsOf m 44 44 = 1
def modeN (m : Word) : Nat := bitsOf m 41 36 + 1
def modeTiles (m : Word) : Nat := bitsOf m 35 32 + 1

/-- Slabs of a stage (R231). -/
def OpRing.slabs (r : OpRing) : Nat := r.stageSize / 4096

/-- The scratchpad address of a ring's slab by its slab number (R231). -/
def OpRing.slabAt (r : OpRing) (p : Nat) : Nat :=
  let n := max 1 r.slabs
  let j := p % n
  let off := if r.stageSize % 65536 = 0 then
      let b := max 1 (r.stageSize / 65536)
      j % b * 65536 + j / b * 4096
    else j * 4096
  r.bank * 65536 + p / n % (max 1 r.stages) * r.stageSize + off

/-- CONS as a slab number (R232). -/
def OpRing.cons (r : OpRing) : Nat := r.consStage * r.slabs + r.consSlab

/-- Set CONS. -/
def OpRing.setCons (r : OpRing) (p : Nat) : OpRing :=
  { r with consStage := p / max 1 r.slabs, consSlab := p % max 1 r.slabs }

/-- Whether the stage of a slab number is complete (R232). -/
def OpRing.slabReady (r : OpRing) (p : Nat) : Bool := p / max 1 r.slabs < r.tail

/-- Bytes of a ring's footprint (R203). -/
def OpRing.footprint (r : OpRing) : Nat := r.stages * r.stageSize

/-- What the reading of an operand gives: its values or the status that ends the command (R247). -/
abbrev MatRes (α : Type) := Except Nat α

/-- The element of the slab at scratchpad address u, line k and position i (R229, R230). -/
def slabElt (cls : Nat) (col : Bool) (u k i : Nat) : Elt :=
  let bank := u / 65536
  let o := u % 65536
  if cls = 8 then { bank := bank, index := o + (if col then i * 64 + k else k * 64 + i) }
  else if cls = 16 then
    { bank := bank, index := (o + (if col then i * 64 + 2 * k else (2 * k + i / 32) * 64 + 2 * (i % 32))) / 2 }
  else { bank := bank, index := 2 * (o + k / 2 * 64 + 32 * (k % 2) + i / 2) + i % 2 }

/-- Whether the bytes of an operand from scratchpad address u, or the scale words they decode with, are poisoned (R57). -/
def operandPoisoned (s : State) (base code cls u n : Nat) : Bool :=
  let idx (a : Nat) : Elt := { bank := u / 65536, index := a % 65536 * (if cls = 4 then 2 else 1) }
  let lo := scaleAddr code (idx u)
  (s.poisonIn (base + u) n).isSome
    || (0xC1 ≤ code && (s.poisonIn (base + lo) (scaleAddr code (idx (u + n - 1)) + 2 - lo)).isSome)

/-- The memory of an operand and of its scale words alone: what the reading of its elements looks at. -/
def operandWindow (s : State) (base code cls u n : Nat) : State :=
  let idx (a : Nat) : Elt := { bank := u / 65536, index := a % 65536 * (if cls = 4 then 2 else 1) }
  let lo := base + scaleAddr code (idx u)
  let hi := base + scaleAddr code (idx (u + n - 1)) + 2
  { s with mem := s.mem.filter fun c => (base + u ≤ c.1 && c.1 < base + u + n) || (0xC1 ≤ code && lo ≤ c.1 && c.1 < hi) }

/-- The reader of operand bytes at u: the class of the bank's code is checked, and then poison (R247). It maps an element to
its value. -/
def readOperand (s : State) (die polder cls u n : Nat) : MatRes (Elt → XVal) :=
  let crew := s.crew die polder
  let base := dieAddr die (poolOffset polder)
  let code := crew.fmtCode (u / 65536)
  if matClass code ≠ cls then .error 1
  else if operandPoisoned s base code cls u n then .error 2
  else
    let bits := ((bankFmt code).getD .raw).bits
    let t := operandWindow s base code cls u n
    .ok fun x => t.eltValue base code x (t.eltBits base bits x)

/-- A slab: for each of its 64 positions, the elements of K in order (R229). -/
def readSlab (s : State) (die polder cls : Nat) (col : Bool) (u : Nat) : MatRes (List (List XVal)) := do
  let f ← readOperand s die polder cls u 4096
  pure ((List.range 64).map fun i => (List.range (kStepLen cls * slabKSteps cls)).map fun k => f (slabElt cls col u k i))

/-- A 64-byte chunk of an MMAG table row: the elements of K in order (R237). -/
def readChunk (s : State) (die polder cls u : Nat) : MatRes (List XVal) := do
  let f ← readOperand s die polder cls u 64
  let first := if cls = 8 then u % 65536 else if cls = 16 then u % 65536 / 2 else 2 * (u % 65536)
  pure ((List.range (kStepLen cls * slabKSteps cls)).map fun k => f { bank := u / 65536, index := first + k })

/-! ## K-steps (R122, R233, R236) -/

/-- A product that is not there: it counts as +0 (R123, R236). -/
def noProduct : XVal := .fin false 0 1

/-- One K-step of one partial sum, and whether it overflowed (R122, R247). -/
def kStepOne (z : Nat) (a : List (Option XVal)) (b : List XVal) : Nat × Bool :=
  let prods := List.zipWith (fun (x : Option XVal) (y : XVal) => match x with
    | some v => v.mul y
    | none => noProduct) a b
  let c := decodeElt .fp32 z
  let r := kStep c prods
  (r, (r = 0x7F800000 || r = 0xFF800000) && !(c :: prods).any fun t => t.isInf || t.isNaN)

/-- One K-step of every row of partial sums: `a` holds each row's elements of K, `b` each column's (R122). -/
def kStepAll (z : List (List Nat)) (a : List (List (Option XVal))) (b : List (List XVal)) : List (List Nat) × Bool :=
  let rs := List.zipWith (fun (row : List Nat) (xs : List (Option XVal)) =>
    List.zipWith (fun (v : Nat) (ys : List XVal) => kStepOne v xs ys) row b) z a
  (rs.map fun row => row.map (·.1), rs.any fun row => row.any (·.2))

/-- The elements of K-step q of `n` elements. -/
def kPart {α : Type} (n q : Nat) (xs : List α) : List α := (xs.drop (q * n)).take n

/-- Several K-steps of `n` elements one after another, from K-step `first` of their slabs. -/
def kStepsAll (z : List (List Nat)) (a : List (List XVal)) (b : List (List XVal)) (n first : Nat) : Nat → List (List Nat) × Bool
  | 0 => (z, false)
  | q + 1 =>
    let (z1, o1) := kStepsAll z a b n first q
    let (z2, o2) := kStepAll z1 (a.map fun xs => (kPart n (first + q) xs).map some) (b.map (kPart n (first + q)))
    (z2, o1 || o2)

/-- Rows of 64 FP32 values of a bit string. -/
def rowsOf (n z : Nat) : List (List Nat) := (List.range n).map fun r => elems 32 64 (z / 2 ^ (2048 * r))

/-- Rows as one bit string. -/
def ofRows (z : List (List Nat)) : Nat := packElems 2048 (z.map (packElems 32))

/-- The A element of row m at position k of a K-step of a compressed slab: the value of its rank among the set positions
of the row's bitmap (R236). -/
def sparseElt (cls u chunk qs : Nat) (bm k m : Nat) : Option Elt :=
  if bm / 2 ^ k % 2 = 0 then none
  else
    let t := ((List.range k).filter fun j => bm / 2 ^ j % 2 = 1).length
    let o := u % 65536 + m * 64 + qs * chunk
    some { bank := u / 65536, index := if cls = 8 then o + t else 2 * o + t }

/-- The bits set in a 64-bit number. -/
def ones64 (x : Nat) : Nat := ((List.range 64).filter fun j => x / 2 ^ j % 2 = 1).length

/-! ## Tiles (R26, R233, R234) -/

/-- Where a tile lies (R26). -/
def State.tileAddr (s : State) (die polder t : Nat) : Nat :=
  dieAddr die (poolOffset polder + (s.crew die polder).scratchBytes + t * 16384)

/-- Whether a tile is full. -/
def Crew.tileFull (c : Crew) (t : Nat) : Bool := c.tilesFull / 2 ^ t % 2 = 1

/-- Set or clear a tile's bit. -/
def Crew.setTile (c : Crew) (t : Nat) (full : Bool) : Crew :=
  if c.tileFull t = full then c
  else { c with tilesFull := if full then c.tilesFull + 2 ^ t else c.tilesFull - 2 ^ t }

/-- Whether a matrix command owns a tile (R234). -/
def Crew.tileOwned (c : Crew) (t : Nat) : Bool :=
  [c.actQ, c.actU].any fun a => match a with
    | some a => a.owns = some t
    | none => false

/-- The active command of a queue. -/
def Crew.act (c : Crew) (u : Bool) : Option MatActive := if u then c.actU else c.actQ

/-- Replace the active command of a queue. -/
def Crew.setAct (c : Crew) (u : Bool) (a : Option MatActive) : Crew := if u then { c with actU := a } else { c with actQ := a }

/-- The queue of a command. -/
def Crew.mq (c : Crew) (u : Bool) : List MatCmd := if u then c.matU else c.matQ

/-- Replace a queue. -/
def Crew.setMq (c : Crew) (u : Bool) (q : List MatCmd) : Crew := if u then { c with matU := q } else { c with matQ := q }

/-! ## Slab-steps of a command (R227, R232, R236) -/

/-- B slabs of one slab-step (R236). -/
def bSlabs (m : MatWord) (mode : Word) : Nat := if m.major = 0x4D && modeN mode ≤ 32 then 2 else 1

/-- K-steps of one slab-step (R227, R236). -/
def stepKSteps (m : MatWord) (mode : Word) : Nat := slabKSteps (matClass (modeA mode)) * bSlabs m mode

/-- Whether an operand takes positions: it is used and not fixed. -/
def takesA (m : MatWord) (mode : Word) : Bool := m.major ≠ 0x4E && !modeFix mode false
def takesB (mode : Word) : Bool := !modeFix mode true

/-- The slabs by which a product moves CONS of a ring: an operand that is kept moves it by none (R232). -/
def MatWord.consumes (m : MatWord) (mode : Word) (ring : Nat) : Nat :=
  (if takesA m mode && m.ra = ring && !modeKeep mode false then m.ks + 1 else 0)
    + (if takesB mode && m.rb = ring && !modeKeep mode true then (m.ks + 1) * bSlabs m mode else 0)

/-! ## The words in X, and CPYM (R187, R224-R226, R240-R242) -/

/-- Enqueue a matrix command at its word's retirement; the word waits while the queue is full (R25, R243). -/
def enqueueMat (word : BitVec 32) (val1 val2 : Word) (s : State) : Res State :=
  let c := s.cur
  let crew := s.myCrew
  let u := (matWord word).u
  if 16 ≤ (crew.mq u).length then hold .commandQueue
  else
    let m : MatCmd :=
      { word := word, follow := false, strand := c.strand, val1 := val1, val2 := val2, stamp := crew.matOrder, after := 0 }
    pure (s.setCrew c.die c.polder { crew.setMq u (crew.mq u ++ [m]) with matOrder := crew.matOrder + 1 })

/-- The commands of a queue with the values they carry, and after them the follow-ons that copies still hold for it, in the order
of their copies. -/
def Crew.ahead (c : Crew) (u : Bool) : List (BitVec 32 × Word × Word) :=
  let held := c.copies.toList.filterMap fun e =>
    match e.follow with
    | some w => if e.state ≠ .free && (matWord w).u = u then some (e.order, w) else none
    | none => none
  (c.mq u).map (fun m => (m.word, m.val1, m.val2))
    ++ (held.foldl (fun (t : List (Nat × BitVec 32)) e => put e.1 e.2 t) []).map fun e => (e.2, 0, 0)

/-- A ring and the mode slots as the commands ahead in a queue will leave them. -/
def Crew.foresee (c : Crew) (u : Bool) (ring : Nat) : OpRing × Vector (Word × Word) 4 :=
  (c.ahead u).foldl (fun (acc : OpRing × Vector (Word × Word) 4) e =>
    let m := matWord e.1
    let (r, modes) := acc
    if m.product then (r.setCons (r.cons + m.consumes ((modes[m.ms]?).getD default).1 ring), modes)
    else if m.fn = 1 then (r, modes.setIfInBounds m.ms e.2)
    else if m.fn = 2 && m.ra = ring then (ringOf e.2.1.toNat, modes)
    else if m.fn = 3 && m.ra = ring then (r.setCons (r.cons + bitsOf e.2.1 31 0), modes)
    else (r, modes)) (c.ring ring, c.modes)

/-- The scratchpad ranges that an operand of a product reads: its slabs from position `p`, or of a fixed operand from the
ring's base (R231, R235). -/
def slabRanges (r : OpRing) (fix : Bool) (p n : Nat) : List (Nat × Nat) :=
  if r.stages = 0 then []
  else if fix then [(r.bank * 65536, n * 4096)]
  else (List.range n).map fun j => (r.slabAt (p + j), 4096)

/-- With each range of a DX bank, the scale words that its elements are decoded with (R116). -/
def withScales (c : Crew) (cls : Nat) (rs : List (Nat × Nat)) : List (Nat × Nat) :=
  rs.flatMap fun r =>
    let code := c.fmtCode (r.1 / 65536)
    let idx (a : Nat) : Elt := { bank := a / 65536, index := a % 65536 * (if cls = 4 then 2 else 1) }
    if 0xC1 ≤ code && r.2 ≠ 0 then
      [r, (scaleAddr code (idx r.1), scaleAddr code (idx (r.1 + r.2 - 1)) + 2 - scaleAddr code (idx r.1))]
    else [r]

/-- The scratchpad ranges of MMAG's lists and of the rows of its table that its index list names now, up to the published length
(R237, R238). -/
def State.gatherRanges (s : State) (mode addr : Word) (ks : Nat) : List (Nat × Nat) × List (Nat × Nat) :=
  let c := s.myCrew
  let o := bitsOf addr 21 1 * 4
  if c.scratchBytes < o + 4 then ([], [])
  else
    let gi := bitsOf addr 63 43 * 4
    let gs := bitsOf addr 42 22 * 4
    let n := min (s.readN (s.scratchPa o) 4) (min 65536 ((c.scratchBytes - min c.scratchBytes (max gi gs)) / 4))
    let row := (ks + 1) * 64
    let rows := ((List.range n).map fun i => s.readN (s.scratchPa (gi + 4 * i)) 4).filter fun x =>
      x ≠ 2 ^ 32 - 1 && bitsOf mode 16 0 * 64 + (x + 1) * row ≤ c.scratchBytes
    ([(o, 4), (gi, 4 * n), (gs, 4 * n)], rows.map fun x => (bitsOf mode 16 0 * 64 + x * row, row))

/-- The hazards of a product's operands at its issue, with the detector on (R62, R63, R247): a bank of an operand's footprint
whose code differs from the mode's, and a copy in flight that overlaps bytes the command fetches. The mode and the positions are
those that the commands ahead in its queue leave it; a copy into the ring of an operand is ordered by the ring's stages.
DESIGN CHOICE: an MMAG's lists and table rows are those that the published length names at the issue (log 59). -/
def matHazards (word : BitVec 32) (s : State) : Res Unit := do
  let c := s.myCrew
  let m := matWord word
  if c.debug && m.product then
    let (ra, modes) := c.foresee m.u m.ra
    let rb := (c.foresee m.u m.rb).1
    let (mode, addr) := (modes[m.ms]?).getD default
    let cls := matClass (modeA mode)
    let n := m.ks + 1
    let nb := n * bSlabs m mode
    let pb := if m.major ≠ 0x4E && m.ra = m.rb && takesA m mode && !modeKeep mode false then rb.cons + n else rb.cons
    let (lists, rows) := if m.major = 0x4E then s.gatherRanges mode addr m.ks else ([], [])
    let foot (r : OpRing) (fix : Bool) (k : Nat) : List (Nat × Nat) :=
      if r.stages = 0 then [] else [(r.bank * 65536, if fix then k * 4096 else r.footprint)]
    let banks (rs : List (Nat × Nat)) (code : Nat) : Option Nat :=
      (rs.flatMap fun r => if r.2 = 0 then [] else
        (List.range ((r.1 + r.2 - 1) / 65536 - r.1 / 65536 + 1)).map (r.1 / 65536 + ·)).find? fun b => c.fmtCode b ≠ code
    let badA := if m.major = 0x4E then banks rows (modeA mode) else banks (foot ra (modeFix mode false) n) (modeA mode)
    if let some b := badA.or (banks (foot rb (modeFix mode true) nb) (modeB mode)) then trap 0x7A (BitVec.ofNat 64 b)
    let side := if m.major = 0x4D && bitsOf mode 42 42 = 1 then
        let (base, size) := c.sideMemory s.cur.die s.cur.polder
        let q := n * stepKSteps m mode
        [(base + min size (bitsOf mode 30 17 * 512), min (q * 512) (size - min size (bitsOf mode 30 17 * 512)))]
      else []
    let pa (rs : List (Nat × Nat)) : List (Nat × Nat) := (withScales c cls rs).map fun r => (s.scratchPa r.1, r.2)
    let fa := if m.major = 0x4E then [] else pa (slabRanges ra (modeFix mode false) ra.cons n)
    let fb := pa (slabRanges rb (modeFix mode true) pb nb)
    let clash := (List.range 16).find? fun i =>
      let e := c.copyAt i
      let hits (rs : List (Nat × Nat)) : Bool := rs.any fun r => e.overlaps r.1 r.2
      e.state ≠ .free && (hits side || hits (lists.map fun r => (s.scratchPa r.1, r.2)) || hits (pa rows)
        || (!(e.ring = m.ra && !modeFix mode false) && hits fa) || (!(e.ring = m.rb && !modeFix mode true) && hits fb))
    if let some i := clash then trap 0x7B (BitVec.ofNat 64 i)

/-- A matrix word whose command carries the values of up to two registers, checked by `check`. -/
def matrixWord (tk : BitVec 4) (word : BitVec 32) (values : State → Res (Word × Word × State)) (s : State) : State :=
  runX tk (fun s => do
    let (v1, v2, s1) ← values s
    matHazards word s
    let s2 ← enqueueMat word v1 v2 s1
    pure (.next s2)) s

/-- No registers. -/
def noValues (s : State) : Res (Word × Word × State) := pure (0, 0, s)

/-- The word of a product (R225). -/
def productWord (major : Nat) (tk : BitVec 4) (u fill : BitVec 1) (td : BitVec 4) (ra rb : BitVec 3) (oa ob : BitVec 1)
    (ms : BitVec 2) (ks : BitVec 5) : BitVec 32 :=
  (BitVec.ofNat 7 major) ++ tk ++ u ++ fill ++ td ++ ra ++ rb ++ oa ++ ob ++ ms ++ ks

def execMma (tk : BitVec 4) (u fill : BitVec 1) (td : BitVec 4) (ringA ringB : BitVec 3) (oa ob : BitVec 1) (ms : BitVec 2)
    (ks : BitVec 5) (s : State) :=
  answer (matrixWord tk (productWord 0x4C tk u fill td ringA ringB oa ob ms ks) noValues s)
def execMmas (tk : BitVec 4) (u fill : BitVec 1) (td : BitVec 4) (ringA ringB : BitVec 3) (oa ob : BitVec 1) (ms : BitVec 2)
    (ks : BitVec 5) (s : State) :=
  answer (matrixWord tk (productWord 0x4D tk u fill td ringA ringB oa ob ms ks) noValues s)
def execMmag (tk : BitVec 4) (u fill : BitVec 1) (td : BitVec 4) (ringB : BitVec 3) (ob : BitVec 1) (ms : BitVec 2)
    (ks : BitVec 5) (s : State) :=
  answer (matrixWord tk (productWord 0x4E tk u fill td 0 ringB 0 ob ms ks) noValues s)

/-- MCTL.ZERO (R240). -/
def execMctlZero (tk : BitVec 4) (u : BitVec 1) (tile : BitVec 4) (fill : BitVec 1) (s : State) :=
  answer (matrixWord tk ((0x4F : BitVec 7) ++ tk ++ u ++ (0 : BitVec 3) ++ tile ++ fill ++ (0 : BitVec 12)) noValues s)

/-- MCTL.MODE: reserved bits and classes are checked at issue (R240). -/
def execMctlMode (tk : BitVec 4) (u : BitVec 1) (ms : BitVec 2) (sa sb : BitVec 5) (s : State) :=
  answer (matrixWord tk ((0x4F : BitVec 7) ++ tk ++ u ++ (1 : BitVec 3) ++ ms ++ sa ++ sb ++ (0 : BitVec 5)) (fun s => do
    let (a, s1) ← readReg sa s
    let (b, s2) ← readReg sb s1
    if bitsOf a 31 31 ≠ 0 || bitsOf b 0 0 ≠ 0 then trap 0x48 1
    else if matClass (modeA a) = 0 || matClass (modeA a) ≠ matClass (modeB a) then trap 0x48 3
    else pure (a, b, s2)) s)

/-- The first check of a ring configuration that fails (R241). -/
def ringCheck (c : Crew) (ring : Nat) (v : Word) : Nat :=
  let n := v.toNat
  let r := ringOf n
  let u := r.bank * 65536
  if n / 2 ^ 23 ≠ 0 || n / 2 ^ 7 % 2 ^ 5 ≠ 0 then 1
  else if n = 0 then 0
  else if n % 128 = 0 || 64 < n % 128 then 2
  else if c.scratchBytes < u + r.footprint then 3
  else if (List.range 8).any fun k => k ≠ ring && overlap ((c.ring k).bank * 65536) (c.ring k).footprint u r.footprint then 4
  else 0

/-- MCTL.RING (R241). -/
def execMctlRing (tk : BitVec 4) (u : BitVec 1) (ring : BitVec 3) (sa : BitVec 5) (s : State) :=
  answer (matrixWord tk ((0x4F : BitVec 7) ++ tk ++ u ++ (2 : BitVec 3) ++ ring ++ sa ++ (0 : BitVec 9)) (fun s => do
    let (a, s1) ← readReg sa s
    let r := ringCheck s.myCrew ring.toNat a
    if r ≠ 0 then trap 0x49 (BitVec.ofNat 64 (ring.toNat + 256 * r)) else pure (a, 0, s1)) s)

/-- MCTL.POP (R240). -/
def execMctlPop (tk : BitVec 4) (u : BitVec 1) (ring : BitVec 3) (sa : BitVec 5) (s : State) :=
  answer (matrixWord tk ((0x4F : BitVec 7) ++ tk ++ u ++ (3 : BitVec 3) ++ ring ++ sa ++ (0 : BitVec 9)) (fun s => do
    let (a, s1) ← readReg sa s
    if bitsOf a 63 32 ≠ 0 then trap 0x48 2 else pure (a, 0, s1)) s)

/-- Whether a matrix command of a strand numbered below `stamp`, or a follow-on that its pair's copy still holds, has not
retired (R242). -/
def Crew.matLive (c : Crew) (strand stamp : Nat) : Bool :=
  ((c.matQ ++ c.matU).any fun m => m.strand = strand && m.stamp < stamp)
  || ([c.actQ, c.actU].any fun a => match a with
    | some a => a.cmd.strand = strand && a.cmd.stamp < stamp
    | none => false)
  || c.copies.toList.any fun e => e.state ≠ .free && e.follow.isSome && e.strand = strand && e.stamp < stamp

/-- What MCTL.WAIT reads of a strand's commands numbered below `stamp` (R242). -/
def Crew.matReport (c : Crew) (strand stamp : Nat) : Nat :=
  let fs := c.matFails.filter fun f => f.strand = strand && f.stamp < stamp
  let bad := fs.filter fun f => f.status ≠ 0
  bad.length % 2 ^ 32 * 2 ^ 32 + (if fs.any (·.overflow) then 256 else 0) + (match bad with
    | [] => 0
    | f :: _ => f.status)

/-- MCTL.WAIT: the numbers handed out at its issue bound the commands it waits for (R242). -/
def execMctlWait (tk : BitVec 4) (rd : BitVec 5) (s : State) :=
  answer (runWord 1 (· = .x) tk (fun s0 s => do
    let c := s.cur
    let stamp := match s0.pending with
      | some p => p.data.getD 1 0
      | none => s.myCrew.matOrder
    if s.myCrew.matLive c.strand stamp then
      let k := s0.stream c
      pure (.stay (s0.setStream c { k with pend := some { ids := [], data := [1004, stamp] }, wait := some .commandQueue }))
    else do
      let s1 ← writeReg rd (BitVec.ofNat 64 (s.myCrew.matReport c.strand stamp)) s
      pure (.next s1)) s)

/-- Mark a tile in the streams that pass a word by (R186). -/
def markTile (t : Nat) : Marking := fun n m => { m with tiles := put t n m.tiles }

/-- CPYM: a copy with a follow-on matrix command (R195, R198, R226, R242). -/
def execCpym (tk : BitVec 4) (scol sc : BitVec 1) (rd ra rb : BitVec 5) (follow : BitVec 32) (s : State) :=
  answer (runWordM (markTile (matWord follow).td) 2 (· = .a) tk (fun _ s => do
    let (p, bad, s1) ← planCpy scol sc rd ra rb s
    p.check s bad [(wordField follow 31 25 = 0x4F, 0x4A, follow.toNat)]
    matHazards follow s
    let n := s.myCrew.matOrder
    let word : BitVec 32 := (0x48 : BitVec 7) ++ tk ++ (1 : BitVec 1) ++ scol ++ (0 : BitVec 1) ++ sc ++ rd ++ ra ++ rb ++ (0 : BitVec 2)
    let s2 ← issueCopy { p.cmd with word := word, follow := some follow, stamp := n } s1
    let crew := s2.myCrew
    pure (.next (s2.setCrew s.cur.die s.cur.polder { crew with matOrder := n + 1 }))) s)

/-! ## The X stream's tile words (R185, R186) -/

/-- Whether a command with a mode word names a tile: an MMAG names NTILES + 1 tiles from TD up (R238). -/
def MatWord.names (m : MatWord) (mode : Word) (t : Nat) : Bool :=
  m.namesTile && m.td ≤ t && t < m.td + (if m.major = 0x4E then modeTiles mode else 1)

/-- The mode word that the i-th command ahead in a queue will capture. -/
def Crew.modeAhead (c : Crew) (u : Bool) (i ms : Nat) : Word :=
  (((c.ahead u).take i).foldl (fun (modes : Vector (Word × Word) 4) e =>
    if (matWord e.1).major = 0x4F && (matWord e.1).fn = 1 then modes.setIfInBounds (matWord e.1).ms e.2 else modes) c.modes)[ms]?.getD
      default |>.1

/-- Whether an earlier matrix command of the strand still has to take effect on a tile before X touches it (R186): one that is
queued, one that is active, and a follow-on of a pair that comes first. An active MMAG that has written the tile holds a read
only while it owns the tile again, and a write until it retires. -/
def Crew.tileHeld (c : Crew) (strand seq t : Nat) (write : Bool) : Bool :=
  let queued (u : Bool) : Bool := (c.mq u).zipIdx.any fun e =>
    let m := matWord e.1.word
    e.1.strand = strand && e.1.after ≤ seq && m.names (c.modeAhead u e.2 m.ms) t
  queued false || queued true
  || ([c.actQ, c.actU].any fun a => match a with
    | some a =>
      let m := matWord a.cmd.word
      a.cmd.strand = strand && a.cmd.after ≤ seq && m.names a.mode t
        && (m.major ≠ 0x4E || write || a.owns = some t || a.rowTile ≤ t - m.td)
    | none => false)
  || c.copies.toList.any fun e => e.state ≠ .free && e.strand = strand && e.seq < seq && (match e.follow with
    | some w =>
      let m := matWord w
      m.names (c.modeAhead m.u (c.ahead m.u).length m.ms) t
    | none => false)

/-- The wait of a tile word on the matrix commands before it. -/
def tileOrder (t : Nat) (write : Bool) (s : State) : Res Unit := do
  let k := s.stream s.cur
  untilTrue (s.passed .a ((look t k.marks.tiles).getD 0))
  untilTrue (!s.myCrew.tileHeld s.cur.strand k.seq t write)

/-- The row pair of a tile word (R185). -/
def rowPair (rs : BitVec 5) (s : State) : Res (Nat × State) := do
  let (q, s1) ← readReg rs s
  if 31 < q.toNat then trap 0x30 q else pure (q.toNat, s1)

/-- VTILE.RD (R185). -/
def execVtileRd (tk : BitVec 4) (vd : BitVec 5) (tile : BitVec 4) (rs : BitVec 5) (clr : BitVec 1) (s : State) :=
  answer (runWordM (markTile tile.toNat) 1 (· = .x) tk (fun _ s => do
    let c := s.cur
    let (q, s1) ← rowPair rs s
    if !s.myCrew.tileFull tile.toNat then hold .tileBit
    tileOrder tile.toNat false s
    let a := s.tileAddr c.die c.polder tile.toNat + 512 * q
    if (s.poisonIn a 512).isSome then trap 0x08 (BitVec.allOnes 64)
    let s2 ← writeVec vd (BitVec.ofNat 4096 (s.readN a 512)) s1
    let crew := s2.myCrew
    pure (.next (if clr = 1 then s2.setCrew c.die c.polder (crew.setTile tile.toNat false) else s2))) s)

/-- VTILE.WR (R185). DESIGN CHOICE: the rule gives its traps no order; the entry that it pops (poison, a failure marker) is opened
before the row pair is tested (log 49). -/
def execVtileWr (tk : BitVec 4) (va : BitVec 5) (tile : BitVec 4) (rs : BitVec 5) (fill : BitVec 1) (s : State) :=
  answer (runWordM (markTile tile.toNat) 1 (· = .x) tk (fun _ s => do
    let c := s.cur
    let (v, s1) ← readVec va s
    let (q, s2) ← rowPair rs s1
    if s.myCrew.tileFull tile.toNat then hold .tileBit
    tileOrder tile.toNat true s
    let a := s.tileAddr c.die c.polder tile.toNat + 512 * q
    let s3 := s2.writeN a v.toNat 512
    let crew := s3.myCrew
    pure (.next (if fill = 1 then s3.setCrew c.die c.polder (crew.setTile tile.toNat true) else s3))) s)

/-! ## Positions and stages (R232) -/

/-- Whether stage k of a ring is held by an active product command (R232). -/
def Crew.stageHeld (c : Crew) (ring k : Nat) : Bool :=
  [c.actQ, c.actU].any fun a => match a with
    | none => false
    | some a =>
      let m := matWord a.cmd.word
      let n := max 1 (c.ring ring).slabs
      let holds (p cnt : Nat) : Bool := 0 < cnt && p / n ≤ k && k ≤ (p + cnt - 1) / n
      m.product && ((m.ra = ring && holds a.aPos a.aHeld) || (m.rb = ring && holds a.bPos a.bHeld))

/-- Free the stages of a ring that CONS has passed and nothing holds (R232). -/
def Crew.freeStages (c : Crew) (ring : Nat) : Nat → Crew
  | 0 => c
  | fuel + 1 =>
    let r := c.ring ring
    if r.stages ≠ 0 && r.head < r.consStage && !c.stageHeld ring r.head then
      let r1 := { r.setCount r.head 0 with head := r.head + 1, tail := max r.tail (r.head + 1) }
      (c.setRing ring (r1.moveTail r.stages)).freeStages ring fuel
    else c

/-- Free the stages of every ring. -/
def Crew.freeAll (c : Crew) : Crew :=
  (List.range 8).foldl (fun c n => c.freeStages n ((c.ring n).consStage - (c.ring n).head + 1)) c

/-- A matrix command has retired with a status: MXSTAT, what MCTL.WAIT reads, and the stages it frees (R232, R242, R248). -/
def Crew.matRetired (c : Crew) (cmd : MatCmd) (status : Nat) (overflow : Bool) : Crew :=
  let m := matWord cmd.word
  let tile := if m.product then m.td else 0
  let mx := if status ≠ 0 then setBits (setBits (satAdd c.mxstat 63 32 1) 15 12 tile) 7 0 status
    else if overflow then setBits c.mxstat 16 16 1 else c.mxstat
  let fails := if status ≠ 0 || overflow then
      c.matFails ++ [{ strand := cmd.strand, stamp := cmd.stamp, status := status, overflow := overflow }] else c.matFails
  ({ c with mxstat := mx, matFails := fails }).freeAll

/-! ## Starting a command (R228, R232, R238, R240, R243) -/

/-- An active command with nothing taken. -/
def MatActive.of (cmd : MatCmd) (mode addr : Word) : MatActive :=
  { cmd := cmd, mode := mode, addr := addr, aPos := 0, bPos := 0, aHeld := 0, bHeld := 0, wants := none, owns := none
    z := 0, kDone := 0, step := 0, part := 0, rowTile := 0, rowsDone := 0, rowCount := 0, rows := [], looping := false, left := 0
    overflow := false, status := none }

/-- Begin to wait for a tile: the next place in the order of waiting (R234). -/
def Crew.want (c : Crew) (u : Bool) (a : MatActive) (t : Nat) : Crew :=
  { c.setAct u (some { a with wants := some (t, c.matOrder) }) with matOrder := c.matOrder + 1 }

/-- A product's start: it captures its slot, is checked, takes its positions and begins to wait for its tile. -/
def Crew.startProduct (c : Crew) (u : Bool) (cmd : MatCmd) : Crew :=
  let m := matWord cmd.word
  let (mode, addr) := (c.modes[m.ms]?).getD default
  let a := MatActive.of cmd mode addr
  let cls := matClass (modeA mode)
  let fail (st : Nat) : Crew := c.setAct u (some { a with status := some st })
  if cls = 0 || cls ≠ matClass (modeB mode) || (cls = 4 && (m.oa || m.ob)) || (m.major = 0x4D && (cls = 16 || m.oa)) then fail 1
  else if (m.major ≠ 0x4E && (c.ring m.ra).stages = 0) || (c.ring m.rb).stages = 0 then fail 6
  else
    let na := if takesA m mode then m.ks + 1 else 0
    let nb := if takesB mode then (m.ks + 1) * bSlabs m mode else 0
    let pa := (c.ring m.ra).cons
    let usedA := if modeKeep mode false then 0 else na
    let pb := if m.ra = m.rb then pa + usedA else (c.ring m.rb).cons
    let spans (ring p n : Nat) : Bool :=
      let r := c.ring ring
      n ≠ 0 && r.stages ≤ (p + n - 1) / max 1 r.slabs - p / max 1 r.slabs
    let both := m.ra = m.rb && na ≠ 0 && nb ≠ 0 && spans m.ra (min pa pb) (max (pa + na) (pb + nb) - min pa pb)
    if spans m.ra pa na || spans m.rb pb nb || both then fail 6
    else
      let c1 := if na = 0 then c else c.setRing m.ra ((c.ring m.ra).setCons (pa + usedA))
      let c2 := if nb = 0 || modeKeep mode true then c1 else c1.setRing m.rb ((c1.ring m.rb).setCons (pb + nb))
      let a1 := { a with aPos := pa, bPos := pb, aHeld := na, bHeld := nb }
      if m.major = 0x4E then
        if 15 < m.td + modeTiles mode - 1 then c2.setAct u (some { a1 with status := some 5 })
        else c2.setAct u (some a1)
      else c2.want u a1 m.td

/-- MATRIX_COMMAND_START: the command at the head of a queue whose predecessor has retired starts, or an MCTL is performed
(R240, R243). Input: 1 for the urgent queue. -/
def execMatrixCommandStart (s : State) :=
  let die := s.cur.die
  let polder := s.cur.polder
  let u := s.inp.getD 0 0 = 1
  answer (match s.going? die polder with
    | none => s
    | some c =>
      if (c.act u).isSome then s
      else match c.mq u with
        | [] => s
        | cmd :: rest =>
          let m := matWord cmd.word
          let c1 := c.setMq u rest
          if m.product then s.setCrew die polder (c1.startProduct u cmd)
          else if m.fn = 1 then
            s.setCrew die polder (({ c1 with modes := c1.modes.setIfInBounds m.ms (cmd.val1, cmd.val2) }).matRetired cmd 0 false)
          else if m.fn = 0 then s.setCrew die polder (c1.want u (MatActive.of cmd 0 0) m.td)
          else if m.fn = 3 then
            let a := MatActive.of cmd 0 0
            s.setCrew die polder (c1.setAct u (some (if (c1.ring m.ra).stages = 0 then { a with status := some 6 }
              else { a with left := bitsOf cmd.val1 31 0 })))
          else s)

/-- Whether an active command holds positions or a fixed slab in a ring (R241). -/
def MatActive.holdsRing (a : MatActive) (ring : Nat) : Bool :=
  let m := matWord a.cmd.word
  m.product && ((m.major ≠ 0x4E && m.ra = ring && (a.aHeld ≠ 0 || modeFix a.mode false))
    || (m.rb = ring && (a.bHeld ≠ 0 || modeFix a.mode true)))

/-- RING_CONFIG_EFFECT: an MCTL.RING at the head of its queue takes effect (R241). Input: 1 for the urgent queue. -/
def execRingConfigEffect (s : State) :=
  let die := s.cur.die
  let polder := s.cur.polder
  let u := s.inp.getD 0 0 = 1
  answer (match s.going? die polder with
    | none => s
    | some c =>
      match c.act u, c.mq u with
      | none, cmd :: rest =>
        let m := matWord cmd.word
        let busy := (match c.act (!u) with
            | some a => a.holdsRing m.ra
            | none => false)
          || c.copies.toList.any fun e => e.state ≠ .free && e.ring = m.ra
        if m.major ≠ 0x4F || m.fn ≠ 2 || busy then s
        else s.setCrew die polder (((c.setMq u rest).setRing m.ra (ringOf cmd.val1.toNat)).matRetired cmd 0 false)
      | _, _ => s)

/-- Whether the words of X that must touch the tile before a follow-on have done so (R186). -/
def State.followMay (s : State) (die polder : Nat) (a : MatActive) : Bool :=
  !a.cmd.follow || s.passedBy die polder a.cmd.strand .x (a.cmd.after - 1) a.cmd.after

/-- TILE_ACQUIRE: of the commands that wait for a tile, the one that began first obtains it once it is empty and not owned;
a product takes its incoming accumulators (R233, R234, R238, R247). Input: the tile. -/
def execTileAcquire (s : State) :=
  let die := s.cur.die
  let polder := s.cur.polder
  let t := s.inp.getD 0 0 % 16
  answer (match s.going? die polder with
    | none => s
    | some c =>
      let waiting (u : Bool) : Option Nat := (c.act u).bind fun a => a.wants.bind fun w =>
        if w.1 = t && s.followMay die polder a then some w.2 else none
      let pick := match waiting false, waiting true with
        | none, none => none
        | some _, none => some false
        | none, some _ => some true
        | some n, some k => some (k < n)
      match pick with
      | none => s
      | some u =>
        if c.tileFull t || c.tileOwned t then s
        else match c.act u with
          | none => s
          | some a =>
            let addr := s.tileAddr die polder t
            let a1 := { a with wants := none, owns := some t }
            let a2 := if !(matWord a.cmd.word).product || !modeAcc a.mode then { a1 with z := 0 }
              else if (s.poisonIn addr 16384).isSome then { a1 with status := some 2 }
              else { a1 with z := s.readN addr 16384 }
            s.setCrew die polder (c.setAct u (some a2)))

/-! ## Slab-steps (R233-R239, R244) -/

/-- The scratchpad address of slab j of an operand: of its ring positions, or of a fixed operand, whose last byte must lie
within the footprint (R231, R235). -/
def operandSlab (r : OpRing) (fix : Bool) (pos j : Nat) : MatRes Nat :=
  if fix then (if r.footprint < (j + 1) * 4096 then .error 4 else .ok (r.bank * 65536 + j * 4096))
  else .ok (r.slabAt (pos + j))

/-- One metadata entry's rows (R236): a poison mark ends with 2, a count other than N with 3. -/
def metaRows (n : Nat) (e : Nat × Bool) : MatRes (List Nat) :=
  let bm := elems 64 64 e.1
  if e.2 then .error 2 else if bm.any fun b => ones64 b ≠ n then .error 3 else .ok bm

/-- The metadata entry of K-step q from side memory (R236). -/
def sideMeta (s : State) (die polder : Nat) (mode : Word) (q : Nat) : MatRes (Nat × Bool) :=
  let (base, size) := (s.crew die polder).sideMemory die polder
  let o := (bitsOf mode 30 17 + q) * 512
  if size < o + 512 then .error 4 else .ok (s.readN (base + o) 512, (s.poisonIn (base + o) 512).isSome)

/-- The A elements of the next `ksteps` K-steps of MMAS, in order, and how many metadata entries were taken. A failure
still takes the entries up to the one that failed. -/
def sparseSteps (s : State) (die polder : Nat) (a : MatActive) (ksteps : Nat) : List Nat × MatRes (List (List Nat)) :=
  let c := s.crew die polder
  let q0 := a.kDone
  (List.range ksteps).foldl (fun (acc : List Nat × MatRes (List (List Nat))) i =>
    match acc.2 with
    | .error e => (acc.1, .error e)
    | .ok rows =>
      let entry := if bitsOf a.mode 42 42 = 1 then sideMeta s die polder a.mode (q0 + i) else .ok (c.metaQ.getD i (0, true))
      match entry.bind (metaRows (modeN a.mode)) with
      | .error e => (acc.1 ++ [i], .error e)
      | .ok bm => (acc.1 ++ [i], .ok (rows ++ [bm]))) ([], .ok [])

/-- The next `n` K-steps of a slab-step of MMA on partial sums `z`. -/
def stepMma (s : State) (die polder : Nat) (a : MatActive) (m : MatWord) (n : Nat) (z : List (List Nat)) :
    MatRes (List (List Nat) × Bool) := do
  let c := s.crew die polder
  let cls := matClass (modeA a.mode)
  let ua ← operandSlab (c.ring m.ra) (modeFix a.mode false) a.aPos a.step
  let ub ← operandSlab (c.ring m.rb) (modeFix a.mode true) a.bPos a.step
  let fa ← readSlab s die polder cls m.oa ua
  let fb ← readSlab s die polder cls m.ob ub
  pure (kStepsAll z fa fb (kStepLen cls) a.part n)

/-- The next K-steps of a slab-step of MMAS on partial sums `z`, with their bitmaps. -/
def stepMmas (s : State) (die polder : Nat) (a : MatActive) (m : MatWord) (bms : List (List Nat)) (z : List (List Nat)) :
    MatRes (List (List Nat) × Bool) := do
  let c := s.crew die polder
  let cls := matClass (modeA a.mode)
  let nb := bSlabs m a.mode
  let ua ← operandSlab (c.ring m.ra) (modeFix a.mode false) a.aPos a.step
  let f ← readOperand s die polder cls ua 4096
  let bs ← (List.range nb).mapM fun i => do
    let ub ← operandSlab (c.ring m.rb) (modeFix a.mode true) a.bPos (a.step * nb + i)
    readSlab s die polder cls m.ob ub
  let chunk := (if modeN a.mode ≤ 32 then 32 else 64) * cls / 8
  let per := slabKSteps cls
  pure (bms.zipIdx.foldl (fun (acc : List (List Nat) × Bool) e =>
    let as := (List.range 64).map fun r => (List.range 64).map fun k => (sparseElt cls ua chunk (a.part + e.2) (e.1.getD r 0) k r).map f
    let (z1, o) := kStepAll acc.1 as ((bs.getD ((a.part + e.2) / per) []).map (kPart 64 ((a.part + e.2) % per)))
    (z1, acc.2 || o)) (z, false))

/-- The rows of a row-tile of MMAG: table row and tile row of each entry that is not null (R237, R238). -/
def gatherRows (s : State) (die polder : Nat) (a : MatActive) (m : MatWord) : MatRes (List (Nat × Nat)) := do
  let c := s.crew die polder
  let base := dieAddr die (poolOffset polder)
  let gi := bitsOf a.addr 63 43 * 4 + 4 * a.rowsDone
  let gs := bitsOf a.addr 42 22 * 4 + 4 * a.rowsDone
  let n := a.rowCount
  if c.scratchBytes < max gi gs + 4 * n then .error 4
  else if (s.poisonIn (base + gi) (4 * n)).isSome || (s.poisonIn (base + gs) (4 * n)).isSome then .error 2
  else
    let xs := elems 32 n (s.readN (base + gi) (4 * n))
    let ds := elems 32 n (s.readN (base + gs) (4 * n))
    let live := (xs.zip ds).filter fun e => e.1 ≠ 2 ^ 32 - 1 && e.2 ≠ 2 ^ 32 - 1
    let row := (m.ks + 1) * 64
    if live.any fun e => 64 ≤ e.2 || c.scratchBytes < bitsOf a.mode 16 0 * 64 + (e.1 + 1) * row then .error 4
    else .ok live

/-- The next `n` K-steps of a slab-step of MMAG: `z` holds one row of sums for each entry. -/
def stepMmag (s : State) (die polder : Nat) (a : MatActive) (m : MatWord) (n : Nat) (rows : List (Nat × Nat)) (z : List (List Nat)) :
    MatRes (List (List Nat) × Bool) := do
  let c := s.crew die polder
  let cls := matClass (modeA a.mode)
  let ub ← operandSlab (c.ring m.rb) (modeFix a.mode true) a.bPos a.step
  let fb ← readSlab s die polder cls m.ob ub
  let row := (m.ks + 1) * 64
  let chunks ← rows.mapM fun e => readChunk s die polder cls (bitsOf a.mode 16 0 * 64 + e.1 * row + a.step * 64)
  pure (kStepsAll z chunks fb (kStepLen cls) a.part n)

/-- Write a tile and set its bit if the command fills (R233). -/
def State.writeTile (s : State) (die polder t z : Nat) (fill : Bool) : State :=
  let s1 := s.writeN (s.tileAddr die polder t) z 16384
  let c := s1.crew die polder
  s1.setCrew die polder (if fill then c.setTile t true else c)

/-- Whether the slabs of an active command's next slab-step may begin (R232, R236, R244). -/
def State.stepReady (s : State) (die polder : Nat) (a : MatActive) : Bool :=
  let c := s.crew die polder
  let m := matWord a.cmd.word
  let nb := bSlabs m a.mode
  let need := stepKSteps m a.mode - a.part
  m.product && a.status.isNone && a.owns.isSome && a.step ≤ m.ks
    && (a.aHeld = 0 || (c.ring m.ra).slabReady (a.aPos + a.step))
    && (a.bHeld = 0 || (c.ring m.rb).slabReady (a.bPos + a.step * nb + nb - 1))
    && (m.major ≠ 0x4D || bitsOf a.mode 42 42 = 1 || need ≤ c.metaQ.length
      || c.metaQ.any fun e => match metaRows (modeN a.mode) e with
        | .ok _ => false
        | .error _ => true)

/-- Whether the die's issue ramp and cap let a slab-step issue in this window (R334, R456). -/
def Die.rampAllows (d : Die) : Bool :=
  let n := d.rampSteps + d.rampFills
  let last := bitsOf d.rampstat 63 32 + bitsOf d.rampstat 31 0
  (bitsOf d.rampctl 63 63 = 0 || n < last + max 1 (bitsOf d.rampctl 11 0))
    && (bitsOf d.mxcap 63 63 = 0 || n < bitsOf d.mxcap 11 0)

/-- Which queue issues, and the streak after it (R244). -/
def Crew.arbitrate (c : Crew) (rn ru : Bool) (kn ku : Nat) : Option (Bool × Nat) :=
  if ru && rn then
    let u := !(c.streakUrgent && 64 < c.streakSteps + ku)
    let k := if u then ku else kn
    some (u, if c.streakUrgent = u then c.streakSteps + k else k)
  else if ru then some (true, 0)
  else if rn then some (false, 0)
  else none

/-- The K-steps of a slab-step that one turn performs: all that are left, or as many of them as its input names (R251). -/
def MatActive.kStepsNow (a : MatActive) (n : Nat) : Nat :=
  let left := stepKSteps (matWord a.cmd.word) a.mode - a.part
  if n = 0 then left else min n left

/-- A command whose next `n` K-steps have given partial sums and overflow, or a status. -/
def MatActive.stepped (a : MatActive) (n : Nat) : MatRes (List (List Nat) × Bool) → MatActive
  | .error st => { a with status := some st }
  | .ok (z, o) =>
    let b := { a with z := ofRows z, kDone := a.kDone + n, overflow := a.overflow || o }
    if a.part + n < stepKSteps (matWord a.cmd.word) a.mode then { b with part := a.part + n }
    else { b with part := 0, step := a.step + 1 }

/-- The rows of a tile as a command's incoming accumulators: the tile's with ACC = 1, else zeros (R238). -/
def State.tileRows (s : State) (die polder : Nat) (a : MatActive) : List (List Nat) :=
  match a.owns with
  | some t => rowsOf 64 (if modeAcc a.mode then s.readN (s.tileAddr die polder t) 16384 else 0)
  | none => rowsOf 64 0

/-- What `n` K-steps leave of their command, and the state they leave. -/
def State.slabStep (s : State) (die polder : Nat) (u : Bool) (a : MatActive) (n : Nat) : State :=
  let c := s.crew die polder
  let m := matWord a.cmd.word
  let keep (s : State) (a : MatActive) : State := s.setCrew die polder ((s.crew die polder).setAct u (some a))
  if m.major = 0x4C then keep s (a.stepped n (stepMma s die polder a m n (rowsOf 64 a.z)))
  else if m.major = 0x4D then
    let (taken, bms) := sparseSteps s die polder a n
    let s1 := if bitsOf a.mode 42 42 = 1 then s else s.setCrew die polder { c with metaQ := c.metaQ.drop taken.length }
    keep s1 (a.stepped n (bms.bind fun b => stepMmas s die polder a m b (rowsOf 64 a.z)))
  else
    let start : MatRes (MatActive × List (List Nat)) :=
      if a.step ≠ 0 || a.part ≠ 0 then .ok (a, rowsOf a.rows.length a.z)
      else do
        let rows ← gatherRows s die polder a m
        let tile := rowsOf 64 a.z
        pure ({ a with rows := rows }, rows.map fun e => tile.getD e.2 [])
    match start with
    | .error st => keep s { a with status := some st }
    | .ok (a1, z) =>
      let a2 := a1.stepped n (stepMmag s die polder a1 m n a1.rows z)
      if a2.status.isSome || a2.step ≤ m.ks then keep s a2
      else
        let done := rowsOf a2.rows.length a2.z
        let y := a2.rows.zipIdx.foldl (fun (y : List (List Nat)) e => y.set e.1.2 (done.getD e.2 [])) (s.tileRows die polder a2)
        let s1 := match a2.owns with
          | some t => s.writeTile die polder t (ofRows y) m.fill
          | none => s
        keep s1 { a2 with
          owns := none, looping := false, step := 0, z := 0, rows := [], rowCount := 0
          rowsDone := a2.rowsDone + a2.rowCount, rowTile := a2.rowTile + 1 }

/-- Which queue issues K-steps next and the streak after them: the queue whose slab-step has begun, or else the one that the
arbiter chooses (R244). -/
def Crew.issueNext (c : Crew) (rn ru : Bool) (kn ku : Nat) : Option (Bool × Nat) :=
  let begun (u : Bool) : Bool := match c.act u with
    | some a => a.part ≠ 0
    | none => false
  if begun true then (if ru then some (true, c.streakSteps) else none)
  else if begun false then (if rn then some (false, c.streakSteps) else none)
  else c.arbitrate rn ru kn ku

/-- SLAB_STEP_ISSUE: the arbiter issues the next slab-step (R233, R236, R238, R244, R334, R456). Input: how many of its K-steps
the turn performs, 0 for all; a stop may come between two of them (R251). -/
def execSlabStepIssue (s : State) :=
  let die := s.cur.die
  let polder := s.cur.polder
  answer (match s.going? die polder with
    | none => s
    | some c =>
      let ready (u : Bool) : Bool := match c.act u with
        | some a => s.stepReady die polder a
        | none => false
      let ks (u : Bool) : Nat := match c.act u with
        | some a => stepKSteps (matWord a.cmd.word) a.mode
        | none => 0
      match c.issueNext (ready false) (ready true) (ks false) (ks true) with
      | none => if !ready false && !ready true then s.setCrew die polder { c with streakSteps := 0 } else s
      | some (u, streak) =>
        match c.act u with
          | none => s
          | some a =>
            let d := s.die die
            if a.part = 0 && !d.rampAllows then s
            else
              let s1 := s.setDie die { d with rampSteps := d.rampSteps + (if a.part = 0 then 1 else 0) }
              (s1.setCrew die polder { c with streakUrgent := u, streakSteps := streak }).slabStep die polder u a
                (a.kStepsNow (s.inp.getD 0 0)))

/-- MMAG_LENGTH_REREAD: between row-tiles an MMAG reads the published length: it begins a row-tile or leaves its loop
(R238, R239). Input: 1 for the urgent queue. -/
def execMmagLengthReread (s : State) :=
  let die := s.cur.die
  let polder := s.cur.polder
  let u := s.inp.getD 0 0 = 1
  answer (match s.going? die polder with
    | none => s
    | some c =>
      match c.act u with
      | none => s
      | some a =>
        let m := matWord a.cmd.word
        let o := bitsOf a.addr 21 1 * 4
        let pa := dieAddr die (poolOffset polder + o)
        if m.major ≠ 0x4E || a.status.isSome || a.looping || a.left ≠ 0 then s
        else if c.scratchBytes < o + 4 then s.setCrew die polder (c.setAct u (some { a with status := some 4 }))
        else if (s.poisonIn pa 4).isSome then s.setCrew die polder (c.setAct u (some { a with status := some 2 }))
        else
          let len := min (s.readN pa 4) 65536
          if len ≤ a.rowsDone then s.setCrew die polder (c.setAct u (some { a with left := 1 }))
          else s.setCrew die polder (c.want u { a with looping := true, rowCount := min 64 (len - a.rowsDone) }
            (m.td + a.rowTile % modeTiles a.mode)))

/-- MCTL.POP's CONS moved past the positions whose stages are complete (R240). -/
def popSlabs (r : OpRing) : Nat → Nat × OpRing
  | 0 => (0, r)
  | n + 1 => if r.slabReady r.cons then popSlabs (r.setCons (r.cons + 1)) n else (n + 1, r)

/-- MATRIX_COMMAND_RETIRE: the active command of a queue retires once its work is done (R233, R238, R240, R247). Input: 1
for the urgent queue. -/
def execMatrixCommandRetire (s : State) :=
  let die := s.cur.die
  let polder := s.cur.polder
  let u := s.inp.getD 0 0 = 1
  answer (match s.going? die polder with
    | none => s
    | some c =>
      match c.act u with
      | none => s
      | some a =>
        let m := matWord a.cmd.word
        let leave (s : State) (st : Nat) (o : Bool) : State :=
          s.setCrew die polder (((s.crew die polder).setAct u none).matRetired a.cmd st o)
        match a.status with
        | some st => leave s st false
        | none =>
          if m.product && m.major ≠ 0x4E then
            match a.owns with
            | some t => if a.step ≤ m.ks then s else leave (s.writeTile die polder t a.z m.fill) 0 a.overflow
            | none => s
          else if m.product then
            let r := c.ring m.rb
            let complete := a.bHeld = 0 || r.slabReady (a.bPos + a.bHeld - 1)
            if a.left = 0 || (a.rowTile = 0 && !complete) then s else leave s 0 a.overflow
          else if m.fn = 0 then
            match a.owns with
            | some t => leave (s.writeTile die polder t 0 m.fill) 0 false
            | none => s
          else
            let r := c.ring m.ra
            if r.stages = 0 then leave s 6 false
            else
              let (left, r1) := popSlabs r (min a.left ((r.tail + 1) * max 1 r.slabs))
              let left := left + (a.left - min a.left ((r.tail + 1) * max 1 r.slabs))
              let s1 := s.setCrew die polder ((c.setRing m.ra r1).setAct u (some { a with left := left }))
              if left = 0 then leave s1 0 false else s1)

/-- FOLLOW_ON_HANDOFF: every unit of a CPYM's copy has landed; its follow-on enters the queue it selects, if there is room,
and the copy command retires (R195, R243). Input: the entry. -/
def execFollowOnHandoff (s : State) :=
  let die := s.cur.die
  let polder := s.cur.polder
  let i := s.inp.getD 0 0 % 16
  answer (match s.going? die polder with
    | none => s
    | some c =>
      let e := c.copyAt i
      match e.follow with
      | none => s
      | some w =>
        let m := matWord w
        if e.state ≠ .active || e.cancelled || e.next < e.units || 16 ≤ (c.mq m.u).length then s
        else
          let s1 := s.endCopy die polder i (if e.poisoned then 5 else 0)
          let c1 := s1.crew die polder
          let cmd : MatCmd := { word := w, follow := true, strand := e.strand, val1 := 0, val2 := 0, stamp := e.stamp
                                after := (look m.td e.marks.tiles).getD 0 }
          s1.setCrew die polder (c1.setMq m.u (c1.mq m.u ++ [cmd])))

/-- MATRIX_ENGINE_RESET: every active and queued product ends with status 7, MCTL commands are discarded, and the metadata
queue empties (R61, R249, R455). -/
def execMatrixEngineReset (s : State) :=
  let die := s.cur.die
  let polder := s.cur.polder
  answer (match s.crew? die polder with
    | none => s
    | some c =>
      let acts (a : Option MatActive) : List MatCmd := match a with
        | some a => [a.cmd]
        | none => []
      let cmds := (acts c.actQ ++ c.matQ ++ acts c.actU ++ c.matU).filter fun m => (matWord m.word).product
      let c1 := { c with actQ := none, actU := none, matQ := [], matU := [], metaQ := [] }
      let c2 := cmds.foldl (fun (c : Crew) m => c.matRetired m 7 false) c1
      (s.setCrew die polder c2.freeAll).errorEvent die 2 2 polder (2 ^ 64 - 1) 0)

end Sys2Proof.Machine
end

