-- ==== Sys2Proof/Machine/Gang.lean ====
section
/-! DEFINITION. What links a crew to the task engine: its run and task, cancellation, and the stop of a gang
(R327, R330-R332). -/

namespace Sys2Proof.Machine

/-- The task engine of a die. -/
def State.te (s : State) (die : Nat) : TaskEngine := (s.die die).te

/-- Replace the task engine of a die. -/
def State.setTe (s : State) (die : Nat) (t : TaskEngine) : State := s.setDie die { s.die die with te := t }

/-- A task record. -/
def TaskEngine.task (t : TaskEngine) (i : Nat) : Task := (look i t.tasks).getD default

/-- Replace a task record. -/
def TaskEngine.setTask (t : TaskEngine) (i : Nat) (x : Task) : TaskEngine := { t with tasks := put i x t.tasks }

/-- A run. -/
def TaskEngine.run (t : TaskEngine) (i : Nat) : Run := (look i t.runs).getD default

/-- Replace a run. -/
def TaskEngine.setRun (t : TaskEngine) (i : Nat) (x : Run) : TaskEngine := { t with runs := put i x t.runs }

/-- A launch. -/
def TaskEngine.launch (t : TaskEngine) (i : Nat) : Launch := (look i t.launches).getD default

/-- Replace a launch. -/
def TaskEngine.setLaunch (t : TaskEngine) (i : Nat) (x : Launch) : TaskEngine := { t with launches := put i x t.launches }

/-- The polders of a run, crew (0, 0) first, row by row (R14, R311). -/
def Run.polders (r : Run) : List Nat :=
  (List.range r.height).flatMap fun y => (List.range r.width).map fun x => r.origin + 8 * y + x

/-- The number of the run a strand belongs to. -/
def State.runOf (s : State) (c : Ctx) : Nat := (s.crew c.die c.polder).task

/-- The number of the task a strand belongs to. -/
def State.taskOf (s : State) (c : Ctx) : Nat := ((s.te c.die).run (s.runOf c)).task

/-- Whether a job of a context is in a die's cancelled-job table (R330). -/
def State.jobCancelled (s : State) (die context job : Nat) : Bool := (s.te die).jobs.contains (context, job)

/-- Whether a task has been cancelled, by its job or by the end of an ancestor (R330, R331). -/
def State.cancelledTask (s : State) (die : Nat) (t : Task) : Bool := t.doomed || s.jobCancelled die t.context t.job

/-- Whether the executing strand's task has been cancelled: a stop point then ends it (R327). -/
def State.stopPoint (s : State) (c : Ctx) : Bool := s.cancelledTask c.die ((s.te c.die).task (s.taskOf c))

/-- A stream that stops issuing for good. -/
def Stream.stopped (st : Stream) : Stream :=
  { st with ended := true, arrived := false, wait := none, waited := 0, pend := none }

/-- Every stream of every strand of a run stops issuing at once; commands already enqueued complete (R327, R332). -/
def State.stopGang (s : State) (die : Nat) (r : Run) : State :=
  r.polders.foldl (fun (s : State) p =>
    (List.range 4).foldl (fun (s : State) k =>
      let key := strandKey die p k
      match look key s.strands with
      | none => s
      | some st =>
        let ids := [st.a, st.x, st.d].flatMap fun x => match x.pend with
          | some p => p.ids
          | none => []
        let s1 := s.forgetAll ids
        { s1 with strands := put key { st with a := st.a.stopped, x := st.x.stopped, d := st.d.stopped } s1.strands }) s) s

/-- The executing strand's task ends as cancelled at a stop point (R327). -/
def State.cancelGang (s : State) (c : Ctx) : State :=
  let te := s.te c.die
  let i := s.runOf c
  let r := te.run i
  (s.setTe c.die (te.setRun i { r with cancelled := true })).stopGang c.die r

end Sys2Proof.Machine
end

