-- ==== Sys2Proof/Machine/RingLinks.lean ====
section
/-! DEFINITION. The ring that a die belongs to, as its group map gives it, and the control records that its links carry
(R347, R351, R370, R409, R411, R423). -/

namespace Sys2Proof.Machine

/-- GMAP fields (R411). -/
def Die.inRing (d : Die) : Bool := bitsOf d.gmap 47 47 = 1
def Die.ringId (d : Die) : Nat := bitsOf d.gmap 46 43
def Die.ringPos (d : Die) : Nat := bitsOf d.gmap 42 39
def Die.ringDies (d : Die) : Nat := bitsOf d.gmap 38 35 + 1
def Die.bypassed (d : Die) : Bool := bitsOf d.gmap 34 34 = 1

/-- The dies of this module in the ring of a die, which lie in one group (R414); a die in no ring stands alone. -/
def State.ringDies (s : State) (die : Nat) : List Nat :=
  let d := s.die die
  let group (x : Die) : Nat := bitsOf x.gmap 31 28
  if !d.inRing then [die]
  else (List.range 16).filter fun e => (s.die e).inRing && (s.die e).ringId = d.ringId && group (s.die e) = group d

/-- The die of this module at a position of a ring. -/
def State.ringAt (s : State) (die pos : Nat) : Option Nat := (s.ringDies die).find? fun e => (s.die e).ringPos = pos

/-- Walk a ring from a position by a stride to the next die that is not bypassed: that die, or none where the path leaves the
module (R409, R423). -/
def State.ringWalk (s : State) (die stride : Nat) : Nat → Nat → Option Nat
  | 0, _ => none
  | fuel + 1, pos =>
    let p := (pos + stride) % (s.die die).ringDies
    match s.ringAt die p with
    | none => none
    | some e => if e ≠ die && (s.die e).bypassed then s.ringWalk die stride fuel p else some e

/-- The downstream and the upstream neighbour of a die on this module (R409). -/
def State.downstream (s : State) (die : Nat) : Option Nat :=
  let d := s.die die
  if d.inRing then s.ringWalk die 1 16 d.ringPos else none
def State.upstream (s : State) (die : Nat) : Option Nat :=
  let d := s.die die
  if d.inRing then s.ringWalk die (d.ringDies - 1) 16 d.ringPos else none

/-- The ring engine of a die. -/
def State.rg (s : State) (die : Nat) : RingEngine := (s.die die).rg

/-- Replace the ring engine of a die. -/
def State.setRg (s : State) (die : Nat) (r : RingEngine) : State := s.setDie die { s.die die with rg := r }

/-- A control record goes to the downstream neighbour, or out of the module (R351). -/
def State.sendCtl (s : State) (die : Nat) (c : RingCtl) : State :=
  match s.downstream die with
  | some e => if e = die then s else s.setRg e { s.rg e with ctl := (s.rg e).ctl ++ [c] }
  | none => if (s.die die).inRing then { s with ringOut := s.ringOut ++ [.ctl c] } else s

/-- Identifiers and slots of the valid entries of a die's request table (R319, R370). -/
def State.requestTable (s : State) (die : Nat) : List (Nat × Nat) := (s.te die).requests.map fun e => (e.2.id, e.2.slot)

/-- A change of a die's request table goes to the mirror downstream; a bypassed die is nobody's upstream neighbour (R370, R423).
-/
def State.sendMirror (s : State) (die : Nat) : State :=
  if (s.die die).bypassed then s else s.sendCtl die (.mirror (s.requestTable die))

/-- Whether a control record is a mirror update. -/
def RingCtl.isMirror : RingCtl → Bool
  | .mirror _ => true
  | .drop _ _ => false
  | .lost _ _ => false

/-- Whether the mirror downstream on this module has taken up every change (R370). -/
def State.mirrored (s : State) (die : Nat) : Bool :=
  match s.downstream die with
  | none => true
  | some e => e = die || (s.die die).bypassed || !(s.rg e).ctl.any RingCtl.isMirror

/-- Where the ring has changed its order, every die's mirror is its present upstream neighbour's table (R370). -/
def State.renewMirrors (s : State) (die : Nat) : State :=
  (s.ringDies die).foldl (fun (s : State) e =>
    let r := s.rg e
    match s.upstream e with
    | some u => if (s.die e).bypassed then s
      else s.setRg e { r with mirror := if u = e then [] else s.requestTable u, ctl := r.ctl.filter fun c => !c.isMirror }
    | none => s) s

end Sys2Proof.Machine
end

