-- ==== Sys2Proof/Machine/Sync.lean ====
section
/-! DEFINITION. The sync engine: its words, the home's operations on memory and on sync objects, waiters, triggers,
continuations, and its events (08 R253-R273). -/

namespace Sys2Proof.Machine

/-! ## Ordering of what a strand sends (R49, R262, R301) -/

/-- A store, sync operation or absolute-maximum atomic of a strand, made before request `upTo`, is still to be performed. -/
def State.sentOut (s : State) (key upTo : Nat) : Bool :=
  s.reqs.any fun r => r.1 < upTo && (match r.2.purpose with
    | .store p _ => p = key
    | .sync p => p = key
    | .amax p => p = key
    | _ => false)

/-- Whether a write that cleared a translation still waits: for a holder's acknowledgement, or, in the entry of its own die,
for the requests that passed their checks before it (R139, R393). -/
def State.clearing (s : State) (die : Nat) (v : Inval) : Bool :=
  v.holder ≠ die || s.reqs.any fun e =>
    e.1 < v.sent && e.2.die = die && e.2.reply.isNone && v.base ≤ e.2.addr && e.2.addr < v.base + pageBytes (BitVec.ofNat 2 v.size)

/-- Whether a write of `owner` that cleared a translation of a die still waits (R393). -/
def State.clearingOf (s : State) (die owner : Nat) : Bool :=
  (s.die die).invals.any fun v => v.owner = some owner && s.clearing die v

/-- Whether an earlier access of the strand to an SO page, on another path than its own, may still have to be performed, for an
access of stream k at place `seq` (R49 rule 1); fetches from `upTo` on are later ones. -/
def State.soBlocked (s : State) (c : Ctx) (k : Str) (seq : Nat) (m : Marks) (upTo : Nat) : Bool :=
  let key := strandKey c.die c.polder c.strand
  let st := s.strand c
  let pass (j : Str) (mark : Nat) : Bool := j = k || s.passedBy c.die c.polder c.strand j seq mark
  let isSo (h : Option Handle) : Bool := match h with
    | some h => h.kind = 0
    | none => false
  let copies := (s.crew c.die c.polder).copies.toList.any fun e =>
    e.state ≠ .free && e.strand = c.strand && e.seq ≤ seq && (isSo e.srcH || isSo e.dstH || isSo e.auxH)
  !(pass .a m.ld && pass .d m.st && pass .x m.syn) || s.sentOut key s.reqNo || copies
    || s.clearingOf c.die key || st.syncQ.any (fun q => q.pageKind = 0 && q.seq < seq) || st.rels.any (fun r => r.kind = 0 && r.seq < seq)
    || st.loadStreams.any fun x => x.handle.kind = 0 && x.fetching seq upTo

/-- An earlier access of the executing strand to an SO page holds back its next one. -/
def State.soHeld (s : State) : Bool :=
  let k := s.stream s.cur
  s.soBlocked s.cur s.cur.str k.seq k.marks s.reqNo

/-- Whether every access of a strand that a release at place `seq` of stream k orders has been performed, among those made
before request `upTo`: on the paths ld, st, gth and syn (R49 rule 3, R156, R301). -/
def State.releaseClear (s : State) (die polder strand : Nat) (k : Str) (seq : Nat) (m : Marks) (upTo : Nat) : Bool :=
  let key := strandKey die polder strand
  let st := (look key s.strands).getD default
  let pass (j : Str) (mark : Nat) : Bool := j = k || s.passedBy die polder strand j seq mark
  let gathers := (s.crew die polder).copies.toList.any fun e =>
    e.state ≠ .free && e.strand = strand && e.seq < seq && e.op = .gather
  pass .a m.ld && pass .d m.st && pass .x m.syn && !s.sentOut key upTo && !st.syncQ.any (fun q => q.seq < seq)
    && !gathers && !s.clearingOf die key && !st.rels.any (fun r => r.seq < seq) && !st.loadStreams.any fun x => x.fetching seq s.reqNo

/-- Whether a release of a strand may be performed now. -/
def State.releaseReady (s : State) (die polder strand : Nat) (k : Str) (seq : Nat) (m : Marks) : Bool :=
  s.releaseClear die polder strand k seq m s.reqNo

/-! ## Operations at the home (R255, R259, R262-R269) -/

/-- The regions of a die that sync operations reach (R40, R257). -/
def isBerm (off : Nat) : Bool := 0x400000000 ≤ off && off < 0x41BC00000
def isSyncSram (off : Nat) : Bool := 0x600000000 ≤ off && off < 0x600400000

/-- Op of the table of R255 on values of w bits. -/
def syncOp (op w old v : Nat) : Nat :=
  let v := v % 2 ^ w
  match op with
  | 0 => (old + v) % 2 ^ w
  | 1 => if signedOf w v < signedOf w old then v else old
  | 2 => if signedOf w old < signedOf w v then v else old
  | 3 => min old v
  | 4 => max old v
  | 5 => old &&& v
  | 6 => old ||| v
  | 7 => old ^^^ v
  | 8 => v
  | 10 => mergeOp 1 old v
  | 11 => mergeOp 2 old v
  | _ => mergeOp 3 old v

/-- The model's numbers of the operations: 0-15 atomics of 32 bits by their OP code, 16-31 those of 64 bits, then the object
operations. -/
def opBara : Nat := 32
def opBarw : Nat := 33
def opCarm : Nat := 34
def opCarr : Nat := 35
def opCwait : Nat := 36
def opSemp : Nat := 37
def opSemv : Nat := 38
def opSignal : Nat := 39

/-- Bytes that an operation touches (R257). -/
def syncSize (op : Nat) : Nat :=
  if op < 16 then 4 else if op < 32 then 8 else if op = opCarm || op = opCarr || op = opCwait then 32 else 16

/-- The reply to whoever asked for a sync operation. -/
def State.syncReplyTo (s : State) (die : Nat) (o : Origin) (rep : Reply) : State :=
  match o with
  | .here id => s.deliver id rep
  | .packet p => s.respond die p 10 rep

/-- A waiter's, or a chunk's, chunk no longer used once no waiter lies in it (R258). -/
def Die.dropWaiter (d : Die) (w : Waiter) : Die :=
  let rest := d.waiters.erase w
  let chunks := match w.chunk with
    | none => d.chunks
    | some a => if rest.any fun x => x.chunk = some a then d.chunks else unput a d.chunks
  { d with waiters := rest, chunks := chunks }

/-- The lowest usable chunk that is free: wholly in this die's berm (R258). -/
def State.freeChunk (s : State) (die : Nat) : Option Nat :=
  let d := s.die die
  let base := bitsOf d.syncOvBase 51 14 * 16384
  let n := min 4096 (bitsOf d.syncOvSize 12 0)
  if base = 0 || !inBerm die base 1 then none
  else
    ((List.range n).map fun i => base + 16384 * i).find? fun a => inBerm die a 16384 && (look a d.chunks).isNone

/-- Count a refusal for lack of room (R258). -/
def State.refuse (s : State) (die : Nat) : State :=
  let d := s.die die
  s.setDie die { d with syncRefused := min (d.syncRefused + 1) (2 ^ 32 - 1) }

/-- Register a waiter in the table or in a spill chunk; with no room its word completes with 2 (R258, R266). -/
def State.registerWaiter (s : State) (die : Nat) (o : Origin) (kind object value : Nat) : State :=
  let d := s.die die
  let w (c : Option Nat) : Waiter := { origin := o, kind := kind, object := object, value := value, since := s.cycle, chunk := c }
  if (d.waiters.filter (·.chunk.isNone)).length < 4096 then s.setDie die { d with waiters := d.waiters ++ [w none] }
  else
    let room := d.chunks.find? fun c => c.2 = 2 && (d.waiters.filter (·.chunk = some c.1)).length < 1024
    match room with
    | some c => s.setDie die { d with waiters := d.waiters ++ [w (some c.1)] }
    | none =>
      match s.freeChunk die with
      | some a => s.setDie die { d with waiters := d.waiters ++ [w (some a)], chunks := put a 2 d.chunks }
      | none => (s.refuse die).syncReplyTo die o ⟨0, 2, 0⟩

/-- Wake the waiters of an object that a test selects, oldest first: each completes with 0 (R263-R266). -/
def State.wake (s : State) (die object : Nat) (which : Waiter → Bool) : State :=
  ((s.die die).waiters.filter fun w => w.object = object && which w).foldl (fun s w =>
    (s.setDie die ((s.die die).dropWaiter w)).syncReplyTo die w.origin ⟨0, 0, 0⟩) s

/-- Fire a counter's trigger: it is handed to the task engine, or has fired at once if it is 0 (R264). -/
def State.fireCounter (s : State) (die a : Nat) : State :=
  let w1 := s.readN (a + 8) 8
  let trig := s.readN (a + 16) 8 % 2 ^ 52
  let w1' := w1 % 2 ^ 63
  let d := s.die die
  let s1 := s.setDie die { d with
    fired := if trig = 0 then d.fired else d.fired ++ [{ counter := a, record := trig, scope := w1 / 2 ^ 48 % 8 }] }
  s1.writeN (a + 8) (if trig = 0 then setBits (BitVec.ofNat 64 w1') 61 61 1 else BitVec.ofNat 64 w1').toNat 8

/-- Fire a counter that has reached its target while armed, and evaluate its waiters again (R264). -/
def State.evalCounter (s : State) (die a : Nat) : State :=
  let w1 := s.readN (a + 8) 8
  let count := s.readN a 8
  let s1 := if w1 / 2 ^ 63 % 2 = 1 && w1 % 2 ^ 48 ≤ count then s.fireCounter die a else s
  s1.wake die a fun w => w.kind = 1 && w.value ≤ count

/-- The rule of R262 that an object breaks: 1 RSVD, 2 scope, 3 EXPECTED. -/
def objectBad (op w0 w1 w2 w3 : Nat) : Nat :=
  let bar := op = opBara || op = opBarw
  let cnt := op = opCarm || op = opCarr || op = opCwait
  let rsvd := if bar then w1 / 2 ^ 35 ≠ 0
    else if cnt then w1 / 2 ^ 51 % 2 ^ 10 ≠ 0 || w2 / 2 ^ 52 ≠ 0 || w3 ≠ 0
    else if op = opSignal then w0 % 2 ^ 32 ≠ 0 || w1 / 2 ^ 35 ≠ 0 || w1 % 2 ^ 32 ≠ 0
    else w0 / 2 ^ 32 ≠ 0 || w1 / 2 ^ 35 ≠ 0
  let scope := if cnt then w1 / 2 ^ 48 % 8 else w1 / 2 ^ 32 % 8
  if rsvd then 1 else if 6 ≤ scope then 2 else if bar && w1 % 2 ^ 32 = 0 then 3 else 0

/-- SEM.WAITERS as the engine writes it at an operation (R262). -/
def State.writeSemWaiters (s : State) (die a : Nat) : State :=
  s.writeN (a + 8) ((s.die die).waiters.filter fun w => w.object = a && w.kind = 2).length 4

/-- SIG.WAITERS as the engine writes it at an operation (R262). -/
def State.writeSigWaiters (s : State) (die a : Nat) : State :=
  s.writeN (a + 4) (((s.die die).conts.filter (·.object = a)).length % 65536) 2

/-- Release the `n` oldest records registered on an object: they go to the task engine in order (R269). -/
def State.releaseConts (s : State) (die a n : Nat) : State :=
  let d := s.die die
  let mine := (d.conts.filter (·.object = a)).take n
  s.setDie die { d with conts := d.conts.filter (fun c => !mine.contains c), released := d.released ++ mine }

/-- SEMV's grants: the oldest waiters, while units remain (R265). -/
def State.semGrant (s : State) (die a : Nat) : Nat → Nat → Nat × State
  | 0, value => (value, s)
  | fuel + 1, value =>
    match (s.die die).waiters.find? fun w => w.object = a && w.kind = 2 with
    | none => (value, s)
    | some w =>
      if value = 0 then (value, s)
      else
        let s1 := (s.setDie die ((s.die die).dropWaiter w)).syncReplyTo die w.origin ⟨0, 0, 0⟩
        s1.semGrant die a fuel (value - 1)

/-- The engine knows a counter from the operations on it (R273). -/
def State.noteCounter (s : State) (die a : Nat) : State :=
  let d := s.die die
  s.setDie die { d with armed := if d.armed.contains a then d.armed else d.armed ++ [a] }

/-- An object operation whose object passes its checks. -/
def State.objectPerform (s : State) (die op a v1 v2 w0 w1 : Nat) (o : Origin) : State :=
  let done (s : State) (st data : Nat) : State := s.syncReplyTo die o ⟨st, data, 0⟩
  if op = opBara then
    let g := w0 / 2 ^ 32
    let n := w0 % 2 ^ 32 + 1
    if w1 % 2 ^ 32 ≤ n then
      done ((s.writeN a ((g + 1) % 2 ^ 32 * 2 ^ 32) 8).wake die a fun w => w.kind = 0 && w.value = g) 0 g
    else done (s.writeN a (g * 2 ^ 32 + n % 2 ^ 32) 8) 0 g
  else if op = opBarw then
    if w0 / 2 ^ 32 ≠ v1 % 2 ^ 32 then done s 0 0 else s.registerWaiter die o 0 a (v1 % 2 ^ 32)
  else if op = opCarm then
    let s1 := if v1 / 2 ^ 63 % 2 = 1 then s.writeN a 0 8 else s
    let ctl := 2 ^ 63 + v1 / 2 ^ 62 % 2 * 2 ^ 62 + v1 / 2 ^ 48 % 8 * 2 ^ 48 + v1 % 2 ^ 48
    let s2 := (s1.writeN (a + 8) ctl 8).writeN (a + 16) (v2 % 2 ^ 52) 8
    done ((s2.noteCounter die a).evalCounter die a) 0 0
  else if op = opCarr then
    let s := s.noteCounter die a
    let amount := if w1 / 2 ^ 62 % 2 = 0 then 1 else v1 % 2 ^ 32
    done ((s.writeN a ((w0 + amount) % 2 ^ 64) 8).evalCounter die a) 0 0
  else if op = opCwait then
    if v1 ≤ w0 then done (s.noteCounter die a) 0 0 else (s.noteCounter die a).registerWaiter die o 1 a v1
  else if op = opSemp then
    let queued := (s.die die).waiters.any fun w => w.object = a && w.kind = 2
    if 1 ≤ w0 % 2 ^ 32 && !queued then
      done ((s.writeN a (w0 % 2 ^ 32 - 1) 8).writeSemWaiters die a) 0 0
    else (s.registerWaiter die o 2 a 0).writeSemWaiters die a
  else if op = opSemv then
    let sum := w0 % 2 ^ 32 + v1 % 2 ^ 32
    let (value, s1) := s.semGrant die a (s.die die).waiters.length (min sum (2 ^ 32 - 1))
    done ((s1.writeN a value 8).writeSemWaiters die a) (if 2 ^ 32 ≤ sum then 6 else 0) 0
  else
    let n := v1 % 65536
    let have_ := ((s.die die).conts.filter (·.object = a)).length
    let k := if n = 0 then have_ else min n have_
    let pending := w0 / 2 ^ 48 + (if n = 0 then 0 else n - k)
    let s1 := (s.releaseConts die a k).writeN (a + 6) (min pending 65535) 2
    done (s1.writeSigWaiters die a) (if 65535 < pending then 6 else 0) 0

/-- The home's sync engine performs one command in one step: it replies, or registers a waiter (R259, R261, R262). -/
def State.syncPerform (s : State) (die op a v1 v2 : Nat) (o : Origin) : State :=
  let n := syncSize op
  let off := paOffset a
  if !(isBerm off || isSyncSram off) || a % min n 16 ≠ 0 || (32 ≤ op && !isSyncSram off) then s.syncReplyTo die o ⟨4, 0, 0⟩
  else match s.poisonIn a n with
  | some w => (s.errorEvent die 1 3 0 w 5).syncReplyTo die o ⟨5, a, 0⟩
  | none =>
    if op < 32 then
      let old := s.readN a n
      let new := if op % 16 = 9 then (if old = v1 % 2 ^ (8 * n) then v2 else old) else syncOp (op % 16) (8 * n) old v1
      let s1 := if op % 16 = 9 && old ≠ v1 % 2 ^ (8 * n) then s else s.writeN a new n
      s1.syncReplyTo die o ⟨0, old, 0⟩
    else
      let w0 := s.readN a 8
      let w1 := s.readN (a + 8) 8
      let w2 := if n = 32 then s.readN (a + 16) 8 else 0
      let w3 := if n = 32 then s.readN (a + 24) 8 else 0
      let bad := objectBad op w0 w1 w2 w3
      if bad ≠ 0 then s.syncReplyTo die o ⟨7, bad, 0⟩ else s.objectPerform die op a v1 v2 w0 w1 o

/-- Send a command to its home: performed at once where this die is the home, and a request elsewhere (R256, R260). -/
def State.sendSync (s : State) (die polder context op a v1 v2 : Nat) (purpose : Purpose) : Nat × State :=
  let r : Req := { Req.blank die polder 2 2 a (syncSize op) context with
    op := op, data := v1 + v2 * 2 ^ 64, owner := some 0, purpose := purpose }
  if paModule a = 0 && paDie a = die then
    let id := s.reqNo
    let s1 := { s with reqNo := id + 1, reqs := put id { r with asked := true } s.reqs }
    (id, s1.syncPerform die op a v1 v2 (.here id))
  else s.request r

/-! ## The words in X (R254-R257) -/

/-- Where a sync word acts. -/
structure SyncAt where
  pa : Nat
  kind : BitVec 2
  deriving DecidableEq, Repr, Inhabited

/-- The checks of R257 on a sync address, for an operation of `size` bytes. -/
def syncCheck (sa : Word) (size : Nat) (object writes home : Bool) (op : Nat) (s : State) : Res SyncAt := do
  let hn := bitsOf sa 63 60
  let h := s.handle hn
  let off := bitsOf sa 33 0
  let pa := h.base.toNat + off
  let o := paOffset pa
  let m := paModule pa
  let dieTarget := m < 4
  let host := 8 ≤ m && m < 12
  let hostOp := (op % 16 = 0 || op % 16 = 8 || op % 16 = 9) && bitsOf s.host.hectl 1 1 = 1
  if !h.valid then trap 0x50 (BitVec.ofNat 64 hn)
  if bitsOf sa 59 34 ≠ 0 || pageBytes h.size < off + size then trap 0x51 sa
  if off % size ≠ 0 then trap 0x52 sa
  let reason :=
    if !object && !(host || (dieTarget && (isBerm o || isSyncSram o))) then 1
    else if object && !(dieTarget && isSyncSram o) then 2
    else if home && !(m = 0 && paDie pa = s.cur.die) then 3
    else if writes && !h.wr then 4
    else if host && (object || !hostOp) then 5
    else 0
  if reason ≠ 0 then trap 0x53 (BitVec.ofNat 64 (pa + reason * 2 ^ 56))
  if s.place s.cur.die pa = .unreach then trap 0x54 (BitVec.ofNat 64 pa)
  pure { pa := pa, kind := h.kind }

/-- Where a returning word acts: checked when it reaches retirement, and kept while it is in progress (R256, R257). -/
def syncTarget (sa : Word) (size : Nat) (object writes home : Bool) (op : Nat) (s0 s : State) : Res SyncAt :=
  match s0.pending with
  | some p => pure { pa := p.data.getD 1 0, kind := BitVec.ofNat 2 (p.data.getD 2 0) }
  | none => syncCheck sa size object writes home op s

/-- What a returning word holds in progress: its phase, 0 for its write-backs and 1 once it is sent, and where it acts. -/
def SyncAt.held (at_ : SyncAt) (phase : Nat) : List Nat := [phase, at_.pa, at_.kind.toNat]

/-- A returning or waiting sync word: it waits for what it must follow, sends its command and completes with the reply
(R259, R260, R262). `finish` takes the reply's status and value. -/
def syncReturning (at_ : SyncAt) (op v1 v2 : Nat) (release acquire wide : Bool) (finish : Reply → State → Res State)
    (s0 s : State) : Res Eff := do
  let c := s0.cur
  let context := s0.myCrew.context
  let send (t : State) : Nat × State := t.sendSync c.die c.polder context op at_.pa v1 v2 .plain
  let complete (r : Reply) (t : State) : Res Eff := do
    let t1 ← finish r t
    pure (.next (if acquire && wide then t1.invalidateContext c else t1))
  let go (a b : State) : Res Eff :=
    let (id, tb) := send b
    match tb.replyOf id with
    | some r =>
      if r.status = 0 then complete r (tb.forget id)
      else
        let (id, ta) := send a
        pure (.stay (ta.setPending { ids := [id], data := at_.held 1 }))
    | none =>
      let (id, ta) := send a
      pure (.stay (ta.setPending { ids := [id], data := at_.held 1 }))
  match s0.pending with
  | none => do
    untilTrue s0.acquired
    let k := s0.stream c
    if release then untilTrue (s0.releaseReady c.die c.polder c.strand c.str k.seq k.marks) else pure ()
    untilTrue (!(s0.strand c).syncQ.any fun q => q.seq < k.seq && overlap q.target (syncSize q.op) at_.pa (syncSize op))
    if at_.kind = 0 then untilTrue (!s0.soHeld) else pure ()
    let (wb, t) := if wide then s0.writeBackContext c else ([], s0)
    if wb.isEmpty then go s0 s else pure (.stay (t.setPending { ids := wb, data := at_.held 0 }))
  | some p =>
    if p.data.headD 0 = 0 then
      if s0.allReplied p.ids then go (s0.forgetAll p.ids) (s.forgetAll p.ids) else pure (.stay s0)
    else match s0.replyOf (p.ids.headD 0) with
      | none => pure (.stay s0)
      | some r => complete r (s.forgetAll p.ids)

/-- The result of a returning word in its register, or its trap (R260, R261). -/
def syncResult (rd : BitVec 5) (r : Reply) (s : State) : Res State :=
  if r.status = 0 then writeResult rd (BitVec.ofNat 64 r.data) s else failResult rd r.status r.data s

/-- Enqueue a sync command; the word waits while its strand's queue holds 8 (R25, R260). -/
def syncEnqueue (word : BitVec 32) (at_ : SyncAt) (op v1 v2 : Nat) (release wide : Bool) (s : State) : Res State :=
  let c := s.cur
  let st := s.strand c
  let k := s.stream c
  let q : SyncCmd :=
    { word := word, target := at_.pa, pageKind := at_.kind, op := op, val1 := v1, val2 := v2, release := release
      wide := wide, seq := k.seq, marks := k.marks, wb := none }
  pure (s.setStrand c { st with syncQ := st.syncQ ++ [q] })

/-- The wait of a queued word for room in the queue. -/
def syncRoom (s : State) : Res Unit := if 8 ≤ (s.strand s.cur).syncQ.length then hold .commandQueue else pure ()

/-- Whether an ORD code has an acquire half, and a release half (R254). -/
def ordAcquire (ord : BitVec 2) : Bool := ord = 1 || ord = 3
def ordRelease (ord : BitVec 2) : Bool := ord = 2 || ord = 3

/-- The model's number of an atomic. -/
def atomOp (op : Nat) (w64 : BitVec 1) : Nat := op + 16 * w64.toNat

/-- The marking of a sync word (R18, R49). -/
def syncMark (acquire : Bool) : Marking := if acquire then markSyncAcq else markSync

/-- The word of major 0x66 (R254). -/
def atomWord (tk : BitVec 4) (rd ra : BitVec 5) (op : BitVec 4) (w64 ret : BitVec 1) (ord : BitVec 2) (scope : BitVec 3) : BitVec 32 :=
  (0x66 : BitVec 7) ++ tk ++ rd ++ ra ++ op ++ w64 ++ ret ++ ord ++ scope

/-- ATOM (R259). -/
def execAtom (tk : BitVec 4) (rd ra : BitVec 5) (op : BitVec 4) (w64 : BitVec 1) (ord : BitVec 2) (scope : BitVec 3) (s : State) :=
  answer (runWordM (syncMark (ordAcquire ord)) 1 (· = .x) tk (fun s0 s => do
    let (v, s1) ← readReg rd s
    let (sa, s2) ← readReg ra s1
    let n := 4 * (1 + w64.toNat)
    let t ← syncTarget sa n false true false (atomOp op.toNat w64) s0 s
    syncReturning t (atomOp op.toNat w64) v.toNat 0 (ordRelease ord) (ordAcquire ord) (ord ≠ 0 && dieScope scope)
      (syncResult rd) s0 s2) s)

/-- ACAS (R259): the expected value and the new value in a register pair. -/
def execAcas (tk : BitVec 4) (rd ra : BitVec 5) (w64 : BitVec 1) (ord : BitVec 2) (scope : BitVec 3) (s : State) :=
  answer (runWordM (syncMark (ordAcquire ord)) 1 (· = .x) tk (fun s0 s => do
    let (v, s1) ← readReg rd s
    let (sa, s2) ← readReg ra s1
    let (w, s3) ← readReg (rd + 1) s2
    let n := 4 * (1 + w64.toNat)
    let t ← syncTarget sa n false true false (atomOp 9 w64) s0 s
    syncReturning t (atomOp 9 w64) v.toNat w.toNat (ordRelease ord) (ordAcquire ord) (ord ≠ 0 && dieScope scope)
      (syncResult rd) s0 s3) s)

/-- RED (R259, R260). -/
def execRed (tk : BitVec 4) (rd ra : BitVec 5) (op : BitVec 4) (w64 : BitVec 1) (ord : BitVec 2) (scope : BitVec 3) (s : State) :=
  answer (runWordM markSync 1 (· = .x) tk (fun _ s => do
    syncRoom s
    let (v, s1) ← readReg rd s
    let (sa, s2) ← readReg ra s1
    let n := 4 * (1 + w64.toNat)
    let t ← syncCheck sa n false true false (atomOp op.toNat w64) s
    let s3 ← syncEnqueue (atomWord tk rd ra op w64 0 ord scope) t (atomOp op.toNat w64) v.toNat 0 (ordRelease ord)
      (ord ≠ 0 && dieScope scope) s2
    pure (.next s3)) s)

/-- The word of major 0x67 (R254). -/
def objectWord (tk fn : BitVec 4) (f1 f2 f3 : BitVec 5) : BitVec 32 :=
  (0x67 : BitVec 7) ++ tk ++ fn ++ f1 ++ f2 ++ f3 ++ (0 : BitVec 2)

/-- An object word that waits for its reply: it orders its strand for every scope the object may have (R262). -/
def objectReturning (tk : BitVec 4) (op : Nat) (acquire : Bool) (rd ra : BitVec 5) (rb : Option (BitVec 5)) (s : State) : State :=
  runWordM (syncMark acquire) 1 (· = .x) tk (fun s0 s => do
    let (sa, s1) ← readReg ra s
    let (v, s2) ← (match rb with
      | some rb => readReg rb s1
      | none => pure (0, s1) : Res (Word × State))
    let t ← syncTarget sa (syncSize op) true (op ≠ opBarw && op ≠ opCwait) false op s0 s
    syncReturning t op v.toNat 0 (op ≠ opBarw && op ≠ opCwait) acquire true (syncResult rd) s0 s2) s

/-- BARA (R263). -/
def execBara (tk : BitVec 4) (rd ra : BitVec 5) (s : State) := answer (objectReturning tk opBara false rd ra none s)
/-- BARW (R263). -/
def execBarw (tk : BitVec 4) (rd ra rb : BitVec 5) (s : State) := answer (objectReturning tk opBarw true rd ra (some rb) s)
/-- CWAIT (R264). -/
def execCwait (tk : BitVec 4) (rd ra rb : BitVec 5) (s : State) := answer (objectReturning tk opCwait true rd ra (some rb) s)
/-- SEMP (R265). -/
def execSemp (tk : BitVec 4) (rd ra : BitVec 5) (s : State) := answer (objectReturning tk opSemp true rd ra none s)

/-- An object word that retires once its command is in the queue: a release of the strand's earlier accesses (R260, R262). -/
def objectQueued (tk fn : BitVec 4) (op : Nat) (ra rb : BitVec 5) (s : State) : State :=
  runWordM markSync 1 (· = .x) tk (fun _ s => do
    syncRoom s
    let (sa, s1) ← readReg ra s
    let (v, s2) ← readReg rb s1
    let t ← syncCheck sa (syncSize op) true true false op s
    let s3 ← syncEnqueue (objectWord tk fn 0 ra rb) t op v.toNat 0 true true s2
    pure (.next s3)) s

/-- CARR (R264). -/
def execCarr (tk : BitVec 4) (ra rb : BitVec 5) (s : State) := answer (objectQueued tk 3 opCarr ra rb s)
/-- SEMV (R265). -/
def execSemv (tk : BitVec 4) (ra rb : BitVec 5) (s : State) := answer (objectQueued tk 6 opSemv ra rb s)
/-- SIGNAL (R269). -/
def execSignal (tk : BitVec 4) (ra rb : BitVec 5) (s : State) := answer (objectQueued tk 8 opSignal ra rb s)

/-- CARM: plain, with its local field checks (R264). -/
def execCarm (tk : BitVec 4) (ra rb rc : BitVec 5) (s : State) :=
  answer (runWordM markSync 1 (· = .x) tk (fun _ s => do
    syncRoom s
    let (sa, s1) ← readReg ra s
    let (ctl, s2) ← readReg rb s1
    let (trig, s3) ← readReg rc s2
    let t ← syncCheck sa 32 true true false opCarm s
    if bitsOf ctl 61 51 ≠ 0 then trap 0x56 4
    if 6 ≤ bitsOf ctl 50 48 then trap 0x56 5
    if trig ≠ 0 && !(trig.toNat < 2 ^ 52 && paModule trig.toNat = paModule t.pa && paDie trig.toNat = paDie t.pa
        && isBerm (paOffset trig.toNat)) then trap 0x56 6
    let s4 ← syncEnqueue (objectWord tk 2 ra rb rc) t opCarm ctl.toNat trig.toNat false false s3
    pure (.next s4)) s)

/-- Whether a live mask names registers that do not exist (R267). -/
def maskBad (m : Word) : Bool := bitsOf m 0 0 ≠ 0 || bitsOf m 31 29 ≠ 0 || bitsOf m 63 60 ≠ 0

/-- WAITC: it reserves a chunk, keeps the X registers that the record will hold, and ends the X stream, with the
hazard checks of an end (R63, R267). -/
def execWaitc (tk : BitVec 4) (ra rb rc : BitVec 5) (s : State) :=
  answer (runWordM markSync 1 (· = .x) tk (fun s0 s => do
    let c := s.cur
    if s.stopPoint c then pure (.done (s0.cancelGang c)) else
    let (sa, s1) ← readReg ra s
    let (entry, s2) ← readReg rb s1
    let (mask, s3) ← readReg rc s2
    let t ← syncCheck sa 16 true true true opSignal s
    if entry.toNat % 4 ≠ 0 then trap 0x56 7
    if maskBad mask then trap 0x56 8
    if s.myCrew.viewsUnsaved then trap 0x56 10
    match s.freeChunk c.die with
    | none =>
      let key := (s0.refuse c.die)
      -- the refusal is counted, and the word traps
      pure (.done (key.takeTrap 0x56 9))
    | some chunk =>
      let d := s3.die c.die
      let s4 := s3.setDie c.die { d with chunks := put chunk 0 d.chunks }
      let st := s4.strand c
      let w : Waitc :=
        { chunk := chunk, object := t.pa, entry := entry, mask := mask
          s := (List.range 28).map fun i => st.x.regs.get (Fin.ofNat 32 (i + 1))
          v := (List.range 28).map fun i => st.v.get (Fin.ofNat 28 i)
          wb := none }
      let s5 ← giveTokens tk (s4.setStrand c { st with waitc := some w })
      let s6 ← endStream s5
      let st6 := s6.strand c
      pure (.done (s6.setStrand c { st6 with x := st6.x.advance 1 }))) s)

/-! ## Events (R260, R264, R266, R273) -/

/-- SYNC_COMMAND_SEND: the oldest command of the strand's queue leaves it, once what it must follow has been performed and
the write-backs of a release have ended (R260, R262, R270). -/
def execSyncCommandSend (s : State) :=
  let c := s.cur
  let key := strandKey c.die c.polder c.strand
  answer (match look key s.strands with
    | none => s
    | some st =>
      match st.syncQ with
      | [] => s
      | q :: rest =>
        let ready :=
          s.passedBy c.die c.polder c.strand .a q.seq q.marks.acqA && s.passedBy c.die c.polder c.strand .d q.seq q.marks.acqD
          && (!q.release || s.releaseReady c.die c.polder c.strand .x q.seq q.marks)
          && (q.pageKind ≠ 0 || !s.soBlocked c .x q.seq q.marks s.reqNo)
        let context := (s.crew c.die c.polder).context
        if !ready || (s.crew c.die c.polder).halted then s
        else
          let send (s : State) : State :=
            let st := (look key s.strands).getD default
            let s1 := { s with strands := put key { st with syncQ := rest } s.strands }
            (s1.sendSync c.die c.polder context q.op q.target q.val1 q.val2 (.sync key)).2
          match q.wb with
          | some ids => if s.allReplied ids then send (s.forgetAll ids) else s
          | none =>
            let (ids, s1) := if q.wide then
                s.flush c.die (fun _ x => x = context) (some key) else ([], s)
            if ids.isEmpty then send s
            else
              let st1 := (look key s1.strands).getD default
              { s1 with strands := put key { st1 with syncQ := { q with wb := some ids } :: rest } s1.strands })

/-- SYNC_WAIT_LIMIT: a waiter that has stayed registered for the limit is removed, and its word completes with 1 (R266).
Input: the waiter's place in the die's list. -/
def execSyncWaitLimit (s : State) :=
  let die := s.cur.die
  let d := s.die die
  answer (match d.waiters[s.inp.getD 0 0]? with
    | none => s
    | some w =>
      if s.cycle < w.since + microseconds d.waitLimit then s
      else (s.setDie die (d.dropWaiter w)).syncReplyTo die w.origin ⟨0, 1, 0⟩)

/-- The lists of registered continuations as their records in the overflow area give them: each under the object that its
record names, in the order of CREC.SEQ (R268, R273). -/
def State.rebuiltConts (s : State) (die : Nat) : List Cont :=
  let read (c : Cont) : Cont := { c with seq := s.readN c.chunk 4, object := s.readN (c.chunk + 24) 8 }
  let insert (cs : List Cont) (c : Cont) : List Cont := cs.filter (·.seq ≤ c.seq) ++ c :: cs.filter (c.seq < ·.seq)
  ((s.die die).conts.map read).foldl insert []

/-- SYNC_ENGINE_RESET: waiters fail with status 4, claims it holds fail, the lists are rebuilt, the counters it knows that are
armed, have not fired and have reached their target fire, and the error event records the reset (R61, R273, R297, R455). -/
def execSyncEngineReset (s : State) :=
  let die := s.cur.die
  let ws := (s.die die).waiters
  let s1 := ws.foldl (fun (s : State) w =>
    (s.setDie die ((s.die die).dropWaiter w)).syncReplyTo die w.origin ⟨14, 0, 0⟩) s
  let now := s.cycleOf die / 64
  let held := (s1.die die).claims.filter fun c => c.window < now
  let d1 := s1.die die
  let s2 := held.foldl (fun (s : State) c => s.deliver c.req ⟨14, 0, 0⟩)
    (s1.setDie die { d1 with claims := d1.claims.filter fun c => now ≤ c.window, conts := s1.rebuiltConts die })
  let s3 := (s2.die die).armed.foldl (fun (s : State) a =>
    if s.readN (a + 8) 8 / 2 ^ 61 % 2 = 0 then s.evalCounter die a else s) s2
  answer (s3.errorEvent die 2 3 0 (2 ^ 64 - 1) 0)

end Sys2Proof.Machine
end

