-- ==== Sys2Proof/Machine/Records.lean ====
section
/-! DEFINITION. Gang launch records: their fields, what the task engine reads of them, the checks of admission, and the
reports and decrements that a launch makes (R306-R310, R440). -/

namespace Sys2Proof.Machine

/-! ## Fields (R306) -/

/-- A field of a record. -/
def LaunchRec.f (r : LaunchRec) (w hi lo : Nat) : Nat := bitsOf (r.words.getD w 0) hi lo

def LaunchRec.kind (r : LaunchRec) : Nat := r.f 0 47 44
def LaunchRec.partition (r : LaunchRec) : Nat := r.f 0 31 0
def LaunchRec.system (r : LaunchRec) : Bool := r.f 0 40 40 = 1
def LaunchRec.tagKeyed (r : LaunchRec) : Bool := r.f 0 39 39 = 1
def LaunchRec.entry (r : LaunchRec) : Nat := r.f 1 51 0
def LaunchRec.textSize (r : LaunchRec) : Nat := r.f 2 63 52 * 65536
def LaunchRec.textBase (r : LaunchRec) : Nat := r.f 2 51 16 * 65536
def LaunchRec.width (r : LaunchRec) : Nat := r.f 3 63 62 + 1
def LaunchRec.height (r : LaunchRec) : Nat := r.f 3 61 60 + 1
def LaunchRec.strands (r : LaunchRec) : Nat := r.f 3 59 58 + 1
def LaunchRec.progress (r : LaunchRec) : Nat := r.f 3 57 56
def LaunchRec.stage (r : LaunchRec) : Nat := r.f 3 55 53
def LaunchRec.queue (r : LaunchRec) : Nat := r.f 3 52 48
def LaunchRec.gridX (r : LaunchRec) : Nat := r.f 3 31 16
def LaunchRec.gridY (r : LaunchRec) : Nat := r.f 3 15 0
def LaunchRec.gangs (r : LaunchRec) : Nat := r.gridX * r.gridY
def LaunchRec.timestamp (r : LaunchRec) : Nat := r.f 4 63 0
def LaunchRec.job (r : LaunchRec) : Nat := r.f 5 63 32
def LaunchRec.context (r : LaunchRec) : Nat := r.f 5 5 0
def LaunchRec.tkCount (r : LaunchRec) : Nat := r.f 6 63 52
def LaunchRec.tkTable (r : LaunchRec) : Nat := r.f 6 51 0
def LaunchRec.argCount (r : LaunchRec) : Nat := r.f 7 63 60
def LaunchRec.argBlock (r : LaunchRec) : Nat := r.f 7 51 0
def LaunchRec.signal (r : LaunchRec) : Nat := r.f 8 51 0
def LaunchRec.nviews (r : LaunchRec) : Nat := r.f 9 63 60
def LaunchRec.viewBase (r : LaunchRec) : Nat := r.f 9 40 32 * 16384
def LaunchRec.viewOps (r : LaunchRec) : Nat := r.f 9 31 0
def LaunchRec.viewOp (r : LaunchRec) (j : Nat) : Nat := r.viewOps / 16 ^ j % 16
def LaunchRec.resSlots (r : LaunchRec) : Nat := r.f 10 54 48
def LaunchRec.resBase (r : LaunchRec) : Nat := r.f 10 40 32 * 16384
def LaunchRec.ovSize (r : LaunchRec) : Nat := r.f 11 63 52 * 65536
def LaunchRec.ovBase (r : LaunchRec) : Nat := r.f 11 51 16 * 65536
def LaunchRec.ring (r : LaunchRec) (n : Nat) : Nat := if n % 2 = 0 then r.f (12 + n / 2) 31 0 else r.f (12 + n / 2) 63 32
def LaunchRec.bankBlock (r : LaunchRec) : Nat := r.f 16 51 0
def LaunchRec.viewSave (r : LaunchRec) : Nat := r.f 17 51 0
/-- SCRATCH, in banks. -/
def LaunchRec.scratch (r : LaunchRec) : Nat := r.partition / 2 ^ 16 % 256
/-- Crews of one gang. -/
def LaunchRec.crews (r : LaunchRec) : Nat := r.width * r.height
/-- Bytes of all the views of a task. -/
def LaunchRec.viewBytes (r : LaunchRec) : Nat := r.nviews * 16384

/-! ## Reads and writes of the task engine -/

/-- Bytes that an engine of a die reads in one step: of its module or of its module's host memory, none of them poisoned;
an address error, an unreachable target and another module's memory read as none (R310; log 16). -/
def State.engineRead (s : State) (die a n : Nat) : Option Nat :=
  if n = 0 then some 0
  else
    let ok (x : Nat) : Bool := match s.place die x with
      | .mem => true
      | .window => (s.readHome die x 1).status = 0
      | .remote => paModule x = 0 && s.homePlace (paDie x) (paOffset x) = .mem
      | .host => s.host.linkUp
      | _ => false
    if ok a && ok (a + n - 1) && (s.poisonIn a n).isNone then some (s.readN a n) else none

/-- The 64-bit words of a number. -/
def wordsAt (v n : Nat) : List Word := (List.range n).map fun i => BitVec.ofNat 64 (v / 2 ^ (64 * i))

/-- Whether an address is reserved (R40, R41). -/
def reservedAddr (a : Nat) : Bool :=
  let m := paModule a
  let o := paOffset a
  if 2 ^ 52 ≤ a then true
  else if m < 4 then
    !(o < 0x41BC00000 || (0x500000000 ≤ o && o < 0x520000000) || (0x600000000 ≤ o && o < 0x600400000)
      || (0x700000000 ≤ o && o < 0x701000000))
  else !(8 ≤ m && m < 12)

/-! ## Admission (R310) -/

/-- The reserved fields of a record of kind 0 or 1: word, high and low bit (R306). -/
def recordRsvd : List (Nat × Nat × Nat) :=
  [(0, 38, 32), (1, 63, 52), (2, 15, 0), (3, 47, 32), (5, 31, 6), (7, 59, 52), (8, 63, 52), (9, 59, 41), (10, 63, 55),
   (10, 47, 41), (10, 31, 0), (11, 15, 0), (16, 63, 52), (17, 63, 52)]
  ++ (List.range 14).map fun i => (18 + i, 63, 0)

/-- The fields that a record of kind 1 must hold zero in, too: its partition, views and rings among them (R310, R316). -/
def graphRsvd : List (Nat × Nat × Nat) :=
  [(0, 31, 0), (3, 63, 0), (9, 63, 0), (10, 63, 0), (11, 63, 0), (12, 63, 0), (13, 63, 0), (14, 63, 0),
   (15, 63, 0), (16, 63, 0), (17, 63, 0)]

/-- The fields that a record of kind 2 must hold zero in (R341). -/
def restoreRsvd : List (Nat × Nat × Nat) :=
  [(0, 43, 0), (1, 63, 52), (2, 63, 0), (3, 63, 53), (3, 47, 0)] ++ (List.range 27).map fun i => (5 + i, 63, 0)

/-- The lowest word in which a field of a list is not zero. -/
def LaunchRec.offending (r : LaunchRec) (fs : List (Nat × Nat × Nat)) : Option Nat :=
  (List.range 32).find? fun w => fs.any fun x => x.1 = w && r.f w x.2.1 x.2.2 ≠ 0

/-- Code 1. -/
def LaunchRec.badForm (r : LaunchRec) : Option Nat :=
  if r.f 0 63 48 ≠ 1 || 3 ≤ r.kind then some 0
  else if r.kind = 2 then r.offending restoreRsvd
  else if r.kind = 1 then r.offending (recordRsvd ++ graphRsvd)
  else r.offending recordRsvd

/-- Code 2: the partition word breaks R33. -/
def LaunchRec.badPartition (r : LaunchRec) : Bool :=
  let regs := r.partition / 2 ^ 24 % 256
  let accum := r.partition / 2 ^ 8 % 256
  let spill := r.partition % 256
  regs < (r.strands + 1) / 2 || accum < 4 || r.scratch < 1 || 128 < regs + r.scratch + accum + spill

/-- Whether an entry word is misaligned or outside the text. -/
def LaunchRec.badEntry (r : LaunchRec) (e : Nat) : Bool :=
  e % 4 ≠ 0 || e < r.textBase || r.textBase + r.textSize ≤ e

/-- Code 5. -/
def LaunchRec.badText (r : LaunchRec) (die : Nat) : Bool :=
  if r.kind = 1 then r.entry % 32 ≠ 0 || !inBerm die r.entry 32
  else r.badEntry r.entry || r.textSize = 0 || !inBerm die r.textBase r.textSize

/-- Code 8. -/
def LaunchRec.badViews (r : LaunchRec) : Bool :=
  8 < r.nviews || ((List.range r.nviews).any fun j => 9 ≤ r.viewOp j)
    || (if r.nviews = 0 then r.viewBase ≠ 0 else r.scratch * 65536 < r.viewBase + r.viewBytes)

/-- Code 9. -/
def LaunchRec.badReserve (r : LaunchRec) : Bool :=
  let n := r.resSlots * r.viewBytes
  64 < r.resSlots || (n ≠ 0 && r.scratch * 65536 < r.resBase + n) || overlap r.resBase n r.viewBase r.viewBytes

/-- Whether a ring configuration of RBCFG's layout breaks R203 in a crew of `scratch` banks. -/
def badRing (cfg scratch : Nat) : Bool :=
  let o := ringOf cfg
  let other := cfg / 2 ^ 23 ≠ 0 || cfg / 2 ^ 7 % 2 ^ 5 ≠ 0
  cfg ≠ 0 && (other || scratch ≤ o.bank || o.stageSize = 0 || 262144 < o.stageSize
    || scratch * 65536 < o.bank * 65536 + o.footprint)

/-- Code 10: a ring breaks a limit, or two footprints overlap. -/
def LaunchRec.badRings (r : LaunchRec) : Bool :=
  ((List.range 8).any fun n => badRing (r.ring n) r.scratch) ||
  ((List.range 8).any fun i => (List.range 8).any fun j =>
    i < j && overlap ((ringOf (r.ring i)).bank * 65536) (ringOf (r.ring i)).footprint
      ((ringOf (r.ring j)).bank * 65536) (ringOf (r.ring j)).footprint)

/-- Whether a bank format code may be stored in bank b of a crew of `scratch` banks (R115, R116). -/
def badBank (code b scratch : Nat) : Bool :=
  (bankFmt code).isNone || (0xC1 ≤ code && scratch ≤ b + code % 16)

/-- Code 12. -/
def LaunchRec.badTags (r : LaunchRec) : Bool :=
  if r.tagKeyed then
    r.gridX ≠ 1 || r.gridY ≠ 1 || r.tkCount = 0 || ((r.tags.map (·.1)).eraseDups.length < r.tags.length)
      || r.tags.any fun e => r.badEntry (r.textBase + e.2)
  else r.tkCount ≠ 0

/-- The word of code 13, if that fails. -/
def LaunchRec.badAreas (r : LaunchRec) (die : Nat) : Option Nat :=
  if r.ovSize ≠ 0 && !inBerm die r.ovBase (768 * r.ovSize) then some 11
  else if r.viewSave ≠ 0 && (r.viewSave % 16384 ≠ 0 || !inBerm die r.viewSave (r.gangs * r.viewBytes)) then some 17
  else none

/-- What a record is checked against: the queue's QCFG, whether its own job counts (a template's does not, R323), and
whether its save area is malformed (R341). -/
structure Gate where
  cfg : Word
  ownJob : Bool
  saveBad : Bool
  deriving DecidableEq, Repr, Inhabited

/-! ## Placement (R311, R312) -/

/-- The polders of a rectangle. -/
def rectangle (o w h : Nat) : List Nat := (List.range h).flatMap fun y => (List.range w).map fun x => o + 8 * y + x

/-- Whether a rectangle lies in the grid on free polders that have not been taken. -/
def State.fits (s : State) (die : Nat) (taken : List Nat) (o w h : Nat) : Bool :=
  o % 8 + w ≤ 8 && o / 8 + h ≤ 8 && (rectangle o w h).all fun p => (s.crew? die p).isNone && !taken.contains p

/-- Rows in the order of R311: s, s + 1, s - 1, and so on. -/
def rowOrder (stage : Nat) : List Nat :=
  stage :: (List.range 7).flatMap fun k =>
    (if stage + k + 1 < 8 then [stage + k + 1] else []) ++ (if k + 1 ≤ stage then [stage - (k + 1)] else [])

/-- Origins for a gang of a launch or a continuation. -/
def gangOrigins (stage : Nat) : List Nat := (rowOrder stage).flatMap fun y => (List.range 8).map fun x => 8 * y + x

/-- Origins for a child, nearest to its parent's origin first. -/
def childOrigins (p : Nat) : List Nat :=
  let diff (a b : Nat) : Nat := max a b - min a b
  (List.range 15).flatMap fun k => (List.range 64).filter fun o => diff (o % 8) (p % 8) + diff (o / 8) (p / 8) = k

/-- Place several rectangles of one shape one after another, each on the free map that the others leave. -/
def State.placeAll (s : State) (die w h : Nat) (origins : List Nat) : Nat → List Nat → Option (List Nat)
  | 0, _ => some []
  | n + 1, taken =>
    match origins.find? fun o => s.fits die taken o w h with
    | none => none
    | some o => (s.placeAll die w h origins n (taken ++ rectangle o w h)).map (o :: ·)

/-- Whether the gangs of a concurrent launch can be placed together on an empty die (R17, R311). -/
def State.gridFits (s : State) (die : Nat) (r : LaunchRec) : Bool :=
  ({ s with crews := [] }.placeAll die r.width r.height (gangOrigins r.stage) r.gangs []).isSome

/-! ## Admission (R310) -/

/-- The first check that fails, in the order of codes, of a record whose blocks have been read; `unread` is the word of
the first block that could not be read. -/
def State.recordFault (s : State) (die : Nat) (g : Gate) (r : LaunchRec) (unread : Option Nat) : Option (Nat × Nat) :=
  let k0 := r.kind = 0
  match r.badForm with
  | some w => some (1, w)
  | none =>
    if r.kind = 2 then (if g.saveBad then some (17, 1) else none)
    else if k0 && r.badPartition then some (2, 0)
    else if k0 && (r.progress = 3 || r.gangs = 0) then some (3, 3)
    -- R17: no state of the die could run it (log 60)
    else if k0 && r.progress = 2 && (64 < r.gangs * r.crews || !s.gridFits die r) then some (4, 3)
    else if r.badText die then some (5, 1)
    else if bitsOf g.cfg 62 62 = 0 && bitsOf g.cfg 5 0 ≠ r.context then some (6, 5)
    else if k0 && r.system && bitsOf g.cfg 62 62 = 0 then some (7, 0)
    else if k0 && r.badViews then some (8, 9)
    else if k0 && r.badReserve then some (9, 10)
    else if k0 && r.badRings then some (10, 12)
    else if k0 && (r.banks.zipIdx.any fun b => badBank b.1 b.2 r.scratch) then some (11, 16)
    else if k0 && r.badTags then some (12, 6)
    else match (if k0 then r.badAreas die else none) with
      | some w => some (13, w)
      | none =>
        if r.signal ≠ 0 && (r.signal % 16 ≠ 0 || reservedAddr r.signal) then some (14, 8)
        else if g.ownJob && s.jobCancelled die r.context r.job then some (15, 5)
        else match unread with
          | some w => some (16, w)
          | none => none

/-- A tag-key table entry (R308). -/
def tagEntry (w : Word) : Nat × Nat := (bitsOf w 55 36, bitsOf w 31 0)

/-- The record with its blocks, as the task engine reads them: its argument words, its tag-key table and its bank format
codes, and the word of the first block that cannot be read (R310). -/
def State.readBlocks (s : State) (die : Nat) (r : LaunchRec) : LaunchRec × Option Nat :=
  let args := s.engineRead die r.argBlock (8 * r.argCount)
  let nk := if r.kind = 0 && r.tagKeyed then r.tkCount else 0
  let tags := s.engineRead die r.tkTable (8 * nk)
  let nb := if r.kind = 0 && r.bankBlock ≠ 0 then min r.scratch 128 else 0
  let banks := s.engineRead die r.bankBlock nb
  ({ r with
     args := (args.map fun v => wordsAt v r.argCount).getD []
     tags := (tags.map fun v => (wordsAt v nk).map tagEntry).getD []
     banks := (banks.map fun v => (List.range nb).map fun i => v / 256 ^ i % 256).getD [] },
   if tags.isNone then some 6 else if args.isNone then some 7 else if banks.isNone then some 16 else none)

/-- A record at an address with word 0 as it was read earlier, if it was; none if its 256 bytes cannot be read (R310). -/
def State.readRecord (s : State) (die a : Nat) (word0 : Option Word) : Option LaunchRec :=
  (s.engineRead die a 256).map fun v =>
    let ws := wordsAt v 32
    { addr := a, args := [], tags := [], banks := []
      words := match word0 with
        | some w => w :: ws.drop 1
        | none => ws }

/-- Admission of a record that has been read: the code and word of its rejection, or the record with its blocks. -/
def State.admitLaunch (s : State) (die : Nat) (g : Gate) (r : LaunchRec) : Except (Nat × Nat) LaunchRec :=
  let (r1, unread) := s.readBlocks die r
  match s.recordFault die g r1 unread with
  | some e => .error e
  | none => .ok r1

/-! ## Error words and decrements (R309, R440) -/

/-- The error word after `n` reports of one kind (R309). -/
def errorWord (w code word cause n : Nat) : Nat :=
  let w := BitVec.ofNat 64 w
  let w1 := if bitsOf w 63 56 = 0 then setBits (setBits (setBits w 63 56 code) 55 51 word) 47 40 cause else w
  (satAdd w1 31 0 n).toNat

/-- The model's number of the error word update as a sync command: the packet form that R440 gives it is not laid down
(log 17). -/
def opReport : Nat := 40

/-- A read-modify-write of a word of a completion signal at its home, by the three cases of R440. `host` is the new value in
host memory and at a die of this module; `op` and its operands are the command that another module's home performs. -/
def State.signalUpdate (s : State) (die a : Nat) (f : Nat → Nat) (op v1 v2 : Nat) : State :=
  match s.place die a with
  | .host =>
    if s.host.linkUp then s.writeN a (f (s.readN a 8)) 8
    else
      { s with host := { s.host with hestat := satAdd s.host.hestat 31 16 1 } }.errorEvent die 3 7 0 a 3
  | .mem => if (s.poisonIn a 8).isSome then s.errorEvent die 1 3 0 a 5 else s.writeN a (f (s.readN a 8)) 8
  | .remote =>
    if paModule a = 0 then
      if s.homePlace (paDie a) (paOffset a) ≠ .mem then s.errorEvent die 3 7 0 a 4
      else if (s.poisonIn a 8).isSome then s.errorEvent (paDie a) 1 3 0 a 5
      else s.writeN a (f (s.readN a 8)) 8
    else
      (s.request { Req.blank die 65 2 2 a 8 0 with
        op := op, data := v1 + v2 * 2 ^ 64, owner := none, purpose := .writeBack 0 none }).2
  | _ => s.errorEvent die 3 7 0 a 3

/-- `n` reports of one kind at the error word of a completion signal; none where there is no signal (R309). -/
def State.report (s : State) (die signal code word cause n : Nat) : State :=
  if signal = 0 || n = 0 then s
  else s.signalUpdate die (signal + 8) (fun w => errorWord w code word cause n) opReport
    (code * 2 ^ 56 + word * 2 ^ 51 + cause * 2 ^ 40 + min n (2 ^ 32 - 1)) 0

/-- The decrement of a completion signal (R440). -/
def State.decrement (s : State) (die signal : Nat) : State :=
  if signal = 0 then s
  else s.signalUpdate die signal (fun w => (w + 2 ^ 64 - 1) % 2 ^ 64) 16 (2 ^ 64 - 1) 0

/-! ## The words of a program -/

/-- The text of the executing agent: its first byte and its size (R307, R352). -/
def State.text (s : State) : Nat × Nat :=
  let c := s.cur
  if c.rot then
    let w := (s.die c.die).rptext
    (bitsOf w 51 16 * 65536, bitsOf w 63 52 * 65536)
  else
    let k := s.crew c.die c.polder
    (k.textBase, k.textSize)

/-- The word at an address of the text: from the loop buffer, or from memory (R87, R189). -/
def State.fetch32 (s : State) (a : Nat) : Option (BitVec 32) :=
  match look a (s.stream s.cur).loopBuf with
  | some w => some w
  | none =>
    let (base, size) := s.text
    if base ≤ a && a + 4 ≤ base + size then (s.engineRead s.cur.die a 4).map (BitVec.ofNat 32) else none

end Sys2Proof.Machine
end

