-- ==== Sys2Proof/Machine/Snapshot.lean ====
section
/-! DEFINITION. The containers of crews: every section as its 64-bit words, and a crew made again from them (R158, R191,
R222, R252, R274, R304, R340). -/

namespace Sys2Proof.Machine

/-- The first `n` of a list, filled with zeros. -/
def pad (n : Nat) (xs : List Nat) : List Nat := xs.take n ++ List.replicate (n - xs.length) 0

/-- The low `n` 64-bit words of a number, lowest first. -/
def splitWords (x n : Nat) : List Nat := (List.range n).map fun i => x / 2 ^ (64 * i) % 2 ^ 64

/-- The number of a list of 64-bit words, lowest first. -/
def joinWords (ws : List Nat) : Nat := ws.foldr (fun w acc => w + 2 ^ 64 * acc) 0

/-- Fields of `bits` bits each, packed `per` to a word from the low end. -/
def packFields (bits per : Nat) (xs : List Nat) (n : Nat) : List Nat :=
  (List.range n).map fun w => (List.range per).foldr (fun i acc => xs.getD (w * per + i) 0 % 2 ^ bits + 2 ^ bits * acc) 0

/-- The i-th packed field of a list of words. -/
def packedField (bits per : Nat) (ws : List Nat) (i : Nat) : Nat := ws.getD (i / per) 0 / 2 ^ (bits * (i % per)) % 2 ^ bits

/-- A section header (version 0x0001). -/
def sectionHead (n : Nat) : Nat := 2 ^ 48 + n * 2 ^ 32

/-! ## Parts of sections -/

/-- Loop levels 0 to 2 and LOOPDEPTH, 10 words (R158). -/
def loopWords (ls : List Loop) : List Nat :=
  pad 9 (ls.reverse.flatMap fun l => [l.start.toNat, l.stop.toNat, l.lc.toNat]) ++ [ls.length]

/-- Loop levels from those 10 words. -/
def loopsOf (ws : List Nat) : List Loop :=
  ((List.range (min 3 (ws.getD 9 0))).map fun i =>
    { start := BitVec.ofNat 64 (ws.getD (3 * i) 0), stop := BitVec.ofNat 64 (ws.getD (3 * i + 1) 0)
      lc := BitVec.ofNat 32 (ws.getD (3 * i + 2) 0) : Loop }).reverse

/-- Scalar registers 1 to n (R158, R191, R304). -/
def regWords (st : Stream) (n : Nat) : List Nat := (List.range n).map fun i => (st.regs.get (Fin.ofNat 32 (i + 1))).toNat

/-- Scalar registers 1 on from their words. -/
def setRegs (st : Stream) (ws : List Nat) : Stream :=
  { st with regs := ws.zipIdx.foldl (fun rs w => rs.setIfInBounds (w.2 + 1) (BitVec.ofNat 64 w.1)) st.regs }

/-- A handle from its two words as they stand. -/
def handleOfWords (w0 w1 : Nat) : Handle :=
  let h := handleOf (w1 / 2 ^ 36 % 2 ^ 12) (BitVec.ofNat 64 w0) (w0 / 2 ^ 63 % 2 = 1)
  { h with gen := BitVec.ofNat 16 (w1 / 2 ^ 48), base := BitVec.ofNat 52 w0 }

/-- Eight handles from h(first), two words each (R140). -/
def handleWords (st : Strand) (first : Nat) : List Nat :=
  (List.range 8).flatMap fun i => splitWords (st.h.get (Fin.ofNat 16 (first + i))).toNat 2

/-- Eight handles set from their words. -/
def setHandles (st : Strand) (first : Nat) (ws : List Nat) : Strand :=
  { st with h := (List.range 8).foldl (fun hs i =>
      hs.setIfInBounds (first + i) (handleOfWords (ws.getD (2 * i) 0) (ws.getD (2 * i + 1) 0))) st.h }

/-- An affine stream, 18 words: a load stream's, or with `drain` a drain stream's, whose fault takes the last two words of the
descriptor copy (R158, R304). A vector in flight is begun again. -/
def affineWords (drain : Bool) (x : Option AffineStream) : List Nat :=
  match x with
  | none => List.replicate 18 0
  | some x =>
    let words := (List.range 8).map fun i => (x.desc.get (Fin.ofNat 8 i)).toNat
    let next := match x.flight with
      | some k => k
      | none => x.next
    match drain, x.stopped with
    | true, some (cause, info) => pad 18 (words.take 6 ++ [cause, info.toNat, 2 ^ 63 + 2 ^ 62 + next % 2 ^ 32])
    | _, _ => pad 18 (words ++ [2 ^ 63 + next % 2 ^ 32])

/-- An affine stream from its words. With the descriptor that it had it goes on as it was, with NEXT as written; with another
one it is as SBIND or DBIND would bind it to the handles that the section holds (R148, R158, R283, R304; log 24). -/
def affineOf (drain : Bool) (handle : Nat → Handle) (old : Option AffineStream) (ws : List Nat) : Option AffineStream :=
  let w := ws.getD 8 0
  let stop := drain && w / 2 ^ 62 % 2 = 1
  if w / 2 ^ 63 % 2 = 0 then none
  else
    let desc : Vector Word 8 := Vector.ofFn fun i : Fin 8 => BitVec.ofNat 64 (ws.getD i.val 0)
    let d := descrOf desc
    let x := old.getD default
    let x1 := if old.isSome && (stop || x.desc = desc) then x
      else { x with desc := desc, handle := handle (bitsOf d.ctrl 2 0), count := d.total, stopped := none }
    some { x1 with
      next := w % 2 ^ 32, flight := none, reqs := []
      stopped := if !drain then x1.stopped
        else if stop then some (ws.getD 6 0, BitVec.ofNat 64 (ws.getD 7 0)) else none }

/-- The count queue's entries, 32 words, and its state (R191). -/
def cqState (st : Strand) (a x d : Nat) : Nat :=
  st.cq.length * 2 ^ 32 + (a - st.cqBase) * 2 ^ 16 + (x - st.cqBase) * 2 ^ 8 + (d - st.cqBase)

/-! ## Sections of a strand -/

/-- The strand control section, 104 words (R340). -/
def controlSection (st : Strand) : List Nat :=
  let ss := [st.a, st.x, st.d]
  let (sa, bq) : List SetAside × List (List Word) := match st.setAside with
    | none => ([], [])
    | some (a, x, d, q) => ([a, x, d], q.toList)
  [sectionHead 104, st.trapEntry.toNat, st.trapCause.toNat, st.trapInfo.toNat, if st.trapMode then 1 else 0]
  ++ ss.map (·.trapPc.toNat) ++ ss.map (·.trapResume.toNat) ++ ss.map (·.spillSp) ++ ss.map (·.ovBase.toNat)
  ++ ss.map (·.ovPtr.toNat) ++ ss.map (·.ovLimit.toNat)
  ++ [(if sa.isEmpty then 0 else 1) + (sa.zipIdx.foldl (fun acc e => acc + (if e.1.ended then 2 ^ (e.2 + 1) else 0)) 0)]
  ++ pad 30 (sa.flatMap fun e => loopWords e.loops)
  ++ pad 48 (bq.flatMap fun q => pad 8 (q.map (·.toNat)))
  ++ packFields 4 16 (bq.map (·.length)) 1
  ++ [match sa with
      | [a, x, d] => cqState st a.cqPos x.cqPos d.cqPos
      | _ => 0]

/-- A strand with its control section set. -/
def setControl (st : Strand) (ws : List Nat) : Strand :=
  let g (i : Nat) : Word := BitVec.ofNat 64 (ws.getD i 0)
  let str (k : Nat) (x : Stream) : Stream :=
    { x with
      trapPc := g (5 + k), trapResume := g (8 + k), spillSp := ws.getD (11 + k) 0
      ovBase := g (14 + k), ovPtr := g (17 + k), ovLimit := g (20 + k) }
  let flags := ws.getD 23 0
  let st1 := { st with
    trapEntry := g 1, trapCause := g 2, trapInfo := g 3, trapMode := ws.getD 4 0 % 2 = 1
    a := str 0 st.a, x := str 1 st.x, d := str 2 st.d }
  if flags % 2 = 0 then { st1 with setAside := none }
  else
    let (a, x, d, _) := st.setAside.getD (default, default, default, default)
    let c := ws.getD 103 0
    let side (k off : Nat) (o : SetAside) : SetAside :=
      { o with
        loops := loopsOf ((ws.drop (24 + 10 * k)).take 10), cqPos := st.cqBase + c / 2 ^ off % 128
        ended := flags / 2 ^ (k + 1) % 2 = 1 }
    let bq := Vector.ofFn fun i : Fin 6 =>
      (List.range (min 8 (ws.getD 102 0 / 16 ^ i.val % 16))).map fun j => g (54 + 8 * i.val + j)
    { st1 with setAside := some (side 0 16 a, side 1 8 x, side 2 0 d, bq) }

/-- What of a load's word a pending record needs: its kind, its address registers, and whether it takes a token from X (R158). The
acquire forms are never pending. -/
def pendForm (w : BitVec 32) : Option (Nat × BitVec 5 × Option (BitVec 5) × Bool) :=
  match decode (.polder true) w none with
  | .ok (.ld tk _ _ ra _ _ _) _ => some (1, ra, none, tk[2])
  | .ok (.ldv tk _ _ _ ra _) _ => some (2, ra, none, tk[2])
  | .ok (.ldvs tk _ _ _ ra rb _) _ => some (3, ra, some rb, tk[2])
  | .ok (.ldvg tk _ _ _ ra rb _) _ => some (4, ra, some rb, tk[2])
  | _ => none

/-- The record of a pending load, 4 words. The A stream has one load in progress at a time, so its place is 0 (R158). -/
def loadWords (l : PendLoad) : List Nat :=
  [((pendForm l.word).map (·.1)).getD 0 * 2 ^ 60 + l.word.toNat, l.ra.toNat, l.rb.toNat, 0]

/-- A pending load is issued again before the A stream's next word: the stream stands at its place with the record's registers,
and what the load had popped and taken is put back (R158, R159). The word of the record is the one that runs. -/
def Strand.reissue (st : Strand) (ws : List Nat) : Strand :=
  let l := st.load.getD { (default : PendLoad) with pc := st.a.pc - 4, loops := st.a.loops }
  let word := BitVec.ofNat 32 (ws.getD 0 0)
  match pendForm word with
  | none => { st with load := none }
  | some (_, ra, rb, takes) =>
    let named := (ra, BitVec.ofNat 64 (ws.getD 1 0)) :: (match rb with
      | some r => [(r, BitVec.ofNat 64 (ws.getD 2 0))]
      | none => [])
    let regs := named.foldl (fun (rs : Vector Word 32) e =>
      if e.1 = 0 || e.1 = 31 then rs else rs.setIfInBounds e.1.toNat e.2) st.a.regs
    { st with
      a := { st.a with pc := l.pc, loops := l.loops, regs := regs, seq := st.a.seq - 1, loopBuf := put l.pc.toNat word st.a.loopBuf }
      qXA := (named.filter (·.1 = 31)).map (·.2) ++ st.qXA, tokXA := st.tokXA + (if takes then 1 else 0), load := none }

/-- The A-stream section: 97 words, and 4 more for a pending load (R158). -/
def sectionA (st : Strand) : List Nat :=
  let loads := st.load.toList
  [sectionHead (97 + 4 * loads.length), st.a.pc.toNat] ++ regWords st.a 30 ++ handleWords st 0 ++ loopWords st.a.loops
  ++ [st.ldstat.toNat, st.ldstatpc.toNat] ++ affineWords false st.ls0 ++ affineWords false st.ls1
  ++ [loads.length] ++ loads.flatMap loadWords

/-- A strand with its A section set, but for its pending load. -/
def setA (st : Strand) (ws : List Nat) : Strand :=
  let g (i : Nat) : Word := BitVec.ofNat 64 (ws.getD i 0)
  let a := setRegs { st.a with pc := g 1, loops := loopsOf ((ws.drop 48).take 10) } ((ws.drop 2).take 30)
  let st1 := setHandles { st with a := a, ldstat := g 58, ldstatpc := g 59 } 0 ((ws.drop 32).take 16)
  let h (i : Nat) : Handle := st1.h.get (Fin.ofNat 16 i)
  { st1 with ls0 := affineOf false h st.ls0 ((ws.drop 60).take 18), ls1 := affineOf false h st.ls1 ((ws.drop 78).take 18) }

/-- The X-stream section, 2,061 words (R191). -/
def sectionX (st : Strand) : List Nat :=
  [sectionHead 2061, st.x.pc.toNat] ++ regWords st.x 29 ++ [0]
  ++ st.v.toList.flatMap (fun v => splitWords v.toNat 64) ++ st.p.toList.flatMap (fun p => splitWords p.toNat 16)
  ++ loopWords st.x.loops ++ [st.xctl.toNat, st.srX.toNat] ++ packFields 32 2 (st.cq.map (·.toNat)) 32
  ++ [cqState st st.a.cqPos st.x.cqPos st.d.cqPos]

/-- A strand with its X section set. DESIGN CHOICE: no rule says how a restore takes words that software rewrote with reserved
bits or a rounding mode of 5 to 7 in XCTL, or with an SRSTATE of 0; they are taken as they stand (log 54). -/
def setX (st : Strand) (ws : List Nat) : Strand :=
  let g (i : Nat) : Word := BitVec.ofNat 64 (ws.getD i 0)
  let c := ws.getD 2060 0
  let held := min 64 (c / 2 ^ 32 % 128)
  let x := setRegs { st.x with pc := g 1, loops := loopsOf ((ws.drop 2016).take 10) } ((ws.drop 2).take 29)
  { st with
    v := Vector.ofFn fun i : Fin 28 => BitVec.ofNat 4096 (joinWords ((ws.drop (32 + 64 * i.val)).take 64))
    p := Vector.ofFn fun i : Fin 12 => BitVec.ofNat 1024 (joinWords ((ws.drop (1824 + 16 * i.val)).take 16))
    xctl := g 2026, srX := g 2027
    cq := (List.range held).map fun i => BitVec.ofNat 32 (packedField 32 2 ((ws.drop 2028).take 32) i)
    a := { st.a with cqPos := st.cqBase + c / 2 ^ 16 % 128 }
    x := { x with cqPos := st.cqBase + c / 2 ^ 8 % 128 }
    d := { st.d with cqPos := st.cqBase + c % 128 } }

/-- The index of an overflow chunk (R274, R258). -/
def Die.chunkIndex (d : Die) (a : Nat) : Nat := (a - bitsOf d.syncOvBase 51 14 * 16384) / 16384

/-- Where the overflow chunk of an index lies (R258). -/
def Die.chunkAt (d : Die) (i : Nat) : Nat := bitsOf d.syncOvBase 51 14 * 16384 + i * 16384

/-- The sync section, 37 words (R274). -/
def sectionSync (d : Die) (st : Strand) : List Nat :=
  let r := st.reply.getD (0, 0, 0)
  let w := st.waitc.map fun w => d.chunkIndex w.chunk
  [sectionHead 37,
   (if st.reply.isSome then 2 ^ 63 else 0) + (if w.isSome then 2 ^ 62 else 0) + w.getD 0 % 65536 * 2 ^ 32
     + r.1 * 2 ^ 8 + r.2.2 % 256,
   r.2.1 % 2 ^ 64, st.syncstat.toNat, st.syncQ.length]
  ++ pad 32 (st.syncQ.flatMap fun q => [q.word.toNat, q.target, q.val1, q.val2])

/-- The operation, release and width of a queued sync word (R254, R260). -/
def queuedOp (w : BitVec 32) : Nat × Bool × Bool :=
  if wordField w 31 25 = 0x66 then
    let ord := wordField w 4 3
    (wordField w 10 7 + 16 * wordField w 6 6, 2 ≤ ord, ord ≠ 0 && 3 ≤ wordField w 2 0)
  else
    let fn := wordField w 20 17
    if fn = 2 then (opCarm, false, false)
    else (if fn = 3 then opCarr else if fn = 6 then opSemv else opSignal, true, true)

/-- A strand with its sync section set; SNAP.SY.WAITC and CHUNK say whether its WAITC holds a chunk, and which (R274). -/
def setSync (d : Die) (st : Strand) (ws : List Nat) : Strand :=
  let p := ws.getD 1 0
  { st with
    waitc := if p / 2 ^ 62 % 2 = 0 then none
      else st.waitc.map fun w => { w with chunk := d.chunkAt (p / 2 ^ 32 % 65536) }
    reply := if p / 2 ^ 63 % 2 = 1 then some (p / 2 ^ 8 % 32, ws.getD 2 0, p % 256) else none
    syncstat := BitVec.ofNat 64 (ws.getD 3 0)
    syncQ := (List.range (min 8 (ws.getD 4 0 % 16))).map fun i =>
      let o := 5 + 4 * i
      let w := BitVec.ofNat 32 (ws.getD o 0)
      let (op, rel, wide) := queuedOp w
      let old := st.syncQ.getD i default
      { old with
        word := w, target := ws.getD (o + 1) 0 % 2 ^ 52, op := op, release := rel, wide := wide
        val1 := ws.getD (o + 2) 0, val2 := ws.getD (o + 3) 0, wb := none } }

/-- The D-stream section, 99 words (R304). -/
def sectionD (st : Strand) : List Nat :=
  let r := st.replyD.getD (0, 0, 0)
  [sectionHead 99, st.d.pc.toNat] ++ regWords st.d 30 ++ handleWords st 8 ++ loopWords st.d.loops
  ++ [st.ststat.toNat, st.ststatAddr.toNat, st.srD.toNat] ++ affineWords true st.ds0 ++ affineWords true st.ds1
  ++ [(if st.replyD.isSome then 2 ^ 63 else 0) + r.1 * 2 ^ 8 + r.2.2 % 256, r.2.1 % 2 ^ 64]

/-- A strand with its D section set. -/
def setD (st : Strand) (ws : List Nat) : Strand :=
  let g (i : Nat) : Word := BitVec.ofNat 64 (ws.getD i 0)
  let d := setRegs { st.d with pc := g 1, loops := loopsOf ((ws.drop 48).take 10) } ((ws.drop 2).take 30)
  let p := ws.getD 97 0
  let st1 := setHandles { st with
    d := d, ststat := g 58, ststatAddr := g 59, srD := g 60
    replyD := if p / 2 ^ 63 % 2 = 1 then some (p / 2 ^ 8 % 32, ws.getD 98 0, p % 256) else none } 8 ((ws.drop 32).take 16)
  let h (i : Nat) : Handle := st1.h.get (Fin.ofNat 16 (8 + i))
  { st1 with ds0 := affineOf true h st.ds0 ((ws.drop 61).take 18), ds1 := affineOf true h st.ds1 ((ws.drop 79).take 18) }

/-- TOKCNT and QCOUNT (R81). -/
def Strand.tokcnt (st : Strand) : Nat := st.tokAX * 2 ^ 12 + st.tokXA * 2 ^ 8 + st.tokXD * 2 ^ 4 + st.tokDX
def Strand.qcount (st : Strand) : Nat :=
  st.qAX.length * 2 ^ 34 + st.qXA.length * 2 ^ 29 + st.qXD.length * 2 ^ 24 + st.vAX0.length * 2 ^ 20
    + st.vAX1.length * 2 ^ 16 + st.vXD0.length * 2 ^ 12 + st.vXD1.length * 2 ^ 8

/-- A vector queue entry, 81 words (R340). -/
def entryWords (e : VEntry) : List Nat :=
  let f := e.fail.getD (0, 0)
  [e.statp.toNat + (if e.fail.isSome then 16 else 0) + f.1 % 256 * 2 ^ 8 + f.2.toNat % 2 ^ 48 * 2 ^ 16]
  ++ splitWords e.mask.toNat 16 ++ splitWords e.data.toNat 64

/-- A vector queue entry from its words; its poison stays as it was. -/
def entryOf (old : VEntry) (ws : List Nat) : VEntry :=
  let w := ws.getD 0 0
  { old with
    statp := BitVec.ofNat 4 w
    fail := if w / 16 % 2 = 1 then some (w / 2 ^ 8 % 256, BitVec.ofNat 64 (w / 2 ^ 16)) else none
    mask := BitVec.ofNat 1024 (joinWords ((ws.drop 1).take 16))
    data := BitVec.ofNat 4096 (joinWords ((ws.drop 17).take 64)) }

/-- The queue section, 2,692 words (R340). -/
def sectionQueues (st : Strand) : List Nat :=
  let plain (v : Vec) : VEntry := { (default : VEntry) with data := v }
  let bq := st.bq.toList
  [sectionHead 2692, st.tokcnt, st.qcount] ++ packFields 4 16 (bq.map (·.length)) 1
  ++ pad 16 (st.qAX.map (·.toNat)) ++ pad 16 (st.qXA.map (·.toNat)) ++ pad 16 (st.qXD.map (·.toNat))
  ++ bq.flatMap (fun q => pad 8 (q.map (·.toNat)))
  ++ pad 648 (st.vAX0.flatMap entryWords) ++ pad 648 (st.vAX1.flatMap entryWords)
  ++ pad 648 ((st.vXD0.map plain).flatMap entryWords) ++ pad 648 ((st.vXD1.map plain).flatMap entryWords)

/-- A strand with its queue section set. -/
def setQueues (st : Strand) (ws : List Nat) : Strand :=
  let t := ws.getD 1 0
  let q := ws.getD 2 0
  let scalars (o n : Nat) : List Word := (List.range (min 16 n)).map fun i => BitVec.ofNat 64 (ws.getD (o + i) 0)
  let vectors (o n : Nat) (old : List VEntry) : List VEntry :=
    (List.range (min 8 n)).map fun i => entryOf (old.getD i default) ((ws.drop (o + 81 * i)).take 81)
  { st with
    tokAX := t / 2 ^ 12 % 16, tokXA := t / 2 ^ 8 % 16, tokXD := t / 2 ^ 4 % 16, tokDX := t % 16
    qAX := scalars 4 (q / 2 ^ 34 % 32), qXA := scalars 20 (q / 2 ^ 29 % 32), qXD := scalars 36 (q / 2 ^ 24 % 32)
    bq := Vector.ofFn fun i : Fin 6 =>
      (List.range (min 8 (ws.getD 3 0 / 16 ^ i.val % 16))).map fun j => BitVec.ofNat 64 (ws.getD (52 + 8 * i.val + j) 0)
    vAX0 := vectors 100 (q / 2 ^ 20 % 16) st.vAX0, vAX1 := vectors 748 (q / 2 ^ 16 % 16) st.vAX1
    vXD0 := (vectors 1396 (q / 2 ^ 12 % 16) []).map (·.data), vXD1 := (vectors 2044 (q / 2 ^ 8 % 16) []).map (·.data) }

/-! ## Sections of a crew -/

/-- Half of word 6 of a resume record (R222). -/
def sideWord (h : Option Handle) : Nat :=
  match h with
  | none => 0
  | some h => 2 ^ 30 + h.entry.toNat * 2 ^ 16 + h.gen.toNat

/-- A resume record, 8 words; `order` is its place among the live entries (R222). -/
def resumeWords (e : CopyCmd) (order : Nat) : List Nat :=
  [(match e.follow with
    | some f => f.toNat * 2 ^ 32
    | none => 0) + e.word.toNat, e.src.toNat, e.dst.toNat, e.len.toNat, e.aux.toNat,
   e.next % 2 ^ 32 * 2 ^ 32 + e.counted % 2 ^ 32, sideWord e.srcH * 2 ^ 32 + sideWord e.dstH,
   (match e.state with
    | .free => 0
    | .queued => 1
    | .active => 1
    | .suspended => 2) * 2 ^ 62 + e.strand % 4 * 2 ^ 56 + e.seg % 2 ^ 20 * 2 ^ 32 + order % 65536]

/-- A ring as RBCFG, RBPOS and RBFILL show it (R219). -/
def OpRing.cfgWord (o : OpRing) : Nat :=
  if o.stages = 0 then 0 else o.bank * 2 ^ 16 + (o.stages - 1) * 2 ^ 12 + o.stageSize / 4096
def OpRing.posWord (o : OpRing) : Nat := o.head % 2 ^ 32 * 2 ^ 32 + o.tail % 2 ^ 32
def OpRing.fillWord (o : OpRing) : Nat := o.fillStage % 2 ^ 32 * 2 ^ 32 + o.fillOff % 2 ^ 32
def OpRing.consWord (o : OpRing) : Nat := o.consStage % 2 ^ 32 * 2 ^ 32 + o.consSlab % 2 ^ 32

/-- The copy section, 207 words (R222). -/
def sectionCopy (c : Crew) : List Nat :=
  let live := c.copies.toList.filter fun e => e.state ≠ .free
  [sectionHead 207, c.cpstat.toNat]
  ++ c.copies.toList.flatMap (fun e => resumeWords e (live.filter fun x => x.order < e.order).length)
  ++ c.rings.toList.flatMap (fun o => [o.cfgWord, o.posWord, o.fillWord])
  ++ packFields 16 4 (c.rings.toList.flatMap fun o => pad 16 o.counts) 32
  ++ packFields 8 8 (c.bankFmt.toList.map (·.toNat)) 16
  ++ [c.metaQ.length, 0, 0, 0, 0]

/-- A copy command with its resume record set. Units above NEXT that had landed stay landed, so that none is counted twice (R222,
R223); a merge starts again from its reads. -/
def CopyCmd.setRecord (e : CopyCmd) (hs : Nat → Option Handle) (ws : List Nat) : CopyCmd :=
  let g (i : Nat) : Word := BitVec.ofNat 64 (ws.getD i 0)
  let w7 := ws.getD 7 0
  let follow := ws.getD 0 0 / 2 ^ 32
  let st := w7 / 2 ^ 62
  let next := ws.getD 5 0 / 2 ^ 32
  { e with
    word := BitVec.ofNat 32 (ws.getD 0 0), follow := if follow = 0 then none else some (BitVec.ofNat 32 follow)
    src := g 1, dst := g 2, len := g 3, aux := g 4
    next := next, counted := ws.getD 5 0 % 2 ^ 32, landed := if next = e.next then e.landed else [], flight := [], merged := none
    srcH := hs (ws.getD 6 0 / 2 ^ 32), dstH := hs (ws.getD 6 0 % 2 ^ 32)
    auxH := e.auxH.bind fun h => hs (2 ^ 30 + h.entry.toNat * 2 ^ 16 + h.gen.toNat)
    strand := w7 / 2 ^ 56 % 4, seg := w7 / 2 ^ 32 % 2 ^ 20
    state := if st = 0 then .free else if st = 2 then .suspended else if e.state = .active then .active else .queued }

/-- A command that a restore has given a handle side which fails the test of POP ends with status 7 (R217, R223). -/
def State.endUnmade (s : State) (die polder : Nat) : State :=
  (List.range 16).foldl (fun (s : State) i =>
    let e := (s.crew die polder).copyAt i
    if e.state ≠ .free && ([e.srcH, e.dstH, e.auxH].any fun h => match h with
        | some h => !h.valid
        | none => false) then s.endCopy die polder i 7
    else s) s

/-- A ring with its words set (R219, R232). -/
def OpRing.setWords (o : OpRing) (cfg pos fill : Nat) (counts : List Nat) : OpRing :=
  { ringOf cfg with
    head := pos / 2 ^ 32, tail := pos % 2 ^ 32, fillStage := fill / 2 ^ 32, fillOff := fill % 2 ^ 32
    counts := counts.take (ringOf cfg).stages, consStage := o.consStage, consSlab := o.consSlab }

/-- A crew with its copy section set. -/
def setCopies (c : Crew) (hs : Nat → Option Handle) (ws : List Nat) : Crew :=
  let counts := (ws.drop 154).take 32
  { c with
    cpstat := BitVec.ofNat 64 (ws.getD 1 0)
    copies := Vector.ofFn fun i : Fin 16 => (c.copies.get i).setRecord hs ((ws.drop (2 + 8 * i.val)).take 8)
    rings := Vector.ofFn fun n : Fin 8 =>
      (c.rings.get n).setWords (ws.getD (130 + 3 * n.val) 0) (ws.getD (131 + 3 * n.val) 0) (ws.getD (132 + 3 * n.val) 0)
        ((List.range 16).map fun k => packedField 16 4 counts (16 * n.val + k))
    bankFmt := Vector.ofFn fun b : Fin 128 => BitVec.ofNat 8 (packedField 8 8 ((ws.drop 186).take 16) b.val) }

/-- A queue record, 3 words (R252). -/
def matRecord (m : MatCmd) : List Nat :=
  [2 ^ 63 + (if m.follow then 2 ^ 62 else 0) + m.strand % 4 * 2 ^ 56 + m.word.toNat, m.val1.toNat, m.val2.toNat]

/-- An active command, 2,052 words (R252). -/
def activeWords (a : Option MatActive) : List Nat :=
  match a with
  | none => List.replicate 2052 0
  | some a =>
    [2 ^ 63 + a.cmd.strand % 4 * 2 ^ 56 + a.cmd.word.toNat, a.kDone % 2 ^ 32 * 2 ^ 32 + a.step % 2 ^ 32,
     a.rowTile % 2 ^ 32 * 2 ^ 32 + a.rowsDone % 2 ^ 32, a.aPos % 2 ^ 32 * 2 ^ 32 + a.bPos % 2 ^ 32] ++ splitWords a.z 2048

/-- The tiles that the active commands own (R252). -/
def Crew.ownedMask (c : Crew) : Nat :=
  let o (a : Option MatActive) : Nat := match a.bind (·.owns) with
    | some t => 2 ^ t
    | none => 0
  o c.actQ ||| o c.actU

/-- The matrix section, 5,245 words (R252). -/
def sectionMatrix (c : Crew) : List Nat :=
  [sectionHead 5245, c.mxstat.toNat] ++ c.modes.toList.flatMap (fun m => [m.1.toNat, m.2.toNat])
  ++ c.rings.toList.map OpRing.consWord
  ++ [c.ownedMask * 2 ^ 16 + c.tilesFull % 65536, (if c.streakUrgent then 128 else 0) + c.streakSteps % 128]
  ++ pad 48 (c.matQ.flatMap matRecord) ++ pad 48 (c.matU.flatMap matRecord)
  ++ activeWords c.actQ ++ activeWords c.actU
  ++ [c.metaQ.length] ++ pad 1024 (c.metaQ.flatMap fun e => splitWords e.1 64)

/-- The valid queue records among 16 (R252). -/
def queueOf (old : List MatCmd) (ws : List Nat) : List MatCmd :=
  (List.range 16).filterMap fun i =>
    let w := ws.getD (3 * i) 0
    if w / 2 ^ 63 % 2 = 0 then none
    else some { old.getD i default with
      word := BitVec.ofNat 32 w, follow := w / 2 ^ 62 % 2 = 1, strand := w / 2 ^ 56 % 4
      val1 := BitVec.ofNat 64 (ws.getD (3 * i + 1) 0), val2 := BitVec.ofNat 64 (ws.getD (3 * i + 2) 0) }

/-- An active command from its words; what they do not carry stays as it was. -/
def activeOf (old : Option MatActive) (ws : List Nat) : Option MatActive :=
  let w := ws.getD 0 0
  if w / 2 ^ 63 % 2 = 0 then none
  else
    let a := old.getD default
    some { a with
      cmd := { a.cmd with word := BitVec.ofNat 32 w, strand := w / 2 ^ 56 % 4 }
      kDone := ws.getD 1 0 / 2 ^ 32, step := ws.getD 1 0 % 2 ^ 32
      rowTile := ws.getD 2 0 / 2 ^ 32, rowsDone := ws.getD 2 0 % 2 ^ 32
      part := ws.getD 1 0 / 2 ^ 32 % max 1 (stepKSteps (matWord (BitVec.ofNat 32 w)) a.mode)
      aPos := ws.getD 3 0 / 2 ^ 32, bPos := ws.getD 3 0 % 2 ^ 32, z := joinWords ((ws.drop 4).take 2048) }

/-- An active command owns its tile if the owned mask has the tile; otherwise it waits for it (R234, R252). -/
def MatActive.setOwned (a : MatActive) (mask : Nat) : MatActive :=
  match a.owns, a.wants with
  | some t, _ => if mask / 2 ^ t % 2 = 1 then a else { a with owns := none, wants := some (t, 0) }
  | none, some (t, _) => if mask / 2 ^ t % 2 = 1 then { a with owns := some t, wants := none } else a
  | none, none => a

/-- A crew with its matrix section set. -/
def setMatrix (c : Crew) (ws : List Nat) : Crew :=
  let g (i : Nat) : Word := BitVec.ofNat 64 (ws.getD i 0)
  { c with
    mxstat := g 1, modes := Vector.ofFn fun i : Fin 4 => (g (2 + 2 * i.val), g (3 + 2 * i.val))
    rings := Vector.ofFn fun n : Fin 8 =>
      { c.rings.get n with consStage := ws.getD (10 + n.val) 0 / 2 ^ 32, consSlab := ws.getD (10 + n.val) 0 % 2 ^ 32 }
    tilesFull := ws.getD 18 0 % 65536, streakUrgent := ws.getD 19 0 / 128 % 2 = 1, streakSteps := ws.getD 19 0 % 128
    matQ := queueOf c.matQ ((ws.drop 20).take 48), matU := queueOf c.matU ((ws.drop 68).take 48)
    actQ := (activeOf c.actQ ((ws.drop 116).take 2052)).map fun a => a.setOwned (ws.getD 18 0 / 65536)
    actU := (activeOf c.actU ((ws.drop 2168).take 2052)).map fun a => a.setOwned (ws.getD 18 0 / 65536)
    metaQ := (List.range (min 16 (ws.getD 4220 0 % 32))).map fun i =>
      (joinWords ((ws.drop (4221 + 64 * i)).take 64), (c.metaQ.getD i (0, false)).2) }

/-! ## Containers (R340) -/

/-- STRANDID of a strand (R80). -/
def Crew.strandId (c : Crew) (polder strand : Nat) : Nat :=
  polder * 2 ^ 26 + strand * 2 ^ 24 + c.crewX * 2 ^ 22 + c.crewY * 2 ^ 20 + c.stage * 2 ^ 17 + (if c.system then 2 ^ 16 else 0)

/-- Words of the sections of one strand. -/
def Strand.words (st : Strand) : Nat := 104 + (97 + 4 * st.load.toList.length) + 2061 + 37 + 99 + 2692

/-- Words of a container of a crew of these strands. -/
def containerWords (ss : List Strand) : Nat := 11 + 207 + 5245 + (ss.map Strand.words).sum

/-- 64 KiB units of a crew's pool image: SCRATCH, ACCUM and SPILL. -/
def Crew.imageUnits (c : Crew) : Nat := c.scratchBytes / 65536 + c.accumBytes / 65536 + c.partition.toNat % 256

/-- The offsets of the 26 sections; strands that do not exist have 0. -/
def sectionOffsets (ss : List Strand) : List Nat :=
  [11, 11 + 207] ++ (List.range 4).flatMap fun k =>
    match ss[k]? with
    | none => List.replicate 6 0
    | some st =>
      let base := containerWords (ss.take k)
      let more := 4 * st.load.toList.length
      [0, 104, 201 + more, 2262 + more, 2299 + more, 2398 + more].map (base + ·)

/-- The container of a crew, from its state, its task's table index and its strands (R340). -/
def containerOf (d : Die) (c : Crew) (task polder : Nat) (ss : List Strand) : List Nat :=
  let n := containerWords ss
  [2 ^ 48 + n * 2 ^ 32, task % 1024 * 2 ^ 38 + (ss.length - 1) * 2 ^ 36 + c.strandId polder 0 / 65536 * 65536,
   c.tilesFull % 65536 * 2 ^ 32 + c.partition.toNat, c.imageUnits % 256]
  ++ packFields 16 4 (sectionOffsets ss) 7
  ++ sectionCopy c ++ sectionMatrix c
  ++ ss.flatMap fun st =>
    controlSection st ++ sectionA st ++ sectionX st ++ sectionSync d st ++ sectionD st ++ sectionQueues st

/-- The offset of section i of a container, as the container gives it (R340). -/
def sectionAt (ws : List Nat) (i : Nat) : Nat := packedField 16 4 (ws.drop 4) i

/-- Whether the header or a section of a container has a version that the die does not accept (R340, R341). -/
def containerBad (ws : List Nat) : Bool :=
  ws.getD 0 0 / 2 ^ 48 ≠ 1 || ((List.range 26).map (sectionAt ws)).any fun o => o ≠ 0 && ws.getD o 0 / 2 ^ 48 ≠ 1

/-- A strand made from its sections in a container. -/
def strandOf (d : Die) (st : Strand) (k : Nat) (ws : List Nat) : Strand :=
  let sec (i : Nat) : List Nat :=
    let o := sectionAt ws (2 + 6 * k + i)
    (ws.drop o).take (ws.getD o 0 / 2 ^ 32 % 65536)
  let st1 := setQueues (setD (setSync d (setControl (setX (setA st (sec 1)) (sec 2)) (sec 0)) (sec 3)) (sec 4)) (sec 5)
  if (sec 1).getD 96 0 = 0 then { st1 with load := none } else st1.reissue ((sec 1).drop 97)

/-- A crew made from its sections in a container. -/
def crewOf (c : Crew) (hs : Nat → Option Handle) (ws : List Nat) : Crew :=
  setMatrix (setCopies c hs ((ws.drop (sectionAt ws 0)).take 207)) ((ws.drop (sectionAt ws 1)).take 5245)

/-- The handle of a side word as a restore makes it again (R140, R223). -/
def State.sideHandle (s : State) (die context w : Nat) : Option Handle :=
  if w / 2 ^ 30 % 4 = 0 then none else some (s.reloadHandle die context (w / 2 ^ 16 % 4096) (w % 65536))

/-- A bound stream after a restore: its handle copy stays usable only if its entry is still the one it was made from (R140,
R148, R341). -/
def State.remakeStream (s : State) (die context : Nat) (x : AffineStream) : AffineStream :=
  let h := x.handle
  { x with handle := { h with valid := h.valid && (s.reloadHandle die context h.entry.toNat h.gen.toNat).valid } }

/-- Every handle of a strand as a restore makes it again, those of its bound streams among them (R140, R341). -/
def State.remakeHandles (s : State) (die context : Nat) (st : Strand) : Strand :=
  let stream := s.remakeStream die context
  { st with
    h := st.h.map fun h => if h.valid then s.reloadHandle die context h.entry.toNat h.gen.toNat else h
    ls0 := st.ls0.map stream, ls1 := st.ls1.map stream, ds0 := st.ds0.map stream, ds1 := st.ds1.map stream }

end Sys2Proof.Machine
end

