-- ==== Sys2Proof/Machine/Task.lean ====
section
/-! DEFINITION. The task engine's launches, placement, dispatch and gang start, views and the fold, the end of tasks, and
cancellation (R267-R269, R307, R311-R315, R323-R333). -/

namespace Sys2Proof.Machine

/-! ## Ready work and launches -/

/-- A hardware queue. -/
def TaskEngine.queue (t : TaskEngine) (q : Nat) : Queue := (t.queues[q]?).getD default

/-- Replace a hardware queue. -/
def TaskEngine.setQueue (t : TaskEngine) (q : Nat) (x : Queue) : TaskEngine := { t with queues := t.queues.setIfInBounds q x }

/-- Work becomes ready in a queue; a queue that becomes backlogged takes at least the pass served last (R313, R315). -/
def State.pushReady (s : State) (die : Nat) (w : ReadyWork) (queue ts : Nat) : State :=
  let te := s.te die
  let q := te.queue queue
  let te1 := if te.ready.any (·.queue = queue) then te else te.setQueue queue { q with pass := max q.pass te.served }
  s.setTe die { te1 with
    ready := te.ready ++ [{ work := w, queue := queue, timestamp := ts, order := te.order }], order := te.order + 1 }

/-- LR.TIMESTAMP; 0 takes CYCLE (R306). -/
def State.stampOf (s : State) (die ts since : Nat) : Nat :=
  if ts = 0 then (since - (s.die die).cycle0) % 2 ^ 64 else ts

/-- Enter an admitted record as a launch: a gang launch becomes ready, a graph starts with its first node due (R313,
R316). A tag-keyed launch waits for its slot (R319). -/
def State.newLaunch (s : State) (die : Nat) (r : LaunchRec) (queue job since : Nat) (host : Option Nat)
    (node : Option (Nat × Nat)) : Nat × State :=
  let te := s.te die
  let id := te.launchNo
  let first := match s.engineRead die r.entry 8 with
    | some h => [h % 4096]
    | none => []
  let l : Launch :=
    { record := r, queue := queue, timestamp := s.stampOf die r.timestamp since, job := job, context := r.context
      host := host, node := node, nextGang := 0, ended := 0
      graph := if r.kind = 1 then some { tokens := [], due := first, fires := [], running := [], done := first.isEmpty } else none
      slot := none, closed := false, hold := .none }
  let s1 := s.setTe die { te with launchNo := id + 1, launches := put id l te.launches }
  (id, if r.kind = 1 || (r.kind = 0 && r.tagKeyed) then s1 else s1.pushReady die (.gang id) queue l.timestamp)

/-- A launch entered through a host packet has retired: its table entry holds its interrupt, which follows the reply to `sent`,
or frees (R441). -/
def State.hostRetired (s : State) (host : Option Nat) (lost : Bool) (sent : Option Nat) : State :=
  match host with
  | none => s
  | some e =>
    let h := s.host
    match look e h.launches with
    | none => s
    | some x =>
      if x.irq.isSome && !lost then
        { s with host := { h with launches := put e { x with retired := true, after := sent } h.launches } }
      else { s with host := { h with launches := unput e h.launches } }

/-- Whether a signal's decrement is lost to a link that is down (R444). -/
def State.signalLost (s : State) (die signal : Nat) : Bool :=
  signal ≠ 0 && s.place die signal = .host && !s.host.linkUp

/-- The request that the decrement of a signal at another module will be, whose home replies to it (R440, R441). -/
def State.signalSent (s : State) (die signal : Nat) : Option Nat :=
  if signal ≠ 0 && s.place die signal = .remote && paModule signal ≠ 0 then some s.reqNo else none

/-! ## Tasks -/

/-- The task identity word (R328, selector 0). -/
def Task.identity (t : Task) (i : Nat) : Nat :=
  t.job * 2 ^ 32 + i % 1024 * 2 ^ 22 + t.depth % 16 * 2 ^ 18 + t.position % 64 * 2 ^ 12

/-- The lowest free index of the task table (R323). -/
def TaskEngine.freeTask (t : TaskEngine) : Option Nat := (List.range 1024).find? fun i => (look i t.tasks).isNone

/-- The task of gang `g` of a launch. -/
def Launch.task (l : Launch) (id g : Nat) : Task :=
  { launch := id, record := l.record, entry := l.record.entry, gang := g, parent := none, child := false, position := 0
    depth := 0, job := l.job, context := l.context, queue := l.queue, timestamp := l.timestamp, origin := 0, first := []
    request := none, tag := 0, doomed := false, cancelled := false, fault := none, children := [], foldAt := 0, pre := none
    folded := 0, cancelMask := 0, faultMask := 0, retained := [], ownSlot := none }

/-- Whether a continuation of a task is registered, released or ready (R332). -/
def State.hasConts (s : State) (die t : Nat) : Bool :=
  let d := s.die die
  (d.conts.any (·.task = t)) || (d.released.any (·.task = t)) || d.te.ready.any fun r => match r.work with
    | .cont u _ => u = t
    | _ => false

/-- Whether a task runs on polders. -/
def TaskEngine.running (t : TaskEngine) (task : Nat) : Bool := t.runs.any fun r => r.2.task = task

/-! ## Views (R306, R324) -/

/-- The scratchpad address of a run's reserve slot, as a physical address. -/
def State.slotAddr (s : State) (die : Nat) (r : LaunchRec) (x : Nat × Nat) : Nat :=
  dieAddr die (poolOffset ((s.te die).run x.1).origin + r.resBase + x.2 * r.viewBytes)

/-- The views of crew (0, 0) of a run, as a physical address. -/
def viewsAt (die origin : Nat) (r : LaunchRec) : Nat := dieAddr die (poolOffset origin + r.viewBase)

/-- Copy bytes, with their poison, from one 8-byte aligned place to another (R57). -/
def State.copyRange (s : State) (src dst n : Nat) : State :=
  let bad := s.poison.filter fun w => src / 8 ≤ w && w < (src + n) / 8
  let s1 := s.writeN dst (s.readN src n) n
  { s1 with poison := bad.foldl (fun ps w => addPoison (8 * (w - src / 8) + dst) 8 ps) s1.poison }

/-- Fill the declared views with their identities (R307, R211). -/
def State.fillViews (s : State) (die origin : Nat) (r : LaunchRec) : State :=
  (List.range r.nviews).foldl (fun (s : State) j =>
    s.writeN (viewsAt die origin r + 16384 * j) (mergeIdentity (r.viewOp j) * ((2 ^ 131072 - 1) / (2 ^ 32 - 1))) 16384) s

/-- The elements of one view merged, as one number. -/
def mergeElements (op d v : Nat) (n : Nat) : Nat :=
  packElems 32 (List.zipWith (mergeOp op) (elems 32 n d) (elems 32 n v))

/-- Merge every view at `src` into those at `dst`, each with its own operator, or nothing where poison is met (R210, R325). -/
def State.mergeViews (s : State) (r : LaunchRec) (dst src : Nat) : Option State :=
  if (s.poisonIn src r.viewBytes).isSome || (s.poisonIn dst r.viewBytes).isSome then none
  else some ((List.range r.nviews).foldl (fun (s : State) j =>
    let a := dst + 16384 * j
    s.writeN a (mergeElements (r.viewOp j) (s.readN a 16384) (s.readN (src + 16384 * j) 16384) 4096) 16384) s)

/-! ## The fold (R325, R326) -/

/-- Advance the fold of a task past every resolved child at its fold position (R325). -/
def State.advance (s : State) (die t : Nat) : Nat → State
  | 0 => s
  | fuel + 1 =>
    let te := s.te die
    let x := te.task t
    match x.children[x.foldAt]? with
    | none => s
    | some c =>
      let next (s : State) (c : Child) (f : Task → Task) : State :=
        let te := s.te die
        let x := te.task t
        (s.setTe die (te.setTask t (f { x with children := x.children.set x.foldAt c, foldAt := x.foldAt + 1 }))).advance
          die t fuel
      match c.fate with
      | .unresolved => s
      | .ended =>
        match c.slot, x.pre with
        | none, _ => next s c fun x => { x with folded := x.folded + 1 }
        | some p, none => next s { c with slot := none } fun x => { x with pre := some p, folded := x.folded + 1 }
        | some p, some q =>
          match s.mergeViews x.record (s.slotAddr die x.record q) (s.slotAddr die x.record p) with
          | none => next s { c with fate := .mergeFaulted } id
          | some s1 => next s1 { c with slot := none } fun x => { x with folded := x.folded + 1 }
      | _ => next s { c with slot := none } id

/-- Bits of the positions whose child a test selects. -/
def positions (cs : List Child) (p : Child → Bool) : Nat :=
  cs.zipIdx.foldl (fun acc c => acc + (if p c.1 then 2 ^ c.2 else 0)) 0

/-- The end of a JOIN whose positions are all resolved: the final merge into the views of a run, the masks, and the word
that JOIN writes (R326). -/
def State.joinNow (s : State) (die t origin : Nat) : Nat × State :=
  let x := (s.te die).task t
  let faulty (c : Child) : Bool := c.fate = .faulted || c.fate = .mergeFaulted
  let merged := match x.pre with
    | none => some s
    | some p => s.mergeViews x.record (viewsAt die origin x.record) (s.slotAddr die x.record p)
  let s1 := merged.getD s
  let status := if merged.isNone then 2 else if x.children.any (·.fate = .mergeFaulted) then 1 else 0
  let first := ((List.range x.children.length).find? fun i => (x.children[i]?.map (·.fate)) = some .mergeFaulted).getD 255
  let value := status * 2 ^ 56 + first * 2 ^ 48 + (x.children.filter (·.fate = .cancelled)).length * 2 ^ 40
    + (x.children.filter faulty).length * 2 ^ 32 + x.folded % 256 * 2 ^ 24 + x.children.length * 2 ^ 16
  let te := s1.te die
  (value, s1.setTe die (te.setTask t { te.task t with
    children := [], foldAt := 0, pre := none, folded := 0
    cancelMask := positions x.children (·.fate = .cancelled), faultMask := positions x.children faulty
    retained := x.children.filterMap fun c => if c.fate = .mergeFaulted then c.slot else none }))

/-- Whether every unjoined child of a task is resolved and folded (R326). -/
def Task.joinReady (x : Task) : Bool := x.children.length ≤ x.foldAt

/-! ## Tag-keyed requests (R319, R320) -/

/-- Make a request's next start ready: on time with the tag's sequence, or late with the current one (R320). -/
def State.startRequest (s : State) (die q tag seq : Nat) : State :=
  let te := s.te die
  match look q te.requests with
  | none => s
  | some r =>
    match look r.slot te.slots with
    | none => s
    | some l =>
      (s.setTe die { te with requests := put q { r with state := 1, seq := seq } te.requests }).pushReady die
        (.tag l q r.next tag) ((te.launch l).record.queue) r.ts

/-- Whether sequence a is later than sequence b (R319). -/
def seqLater (a b : Nat) : Bool :=
  let n := (a % 2 ^ 32 + 2 ^ 32 - b % 2 ^ 32) % 2 ^ 32
  1 ≤ n && n < 2 ^ 31

/-- What follows for a request whose next segment may have passed: a late start, deferral or waiting (R320). -/
def State.requestNext (s : State) (die q : Nat) : State :=
  let d := s.die die
  let te := d.te
  match look q te.requests with
  | none => s
  | some r =>
    let l := te.launch ((look r.slot te.slots).getD 0)
    let seg := (l.record.tags.getD r.next (0, 0)).1
    let set (r : Request) : State := s.setTe die { te with requests := put q r te.requests }
    match look seg d.arrivals with
    | some a =>
      if seqLater a.seq r.seq then
        if d.holds seg && r.late < r.budget then
          (set { r with late := r.late + 1 }).startRequest die q
            (bitsOf d.rgctl 63 60 * 2 ^ 28 + seg * 2 ^ 8 + a.rotation.toNat) te.tagSeq
        else set { r with state := 2 }
      else set { r with state := 0 }
    | none => set { r with state := 0 }

/-- The end of a tag-dispatched task (R320). -/
def State.requestEnd (s : State) (die q : Nat) : State :=
  let te := s.te die
  match look q te.requests with
  | none => s
  | some r =>
    if r.close then (s.setTe die { te with requests := unput q te.requests }).sendMirror die
    else
      let l := te.launch ((look r.slot te.slots).getD 0)
      let n := if r.setNext ≠ 0 then r.setNext - 1 else (r.next + 1) % max 1 l.record.tkCount
      (s.setTe die { te with requests := put q { r with next := n, setNext := 0 } te.requests }).requestNext die q

/-- A list in ascending order of a key; equal keys keep their order. -/
def insertByKey {α : Type} (f : α → Nat) (a : α) : List α → List α
  | [] => [a]
  | b :: r => if f a < f b then a :: b :: r else b :: insertByKey f a r
def byKey {α : Type} (f : α → Nat) (xs : List α) : List α := xs.foldl (fun acc a => insertByKey f a acc) []

/-- A tag raised for a segment: the requests whose next entry names it start on time, in ascending RQ.TS order (R320). -/
def State.tagDispatch (s : State) (die seg rotation seq : Nat) : State :=
  let d := s.die die
  let tag := bitsOf d.rgctl 63 60 * 2 ^ 28 + seg * 2 ^ 8 + rotation
  -- sequences 2^30 or more behind are raised (R319)
  let clamp (r : Request) : Request :=
    if 2 ^ 30 ≤ (seq % 2 ^ 32 + 2 ^ 32 - r.seq) % 2 ^ 32 && !seqLater r.seq seq then { r with seq := (seq + 2 ^ 32 - 2 ^ 30) % 2 ^ 32 }
    else r
  let reqs : List (Nat × Request) := d.te.requests.map fun e => (e.1, clamp e.2)
  let te : TaskEngine := { d.te with requests := reqs }
  let wants (r : Request) : Bool :=
    (r.state = 0 || r.state = 2) && match look r.slot te.slots with
      | none => false
      | some l => !(te.launch l).closed && (((te.launch l).record.tags.getD r.next (2 ^ 20, 0)).1 = seg)
  let due := byKey (fun e => e.2.ts) (te.requests.filter fun e => wants e.2)
  due.foldl (fun (s : State) e =>
    let te := s.te die
    match look e.1 te.requests with
    | none => s
    | some r =>
      let r1 := if rotation ≠ r.rot then { r with late := 0, rot := rotation } else r
      (s.setTe die { te with requests := put e.1 r1 te.requests }).startRequest die e.1 tag seq) (s.setTe die te)

/-- Close a tag-key slot (R329, op 4): its waiting and deferred requests are freed, the others close at their end. -/
def State.closeSlot (s : State) (die l : Nat) : State :=
  let te := s.te die
  let x := te.launch l
  let reqs := match x.slot with
    | none => te.requests
    | some k => te.requests.filterMap fun e =>
      if e.2.slot ≠ k then some e else if e.2.state = 1 then some (e.1, { e.2 with close := true }) else none
  (s.setTe die ({ te with requests := reqs }.setLaunch l { x with closed := true })).sendMirror die

/-! ## The end of a task -/

/-- A task has ended for good: its position resolves, its launch counts the gang and makes its report, its request moves on
(R309, R320, R324-R327, R332). -/
def State.finishTask (s : State) (die t : Nat) : State :=
  let te := s.te die
  let x := te.task t
  let l := te.launch x.launch
  let fate : Fate := if x.fault.isSome then .faulted else if x.cancelled then .cancelled else .ended
  let counted := !x.child && x.request.isNone
  if (look t te.tasks).isNone then s else
  let te1 := { te with tasks := unput t te.tasks }
  let te2 := if counted then te1.setLaunch x.launch { l with ended := l.ended + 1 } else te1
  let s1 := s.setTe die te2
  let s2 := match x.fault with
    | some c => s1.report die l.record.signal 0x41 0 c 1
    | none => if x.cancelled && !x.child then s1.report die l.record.signal 0x40 0 0 1 else s1
  let s3 := match x.parent with
    | none => s2
    | some p =>
      let te := s2.te die
      let y := te.task p
      let c := (y.children[x.position]?).getD default
      let c1 := { c with fate := fate, slot := if fate = .ended then c.slot else none }
      (s2.setTe die (te.setTask p { y with children := y.children.set x.position c1 })).advance die p 65
  match x.request with
  | none => s3
  | some q => s3.requestEnd die q

/-- Whether task i descends from task t. -/
def TaskEngine.descends (te : TaskEngine) (t : Nat) : Nat → Nat → Bool
  | 0, _ => false
  | fuel + 1, i => match (te.task i).parent with
    | none => false
    | some p => p = t || te.descends t fuel p

/-- Discard a child that is ready and not started: its position resolves as cancelled (R331). -/
def State.discardChild (s : State) (die i : Nat) : State :=
  let te := s.te die
  let ready : List Ready := te.ready.filter fun r => r.work ≠ ReadyWork.child i
  let te1 : TaskEngine := { te with ready := ready }
  (s.setTe die (te1.setTask i { te1.task i with cancelled := true })).finishTask die i

/-- A task that ends as cancelled or faulted cancels all its descendants (R331). -/
def State.cancelDescendants (s : State) (die t : Nat) : State :=
  let te := s.te die
  let below := (te.tasks.map (·.1)).filter fun i => te.descends t 9 i
  below.foldl (fun (s : State) i =>
    let te := s.te die
    if (look i te.tasks).isNone then s
    else if te.ready.any fun r => r.work = .child i then s.discardChild die i
    else
      let x := te.task i
      s.setTe die (te.setTask i { x with doomed := true, parent := if x.parent = some t then none else x.parent })) s

/-- Free a continuation's chunk. -/
def State.freeChunkAt (s : State) (die a : Nat) : State :=
  let d := s.die die
  s.setDie die { d with chunks := unput a d.chunks }

/-- A continuation that is discarded: its task ends as cancelled once nothing else of it is left (R267, R331). -/
def State.discardCont (s : State) (die t chunk : Nat) : State :=
  let s1 := s.freeChunkAt die chunk
  let te := s1.te die
  let s2 := s1.setTe die (te.setTask t { te.task t with cancelled := true })
  if s2.hasConts die t || (s2.te die).running t then s2 else s2.finishTask die t

/-! ## Cancellation (R330, R331) -/

/-- Discard ready work of a cancelled job. -/
def State.discardReady (s : State) (die : Nat) (r : Ready) : State :=
  let te := s.te die
  let s1 := s.setTe die { te with ready := te.ready.filter (· ≠ r) }
  match r.work with
  | .gang l =>
    let x := (s1.te die).launch l
    let n := x.record.gangs - x.nextGang
    (s1.setTe die ((s1.te die).setLaunch l { x with nextGang := x.record.gangs, ended := x.ended + n })).report die
      x.record.signal 0x40 0 0 n
  | .child i => s1.discardChild die i
  | .cont t chunk => s1.discardCont die t chunk
  | .tag l q _ _ =>
    let te := s1.te die
    ((s1.setTe die { te with requests := unput q te.requests }).sendMirror die).report die (te.launch l).record.signal 0x40 0 0 1

/-- The job and context of ready work. -/
def TaskEngine.jobOf (te : TaskEngine) (r : Ready) : Option (Nat × Nat) :=
  match r.work with
  | .gang l => let x := te.launch l; if x.record.kind = 2 then none else some (x.context, x.job)
  | .child t => some ((te.task t).context, (te.task t).job)
  | .cont t _ => some ((te.task t).context, (te.task t).job)
  | .tag l _ _ _ => some ((te.launch l).context, (te.launch l).job)

/-- End a graph with a code (R318, R331). -/
def State.endGraph (s : State) (die l code word : Nat) : State :=
  let te := s.te die
  let x := te.launch l
  match x.graph with
  | none => s
  | some g =>
    if g.done then s
    else
      (s.setTe die (te.setLaunch l { x with graph := some { g with done := true, due := [] } })).report die
        x.record.signal code word 0 1

/-- A die's cancel point for a job: whether its table was full, and the state after (R330, R331). -/
def State.cancelPoint (s : State) (die context job : Nat) : Bool × State :=
  let te := s.te die
  if te.jobs.contains (context, job) then (false, s)
  else if 256 ≤ te.jobs.length then (true, s)
  else
    let s1 := s.setTe die { te with jobs := te.jobs ++ [(context, job)] }
    let s2 := (te.ready.filter fun r => te.jobOf r = some (context, job)).foldl (fun s r =>
      if (s.te die).ready.contains r then s.discardReady die r else s) s1
    let s3 := te.launches.foldl (fun (s : State) l =>
      if l.2.job ≠ job || l.2.context ≠ context then s
      else if l.2.graph.isSome then s.endGraph die l.1 0x40 0
      else if l.2.record.kind = 0 && l.2.record.tagKeyed then s.closeSlot die l.1
      else s) s2
    (false, s3)

/-! ## Dispatch (R315) -/

/-- A crew as its launch record sets it (R307). DESIGN CHOICE (log 63): a bank's format register begins at the record's
LR.BANKFMT, as R307 lays down, and not at the 0x00 that R115 prints. -/
def crewStart (r : LaunchRec) (strands x y run : Nat) (unsaved : Bool) : Crew :=
  { (default : Crew) with
    partition := BitVec.ofNat 32 r.partition, strands := strands, textBase := r.textBase, textSize := r.textSize
    debug := r.f 0 43 43 = 1, system := r.system, context := r.context, crewX := x, crewY := y, stage := r.stage
    task := run, viewsUnsaved := unsaved
    bankFmt := Vector.ofFn fun b : Fin 128 => BitVec.ofNat 8 (r.banks.getD b.val 0)
    rings := Vector.ofFn fun n : Fin 8 => ringOf (r.ring n.val) }

/-- Put a run of a task on a rectangle: it takes the polders (R14, R311). -/
def State.placeRun (s : State) (die t : Nat) (cont : Option Nat) (o : Nat) : State :=
  let te := s.te die
  let x := te.task t
  let one := cont.isSome
  let w := if one then 1 else x.record.width
  let h := if one then 1 else x.record.height
  let n := if one then 1 else x.record.strands
  let id := te.runNo
  let r : Run :=
    { task := t, cont := cont, origin := o, width := w, height := h, strands := n, started := false, cancelled := false
      fault := none, wb := none, joined := false }
  let unsaved := !x.child && x.record.nviews ≠ 0 && x.record.viewSave = 0
  let s1 := s.setTe die ({ te with runNo := id + 1, runs := put id r te.runs }.setTask t { x with origin := o })
  (List.range h).foldl (fun (s : State) y => (List.range w).foldl (fun (s : State) c =>
    s.setCrew die (o + 8 * y + c) (crewStart x.record n c y id unsaved)) s) s1

/-- Put gangs of a launch on rectangles, one task each. -/
def State.placeGangs (s : State) (die l : Nat) (os : List Nat) : State :=
  os.foldl (fun (s : State) o =>
    let te := s.te die
    let x := te.launch l
    let t := te.freeTask.getD 0
    let te1 := (te.setLaunch l { x with nextGang := x.nextGang + 1 }).setTask t (x.task l x.nextGang)
    (s.setTe die te1).placeRun die t none o) s

/-- Move the scratchpad addresses of a copy command from one polder's slot to another's (R40, R341). -/
def CopyCmd.move (e : CopyCmd) (old new : Nat) : CopyCmd :=
  let f (a : Nat) : Nat := if old ≤ a && a < old + 0x800000 then a - old + new else a
  { e with
    srcPa := f e.srcPa, dstPa := f e.dstPa, srcScale := e.srcScale.map f, dstScale := e.dstScale.map f
    srcR := e.srcR.map fun r => (f r.1, r.2), dstR := e.dstR.map fun r => (f r.1, r.2) }

/-- Make a saved crew again on a polder from its container and its pool image (R340, R341). -/
def State.restoreCrew (s : State) (die base : Nat) (x : SavedCrew) (polder : Nat) : State :=
  let at_ := base + x.offset
  let n := s.readN (at_ + 4) 2
  let ws := splitWords (s.readN at_ (8 * n)) n
  let c := crewOf x.crew (s.sideHandle die x.crew.context) ws
  let c1 := { c with
    copies := c.copies.map fun e => e.move (dieAddr die (poolOffset x.polder)) (dieAddr die (poolOffset polder)) }
  let pool := dieAddr die (poolOffset polder)
  let image := at_ + 8 * n
  let s1 := (s.setCrew die polder c1).copyRange image pool (c.scratchBytes + c.accumBytes)
  let s2 := s1.copyRange (image + c.scratchBytes + c.accumBytes)
    (pool + c.scratchBytes + c.accumBytes + c.partition.toNat / 2 ^ 24 % 256 * 65536) (c.partition.toNat % 256 * 65536)
  x.strands.foldl (fun (s : State) e =>
    let st := s.remakeHandles die c.context (strandOf (s.die die) e.2 e.1 ws)
    { s with strands := put (strandKey die polder e.1) st s.strands }) (s2.endUnmade die polder)

/-- The launch that a record of kind 2 restores, by the record address in the header of its save area (R340, R341). -/
def State.savedLaunch (s : State) (die : Nat) (r : LaunchRec) : Option Nat :=
  let a := s.readN (r.entry + 8) 8
  ((s.te die).launches.find? fun l => l.2.hold = .saved && l.2.record.addr = a).map (·.1)

/-- Whether the save area that a record of kind 2 names is malformed: outside the berm, of no saved launch, or with a
header or section that the die does not accept (R341). -/
def State.saveBad (s : State) (die : Nat) (r : LaunchRec) : Bool :=
  let bytes := s.readN (r.entry + 24) 8
  r.kind = 2 && (r.entry % 256 ≠ 0 || !inBerm die r.entry 32 || s.readN (r.entry + 6) 2 ≠ 1 || !inBerm die r.entry bytes ||
    match s.savedLaunch die r with
    | none => true
    | some l =>
      let te := s.te die
      let mine := te.saved.filter fun x => (te.task (te.run x.run).task).launch = l
      s.readN (r.entry + 4) 2 ≠ mine.length || mine.any fun x =>
        let n := s.readN (r.entry + x.offset + 4) 2
        containerBad (splitWords (s.readN (r.entry + x.offset) (8 * n)) n))

/-- A gang that a restore has placed elsewhere: its task has the new origin, and its children that are not yet placed are ordered
from it (R311, R341). -/
def TaskEngine.moved (te : TaskEngine) (run o : Nat) : TaskEngine :=
  let t := (te.run run).task
  if (te.run run).cont.isSome then te
  else
    let te1 := te.setTask t { te.task t with origin := o }
    te1.ready.foldl (fun (te : TaskEngine) r => match r.work with
      | .child k => if (te.task k).parent = some t then te.setTask k { te.task k with origin := o } else te
      | _ => te) te1

/-- The origins that a restored gang tries, in order: a child's from its parent's gang, wherever that now stands (R311, R341). -/
def TaskEngine.restoreOrigins (te : TaskEngine) (placed : List (Nat × Nat)) (run : Nat) : List Nat :=
  let x := te.task (te.run run).task
  match (te.run run).cont, x.parent with
  | none, some p =>
    let here := placed.find? fun e => (te.run e.1).cont.isNone && (te.run e.1).task = p
    childOrigins ((here.map (·.2)).getD (te.task p).origin)
  | _, _ => gangOrigins x.record.stage

/-- Restore gangs of a saved launch on rectangles; with the last one the family continues (R341). -/
def State.restoreRuns (s : State) (die restore l : Nat) (rs : List (Nat × Nat)) : State :=
  let base := ((s.te die).launch restore).record.entry
  let s1 := rs.foldl (fun (s : State) ro =>
    let te := s.te die
    let r := { te.run ro.1 with origin := ro.2 }
    let mine := te.saved.filter (·.run = ro.1)
    let te1 := { (te.setRun ro.1 r).moved ro.1 ro.2 with saved := te.saved.filter (·.run ≠ ro.1) }
    mine.foldl (fun (s : State) x => s.restoreCrew die base x (r.polders.getD x.place 0)) (s.setTe die te1)) s
  let te := s1.te die
  let x := te.launch restore
  let s2 := s1.setTe die (te.setLaunch restore { x with nextGang := x.nextGang + rs.length })
  let te2 := s2.te die
  if te2.saved.any fun y => (te2.task (te2.run y.run).task).launch = l then s2
  else
    let ready : List Ready := te2.ready.filter fun r => r.work ≠ ReadyWork.gang restore
    let te3 := (te2.setLaunch l { te2.launch l with hold := .none }).setLaunch restore
      { te2.launch restore with ended := 1, closed := true }
    let s3 := s2.setTe die { te3 with ready := ready }
    { s3 with crews := s3.crews.map fun e =>
        if e.1 / 64 = die && (te2.task (te2.run e.2.task).task).launch = l then (e.1, { e.2 with halted := false }) else e }

/-- Whether a launch's family may be dispatched (R338). -/
def TaskEngine.goes (te : TaskEngine) (r : Ready) : Bool :=
  let l := match r.work with
    | .gang l => l
    | .child t => (te.task t).launch
    | .cont t _ => (te.task t).launch
    | .tag l _ _ _ => l
  (te.launch l).hold = .none

/-- Dispatch one piece of ready work if it fits: the crews it takes and the state after (R311, R312, R315). -/
def State.dispatch (s : State) (die : Nat) (r : Ready) : Option (Nat × State) :=
  let te := s.te die
  let drop (s : State) : State := s.setTe die { s.te die with ready := (s.te die).ready.filter (· ≠ r) }
  match r.work with
  | .gang l =>
    let x := te.launch l
    let w := x.record.width
    let h := x.record.height
    if x.record.kind = 2 then
      match s.savedLaunch die x.record with
      | none => some (0, drop s)
      | some sl =>
        let rec0 := (te.launch sl).record
        let ids := ((te.saved.filter fun y => (te.task (te.run y.run).task).launch = sl).map (·.run)).eraseDups
        let ids := if rec0.progress = 2 then ids else ids.take 1
        let place := ids.foldl (fun (acc : Option (List (Nat × Nat) × List Nat)) i =>
          acc.bind fun a =>
            let r := te.run i
            ((te.restoreOrigins a.1 i).find? fun o => s.fits die a.2 o r.width r.height).map fun o =>
              (a.1 ++ [(i, o)], a.2 ++ rectangle o r.width r.height)) (some ([], []))
        place.map fun a => (a.2.length, s.restoreRuns die l sl a.1)
    else
      let n := if x.record.progress = 2 then x.record.gangs - x.nextGang else 1
      if 1024 < te.tasks.length + n then none
      else
        match s.placeAll die w h (gangOrigins x.record.stage) n [] with
        | none => none
        | some os =>
          let s1 := s.placeGangs die l os
          some (n * x.record.crews, if x.nextGang + n < x.record.gangs then s1 else drop s1)
  | .child t =>
    let x := te.task t
    ((childOrigins x.origin).find? fun o => s.fits die [] o x.record.width x.record.height).map fun o =>
      (x.record.crews, (drop s).placeRun die t none o)
  | .cont t chunk =>
    ((gangOrigins (te.task t).record.stage).find? fun o => s.fits die [] o 1 1).map fun o =>
      (1, (drop s).placeRun die t (some chunk) o)
  | .tag l q e tag =>
    let x := te.launch l
    match te.freeTask with
    | none => none
    | some t =>
      ((gangOrigins x.record.stage).find? fun o => s.fits die [] o x.record.width x.record.height).map fun o =>
        let rq := (look q te.requests).getD default
        let task := { x.task l 0 with
          entry := x.record.textBase + (x.record.tags.getD e (0, 0)).2, queue := r.queue, timestamp := r.timestamp
          first := [BitVec.ofNat 64 rq.id, BitVec.ofNat 64 tag], request := some q, tag := tag }
        let s1 := drop s
        (x.record.crews, (s1.setTe die ((s1.te die).setTask t task)).placeRun die t none o)

/-- The ready work that the die serves next: of the highest backlogged level the queue of the lowest pass, and in it the
lowest timestamp, then the earliest (R313, R315). -/
def TaskEngine.nextReady (te : TaskEngine) : Option Ready :=
  let ok := te.ready.filter fun r => te.goes r && bitsOf (te.queue r.queue).cfg 63 63 = 1
  let level := (ok.map fun r => bitsOf (te.queue r.queue).cfg 57 56).foldl max 0
  let here := ok.filter fun r => bitsOf (te.queue r.queue).cfg 57 56 = level
  let better (a b : Ready) : Bool :=
    let pa := (te.queue a.queue).pass
    let pb := (te.queue b.queue).pass
    if pa ≠ pb then pa < pb
    else if a.queue ≠ b.queue then a.queue < b.queue
    else if a.timestamp ≠ b.timestamp then a.timestamp < b.timestamp
    else a.order < b.order
  here.foldl (fun (acc : Option Ready) r => match acc with
    | none => some r
    | some b => if better r b then some r else some b) none

/-- The stride of a queue (R315). -/
def Queue.stride (q : Queue) : Nat := 2 ^ 20 / (bitsOf q.cfg 41 32 + 1)

/-- Released continuations become ready, or are discarded where their task has been cancelled (R269, R313, R331). -/
def State.absorbConts (s : State) (die : Nat) : State :=
  (s.die die).released.foldl (fun (s : State) c =>
    let d := s.die die
    let s1 := s.setDie die { d with released := d.released.erase c }
    let x := (s1.te die).task c.task
    if s1.cancelledTask die x then s1.discardCont die c.task c.chunk
    else s1.pushReady die (.cont c.task c.chunk) ((s1.te die).launch x.launch).record.queue x.timestamp) s

/-- Tag-keyed launches that wait take the lowest free slot, oldest first (R319). -/
def State.assignSlots (s : State) (die : Nat) : State :=
  (s.te die).launches.foldl (fun (s : State) e =>
    let te := s.te die
    let l := te.launch e.1
    if !(l.record.kind = 0 && l.record.tagKeyed) || l.slot.isSome || l.closed then s
    else match (List.range 8).find? fun k => (look k te.slots).isNone with
      | none => s
      | some k => s.setTe die ({ te with slots := put k e.1 te.slots }.setLaunch e.1 { l with slot := some k })) s

/-- The task engine goes on after a reset: waiting requests whose next segment has passed are handled (R337). -/
def State.teResume (s : State) (die : Nat) : State :=
  let te := s.te die
  let s1 := s.setTe die { te with down := none }
  te.requests.foldl (fun (s : State) e =>
    if e.2.state ≠ 0 then s
    else
      let d := s.die die
      let l := te.launch ((look e.2.slot te.slots).getD 0)
      match look (l.record.tags.getD e.2.next (2 ^ 20, 0)).1 d.arrivals with
      | some a => if seqLater a.seq e.2.seq then s.requestNext die e.1 else s
      | none => s) s1

/-- TASK_DISPATCH: the die takes up what is waiting for it and dispatches one piece of ready work if it fits (R311-R315). -/
def execTaskDispatch (s : State) :=
  let die := s.cur.die
  answer (if (s.te die).down.isSome then s.teResume die
    else
      let s1 := (s.absorbConts die).assignSlots die
      let te := s1.te die
      if bitsOf te.ctl 0 0 = 0 then s1
      else match te.nextReady with
        | none => s1
        | some r =>
          match s1.dispatch die r with
          | none => s1
          | some (crews, s2) =>
            let te := s2.te die
            let q := te.queue r.queue
            let pass := (q.pass + q.stride * crews) % 2 ^ 64
            s2.setTe die { te.setQueue r.queue { q with pass := pass } with served := pass })

/-! ## Gang start (R77, R307) -/

/-- A strand at its start (R77, R307, R119). `regs` are registers 1 on of every stream. -/
def strandStart (c : Crew) (r : LaunchRec) (polder k : Nat) (entry : Word) (ra rx rd : List Word) (v : List (Nat × Vec)) : Strand :=
  let stream (m : Nat) (regs : List Word) : Stream :=
    let ov := r.ovBase + ((polder * 4 + k) * 3 + m) * r.ovSize
    { (default : Stream) with
      pc := entry
      regs := regs.zipIdx.foldl (fun rs w => rs.setIfInBounds (w.2 + 1) w.1) (default : Stream).regs
      ovBase := BitVec.ofNat 64 ov, ovPtr := BitVec.ofNat 64 ov, ovLimit := BitVec.ofNat 64 (ov + r.ovSize) }
  let id := BitVec.ofNat 64 (c.strandId polder k)
  { (default : Strand) with
    a := stream 0 ra, x := stream 1 rx, d := stream 2 rd
    v := v.foldl (fun vs e => vs.setIfInBounds e.1 e.2) (default : Strand).v
    srX := 0x9E3779B97F4A7C15 ^^^ id ^^^ BitVec.ofNat 64 (2 * 2 ^ 62)
    srD := 0x9E3779B97F4A7C15 ^^^ id ^^^ BitVec.ofNat 64 (3 * 2 ^ 62) }

/-- Registers 1 to 28 of one stream, and v0-v27, as a continuation record holds them (R268). `m` is the stream's number. -/
def recordRegs (ws : List Nat) (m : Nat) : List Word :=
  let mask := ws.getD 2 0
  let gs := (List.range 28).map (· + 1) |>.filter fun i => mask / 2 ^ i % 2 = 1
  (List.range 28).map fun i => match gs.idxOf? (i + 1) with
    | some k => BitVec.ofNat 64 (ws.getD (5 + 3 * k + m) 0)
    | none => 0
def recordVecs (ws : List Nat) : List (Nat × Vec) :=
  let mask := ws.getD 2 0
  let g := ((List.range 28).filter fun i => mask / 2 ^ (i + 1) % 2 = 1).length
  ((List.range 28).filter fun j => mask / 2 ^ (32 + j) % 2 = 1).zipIdx.map fun e =>
    (e.1, BitVec.ofNat 4096 (joinWords ((ws.drop (5 + 3 * g + 64 * e.2)).take 64)))

/-- Requests of an engine are kept until it has read their replies. -/
def State.keep (s : State) (ids : List Nat) : State :=
  { s with reqs := s.reqs.map fun e => if ids.contains e.1 then (e.1, { e.2 with owner := some 0 }) else e }

/-- Write back the dirty sectors of a context, and go on once they are answered: the step that an acquire or a release at
die scope of the task engine takes first (R53, R333). `wb` are the requests made, `set` records them. -/
def State.afterWriteBack (s : State) (die context : Nat) (wb : Option (List Nat)) (set : State → Option (List Nat) → State)
    (go : State → State) : State :=
  match wb with
  | some ids => if s.allReplied ids then go (set (s.forgetAll ids) none) else s
  | none =>
    let (ids, s1) := s.flush die (fun _ x => x = context) none
    if ids.isEmpty then go s else set (s1.keep ids) (some ids)

/-- Start a run's strands: its views are filled, or come back for a continuation, and every stream is at its entry (R77,
R268, R307, R332). -/
def State.startRun (s : State) (die id : Nat) : State :=
  let te := s.te die
  let r := te.run id
  let t := te.task r.task
  let s0 := s.invalidate die fun _ x => x = t.context
  let s1 := s0.setTe die (te.setRun id { r with started := true, wb := none })
  match r.cont with
  | none =>
    let s2 := s1.fillViews die r.origin t.record
    let regs := t.first ++ t.record.args
    r.polders.foldl (fun (s : State) p => (List.range r.strands).foldl (fun (s : State) k =>
      let st := strandStart (s.crew die p) t.record p k (BitVec.ofNat 64 t.entry) regs regs regs []
      { s with strands := put (strandKey die p k) st s.strands }) s) s2
  | some chunk =>
    let ws := splitWords (s.readN chunk 15048) 1881
    let src := match t.ownSlot, t.parent with
      | some x, some p => s1.slotAddr die (te.task p).record x
      | _, _ => t.record.viewSave + t.gang * t.record.viewBytes
    let s2 := if t.record.nviews = 0 then s1 else s1.copyRange src (viewsAt die r.origin t.record) t.record.viewBytes
    let s3 := s2.freeChunkAt die chunk
    let st := strandStart (s3.crew die r.origin) t.record r.origin 0 (BitVec.ofNat 64 (ws.getD 1 0)) (recordRegs ws 0)
      (recordRegs ws 1) (recordRegs ws 2) (recordVecs ws)
    { s3 with strands := put (strandKey die r.origin 0) st s3.strands }

/-- Whether a run is a gang of its launch's grid: no child, continuation or tag-keyed request. -/
def TaskEngine.gridRun (te : TaskEngine) (r : Run) : Bool :=
  let x := te.task r.task
  r.cont.isNone && !x.child && x.request.isNone

/-- The gangs of a run's grid that have been placed and not started, by gang index; of any other run, the run alone (R312). -/
def TaskEngine.waitingGangs (te : TaskEngine) (id : Nat) : List Nat :=
  let r := te.run id
  let x := te.task r.task
  if !te.gridRun r then [id]
  else
    let mine := te.runs.filter fun e =>
      !e.2.started && te.gridRun e.2 && (te.task e.2.task).launch = x.launch
    (mine.foldl (fun (t : List (Nat × Nat)) e => put (te.task e.2.task).gang e.1 t) []).map (·.2)

/-- GANG_START: every crew of a run starts in one step, after the acquire that its start is (R14, R77, R264, R307, R333). Gangs of
a grid start in the order of their indices, and a concurrent grid in one step (R312). Input: the number of the run. -/
def execGangStart (s : State) :=
  let die := s.cur.die
  let te := s.te die
  let id := s.inp.getD 0 0
  answer (match look id te.runs with
    | none => s
    | some r =>
      let x := te.task r.task
      let gangs := te.waitingGangs id
      if r.started || te.down.isSome || gangs.head? ≠ some id then s
      else
        let all := if te.gridRun r && x.record.progress = 2 then gangs else [id]
        s.afterWriteBack die x.context r.wb
          (fun s wb => s.setTe die ((s.te die).setRun id { (s.te die).run id with wb := wb }))
          fun s => all.foldl (fun (s : State) i => s.startRun die i) s)

/-! ## Strand end (R63, R99, R267, R268, R332) -/

/-- The operation of WAITC at the home: its record is written into its chunk, and is released or joins the signal object's list,
with SIG.WAITERS as the engine holds it (R262, R267, R268). An object that holds poison or breaks R262 is left as it is: the
strand's SYNCSTAT records status 5, with the error event, or 7. DESIGN CHOICE (log 58): the chunk is then freed, and the strand
ends as one that leaves no continuation; the rules do not say what becomes of the record. -/
def State.writeCont (s : State) (die task key : Nat) (st : Strand) (w : Waitc) : State :=
  let d := s.die die
  let mask := w.mask.toNat
  let gs := ((List.range 28).map (· + 1)).filter fun i => mask / 2 ^ i % 2 = 1
  let vs := (List.range 28).filter fun j => mask / 2 ^ (32 + j) % 2 = 1
  let seq := (look w.object d.sigSeq).getD 0
  let reg (st : Stream) (i : Nat) : Nat := (st.regs.get (Fin.ofNat 32 i)).toNat
  let ws := [2 ^ 48 + (5 + 3 * gs.length + 64 * vs.length) * 2 ^ 32 + seq % 2 ^ 32, w.entry.toNat, mask, w.object,
      (d.te.task task).identity task]
    ++ gs.flatMap (fun i => [reg st.a i, (w.s.getD (i - 1) 0).toNat, reg st.d i])
    ++ vs.flatMap (fun j => splitWords (w.v.getD j 0).toNat 64)
  let s1 := s.writeN w.chunk (joinWords ws) (8 * ws.length)
  let c : Cont := { chunk := w.chunk, object := w.object, seq := seq, task := task }
  let d1 := s1.die die
  let d2 := { d1 with chunks := put w.chunk 1 d1.chunks, sigSeq := put w.object ((seq + 1) % 2 ^ 32) d1.sigSeq }
  let pending := s1.readN (w.object + 6) 2
  match s1.poisonIn w.object 16 with
  | some p => ((s1.freeChunkAt die w.chunk).errorEvent die 1 3 0 p 5).syncFailed key 5
  | none =>
    if objectBad opSignal (s1.readN w.object 8) (s1.readN (w.object + 8) 8) 0 0 ≠ 0 then
      (s1.freeChunkAt die w.chunk).syncFailed key 7
    else if pending ≠ 0 then
      ((s1.setDie die { d2 with released := d2.released ++ [c] }).writeN (w.object + 6) (pending - 1) 2).writeSigWaiters die w.object
    else (s1.setDie die { d2 with conts := d2.conts ++ [c] }).writeSigWaiters die w.object

/-- Whether every command that a strand issued to the copy, matrix and sync engines has completed (R99). -/
def State.commandsDone (s : State) (die polder k : Nat) : Bool :=
  let c := s.crew die polder
  let key := strandKey die polder k
  let mine (m : MatCmd) : Bool := m.strand = k
  let act (a : Option MatActive) : Bool := match a with
    | some a => a.cmd.strand = k
    | none => false
  !(c.copies.toList.any fun e => e.state ≠ .free && e.strand = k)
    && !(c.matQ.any mine) && !(c.matU.any mine) && !act c.actQ && !act c.actU
    && ((look key s.strands).getD default).syncQ.isEmpty
    && !(s.reqs.any fun r => match r.2.purpose with
      | .sync p => p = key
      | .amax p => p = key
      | _ => false)

/-- STRAND_END: a strand fault stops the gang; a strand whose streams have ended and whose commands have completed ends,
and a continuation it leaves is registered once what it must follow has been performed (R99, R262, R267, R332). -/
def execStrandEnd (s : State) :=
  let c := s.cur
  answer (match look (strandKey c.die c.polder c.strand) s.strands with
    | none => s
    | some st =>
      let id := s.runOf c
      let te := s.te c.die
      let r := te.run id
      let crew := s.crew c.die c.polder
      if crew.endedStrands.contains c.strand || crew.halted then s
      else
        -- a strand fault ends the gang as faulted
        let s1 := match st.fault with
          | some f =>
            if r.fault.isSome then s
            else (s.setTe c.die (te.setRun id { r with fault := some f.toNat })).stopGang c.die r
          | none => s
        if !(st.a.ended && st.x.ended && st.d.ended && s1.commandsDone c.die c.polder c.strand) then s1
        else
          let crew := s1.crew c.die c.polder
          let ended (s : State) : State :=
            s.setCrew c.die c.polder { s.crew c.die c.polder with endedStrands := crew.endedStrands ++ [c.strand] }
          let s2 := ended s1
          match st.waitc with
          | none => s2
          | some w =>
            let te := s2.te c.die
            let r := te.run id
            let key := strandKey c.die c.polder c.strand
            let setWb (s : State) (wb : Option (List Nat)) : State :=
              { s with strands := put key { st with waitc := some { w with wb := wb } } s.strands }
            if r.cancelled || r.fault.isSome || s2.stopPoint c then
              let s3 := s2.freeChunkAt c.die w.chunk
              let r := (s3.te c.die).run id
              s3.setTe c.die ((s3.te c.die).setRun id { r with cancelled := r.fault.isNone })
            else if w.wb.isNone && !s.releaseReady c.die c.polder c.strand .x st.x.seq st.x.marks then s1
            else s1.afterWriteBack c.die crew.context w.wb setWb fun s => (ended s).writeCont c.die r.task key st w)

/-! ## Task end (R324, R332) -/

/-- Free a run's polders, crews and strands. -/
def State.freeRun (s : State) (die id : Nat) : State :=
  let te := s.te die
  let ps := (te.run id).polders
  let s1 := s.setTe die { te with runs := unput id te.runs }
  { s1 with
    crews := s1.crews.filter fun e => !(e.1 / 64 = die && ps.contains (e.1 % 64))
    strands := s1.strands.filter fun e => !(e.1 / 256 = die && ps.contains (e.1 / 4 % 64)) }

/-- The end of a run whose accesses have been performed: views, descendants, and the task if nothing of it is left. -/
def State.endRun (s : State) (die id : Nat) : State :=
  let te := s.te die
  let r := te.run id
  let t := r.task
  let x := te.task t
  if r.cancelled || r.fault.isSome then
    let s1 := s.cancelDescendants die t
    let te1 := s1.te die
    let y := te1.task t
    let y1 := { y with
      cancelled := y.cancelled || r.cancelled, fault := if y.fault.isSome then y.fault else r.fault, doomed := true
      children := [], foldAt := 0, pre := none, folded := 0, retained := [] }
    let s2 := (s1.setTe die (te1.setTask t y1)).freeRun die id
    if s2.hasConts die t || (s2.te die).running t then s2 else s2.finishTask die t
  else if !x.joinReady then s
  else
    let s1 := if x.children.isEmpty then s else (s.joinNow die t r.origin).2
    let own := viewsAt die r.origin x.record
    let s2 := if x.record.nviews = 0 then s1
      else match x.ownSlot, x.parent with
        | some q, some p => s1.copyRange own (s1.slotAddr die (te.task p).record q) x.record.viewBytes
        | _, _ =>
          if !x.child && s1.hasConts die t && x.record.viewSave ≠ 0 then
            s1.copyRange own (x.record.viewSave + x.gang * x.record.viewBytes) x.record.viewBytes
          else s1
    let te2 := s2.te die
    let s3 := (s2.setTe die (te2.setTask t { te2.task t with retained := [] })).freeRun die id
    if s3.hasConts die t || (s3.te die).running t then s3 else s3.finishTask die t

/-- TASK_END: every strand of a run has ended: its accesses are performed at die scope, a JOIN is performed for it, its
views are kept, its polders are freed and its position resolves (R324-R327, R332). Input: the number of the run. -/
def execTaskEnd (s : State) :=
  let die := s.cur.die
  let id := s.inp.getD 0 0
  answer (match look id (s.te die).runs with
    | none => s
    | some r =>
      let done := r.started && r.polders.all fun p =>
        let c := s.crew die p
        c.task = id && !c.halted && (List.range r.strands).all fun k => c.endedStrands.contains k
          && ((look (strandKey die p k) s.strands).getD default).rels.isEmpty
      let sent := s.reqs.any fun q => q.2.die = die && r.polders.contains q.2.unit
      if !done || sent || (s.te die).down.isSome then s
      else
        s.afterWriteBack die ((s.te die).task r.task).context r.wb
          (fun s wb => s.setTe die ((s.te die).setRun id { (s.te die).run id with wb := wb })) fun s => s.endRun die id)

end Sys2Proof.Machine
end

