-- ==== Sys2Proof/Machine/Launch.lean ====
section
/-! DEFINITION. Hardware queues, admission, retirement, launch graphs with their snippets, triggers, the issue ramp, and the
reset of the task engine (R264, R309-R319, R334-R337). -/

namespace Sys2Proof.Machine

/-! ## Queues (R313, R329, R335) -/

/-- Enter a record at the tail of a hardware queue: 0 accepted, 1 full, 2 not enabled (R329). -/
def State.enqueue (s : State) (die q addr : Nat) (host : Option Nat) : Nat × State :=
  let te := s.te die
  let x := te.queue q
  if bitsOf x.cfg 63 63 = 0 then (2, s)
  else if 64 ≤ x.pending.length then (1, s)
  else
    let r : PendingRec := { addr := addr, host := host, word0 := none, since := s.cycle }
    (0, s.setTe die (te.setQueue q { x with pending := x.pending ++ [r] }))

/-- QPUSH: a record address is enqueued, or counted as dropped (R335). Inputs: queue, value written. -/
def execQpush (s : State) :=
  let die := s.cur.die
  let q := s.inp.getD 0 0 % 32
  let (r, s1) := s.enqueue die q (s.inp.getD 1 0 % 2 ^ 52) none
  answer (if r = 0 then s1
    else
      let te := s1.te die
      s1.setTe die { te with drops := min (te.drops + 1) 255 })

/-- JOBCLR: an entry leaves the cancelled-job table (R330, R335). Input: the value written. -/
def execJobclr (s : State) :=
  let die := s.cur.die
  let v := s.inp.getD 0 0
  let te := s.te die
  let jobs := te.jobs.filter (· ≠ (v / 2 ^ 32 % 64, v % 2 ^ 32))
  answer (s.setTe die { te with jobs := jobs })

/-- Whether every gang of a launch has started (R314). -/
def Launch.allStarted (l : Launch) : Bool :=
  if l.record.kind = 0 && l.record.tagKeyed then l.slot.isSome || l.closed
  else if l.record.kind = 2 then l.ended ≠ 0
  else l.record.gangs ≤ l.nextGang

/-! ## Graph tokens (R316, R317) -/

/-- The words of a graph node. DESIGN CHOICE: a header of another version than 1 and an index at or past GH.NODES give no node, as
memory that cannot be read does; no rule gives their fate (log 60). -/
def State.graphNode (s : State) (die l n : Nat) : Option (List Word) :=
  let x := (s.te die).launch l
  (s.engineRead die x.record.entry 16).bind fun h =>
    if h / 2 ^ 48 % 2 ^ 16 ≠ 1 || h / 2 ^ 32 % 4096 ≤ n then none
    else (s.engineRead die (h / 2 ^ 64 % 2 ^ 52 + 64 * n) 64).map fun v => wordsAt v 8

/-- Replace a launch's graph. -/
def State.setGraph (s : State) (die l : Nat) (g : Graph) : State :=
  let te := s.te die
  s.setTe die (te.setLaunch l { te.launch l with graph := some g })

/-- One token to a node: with its last one the node is due to fire, and its count returns to 0 (R317). -/
def State.sendToken (s : State) (die l n : Nat) : State :=
  match ((s.te die).launch l).graph with
  | none => s
  | some g =>
    if g.done then s
    else
      let k := (look n g.tokens).getD 0 + 1
      let need := match s.graphNode die l n with
        | some ws => max 1 (bitsOf (ws.getD 0 0) 59 56)
        | none => 1
      if need ≤ k then s.setGraph die l { g with tokens := unput n g.tokens, due := g.due ++ [n] }
      else s.setGraph die l { g with tokens := put n k g.tokens }

/-- A graph with no node running and none due has completed (R317). -/
def State.graphIdle (s : State) (die l : Nat) : State :=
  match ((s.te die).launch l).graph with
  | none => s
  | some g => if g.due.isEmpty && g.running.isEmpty then s.setGraph die l { g with done := true } else s

/-- The successors of a node, all of them (R316). -/
def successors (w0 : Word) : List Nat := (List.range (bitsOf w0 49 48 + 1)).map fun i => w0.toNat / 2 ^ (12 * i) % 4096

/-- The launch of a graph node has retired: its successors take one token each (R317). -/
def State.nodeDone (s : State) (die : Nat) (node : Option (Nat × Nat)) : State :=
  match node with
  | none => s
  | some (l, n) =>
    match ((s.te die).launch l).graph with
    | none => s
    | some g =>
      let s1 := s.setGraph die l { g with running := g.running.filter (·.1 ≠ n) }
      let succ := match s1.graphNode die l n with
        | some ws => successors (ws.getD 0 0)
        | none => []
      (succ.foldl (fun s k => s.sendToken die l k) s1).graphIdle die l

/-! ## Rejection and retirement (R309, R310) -/

/-- Reject a record: its error word, its decrement, the count, and what waits on its retirement (R310). -/
def State.reject (s : State) (die : Nat) (r : LaunchRec) (code word : Nat) (host : Option Nat) (node : Option (Nat × Nat)) : State :=
  let signal := if code = 14 then 0 else r.signal
  let s0 := s.report die signal code word 0 1
  let s1 := s0.decrement die signal
  let te := s1.te die
  let s2 := s1.setTe die { te with rejects := min (te.rejects + 1) (2 ^ 32 - 1) }
  (s2.hostRetired host (s2.signalLost die signal) (s0.signalSent die signal)).nodeDone die node

/-- A record whose 256 bytes cannot be read: the count, and the error event with its address (R310). -/
def State.rejectUnread (s : State) (die addr : Nat) (host : Option Nat) (node : Option (Nat × Nat)) : State :=
  let te := s.te die
  let s1 := s.setTe die { te with rejects := min (te.rejects + 1) (2 ^ 32 - 1) }
  ((s1.errorEvent die 7 5 0 addr 0).hostRetired host false none).nodeDone die node

/-- What a record entering a queue is checked against. -/
def State.gateOf (s : State) (die q : Nat) (r : LaunchRec) : Gate :=
  { cfg := ((s.te die).queue q).cfg, ownJob := true, saveBad := s.saveBad die r }

/-- RECORD_ADMISSION: the record at the head of a queue is read as an acquire at die scope, checked, and launched or
rejected (R310, R313, R314). Input: the queue. -/
def execRecordAdmission (s : State) :=
  let die := s.cur.die
  let q := s.inp.getD 0 0 % 32
  let te := s.te die
  let x := te.queue q
  answer (match x.pending with
    | [] => s
    | p :: rest =>
      let first := match x.head with
        | none => true
        | some l => (te.launch l).allStarted && (match p.word0 with
          | some w => bitsOf w 42 42 = 1
          | none => false)
      if !first || bitsOf x.cfg 61 61 = 1 || bitsOf x.cfg 63 63 = 0 || te.down.isSome then s
      else
        let s1 := s.setTe die (te.setQueue q { x with pending := rest })
        match s1.readRecord die p.addr p.word0 with
        | none => s1.rejectUnread die p.addr p.host none
        | some r =>
          match s1.admitLaunch die (s1.gateOf die q r) r with
          | .ok r1 =>
            let (id, s2) := s1.newLaunch die r1 (if r1.kind = 2 then r1.queue else q) r1.job p.since p.host none
            let te := s2.te die
            s2.setTe die (te.setQueue q { te.queue q with head := some id })
          | .error (code, word) =>
            let s2 := s1.reject die r code word p.host none
            if r.f 0 41 41 = 0 then s2
            else
              let te := s2.te die
              s2.setTe die (te.setQueue q { te.queue q with cfg := setBits (te.queue q).cfg 61 61 1 }))

/-- OVERLAP_WORD_READ: word 0 of the record behind the head is read once, when every gang of the head's launch has started
(R314). Input: the queue. -/
def execOverlapWordRead (s : State) :=
  let die := s.cur.die
  let q := s.inp.getD 0 0 % 32
  let te := s.te die
  let x := te.queue q
  answer (match x.head, x.pending with
    | some l, p :: rest =>
      if !(te.launch l).allStarted || p.word0.isSome || te.down.isSome then s
      else match s.engineRead die p.addr 8 with
        | none => s
        | some w => s.setTe die (te.setQueue q { x with pending := { p with word0 := some (BitVec.ofNat 64 w) } :: rest })
    | _, _ => s)

/-- Whether a launch has come to its end (R309). -/
def State.launchOver (s : State) (die l : Nat) : Bool :=
  let te := s.te die
  let x := te.launch l
  let own := match x.graph with
    | some g => g.done && g.running.isEmpty
    | none =>
      if x.record.kind = 2 then x.ended ≠ 0
      else if x.record.tagKeyed then x.closed && !(te.requests.any fun r => some r.2.slot = x.slot)
      else x.record.gangs ≤ x.ended
  own && !(te.tasks.any fun t => t.2.launch = l) && !(te.ready.any fun r => match r.work with
    | .gang k => k = l
    | .tag k _ _ _ => k = l
    | _ => false)

/-- LAUNCH_RETIRE: a launch whose gangs have ended and whose effects have been performed retires: its signal is decremented,
and its queue, its slot, its graph and the host engine go on (R309, R314, R317, R319, R440, R441). Input: the launch. -/
def execLaunchRetire (s : State) :=
  let die := s.cur.die
  let l := s.inp.getD 0 0
  let te := s.te die
  answer (match look l te.launches with
    | none => s
    | some x =>
      if !s.launchOver die l || te.down.isSome then s
      else
        let signal := if x.record.kind = 2 then 0 else x.record.signal
        let s1 := s.decrement die signal
        let te := s1.te die
        let queues := te.queues.map fun q => if q.head = some l then { q with head := none } else q
        let slots := te.slots.filter (·.2 ≠ l)
        let s2 := s1.setTe die { te with launches := unput l te.launches, queues := queues, slots := slots }
        (s2.hostRetired x.host (s.signalLost die signal) (s.signalSent die signal)).nodeDone die x.node)

/-! ## Snippets (R318) -/

/-- The state of a snippet: the index of its next word and a1 to a31. -/
structure Snip where
  pc : Int
  regs : List Word
  deriving DecidableEq, Repr, Inhabited

/-- Read and write a register of the executor; a0 reads zero. -/
def Snip.get (x : Snip) (r : BitVec 5) : Word := if r = 0 then 0 else x.regs.getD r.toNat 0
def Snip.put (x : Snip) (r : BitVec 5) (v : Word) : Snip :=
  { pc := x.pc + 1, regs := if r = 0 then x.regs else x.regs.set r.toNat v }

/-- A taken or untaken branch of the executor. -/
def Snip.go (x : Snip) (taken : Bool) (off : Int) : Snip := { x with pc := x.pc + (if taken then off else 1) }

/-- One allowed word: the state after it, `some none` at EXIT, none if the word is not allowed (R318). -/
def Snip.step (x : Snip) (i : Instr) : Option (Option Snip) :=
  let rr (sf : BitVec 2) (rd ra rb : BitVec 5) (f : Word → Word → Word) : Option (Option Snip) :=
    if sf = 1 then some (some (x.put rd (f (x.get ra) (x.get rb)))) else none
  let ri (sf : BitVec 2) (rd ra : BitVec 5) (f : Word → Word) : Option (Option Snip) :=
    if sf = 1 then some (some (x.put rd (f (x.get ra)))) else none
  let br (ev : BitVec 2) (hi ra rb : BitVec 5) (lo : BitVec 8) (f : Word → Word → Bool) : Option (Option Snip) :=
    if ev = 1 then some (some (x.go (f (x.get ra) (x.get rb)) (hi ++ lo).toInt)) else none
  match i with
  | .add sf rd ra rb => rr sf rd ra rb (· + ·)
  | .sub sf rd ra rb => rr sf rd ra rb (· - ·)
  | .and sf rd ra rb => rr sf rd ra rb (· &&& ·)
  | .or sf rd ra rb => rr sf rd ra rb (· ||| ·)
  | .xor sf rd ra rb => rr sf rd ra rb (· ^^^ ·)
  | .sll sf rd ra rb => rr sf rd ra rb fun a b => a <<< shiftAmount b
  | .srl sf rd ra rb => rr sf rd ra rb fun a b => a >>> shiftAmount b
  | .sra sf rd ra rb => rr sf rd ra rb fun a b => a.sshiftRight (shiftAmount b)
  | .mul sf rd ra rb => rr sf rd ra rb (· * ·)
  | .mulhu sf rd ra rb => rr sf rd ra rb mulHighU
  | .mulh sf rd ra rb => rr sf rd ra rb mulHighS
  | .slt sf rd ra rb => rr sf rd ra rb lessS
  | .sltu sf rd ra rb => rr sf rd ra rb lessU
  | .min sf rd ra rb => rr sf rd ra rb minS
  | .max sf rd ra rb => rr sf rd ra rb maxS
  | .minu sf rd ra rb => rr sf rd ra rb minU
  | .maxu sf rd ra rb => rr sf rd ra rb maxU
  | .addi sf rd ra imm => ri sf rd ra (· + imm.signExtend 64)
  | .slti sf rd ra imm => ri sf rd ra (lessS · (imm.signExtend 64))
  | .andi sf rd ra imm => ri sf rd ra (· &&& imm.setWidth 64)
  | .ori sf rd ra imm => ri sf rd ra (· ||| imm.setWidth 64)
  | .xori sf rd ra imm => ri sf rd ra (· ^^^ imm.setWidth 64)
  | .slli sf rd ra sh => ri sf rd ra (· <<< sh.toNat)
  | .srli sf rd ra sh => ri sf rd ra (· >>> sh.toNat)
  | .srai sf rd ra sh => ri sf rd ra (·.sshiftRight sh.toNat)
  | .lui sf rd imm => ri sf rd 0 fun _ => imm.signExtend 64 <<< 13
  | .beq ev hi ra rb lo => br ev hi ra rb lo (· == ·)
  | .bne ev hi ra rb lo => br ev hi ra rb lo (· != ·)
  | .blt ev hi ra rb lo => br ev hi ra rb lo fun a b => a.slt b
  | .bge ev hi ra rb lo => br ev hi ra rb lo fun a b => !a.slt b
  | .bltu ev hi ra rb lo => br ev hi ra rb lo fun a b => a.ult b
  | .bgeu ev hi ra rb lo => br ev hi ra rb lo fun a b => !a.ult b
  | .j off => some (some (x.go true off.toInt))
  | .exit => some none
  | _ => none

/-- Run a snippet of the words `ws` with a bound on the words it executes: its result, or none where it breaks a rule (R318). -/
def snippetRun (ws : List Nat) : Nat → Snip → Option Word
  | 0, _ => none
  | fuel + 1, x =>
    if x.pc < 0 then none
    else match ws[x.pc.toNat]? with
      | none => none
      | some w => match decode (.polder false) (BitVec.ofNat 32 w) none with
        | .ok i _ => match x.step i with
          | none => none
          | some none => some (x.get 5)
          | some (some y) => snippetRun ws fuel y
        | _ => none

/-- The result of a node's snippet: its inputs in a1 to a3 and the loop firing count in a4 (R318). -/
def State.snippet (s : State) (die : Nat) (ws : List Word) (fires : Nat) : Option Word :=
  let len := if bitsOf (ws.getD 0 0) 55 50 = 0 then 64 else bitsOf (ws.getD 0 0) 55 50
  let input (i : Nat) : Option Word :=
    let a := bitsOf (ws.getD (2 + i) 0) 51 0
    if a = 0 then some 0 else (s.engineRead die a 8).map (BitVec.ofNat 64 ·)
  match s.engineRead die (bitsOf (ws.getD 1 0) 51 0) (4 * len), input 0, input 1, input 2 with
  | some text, some a, some b, some c =>
    snippetRun ((List.range len).map fun i => text / 2 ^ (32 * i) % 2 ^ 32) 1024
      { pc := 0, regs := [0, a, b, c, BitVec.ofNat 64 fires] ++ List.replicate 27 0 }
  | _, _, _, _ => none

/-- GRAPH_NODE_FIRE: a node that is due fires and acts by its kind (R317, R318). Inputs: the graph's launch and the node. -/
def execGraphNodeFire (s : State) :=
  let die := s.cur.die
  let l := s.inp.getD 0 0
  let n := s.inp.getD 1 0
  let te := s.te die
  let x := te.launch l
  answer (match x.graph with
    | none => s
    | some g =>
      if g.done || !g.due.contains n || te.down.isSome then s
      else
        let g1 := { g with due := g.due.erase n }
        let s1 := s.setGraph die l g1
        match s1.graphNode die l n with
        | none => s1.endGraph die l 0x42 (n % 32)
        | some ws =>
          let w0 := ws.getD 0 0
          let kind := bitsOf w0 63 60
          let succ (s : State) (i : Nat) : State := (s.sendToken die l (w0.toNat / 2 ^ (12 * i) % 4096)).graphIdle die l
          if kind = 0 then
            let a := bitsOf (ws.getD 1 0) 51 0
            match s1.readRecord die a none with
            | none =>
              (s1.setGraph die l { g1 with running := g1.running ++ [(n, 0)] }).rejectUnread die a none (some (l, n))
            | some r =>
              let words := r.words.set 5 (setBits (r.words.getD 5 0) 63 32 x.job)
              match s1.admitLaunch die (s1.gateOf die x.record.queue r) { r with words := words } with
              | .error (code, word) =>
                (s1.setGraph die l { g1 with running := g1.running ++ [(n, 0)] }).reject die r code word none (some (l, n))
              | .ok r1 =>
                let (id, s2) := s1.newLaunch die r1 x.record.queue x.job s.cycle none (some (l, n))
                s2.setGraph die l { g1 with running := g1.running ++ [(n, id)] }
          else if kind = 4 then s1.setGraph die l { g1 with done := true, due := [] }
          else if 4 < kind then s1.endGraph die l 0x42 (n % 32)
          else
            let c := (look n g.fires).getD 0 + 1
            match s1.snippet die ws (if kind = 3 then c else 0) with
            | none => s1.endGraph die l 0x42 (n % 32)
            | some v =>
              if kind = 1 then succ s1 (if v ≠ 0 then 1 else 0)
              else if kind = 2 then succ s1 (min v.toNat (bitsOf w0 49 48))
              else
                succ (s1.setGraph die l { g1 with fires := put n c g1.fires })
                  (if v ≠ 0 && c ≤ bitsOf (ws.getD 5 0) 31 0 then 0 else 1))

/-! ## Triggers (R264, R313) -/

/-- TRIGGER_TAKE: the task engine takes the oldest fired trigger: FIRED becomes 1, and the record is admitted (R264, R313). -/
def execTriggerTake (s : State) :=
  let die := s.cur.die
  let d := s.die die
  answer (match d.fired with
    | [] => s
    | t :: rest =>
      if d.te.down.isSome then s
      else
        let w1 := setBits (BitVec.ofNat 64 (s.readN (t.counter + 8) 8)) 61 61 1
        let s1 := (s.setDie die { d with fired := rest }).writeN (t.counter + 8) w1.toNat 8
        match s1.readRecord die t.record none with
        | none => s1.rejectUnread die t.record none none
        | some r =>
          match s1.admitLaunch die (s1.gateOf die r.queue r) r with
          | .error (code, word) => s1.reject die r code word none none
          | .ok r1 => (s1.newLaunch die r1 r1.queue r1.job s.cycle none none).2)

/-! ## The issue ramp (R334) -/

/-- Slab-steps and fillers of the last window. -/
def Die.lastRamp (d : Die) : Nat := bitsOf d.rampstat 63 32 + bitsOf d.rampstat 31 0

/-- The floor of this window: R_(k-1) less STEP, at most the cap; 0 with the limiter off (R334, R456). -/
def Die.rampFloor (d : Die) : Nat :=
  let floor := if bitsOf d.rampctl 63 63 = 0 then 0 else d.lastRamp - max 1 (bitsOf d.rampctl 11 0)
  if bitsOf d.mxcap 63 63 = 0 then floor else min floor (bitsOf d.mxcap 11 0)

/-- RAMP_FILLER_ISSUE: a filler counts as issued while real slab-steps leave the window short of its floor (R334). -/
def execRampFillerIssue (s : State) :=
  let die := s.cur.die
  let d := s.die die
  answer (if d.rampSteps + d.rampFills < d.rampFloor then s.setDie die { d with rampFills := d.rampFills + 1 } else s)

/-- RAMP_WINDOW_END: a window of 1,200 cycles ends, once its floor is reached (R334, R335). -/
def execRampWindowEnd (s : State) :=
  let die := s.cur.die
  let d := s.die die
  answer (if s.cycle < d.rampStart + 1200 || d.rampSteps + d.rampFills < d.rampFloor then s
    else s.setDie die { d with
      rampstat := BitVec.ofNat 64 (d.rampFills % 2 ^ 32 * 2 ^ 32 + d.rampSteps % 2 ^ 32)
      rampSteps := 0, rampFills := 0, rampStart := d.rampStart + 1200 })

/-! ## Reset (R337) -/

/-- Whether a word in progress is a task word whose effect has not been taken: a JOIN or a SPAWN (log 19). -/
def taskPend (p : Option Pend) : Bool := match p with
  | some p => p.data.headD 0 = 1000 || p.data.headD 0 = 1001
  | none => false

/-- TASK_ENGINE_RESET: dispatch pauses; each task word in flight goes on after the restart or takes no effect and traps
0x62, as a free value says; the error event records the reset (R61, R337). -/
def execTaskEngineReset (s : State) :=
  let die := s.cur.die
  let te := s.te die
  let s1 := s.setTe die { te with down := some s.cycle }
  let s2 := s1.strands.foldl (fun (s : State) e =>
    if e.1 / 256 ≠ die || !taskPend e.2.x.pend then s
    else
      let goes := (Config.freeWord s.fresh).toNat % 2 = 0
      let s1 := { s with fresh := s.fresh + 1 }
      if goes then s1
      else
        let ids := match e.2.x.pend with
          | some p => p.ids
          | none => []
        { s1.forgetAll ids with strands := put e.1 (e.2.trapEnter .x 0x62 0) s1.strands }) s1
  answer (s2.errorEvent die 2 5 0 (2 ^ 64 - 1) 0)

end Sys2Proof.Machine
end

