-- ==== Sys2Proof/Machine/Preempt.lean ====
section
/-! DEFINITION. Pre-emption, holding and restoring of launches (R338-R341). -/

namespace Sys2Proof.Machine

/-- End a PREEMPT request: DONE and its status (R335). -/
def State.preemptDone (s : State) (die status : Nat) : State :=
  let te := s.te die
  s.setTe die { te with preempt := BitVec.ofNat 64 (2 ^ 62 + status * 2 ^ 48) }

/-- The crews of a launch's family on a die, as run, place in the run, and polder, in the order of their runs (R338). -/
def State.familyCrews (s : State) (die l : Nat) : List (Nat × Nat × Nat) :=
  let te := s.te die
  te.runs.flatMap fun r =>
    if (te.task r.2.task).launch ≠ l then []
    else (r.2.polders.zipIdx.filter fun p => (s.crew die p.1).task = r.1 && (s.crew? die p.1).isSome).map fun p => (r.1, p.2, p.1)

/-- The waiter of a request at its home, with the home's die (R258). -/
def State.waiterOf (s : State) (id : Nat) : Option (Nat × Waiter) :=
  match look id s.reqs with
  | none => none
  | some r =>
    (List.range 16).findSome? fun d => ((s.die d).waiters.find? fun w => match w.origin with
      | .here i => i = id
      | .packet p => r.tag = some p.tag && p.gen = r.gen && p.srcDie = r.die && p.unit = r.unit % 64 && p.eng = (64 ≤ r.unit)
          && p.cls = r.cls).map fun w => (d, w)

/-- Drop the word a stream has in progress: it counts as not issued (R338). -/
def State.dropPend (s : State) (c : Ctx) (p : Pend) : State :=
  let s1 := s.forgetAll p.ids
  s1.setStream c { s1.stream c with pend := none, wait := none }

/-- A load in flight that is abandoned: its word counts as issued, with its tokens taken and its registers popped, and is kept to
be issued again (R158, R159). Any other word in progress counts as not issued. -/
def State.abandonLoad (s : State) (c : Ctx) (p : Pend) : State :=
  let t := { s with cur := c }
  let a := s.stream c
  match (t.fetch32 a.pc.toNat).bind fun w => (pendForm w).map fun f => (w, f) with
  | none => s.dropPend c p
  | some (w, _, ra, rb, takes) =>
    let r : Res (Word × Word × State) := do
      let s1 ← if takes then takeTok (some 1) t else pure t
      let (x, s2) ← readReg ra s1
      let (y, s3) ← match rb with
        | some r => readReg r s2
        | none => pure (0, s2)
      pure (x, y, s3)
    match r with
    | .error _ => s.dropPend c p
    | .ok (x, y, s1) =>
      let st := s1.strand c
      let load : PendLoad := { word := w, ra := x, rb := y, pc := a.pc, loops := a.loops }
      let s2 := s1.setStrand c { st with load := some load, a := { st.a.advance 1 with loopBuf := a.loopBuf } }
      { s2.forgetAll p.ids with cur := s.cur }

/-- Bring one stream of a stopped strand to its stop: a word that waits counts as not issued, and a word that has been sent
goes on (R159, R192, R274, R305, R339). -/
def State.settle (s : State) (c : Ctx) : State :=
  match (s.stream c).pend with
  | none => s
  | some p =>
    let kind := p.data.headD 0
    match c.str with
    | .d => if kind = 900 || kind = 1003 then s.dropPend c p else s
    | .a =>
      let plain := p.ids.any fun i => match look i s.reqs with
        | some r => r.purpose = .plain
        | none => false
      -- acquire loads and SO loads go on, and so does CCANCEL, whose list names its entries
      if plain || (p.ids.isEmpty && p.data.length = 1) then s else s.abandonLoad c p
    | .x =>
      if kind = 0 || kind = 900 || kind = 1000 || kind = 1001 || kind = 1003 || kind = 1004 then s.dropPend c p
      else if kind ≠ 1 then s
      else match s.waiterOf (p.ids.headD 0) with
        | some (home, w) =>
          let s1 := s.setDie home ((s.die home).dropWaiter w)
          ({ s1 with reqs := p.ids.foldl (fun rs i => unput i rs) s1.reqs }).dropPend c p
        | none => s

/-- Fetches of a load stream in flight are abandoned (R159). -/
def AffineStream.unfetched (x : AffineStream) : AffineStream :=
  match x.flight with
  | some k => { x with next := k, flight := none, reqs := [] }
  | none => x

/-- Stop a strand (R338). -/
def State.stopStrand (s : State) (die polder k : Nat) : State :=
  let c : Ctx := { die := die, polder := polder, strand := k, str := .a, rot := false }
  let s1 := ((s.settle c).settle { c with str := .x }).settle { c with str := .d }
  match s1.strand? c with
  | none => s1
  | some st =>
    let ids (x : Option AffineStream) : List Nat := match x with
      | some x => x.reqs
      | none => []
    let wb := (st.waitc.bind (·.wb)).getD []
    (s1.forgetAll (ids st.ls0 ++ ids st.ls1 ++ wb)).setStrand c
      { st with
        ls0 := st.ls0.map AffineStream.unfetched, ls1 := st.ls1.map AffineStream.unfetched
        waitc := st.waitc.map fun w => { w with wb := none } }

/-- Units of a crew's copies whose writes have not begun are dropped; a merge that has not begun to write starts again from its
reads (R223). -/
def State.stopCopies (s : State) (die polder : Nat) : State :=
  let c := s.crew die polder
  let ids := c.copies.toList.flatMap fun e => (e.flight.filter fun f => !f.writing).flatMap (·.ids)
  (s.forgetAll ids).setCrew die polder
    { c with copies := c.copies.map fun e => { e with
        flight := e.flight.filter (·.writing), merged := if e.mergeWrites then e.merged else none } }

/-- Stop every crew of a family (R338). -/
def State.stopFamily (s : State) (die l : Nat) : State :=
  (s.familyCrews die l).foldl (fun (s : State) x =>
    let p := x.2.2
    let s1 := s.setCrew die p { s.crew die p with halted := true }
    (List.range (s1.crew die p).strands).foldl (fun (s : State) k => s.stopStrand die p k) (s1.stopCopies die p)) s

/-- The strands of a crew by index. -/
def State.crewStrands (s : State) (die polder : Nat) : List (Nat × Strand) :=
  (List.range 4).filterMap fun k => (look (strandKey die polder k) s.strands).map fun st => (k, st)

/-- Bytes of a crew's container and pool image (R340). -/
def State.savedBytes (s : State) (die polder : Nat) : Nat :=
  let c := s.crew die polder
  8 * containerWords ((s.crewStrands die polder).map (·.2)) + c.scratchBytes + c.accumBytes + c.partition.toNat % 256 * 65536

/-- The launch that PREEMPTREC names, among those that stand as `ok` says (R335). -/
def State.namedLaunch (s : State) (die : Nat) (ok : Hold → Bool) : Option Nat :=
  let te := s.te die
  (te.launches.find? fun l => l.2.record.addr = bitsOf te.preemptRec 51 0 && l.2.record.kind = 0 && ok l.2.hold).map (·.1)

/-- Whether the save area has room for a family and lies in the berm (R335, status 2). -/
def State.saveFits (s : State) (die l : Nat) : Bool :=
  let te := s.te die
  let base := bitsOf te.saveBase 51 0
  let bytes := (s.familyCrews die l).foldl (fun n x => n + s.savedBytes die x.2.2) 32
  base % 256 = 0 && bytes ≤ te.saveSize.toNat && inBerm die base bytes

/-- Begin a stop: PREEMPT.GO saves the launch, PREEMPT.HOLD holds it in place (R335, R338). -/
def State.preemptStop (s : State) (die : Nat) (save : Bool) : State :=
  let te := s.te die
  if te.stopping.isSome then s.setTe die { te with preempt := setBits te.preempt 55 48 3 }
  else match s.namedLaunch die fun h => h = .none || (save && h = .held) with
    | none => s.preemptDone die 1
    | some l =>
      if save && !s.saveFits die l then s.preemptDone die 2
      else
        let x := te.launch l
        let te1 : TaskEngine := { te.setLaunch l { x with hold := .stopping } with
          preempt := BitVec.ofNat 64 (if save then 2 ^ 63 else 2 ^ 61), stopping := some (l, save) }
        (s.setTe die te1).stopFamily die l

/-- PREEMPT_GO (R338). -/
def execPreemptGo (s : State) := answer (s.preemptStop s.cur.die true)

/-- PREEMPT_HOLD (R338). -/
def execPreemptHold (s : State) := answer (s.preemptStop s.cur.die false)

/-- The container of a crew on a polder (R340). -/
def State.container (s : State) (die polder : Nat) : List Nat :=
  let c := s.crew die polder
  containerOf (s.die die) c ((s.te die).run c.task).task polder ((s.crewStrands die polder).map (·.2))

/-- A crew and its strands as a container, as written, gives them (R338, R340). -/
def State.continueCrew (s : State) (die polder : Nat) (ws : List Nat) : State :=
  let c := s.crew die polder
  let s1 := s.setCrew die polder (crewOf c (s.sideHandle die c.context) ws)
  (s.crewStrands die polder).foldl (fun (s : State) e =>
    let st := s.remakeHandles die c.context (strandOf (s.die die) e.2 e.1 ws)
    { s with strands := put (strandKey die polder e.1) st s.strands })
    (s1.endUnmade die polder)

/-- The held crews of a launch take their containers as written. -/
def State.continueAll (s : State) (die l : Nat) : State :=
  (s.familyCrews die l).foldl (fun (s : State) x =>
    match look x.2.2 (s.te die).containers with
    | none => s
    | some ws =>
      let s1 := s.continueCrew die x.2.2 (ws.map (·.toNat))
      let te := s1.te die
      s1.setTe die { te with containers := unput x.2.2 te.containers }) s

/-- A held launch goes on from its containers as written (R338). -/
def State.preemptResume (s : State) (die : Nat) : State :=
  let te := s.te die
  if te.stopping.isSome then s.setTe die { te with preempt := setBits te.preempt 55 48 3 }
    else match s.namedLaunch die (· = .held) with
      | none => s.preemptDone die 1
      | some l =>
        let s1 := s.continueAll die l
        let te := s1.te die
        let s2 := s1.setTe die (te.setLaunch l { te.launch l with hold := .none })
        let s3 := (s2.familyCrews die l).foldl (fun (s : State) x =>
          s.setCrew die x.2.2 { s.crew die x.2.2 with halted := false }) s2
        s3.preemptDone die 0

/-- PREEMPT_RESUME (R338). -/
def execPreemptResume (s : State) := answer (s.preemptResume s.cur.die)

/-- Releases of a saved strand that have retired are performed all the same: each sends the write-backs of its context that it
waits for, and is left to the die (R301, R305). -/
def State.orphan (s : State) (die context key : Nat) (st : Strand) : State :=
  st.rels.foldl (fun (s : State) r =>
    let (ids, s1) := if r.wide then s.flush die (fun _ x => x = context) none else ([], s)
    let d := s1.die die
    s1.setDie die { d with orphans := d.orphans ++ [(key, { r with wb := some ids })] }) s

/-- The task records of a saved launch are freed, and its signal is decremented with code 0x40 (R341). -/
def State.preemptDiscard (s : State) (die : Nat) : State :=
  let te := s.te die
  if te.stopping.isSome then s.setTe die { te with preempt := setBits te.preempt 55 48 3 }
    else match s.namedLaunch die (· = .saved) with
      | none => s.preemptDone die 1
      | some l =>
        let x := te.launch l
        let mine (i : Nat) : Bool := (te.task i).launch = l
        let ready : List Ready := te.ready.filter fun r => match r.work with
          | .gang k => k ≠ l
          | .child t => !mine t
          | .cont t _ => !mine t
          | .tag k _ _ _ => k ≠ l
        let reqs := match x.slot with
          | none => te.requests
          | some k => te.requests.filter fun e => e.2.slot ≠ k
        let te1 : TaskEngine := { te with
          ready := ready, requests := reqs, launches := unput l te.launches
          slots := te.slots.filter fun e => e.2 ≠ l
          queues := te.queues.map fun q => if q.head = some l then { q with head := none } else q
          tasks := te.tasks.filter fun t => t.2.launch ≠ l
          runs := te.runs.filter fun r => !mine r.2.task
          saved := te.saved.filter fun y => !mine (te.run y.run).task }
        let s := (te.saved.filter fun y => mine (te.run y.run).task).foldl (fun (s : State) y =>
          y.strands.foldl (fun (s : State) e => s.orphan die y.crew.context (strandKey die y.polder e.1) e.2) s) s
        let d := s.die die
        let conts : List Cont := d.conts.filter fun c => mine c.task
        let d1 : Die := { d with
          conts := d.conts.filter (fun c => !mine c.task), released := d.released.filter (fun c => !mine c.task)
          chunks := conts.foldl (fun cs c => unput c.chunk cs) d.chunks, te := te1 }
        let signal := x.record.signal
        let s0 := ((s.setDie die d1).sendMirror die).report die signal 0x40 0 0 1
        let s1 := s0.decrement die signal
        ((s1.hostRetired x.host (s.signalLost die signal) (s0.signalSent die signal)).nodeDone die x.node).preemptDone die 0

/-- PREEMPT_DISCARD (R341). -/
def execPreemptDiscard (s : State) := answer (s.preemptDiscard s.cur.die)

/-- Whether a stopped stream has nothing left in progress but a give that its full token FIFO holds back. -/
def State.settled (s : State) (st : Stream) : Bool :=
  match st.pend with
  | none => true
  | some p => st.wait = some .token && s.allReplied p.ids

/-- Whether a stopped family has come to rest (R338). -/
def State.atRest (s : State) (die l : Nat) : Bool :=
  let te := s.te die
  let ps := s.familyCrews die l
  let begun := te.runs.all fun r => (te.task r.2.task).launch ≠ l || r.2.started
  let sent := s.reqs.any fun r => r.2.die = die && r.2.reply.isNone && ps.any fun x => x.2.2 = r.2.unit
  begun && !sent && ps.all fun x =>
    let c := s.crew die x.2.2
    (c.copies.toList.all fun e => e.state = .free || (e.flight.isEmpty && !e.mergeWrites)) && (s.crewStrands die x.2.2).all fun e =>
      let st := e.2
      let idle (a : Option AffineStream) : Bool := match a with
        | some a => a.flight.isNone
        | none => true
      s.settled st.a && s.settled st.x && s.settled st.d && idle st.ds0 && idle st.ds1 && st.rels.all fun r => r.wb.isNone

/-- Waiters of a family that have registered since the stop are withdrawn (R274). -/
def State.withdrawWaiters (s : State) (die l : Nat) : State :=
  (s.familyCrews die l).foldl (fun (s : State) x =>
    (List.range (s.crew die x.2.2).strands).foldl (fun (s : State) k =>
      s.settle { die := die, polder := x.2.2, strand := k, str := .x, rot := false }) s) s

/-- Write one crew into the save area, and free its polder (R338, R340). The offset is in bytes from the area's start. -/
def State.saveCrew (s : State) (die base : Nat) (x : Nat × Nat × Nat) (off : Nat) : State :=
  let p := x.2.2
  let c := s.crew die p
  let ws := s.container die p
  let image := base + off + 8 * ws.length
  let pool := dieAddr die (poolOffset p)
  let s1 := s.writeN (base + off) (joinWords ws) (8 * ws.length)
  let s2 := s1.copyRange pool image (c.scratchBytes + c.accumBytes)
  let s3 := s2.copyRange (pool + c.scratchBytes + c.accumBytes + c.partition.toNat / 2 ^ 24 % 256 * 65536)
    (image + c.scratchBytes + c.accumBytes) (c.partition.toNat % 256 * 65536)
  let te := s3.te die
  let e : SavedCrew :=
    { run := x.1, place := x.2.1, polder := p, offset := off, crew := c, strands := s3.crewStrands die p }
  let s4 := s3.setTe die { te with saved := te.saved ++ [e] }
  { s4 with
    crews := s4.crews.filter (fun e => e.1 ≠ crewKey die p)
    strands := s4.strands.filter (fun e => e.1 / 4 ≠ crewKey die p) }

/-- Save a family: the header, then a container and a pool image for each crew (R340). -/
def State.saveFamily (s : State) (die l : Nat) : State :=
  let te := s.te die
  let base := bitsOf te.saveBase 51 0
  let x := te.launch l
  let ps := s.familyCrews die l
  let (total, s1) := ps.foldl (fun (acc : Nat × State) c =>
    (acc.1 + acc.2.savedBytes die c.2.2, acc.2.saveCrew die base c acc.1)) (32, s)
  s1.writeN base (joinWords [2 ^ 48 + ps.length * 2 ^ 32, x.record.addr, x.nextGang, total]) 32

/-- PREEMPT_STOP_COMPLETE: once the slowest reply has arrived or timed out, a held launch's containers can be read and
written, and a launch to be saved is written to its save area and frees its polders (R338, R340). -/
def execPreemptStopComplete (s : State) :=
  let die := s.cur.die
  let te := s.te die
  answer (match te.stopping with
    | none => s
    | some (l, save) =>
      if !s.atRest die l || te.down.isSome then s.withdrawWaiters die l
      else if save && !s.saveFits die l then
        -- a gang that started meanwhile has outgrown the area: the launch stays held
        let s1 := s.setTe die ({ te with stopping := none }.setLaunch l { te.launch l with hold := .held })
        s1.preemptDone die 2
      else if save then
        let s1 := (s.continueAll die l).saveFamily die l
        let te1 := s1.te die
        (s1.setTe die ({ te1 with stopping := none }.setLaunch l { te1.launch l with hold := .saved })).preemptDone die 0
      else
        let cs : List (Nat × List Word) := (s.familyCrews die l).foldl (fun cs x =>
          put x.2.2 ((s.container die x.2.2).map fun w => BitVec.ofNat 64 w) cs) te.containers
        let te1 : TaskEngine := { te with stopping := none, containers := cs }
        (s.setTe die (te1.setLaunch l { te.launch l with hold := .held })).preemptDone die 0)

/-- SNAPDATA as it reads: the selected word of a held crew's container (R335). -/
def TaskEngine.snapWord (te : TaskEngine) : Word :=
  ((look (bitsOf te.snapSel 37 32) te.containers).getD []).getD (bitsOf te.snapSel 15 0) 0

/-- Write SNAPDATA (R335, R338). -/
def State.writeSnap (s : State) (die : Nat) (v : Word) : State :=
  let te := s.te die
  let p := bitsOf te.snapSel 37 32
  match look p te.containers with
  | none => s
  | some ws => s.setTe die { te with containers := put p (ws.set (bitsOf te.snapSel 15 0) v) te.containers }

/-- SNAPDATA_WRITE: the selected word of a held crew's container takes a value (R338). Input: the value. -/
def execSnapdataWrite (s : State) := answer (s.writeSnap s.cur.die (BitVec.ofNat 64 (s.inp.getD 0 0)))

end Sys2Proof.Machine
end

