-- ==== Sys2Proof/Machine/Ring.lean ====
section
/-! DEFINITION. The ring engine: segments, forwarding, freeboard, the segment table, the ring words of a rotation program,
parity, repair and its events (R342-R374). -/

namespace Sys2Proof.Machine

/-! ## Frames (R343) -/

/-- One bit step of CRC-64. -/
def crcShift (c : Nat) : Nat → Nat
  | 0 => c
  | n + 1 => crcShift (if 2 ^ 63 ≤ c then (2 * c % 2 ^ 64) ^^^ 0x42F0E1EBA9EA3693 else 2 * c) n

/-- CRC-64 of `n` bytes of a number, byte 0 first, most significant bit of each byte first (R343). -/
def crc64 (x : Nat) : Nat → Nat → Nat
  | 0, c => c
  | n + 1, c => crc64 (x / 256) n (crcShift (c ^^^ x % 256 * 2 ^ 56) 8)

/-! ## The segment table (R345, R351) -/

/-- A descriptor. -/
def Die.seg (d : Die) (i : Nat) : Word := (look i d.desc).getD 0

/-- Replace a descriptor; those beyond 16,383 do not exist. -/
def State.setSeg (s : State) (die i : Nat) (w : Word) : State :=
  if 16384 ≤ i then s else s.setDie die { s.die die with desc := put i w (s.die die).desc }

/-- SEG.VALID, SEG.TAG, SEG.BAD, SEG.STRIPE of a descriptor. -/
def segValid (w : Word) : Bool := bitsOf w 63 63 = 1
def segTag (w : Word) : Bool := bitsOf w 61 61 = 1
def segBad (w : Word) : Bool := bitsOf w 58 58 = 1
def segStripe (w : Word) : Nat := bitsOf w 47 32

/-- SEG.WHERE and SEG.KEEP follow the copies that the die has (R345, R351). -/
def State.showSeg (s : State) (die i : Nat) : State :=
  let r := s.rg die
  let kept := look i r.kept
  let place := if r.queue.contains i then 1 else if kept.isSome then 3 else if r.retained.contains i then 2 else 0
  let keep := match kept with
    | some true => 2
    | some false => 1
    | none => 0
  s.setSeg die i (setBits (setBits ((s.die die).seg i) 56 54 place) 60 59 keep)

/-- Where the window of a die shows a segment. -/
def Die.segAddr (d : Die) (die i : Nat) : Nat := dieAddr die (i * d.segSize)

/-! ## Slots and freeboard (R348, R349, R359) -/

/-- Slots of the basin. -/
def Die.slots (d : Die) : Nat := 2 ^ 30 / d.segSize

/-- Slots that take precedence over retained copies. -/
def RingEngine.firm (r : RingEngine) : Nat := r.queue.length + r.kept.length + r.jobs.length

/-- The effective freeboard. -/
def Die.freeboard (d : Die) : Nat := min d.rg.request (d.slots - d.rg.firm)

/-- Release retained copies, oldest first, down to `n` (R348, R349). -/
def State.retainOnly (s : State) (die n : Nat) : State :=
  let r := s.rg die
  let gone := r.retained.take (r.retained.length - n)
  gone.foldl (fun (s : State) i => s.showSeg die i) (s.setRg die { r with retained := r.retained.drop (r.retained.length - n) })

/-- The freeboard after a change of what else takes slots (R359). -/
def State.trimFreeboard (s : State) (die : Nat) : State := s.retainOnly die (s.die die).freeboard

/-- Whether one more slot can be had. -/
def Die.hasRoom (d : Die) : Bool := d.rg.firm < d.slots

/-- Queue an event for the rotation program; a full queue drops it (R354). -/
def State.ringEvent (s : State) (die kind seg detail : Nat) : State :=
  let r := s.rg die
  if 64 ≤ r.events.length then s.setRg die { r with count := satAdd r.count 7 0 1 }
  else s.setRg die { r with events := r.events ++ [kind * 2 ^ 60 + seg % 2 ^ 20 * 2 ^ 32 + detail % 2 ^ 32] }

/-- Add to a field of RGCOUNT. -/
def State.ringCount (s : State) (die hi lo : Nat) : State :=
  let r := s.rg die
  s.setRg die { r with count := satAdd r.count hi lo 1 }

/-! ## Tags (R29, R30, R91, R319, R344) -/

/-- Raise the tag of a segment: its arrival record, the copies that wait for it, and the requests (R91, R216, R320). -/
def State.raiseTag (s : State) (die i rot : Nat) : State :=
  let te := s.te die
  let seq := (te.tagSeq + 1) % 2 ^ 32
  let s1 := s.setTe die { te with tagSeq := seq }
  let d := s1.die die
  let s2 := if 2 ^ 34 ≤ i * d.segSize then s1
    else s1.setDie die { d with arrivals := put i { rotation := BitVec.ofNat 8 rot, seq := seq } d.arrivals }
  let s3 := s2.resumeCopies die i
  if te.down.isSome then s3 else s3.tagDispatch die i (rot % 256) seq

/-! ## Forwarding (R347) -/

/-- The next transfer starts if the die forwards, no hold stops it and its queue is not empty. A die that leaves the ring
drains its queue during the hold (R362, R366). -/
def State.startNext (s : State) (die : Nat) : State :=
  let d := s.die die
  let r := d.rg
  let drains := match r.hold with
    | some h => (h.kind = 1 || h.kind = 4) && h.target = die
    | none => false
  let goes := drains || (bitsOf d.rgctl 50 50 = 1 && r.state ≠ 2 && r.state ≠ 4 && r.state ≠ 5)
  if r.sending || r.queue.isEmpty || !goes then s else s.setRg die { r with sending := true }

/-- Take a segment out of the forwarding queue; a transfer of it ends. -/
def State.unqueue (s : State) (die i : Nat) : State :=
  let r := s.rg die
  if !r.queue.contains i then s
  else
    let s1 := s.setRg die { r with queue := r.queue.filter (· ≠ i), sending := r.sending && r.queue.head? ≠ some i }
    (s1.showSeg die i).startNext die

/-- Put a segment at the tail of the forwarding queue. -/
def State.enqueueSeg (s : State) (die i : Nat) : State :=
  let r := s.rg die
  ((s.setRg die { r with queue := r.queue ++ [i] }).trimFreeboard die).showSeg die i

/-- The frame of a copy that the die holds. -/
def State.frameOf (s : State) (die i : Nat) : Frame :=
  let d := s.die die
  let w := d.seg i
  { index := i, rot := bitsOf w 31 24, kind := bitsOf w 62 62, bad := segBad w, stripe := segStripe w, member := bitsOf w 53 50
    crc := (look i d.rg.crcs).getD 0, payload := s.readN (d.segAddr die i) d.segSize
    poison := (s.poisonIn (d.segAddr die i) d.segSize).isSome }

/-- Store a payload in the basin with its CRC (R346). -/
def State.storeSeg (s : State) (die i payload crc : Nat) : State :=
  let d := s.die die
  let s1 := s.writeN (d.segAddr die i) payload d.segSize
  let r := s1.rg die
  s1.setRg die { r with crcs := put i crc r.crcs }

/-! ## Drops (R357) -/

/-- Whether a segment is in a forwarding queue of the ring, or on its way. -/
def State.segPasses (s : State) (die i : Nat) : Bool :=
  (s.ringDies die).any fun e => (s.rg e).queue.contains i || (s.rg e).ingress.any fun f => f.index = i

/-- A drop issued here has ended once its record is back and the segment has left: event 9 (R357). -/
def State.dropEnd (s : State) (die i : Nat) : State :=
  let r := s.rg die
  match look i r.drops with
  | some (true, left) =>
    if left || !s.segPasses die i then
      let s1 := (s.setRg die { r with drops := unput i r.drops }).ringEvent die 9 i 0
      (s1.ringDies die).foldl (fun (s : State) e => s.setRg e { s.rg e with past := (s.rg e).past.filter (· ≠ i) }) s1
    else s
  | _ => s

/-- The drop record at a die: SEG.VALID clears, and its retained and kept copies are released (R357). -/
def State.dropHere (s : State) (die i : Nat) : State :=
  let r := s.rg die
  let s1 := s.setRg die { r with
    retained := r.retained.filter (· ≠ i), kept := unput i r.kept, pins := r.pins.filter (· ≠ i)
    withholds := r.withholds.filter (· ≠ i), dropped := if r.dropped.contains i then r.dropped else i :: r.dropped }
  (s1.setSeg die i (setBits ((s1.die die).seg i) 63 63 0)).showSeg die i

/-- Take up a drop record: it goes on round the ring, or has come back (R357). -/
def State.takeDrop (s : State) (die i origin : Nat) : State :=
  let s1 := s.dropHere die i
  let r := s1.rg die
  if origin = die then
    (s1.setRg die { r with drops := match look i r.drops with
      | some (_, left) => put i (true, left) r.drops
      | none => r.drops }).dropEnd die i
  else (s1.setRg die { r with past := if r.past.contains i then r.past else i :: r.past }).sendCtl die (.drop i origin)

/-! ## Loss (R369) -/

/-- Report a segment lost: event 5, the count, and SEG.LOST here and by a control record on every die (R369). -/
def State.reportLost (s : State) (die i reason : Nat) : State :=
  let s1 := ((s.ringEvent die 5 i reason).ringCount die 31 16)
  (s1.setSeg die i (setBits ((s1.die die).seg i) 57 57 1)).sendCtl die (.lost i die)

/-! ## Repair (R368) -/

/-- Whether every segment of a repair has been inserted or reported lost. -/
def Repair.over (p : Repair) : Bool := p.order.all fun i => p.inserted.contains i || p.lost.contains i

/-- A repair moves on; at its end every survivor queues event 7 and the ring runs again (R368). -/
def State.setRepair (s : State) (die : Nat) (p : Repair) : State :=
  let dies := (s.ringDies die).filter fun e => !(s.die e).bypassed
  if p.over then
    dies.foldl (fun (s : State) e =>
      let r := s.rg e
      let s1 := s.setRg e { r with repair := none, state := if r.state = 2 then 2 else 0 }
      (s1.ringEvent e 7 0 (p.inserted.length + 65536 * p.resent)).startNext e) s
  else dies.foldl (fun (s : State) e => s.setRg e { s.rg e with repair := some p }) s

/-- A segment that a survivor was to rebuild is lost (R369). -/
def State.repairLost (s : State) (die i reason : Nat) : State :=
  let r := s.rg die
  let s1 := (s.setRg die { r with jobs := r.jobs.filter fun j => !(j.mode = 2 && j.target = i) }).reportLost die i reason
  match (s1.rg die).repair with
  | none => s1
  | some p => s1.setRepair die { p with lost := p.lost ++ [i] }

/-- The segment after which a rebuilt segment is inserted: the last one before it that is in the stream again, or the one
before the gap (R368). -/
def Repair.before (p : Repair) (i : Nat) : Option Nat :=
  let earlier := (p.order.takeWhile (· ≠ i)).filter p.inserted.contains
  match earlier.getLast? with
  | some j => some j
  | none => p.gap

/-- The other members of a segment's stripe, as the die's table gives them (R364). -/
def Die.others (d : Die) (i stripe : Nat) : List Nat :=
  (d.desc.filter fun e => e.1 ≠ i && (segValid e.2 || segBad e.2) && segStripe e.2 = stripe).map (·.1)

/-- Why a stripe cannot rebuild one of its members: another one lost 1, or withheld, bad or dropped 2; members that have been
folded do not count (R357, R358, R369). -/
def State.stripeBroken (s : State) (die i stripe : Nat) (missing folded : List Nat) : Option Nat :=
  let d := s.die die
  let dies := s.ringDies die
  let withheld (j : Nat) : Bool := dies.any fun e => look j (s.rg e).kept = some true
  let gone := d.rg.dropped.any fun j => j ≠ i && !folded.contains j && !segValid (d.seg j) && segStripe (d.seg j) = stripe
  let rest := (d.others i stripe).filter fun j => !folded.contains j
  if rest.any fun j => missing.contains j || bitsOf (d.seg j) 57 57 = 1 then some 1
  else if gone || rest.any fun j => withheld j || segBad (d.seg j) then some 2
  else none

/-! ## Arrival (R344) -/

/-- The effects of a good arrival: the event and the tag; behind a drop record no tag is raised (R344, R352, R357). -/
def State.arrived (s : State) (die i rot : Nat) (dropped : Bool) : State :=
  let d := s.die die
  let s1 := if bitsOf d.rgctl 49 49 = 1 then s.ringEvent die 1 i rot else s
  if segTag (d.seg i) && !dropped then s1.raiseTag die i rot else s1

/-- The descriptor of a segment that comes to this die. A bad copy has not arrived, and behind a drop record no copy makes the
segment one of the ring again: VALID stays (R344, R351, R357). -/
def newSeg (old : Word) (f : Frame) (bad dropped : Bool) : Word :=
  BitVec.ofNat 64 ((if (bad || dropped) && !segValid old then 0 else 2 ^ 63) + f.kind * 2 ^ 62 + bitsOf old 61 61 * 2 ^ 61
    + (if bad then 2 ^ 58 else 0) + f.member % 16 * 2 ^ 50 + f.stripe % 65536 * 2 ^ 32 + f.rot % 256 * 2 ^ 24)

/-- Insert at this die the rebuilt segments that follow a segment in the stream (R368). -/
def State.insertRebuilt (s : State) (die : Nat) : Nat → Nat → State
  | 0, _ => s
  | fuel + 1, x =>
    let r := s.rg die
    match r.repair with
    | none => s
    | some p =>
      match r.jobs.find? fun j => j.mode = 2 && j.done && p.before j.target = some x with
      | none => s
      | some j =>
        let i := j.target
        let d := s.die die
        let w := d.seg i
        let f : Frame :=
          { index := i, rot := bitsOf w 31 24, kind := bitsOf w 62 62, bad := false, stripe := j.stripe
            member := bitsOf w 53 50, crc := j.crc, payload := j.payload, poison := false }
        let s1 := s.setRg die { r with jobs := r.jobs.filter (· ≠ j) }
        let s2 := (s1.storeSeg die i j.payload j.crc).setSeg die i (newSeg w f false false)
        let s3 := (((s2.enqueueSeg die i).arrived die i f.rot false).ringEvent die 3 i 1).ringCount die 47 32
        (s3.setRepair die { p with inserted := p.inserted ++ [i] }).insertRebuilt die fuel i

/-- A frame whose check fails here: the count, event 4, and the mark that this die has found it (R56, R365). -/
def State.foundBad (s : State) (die i : Nat) : State :=
  let r := s.rg die
  ((s.setRg die { r with found := if r.found.contains i then r.found else i :: r.found }).ringCount die 63 48).ringEvent die 4 i 1

/-- Whether a frame's payload fails its check here (R343, R344). -/
def State.fails (s : State) (die : Nat) (f : Frame) (damaged : Bool) : Bool :=
  !f.bad && (damaged || f.poison || crc64 f.payload (s.die die).segSize 0 ≠ f.crc)

/-- The place of a segment that comes in: kept where it is to be withheld, and else at the tail of the forwarding queue (R347,
R358). -/
def State.queueSeg (s : State) (die i : Nat) : State :=
  let r := s.rg die
  if r.withholds.contains i then
    (s.setRg die { r with
      withholds := r.withholds.filter (· ≠ i), kept := put i true r.kept
      pins := if look i r.kept = some false && !r.pins.contains i then i :: r.pins else r.pins }).showSeg die i
  else s.enqueueSeg die i

/-- A segment comes into the basin, and is checked whatever becomes of it (R56). One whose drop was issued here leaves the ring; a
good copy has arrived, at the origin with its rotation counted on if it came in through the ingress; a bad one has not
(R344, R348, R357, R358, R361, R364, R365). -/
def State.takeFrame (s : State) (die : Nat) (f0 : Frame) (damaged ingress : Bool) : State :=
  let i := f0.index
  let d := s.die die
  let r := d.rg
  let foundHere := s.fails die f0 damaged
  let s0 := if ingress then s.setRg die { r with lastIn := some i } else s
  -- no ring has a segment beyond the window (R342)
  if 2 ^ 34 ≤ i * d.segSize then s0
  else
  match (if ingress then look i r.drops else none) with
  | some (back, _) =>
    let s1 := if foundHere then s0.foundBad die i else s0
    (((s1.setRg die { s1.rg die with drops := put i (back, true) r.drops }).dropEnd die i).insertRebuilt die 32 i).startNext die
  | none =>
    let dropped := r.past.contains i
    let rebuilt := if f0.bad then r.jobs.find? fun j => j.mode = 1 && j.done && j.target = i else none
    let (payload, crc, bad) := match rebuilt with
      | some j => (j.payload, j.crc, false)
      | none => (f0.payload, f0.crc, f0.bad || foundHere)
    let f := if ingress && bitsOf d.rgctl 51 51 = 1 && !bad then { f0 with rot := (f0.rot + 1) % 256 } else f0
    let s1 := s0.retainOnly die ((d.slots - (r.firm + 1)))
    let s2 := (s1.storeSeg die i payload crc).setSeg die i (newSeg (d.seg i) f bad dropped)
    let s3 := match rebuilt with
      | some j =>
        let r := s2.rg die
        ((s2.setRg die { r with jobs := r.jobs.filter (· ≠ j), found := r.found.filter (· ≠ i) }).ringCount die 47 32).ringEvent
          die 3 i 0
      | none => s2
    let s4 := if foundHere then s3.foundBad die i else s3
    let anyBypassed := (s4.ringDies die).any fun e => (s4.die e).bypassed
    let clash := !bad && !anyBypassed && r.queue.any fun j => j ≠ i && segStripe (d.seg j) = f.stripe
    let s5 := if clash then (s4.ringCount die 15 8).ringEvent die 8 i f.stripe else s4
    let s6 := s5.queueSeg die i
    let s7 := if bad then s6 else s6.arrived die i f.rot dropped
    (s7.insertRebuilt die 32 i).startNext die

/-- A frame given as inputs of an event, from the ring-in connector: index, rotation, kind, bad, stripe, member, CRC, payload. -/
def frameOfInputs (xs : List Nat) : Option Frame :=
  match xs with
  | [index, rot, kind, bad, stripe, member, crc, payload] =>
    some { index := index % 2 ^ 20, rot := rot % 256, kind := kind % 2, bad := bad % 2 = 1, stripe := stripe % 65536
           member := member % 16, crc := crc % 2 ^ 64, payload := payload, poison := false }
  | _ => none

/-- SEGMENT_ARRIVAL: the oldest frame on the die's ring ingress is in the basin (R344). Inputs: whether the link damaged it;
where the upstream neighbour is on another module, the frame. -/
def execSegmentArrival (s : State) :=
  let die := s.cur.die
  let r := s.rg die
  let damaged := s.inp.getD 0 0 = 1
  answer (match r.ingress with
    | f :: rest => (s.setRg die { r with ingress := rest }).takeFrame die f damaged true
    | [] =>
      match frameOfInputs (s.inp.drop 1) with
      | some f => if (s.die die).inRing && (s.upstream die).isNone then s.takeFrame die f damaged true else s
      | none => s)

/-! ## Parity (R361, R364) -/

/-- Fold a forwarded segment into a job. -/
def RingJob.fold (j : RingJob) (f : Frame) : RingJob :=
  let wanted := f.stripe = j.stripe && f.index ≠ j.target && (j.mode ≠ 0 || f.kind = 0) && !j.folded.contains f.index && !j.done
  if wanted then
    { j with folded := j.folded ++ [f.index], payload := j.payload ^^^ f.payload, crc := j.crc ^^^ f.crc
             bad := j.bad || f.bad || f.poison }
  else j

/-- The end of the pass of an RPAR job (R361). -/
def State.passEnd (s : State) (die : Nat) (j : RingJob) : State :=
  let drop (s : State) : State :=
    let r := s.rg die
    (s.setRg die { r with jobs := r.jobs.filter (· ≠ j) }).trimFreeboard die
  if j.mode = 0 then
    if j.folded.isEmpty then (drop s).ringEvent die 2 j.target 0
    else
      let f : Frame :=
        { index := j.target, rot := 0, kind := 1, bad := false, stripe := j.stripe, member := j.folded.length
          crc := j.crc, payload := j.payload, poison := false }
      let s1 := ((drop s).storeSeg die j.target j.payload j.crc).setSeg die j.target (newSeg 0 f false false)
      let r := s1.rg die
      let s2 := s1.setRg die { r with dropped := r.dropped.filter (· ≠ j.target), past := r.past.filter (· ≠ j.target) }
      ((s2.enqueueSeg die j.target).ringEvent die 2 j.target j.folded.length).startNext die
  else
    let d := s.die die
    let complete := (d.others j.target j.stripe).all j.folded.contains
    let reason := if j.bad then some 2
      else match s.stripeBroken die j.target j.stripe [] j.folded with
        | some r => some r
        | none => if !complete then some 1 else if crc64 j.payload d.segSize 0 ≠ j.crc then some 4 else none
    match reason with
    | some n => (drop s).reportLost die j.target n
    | none =>
      let r := s.rg die
      s.setRg die { r with jobs := r.jobs.map fun k => if k = j then { k with done := true } else k }

/-- A forwarded segment and the jobs of the die (R361, R368). -/
def State.foldAll (s : State) (die : Nat) (f : Frame) : State :=
  (s.rg die).jobs.foldl (fun (s : State) j =>
    let put_ (s : State) (k : RingJob) : State :=
      let r := s.rg die
      s.setRg die { r with jobs := r.jobs.map fun x => if x = j then k else x }
    if j.done then s
    else if j.mode = 2 then
      let k := j.fold f
      let d := s.die die
      -- a member that is withheld, bad or dropped since the repair began comes by no more (R369)
      if k.bad || s.stripeBroken die j.target j.stripe [] k.folded = some 2 then s.repairLost die j.target 2
      else if (d.others j.target j.stripe).all k.folded.contains then
        if crc64 k.payload d.segSize 0 ≠ k.crc then s.repairLost die j.target 4 else put_ s { k with done := true }
      else put_ s k
    else if j.first = some f.index then s.passEnd die j
    else put_ s ({ j with first := if j.first.isNone then some f.index else j.first }.fold f)) s

/-- SEGMENT_FORWARD_COMPLETE: the transfer of the oldest segment of the queue ends: parity folds, the copy is kept or
retained, and the next transfer starts (R347, R349, R357, R358, R367). -/
def execSegmentForwardComplete (s : State) :=
  let die := s.cur.die
  let r := s.rg die
  answer (match r.queue with
    | [] => s
    | i :: rest =>
      if !r.sending then s
      else
        let f := s.frameOf die i
        let log := r.log ++ [i]
        let s1 := s.setRg die { r with queue := rest, sending := false, log := log.drop (log.length - 4096) }
        let s2 := s1.foldAll die f
        let s3 := match s2.downstream die with
          | some e => s2.setRg e { s2.rg e with ingress := (s2.rg e).ingress ++ [f] }
          | none => if (s2.die die).inRing then { s2 with ringOut := s2.ringOut ++ [RingMsg.frame f] } else s2
        let r3 := s3.rg die
        let gone := !segValid ((s3.die die).seg i) && (r3.past.contains i || r3.dropped.contains i)
        -- a die that enters bypass keeps nothing (R362)
        let leaves := match r3.hold with
          | some h => h.kind = 1 && h.target = die
          | none => false
        let s4 :=
          if gone || leaves then s3
          else if r3.pins.contains i then
            s3.setRg die { r3 with
              pins := r3.pins.filter (· ≠ i), kept := if (look i r3.kept).isSome then r3.kept else put i false r3.kept }
          else if (look i r3.kept).isSome then s3
          else s3.setRg die { r3 with retained := r3.retained.filter (· ≠ i) ++ [i] }
        (((s4.trimFreeboard die).showSeg die i).dropEnd die i).startNext die)

/-- The first control record that a test selects, and the die's ring engine without it. -/
def RingEngine.takeCtl (r : RingEngine) (p : RingCtl → Bool) : Option (RingCtl × RingEngine) :=
  (r.ctl.find? p).map fun c => (c, { r with ctl := r.ctl.erase c })

/-- Whether control records from another module come to a die. -/
def State.fromOutside (s : State) (die : Nat) : Bool := (s.die die).inRing && (s.upstream die).isNone

/-- DROP_RECORD: the oldest drop record that has come to the die (R357). Inputs, from another module: index and origin. -/
def execDropRecord (s : State) :=
  let die := s.cur.die
  answer (match (s.rg die).takeCtl fun c => match c with
      | .drop _ _ => true
      | _ => false with
    | some (.drop i origin, r) => (s.setRg die r).takeDrop die i origin
    | _ =>
      match s.inp with
      | [i, origin] => if s.fromOutside die then s.takeDrop die (i % 2 ^ 20) origin else s
      | _ => s)

/-- Take up a lost record: SEG.LOST is set, and the record goes on (R369). -/
def State.takeLost (s : State) (die i origin : Nat) : State :=
  if origin = die then s else (s.setSeg die i (setBits ((s.die die).seg i) 57 57 1)).sendCtl die (.lost i origin)

/-- LOST_RECORD: the oldest lost record that has come to the die (R369). Inputs, from another module: index and origin. -/
def execLostRecord (s : State) :=
  let die := s.cur.die
  answer (match (s.rg die).takeCtl fun c => match c with
      | .lost _ _ => true
      | _ => false with
    | some (.lost i origin, r) => (s.setRg die r).takeLost die i origin
    | _ =>
      match s.inp with
      | [i, origin] => if s.fromOutside die then s.takeLost die (i % 2 ^ 20) origin else s
      | _ => s)

/-- A table of identifiers and slots from inputs, two for each entry. -/
def tableOf : List Nat → List (Nat × Nat)
  | a :: b :: r => (a % 2 ^ 32, b % 8) :: tableOf r
  | _ => []

/-- MIRROR_UPDATE: the mirror takes up a change of the upstream neighbour's request table (R370). Inputs, from another
module: the table. -/
def execMirrorUpdate (s : State) :=
  let die := s.cur.die
  answer (match (s.rg die).takeCtl fun c => match c with
      | .mirror _ => true
      | _ => false with
    | some (.mirror t, r) => s.setRg die { r with mirror := t }
    | _ => if s.fromOutside die then s.setRg die { s.rg die with mirror := tableOf s.inp } else s)

/-! ## Holds, failures and their end (R362, R366-R372) -/

/-- RPAR jobs are abandoned (R361). -/
def State.abandonJobs (s : State) (die : Nat) : State :=
  (s.rg die).jobs.foldl (fun (s : State) j =>
    if j.mode = 2 then s
    else
      let r := s.rg die
      let s1 := s.setRg die { r with jobs := r.jobs.filter (· ≠ j) }
      if j.mode = 0 then s1.ringEvent die 2 j.target 0xFFFFFFFF else s1.reportLost die j.target 5) s

/-- A die holds: it finishes the transfer it is making and starts no other (R366). -/
def State.holdHere (s : State) (die : Nat) : State :=
  let s1 := s.abandonJobs die
  let r := s1.rg die
  s1.setRg die { r with state := if r.state = 4 || r.state = 5 then r.state else 2 }

/-- The dies that a hold is sent to: those of the ring on this module but for the sender and a failed die, and those of the group
on other modules, of which this one does not know whether they belong to the ring (R366, R412; log 55). -/
def State.holdTargets (s : State) (die : Nat) (h : RingHold) : List Nat :=
  let here := (s.ringDies die).filter fun e => e ≠ die && !(h.kind = 3 && e = h.target)
  let there := (List.range 48).map (16 + ·) |>.filter fun e =>
    (s.ringDies die).length < (s.die die).ringDies && s.inGroup die (e / 16) (e % 16)
  here ++ there

/-- The hold goes over the fabric to every other die of the ring: engine notices of the ring engine that name the ring, the kind
and the die concerned (R366, R382; log 17). -/
def State.sendHolds (s : State) (die : Nat) (h : RingHold) : State :=
  (s.holdTargets die h).foldl (fun (s : State) e =>
    (s.request { Req.blank die 66 3 5 (e / 16 * 2 ^ 48 + dieAddr (e % 16) 0) 0 0 with
      arg := h.kind + 8 * h.target + 2 ^ 8 * (s.die die).ringId, purpose := .dropped }).2) s

/-- A die begins a hold of its ring that it sees through (R362, R366). -/
def State.holdRing (s : State) (die : Nat) (h : RingHold) : State :=
  let s1 := s.holdHere die
  (s1.setRg die { s1.rg die with hold := some h }).sendHolds die h

/-- A hold that another die has sent: the die holds if it names its ring (R366). -/
def State.takeHold (s : State) (die arg : Nat) : State :=
  let d := s.die die
  if d.inRing && d.ringId = arg / 2 ^ 8 % 16 then s.holdHere die else s

/-- The segments in the upstream neighbour's log after the last one that the downstream neighbour received (R367). -/
def lostSet (log : List Nat) (last : Option Nat) : List Nat :=
  match last with
  | none => log
  | some x => (log.reverse.takeWhile (· ≠ x)).reverse

/-- The first die that has not failed, from a die on in one direction of the ring. -/
def State.pastFailed (s : State) (next : State → Nat → Option Nat) (failed : List Nat) : Nat → Nat → Option Nat
  | 0, _ => none
  | fuel + 1, die =>
    match next s die with
    | none => none
    | some e => if failed.contains e then s.pastFailed next failed fuel e else some e

/-- Segments withheld on a die. -/
def RingEngine.withheld (r : RingEngine) : List Nat := (r.kept.filter (·.2)).map (·.1)

/-- The segments that the failure of dies takes out of the ring: what the survivors before each gap have forwarded and those after
it have not received, and what was withheld on the failed dies (R367, R371). -/
def State.lostBy (s : State) (failed : List Nat) : List Nat :=
  (failed.flatMap fun t =>
    (match s.pastFailed State.upstream failed 16 t, s.pastFailed State.downstream failed 16 t with
    | some u, some w => lostSet (s.rg u).log (s.rg w).lastIn
    | _, _ => []) ++ (s.rg t).withheld).eraseDups

/-- The ring cannot be repaired: every die stops, and the die that saw the hold reports what it cannot account for (R369). -/
def State.failRing (s : State) (die : Nat) (failed : List Nat) : State :=
  let missing := s.lostBy failed
  let s1 := (s.ringDies die).foldl (fun (s : State) e =>
    s.setRg e { s.rg e with state := 5, hold := none, repair := none, sending := false }) s
  missing.foldl (fun (s : State) i => (s.ringEvent die 5 i 6).ringCount die 31 16) s1

/-- The downstream neighbour writes the failed die's mirrored requests to its loss list (R370). -/
def State.writeLosses (s : State) (die : Nat) : State :=
  let r := s.rg die
  let base := bitsOf r.loss 51 0
  let cap := bitsOf r.loss 63 52
  let room := if base % 8 = 0 && inBerm die base (8 * cap) then cap - r.lossCnt else 0
  let es := r.mirror.take room
  let s1 := es.zipIdx.foldl (fun (s : State) e =>
    s.writeN (base + 8 * (r.lossCnt + e.2)) (e.1.1 % 2 ^ 32 * 2 ^ 32 + e.1.2 % 8 * 2 ^ 29) 8) s
  let s2 := s1.setRg die { s1.rg die with lossCnt := r.lossCnt + es.length, mirror := [] }
  (s2.ringEvent die 10 0 es.length).raise die 1

/-- The hold for a failed die or link that some die of a ring sees through. -/
def State.failureHold (s : State) (die : Nat) : Option RingHold :=
  (s.ringDies die).findSome? fun e => (s.rg e).hold.bind fun h => if h.kind = 3 || h.kind = 4 then some h else none

/-- The failure of a die, or of the ring link into it, seen through at a die (R366, R370). While the ring holds for a failed die,
the same failure has the hold sent again, and another one leaves the ring stopped (R369). A target of 16 is the upstream neighbour
on another module. -/
def State.ringFails (s : State) (die : Nat) (linkOnly : Bool) : State :=
  let d := s.die die
  let target := if linkOnly then die else (s.upstream die).getD 16
  let kind := if linkOnly then 4 else 3
  if !d.inRing || d.bypassed || d.rg.state = 5 || (!linkOnly && target = die) then s
  else match s.failureHold die with
  | some h =>
    if h.target = target then
      (match d.rg.hold with
      | some mine => s.sendHolds die mine
      | none => s)
    else s.failRing die [h.target, target]
  | none =>
    -- what an earlier repair has not put back is lost
    let s0 := match d.rg.repair with
      | none => s
      | some p =>
        let late := p.order.filter fun i => !p.inserted.contains i && !p.lost.contains i
        let s1 := late.foldl (fun (s : State) i => s.reportLost die i 1) s
        (s1.ringDies die).foldl (fun (s : State) e =>
          s.setRg e { s.rg e with repair := none, jobs := (s.rg e).jobs.filter (·.mode ≠ 2) }) s1
    let s1 := (s0.ringDies die).foldl (fun (s : State) e => s.setRg e { s.rg e with hold := none }) s0
    let s2 := s1.holdRing die { kind := kind, target := target, since := s.cycle }
    let w := if linkOnly then s2.downstream die else some die
    let s3 := match w with
      | some w => s2.writeLosses w
      | none => s2
    if linkOnly then s3.startNext die else s3

/-- RING_FAILURE_DETECT: the die's ingress has carried no valid framing for 500 ns: its upstream neighbour has failed, or
with the input 1 only the link into this die (R366). -/
def execRingFailureDetect (s : State) := answer (s.ringFails s.cur.die (s.inp.getD 0 0 = 1))

/-- GMAP.BYPASS of a die (R423). -/
def State.setBypass (s : State) (die : Nat) (b : Bool) : State :=
  let d := s.die die
  s.setDie die { d with gmap := setBits d.gmap 34 34 (if b then 1 else 0) }

/-- A die that has left the ring with a failure: its queue, its copies and its jobs are gone (R371). -/
def State.clearRing (s : State) (die : Nat) : State :=
  let r := s.rg die
  let held := r.queue ++ r.retained ++ r.kept.map (·.1)
  let s1 := s.setRg die { r with
    queue := [], sending := false, retained := [], kept := [], pins := [], withholds := [], jobs := [], ingress := [], ctl := []
    hold := none, repair := none, state := 4 }
  held.foldl (fun (s : State) i => s.showSeg die i) s1

/-- The spillway is lit past a failed die: the lost set, what is re-sent, and what the survivors rebuild, what was withheld on the
failed die among it (R367, R368, R371). `told` is the part of the lost set to be rebuilt where a neighbour of the gap is on
another module, which has told it. -/
def State.repairRing (s : State) (die target : Nat) (told : List Nat) : State :=
  let w := (if target = die then s.downstream die else some die).getD die
  let u := if target = 16 then none else s.upstream target
  let lost := match u with
    | some u => (lostSet (s.rg u).log (s.rg w).lastIn ++ (s.rg target).withheld).eraseDups
    | none => told
  let n := (s.die die).ringDies
  let s1 := if target = 16 then s else (s.setBypass target true).clearRing target
  -- what the upstream neighbour still retains goes first
  let back := match u with
    | some u => lost.filter fun i => (s1.rg u).retained.contains i && segValid ((s1.die u).seg i)
    | none => []
  let s2 := match u with
    | none => s1
    | some u =>
      let ru := s1.rg u
      back.foldl (fun (s : State) i => s.showSeg u i)
        (s1.setRg u { ru with queue := back ++ ru.queue, retained := ru.retained.filter fun i => !back.contains i, sending := false })
  let order := lost.filter fun i => !back.contains i
  let p : Repair := { gap := (s.rg w).lastIn, order := order, inserted := [], lost := [], resent := back.length }
  let alive := (s2.ringDies die).filter fun e => !(s2.die e).bypassed
  let s3 := alive.foldl (fun (s : State) e =>
    s.setRg e { s.rg e with state := 3, hold := none, repair := some p }) s2
  let s4 := s3.renewMirrors die
  -- survivors in the order in which the gap reaches them
  let survivors := (List.range n).filterMap fun k => s4.ringAt die (((s4.die w).ringPos + k) % n) |>.filter alive.contains
  let m := (order.length + n - 2) / (n - 1)
  let s5 := order.zipIdx.foldl (fun (s : State) e =>
    match survivors[e.2 / max 1 m]? with
    | none => s
    | some v =>
      let i := e.1
      let d := s.die v
      let stripe := segStripe (d.seg i)
      match s.stripeBroken v i stripe (order.filter (· ≠ i)) [] with
      | some reason => s.repairLost v i reason
      | none =>
        if !d.hasRoom then s.repairLost v i 3
        else
          let j : RingJob :=
            { mode := 2, target := i, stripe := stripe, first := none, folded := [], payload := 0, crc := 0, bad := false
              done := false }
          (s.setRg v { s.rg v with jobs := (s.rg v).jobs ++ [j] }).trimFreeboard v) s4
  let s6 := if order.isEmpty then s5.setRepair die p else s5
  alive.foldl (fun (s : State) e => s.startNext e) s6

/-- The dies of a ring run again; a repair under way goes on (R362, R368, R372). -/
def State.runRing (s : State) (die : Nat) : State :=
  (s.ringDies die).foldl (fun (s : State) e =>
    let r := s.rg e
    (s.setRg e { r with
      hold := none, state := if (s.die e).bypassed then 4 else if r.repair.isSome then 3 else 0 }).startNext e) s

/-- Whether a hold has been seen through: every die of the ring holds, every transfer has ended and its frames are in, and of a die
that leaves the ring or is to be emptied the segments are away (R362, R366, R369). -/
def State.holdThrough (s : State) (die : Nat) (h : RingHold) : Bool :=
  let live := (s.ringDies die).filter fun e => !(h.kind = 3 && e = h.target)
  (live.all fun e => (s.rg e).state = 2 || (s.die e).bypassed)
    && (live.all fun e => !(s.rg e).sending && (s.rg e).ingress.isEmpty)
    && (!(h.kind = 1 || h.kind = 4) || (s.rg h.target).queue.isEmpty)

/-- Whether the sluice patches the spillway of a ring of this module: a hold that asks it for a patch has been seen through (R413,
R423). -/
def State.patching (s : State) : Bool :=
  (List.range 16).any fun d => match (s.rg d).hold with
    | some h => h.kind ≠ 5 && s.holdThrough d h
    | none => false

/-- RING_RESUME: a hold ends, once every die of the ring holds, every transfer has ended and its frames are in: the sluice has lit
or removed the spillway, or has failed to (R362, R366-R369, R372, R423). Inputs: whether it is lit; where a neighbour of the gap
is on another module, the segments to be rebuilt. A hold that a die of another module sees through ends here with the dies that it
held. -/
def execRingResume (s : State) :=
  let die := s.cur.die
  let r := s.rg die
  let lit := s.inp.getD 0 0 = 1
  answer (match r.hold with
    | none => if r.state = 2 && lit && !((s.ringDies die).any fun e => (s.rg e).hold.isSome) then s.runRing die else s
    | some h =>
      if !(lit || h.kind = 5) then s.failRing die (if h.kind = 3 || h.kind = 4 then [h.target] else [])
      else if !s.holdThrough die h then s
      else match h.kind with
        | 1 =>
          let s1 := ((s.setBypass die true).runRing die).renewMirrors die
          (s1.ringDies die).foldl (fun (s : State) e => s.ringEvent e 6 0 (s.die die).ringPos) s1
        | 2 => ((s.setBypass die false).runRing die).renewMirrors die
        | 5 => s.runRing die
        | _ => s.repairRing die h.target s.inp.tail)

/-- RING_ENGINE_RESET: the program stops with cause 0x68, RPAR jobs are abandoned and the ring holds; the error event records
the reset (R61, R372, R455). -/
def execRingEngineReset (s : State) :=
  let die := s.cur.die
  let s1 := if (s.die die).rprunning then s.stopRotation die 0x68 0 else s
  let s2 := if (s1.rg die).state = 0 || (s1.rg die).state = 1 || (s1.rg die).state = 3 then
      s1.holdRing die { kind := 5, target := die, since := s.cycle } else s1.abandonJobs die
  answer (s2.errorEvent die 2 6 0 (2 ^ 64 - 1) 0)

/-- RING_ENGINE_RESTART_TIMEOUT: a ring engine that has not resumed within 60 µs makes its die a failed one (R366, R372). -/
def execRingEngineRestartTimeout (s : State) :=
  let die := s.cur.die
  answer (match (s.rg die).hold with
    | none => s
    | some h =>
      if h.kind ≠ 5 || s.cycle < h.since + microseconds 60 then s
      else match s.downstream die with
        | none => s
        | some w => if w = die then s else s.ringFails w false)

/-! ## The rotation program (R352, R353) -/

/-- Start the rotation program: the registers are cleared, and it begins at RPENTRY (R353). -/
def State.startRotation (s : State) (die : Nat) : State :=
  let d := s.die die
  s.setDie die { d with
    rprunning := true, rotStream := { (default : Stream) with pc := BitVec.ofNat 64 (bitsOf d.rpentry 51 0) } }

/-- RPCTL_START (R352, R353). -/
def execRpctlStart (s : State) := answer (s.startRotation s.cur.die)

/-- RPCTL_STOP: the program stops with cause 0 (R352, R363). -/
def execRpctlStop (s : State) :=
  let die := s.cur.die
  answer (if (s.die die).rprunning then s.stopRotation die 0 0 else s)

/-! ## The ring block (R355-R363) -/

/-- A ring word of the rotation program: its body gives the status that goes to a[RD], and the state after. -/
def ringWord (rd : BitVec 5) (body : Nat → State → Res (Nat × State)) (s : State) : State :=
  runWord 1 (fun _ => false) 0 (fun _ s => do
    let (v, s1) ← body s.cur.die s
    let s2 ← writeReg rd (BitVec.ofNat 64 v) s1
    pure (.next s2)) s

/-- The operand check of a ring word: cause 0x68 with the register's number (R355). -/
def ringOperand (r : BitVec 5) (v : Word) (allowed : Nat) : Res Unit :=
  if v.toNat &&& (allowed ^^^ (2 ^ 64 - 1)) ≠ 0 then trap 0x68 (BitVec.ofNat 64 r.toNat) else pure ()

/-- RINJ (R356). -/
def execRinj (rd ra rb : BitVec 5) (s : State) :=
  answer (ringWord rd (fun die s => do
    let (a, s1) ← readReg ra s
    let (b, s2) ← readReg rb s1
    ringOperand ra a (2 ^ 52 - 1)
    ringOperand rb b (2 ^ 52 - 1 - 0xFFE)
    let i := bitsOf b 51 32
    let d := s2.die die
    if segValid (d.seg i) then pure (1, s2)
    else if 2 ^ 34 ≤ i * d.segSize then pure (2, s2)
    else if a.toNat % 4096 ≠ 0 || !inBerm die a.toNat d.segSize then pure (3, s2)
    else if !d.hasRoom then pure (4, s2)
    else if (s2.poisonIn a.toNat d.segSize).isSome then pure (5, s2)
    else
      let payload := s2.readN a.toNat d.segSize
      let r := s2.rg die
      let s3 := s2.setRg die { r with past := r.past.filter (· ≠ i), dropped := r.dropped.filter (· ≠ i) }
      let s4 := s3.setSeg die i (setBits 0 61 61 (bitsOf b 0 0))
      let f : Frame :=
        { index := i, rot := 0, kind := 0, bad := false, stripe := bitsOf b 31 16, member := bitsOf b 15 12
          crc := crc64 payload d.segSize 0, payload := payload, poison := false }
      pure (0, s4.takeFrame die f false false)) s)

/-- RDROP (R357). -/
def execRdrop (rd ra : BitVec 5) (s : State) :=
  answer (ringWord rd (fun die s => do
    let (a, s1) ← readReg ra s
    ringOperand ra a (2 ^ 20 - 1)
    let i := a.toNat
    let r := s1.rg die
    if !segValid ((s1.die die).seg i) then pure (1, s1)
    else if (look i r.drops).isSome then pure (2, s1)
    else
      let here := r.queue.contains i
      let s2 := s1.setRg die { r with drops := put i (false, here) r.drops }
      let s3 := s2.unqueue die i
      let alone : Bool := match s3.downstream die with
        | some e => e = die
        | none => !(s3.die die).inRing
      pure (0, if alone then s3.takeDrop die i die else s3.sendCtl die (.drop i die))) s)

/-- RKEEP (R358). -/
def execRkeep (rd ra rb : BitVec 5) (s : State) :=
  answer (ringWord rd (fun die s => do
    let (a, s1) ← readReg ra s
    let (b, s2) ← readReg rb s1
    ringOperand ra a (2 ^ 20 - 1)
    ringOperand rb b 3
    let i := a.toNat
    let d := s2.die die
    let r := d.rg
    if b = 3 then pure (3, s2)
    else if !segValid (d.seg i) then pure (1, s2)
    else if b = 0 then
      if look i r.kept = some true && !r.pins.contains i then pure (5, s2)
      else
        let s3 := s2.setRg die { r with
          kept := if look i r.kept = some true then r.kept else unput i r.kept, pins := r.pins.filter (· ≠ i) }
        pure (0, (s3.showSeg die i).trimFreeboard die)
    else if b = 1 then
      if look i r.kept = some false || r.pins.contains i then pure (0, s2)
      else if !d.hasRoom then pure (2, s2)
      else if r.retained.contains i then
        let s3 := s2.setRg die { r with retained := r.retained.filter (· ≠ i), kept := put i false r.kept }
        pure (0, (s3.showSeg die i).trimFreeboard die)
      else pure (0, s2.setRg die { r with pins := i :: r.pins })
    else if r.queue.contains i then
      let s3 := s2.unqueue die i
      let s4 := s3.setRg die { s3.rg die with withholds := i :: (s3.rg die).withholds.filter (· ≠ i) }
      pure (0, (s4.queueSeg die i).trimFreeboard die)
    else if look i r.kept = some true || r.withholds.contains i then pure (0, s2)
    else if !d.hasRoom then pure (2, s2)
    else pure (0, s2.setRg die { r with withholds := i :: r.withholds })) s)

/-- RFWD (R358). -/
def execRfwd (rd ra : BitVec 5) (s : State) :=
  answer (ringWord rd (fun die s => do
    let (a, s1) ← readReg ra s
    ringOperand ra a (2 ^ 20 - 1)
    let i := a.toNat
    let r := s1.rg die
    if look i r.kept ≠ some true then pure (1, s1)
    else pure (0, ((s1.setRg die { r with kept := unput i r.kept }).enqueueSeg die i).startNext die)) s)

/-- RHOLD (R359). -/
def execRhold (rd ra : BitVec 5) (s : State) :=
  answer (ringWord rd (fun die s => do
    let (a, s1) ← readReg ra s
    ringOperand ra a 63
    let s2 := (s1.setRg die { s1.rg die with request := a.toNat }).trimFreeboard die
    pure ((s2.die die).freeboard, s2)) s)

/-- RTAG (R360). -/
def execRtag (rd ra rb : BitVec 5) (s : State) :=
  answer (ringWord rd (fun die s => do
    let (a, s1) ← readReg ra s
    let (b, s2) ← readReg rb s1
    ringOperand ra a (2 ^ 20 - 1)
    ringOperand rb b 3
    let i := a.toNat
    let s3 := s2.setSeg die i (setBits ((s2.die die).seg i) 61 61 (bitsOf b 0 0))
    let d := s3.die die
    if bitsOf b 1 1 = 1 then
      if d.holds i && segTag (d.seg i) then pure (0, s3.raiseTag die i (bitsOf (d.seg i) 31 24)) else pure (2, s3)
    else pure (if segValid (d.seg i) then 0 else 1, s3)) s)

/-- RPAR (R361). -/
def execRpar (rd ra rb : BitVec 5) (s : State) :=
  answer (ringWord rd (fun die s => do
    let (a, s1) ← readReg ra s
    let (b, s2) ← readReg rb s1
    ringOperand rb b 3
    if 2 ≤ b.toNat then pure (6, s2)
    else do
      ringOperand ra a ((2 ^ 20 - 1) * 2 ^ 32 + (if b = 0 then 65535 else 0))
      let i := bitsOf a 51 32
      let d := s2.die die
      let r := d.rg
      let status :=
        if b = 0 then
          if segValid (d.seg i) then 1 else if 2 ^ 34 ≤ i * d.segSize then 2 else if !d.hasRoom then 3 else 0
        else if !d.hasRoom then 3 else if !segBad (d.seg i) || !r.found.contains i then 5 else 0
      if status ≠ 0 then pure (status, s2)
      else
        let j : RingJob :=
          { mode := b.toNat, target := i, stripe := if b = 0 then bitsOf a 15 0 else segStripe (d.seg i), first := none
            folded := [], payload := 0, crc := 0, bad := false, done := false }
        pure (0, (s2.setRg die { r with jobs := r.jobs ++ [j] }).trimFreeboard die)) s)

/-- RBYP (R362). -/
def execRbyp (rd ra : BitVec 5) (s : State) :=
  answer (ringWord rd (fun die s => do
    let (a, s1) ← readReg ra s
    ringOperand ra a 1
    let d := s1.die die
    if a = 0 then
      if !d.bypassed then pure (1, s1)
      else pure (0, s1.holdRing die { kind := 2, target := die, since := s.cycle })
    else if d.bypassed then pure (1, s1)
    else if (s1.ringDies die).any fun e => (s1.die e).bypassed then pure (2, s1)
    else if d.rg.state = 2 || d.rg.state = 3 then pure (3, s1)
    else
      let s2 := s1.holdRing die { kind := 1, target := die, since := s.cycle }
      let r := s2.rg die
      let withheld := (r.kept.filter (·.2)).map (·.1)
      let s3 := s2.setRg die { r with queue := r.queue ++ withheld, kept := [], pins := [], retained := [] }
      let s4 := (r.retained ++ r.kept.map (·.1)).foldl (fun (s : State) i => s.showSeg die i) s3
      pure (0, s4.startNext die)) s)

/-- RGSTAT as it reads: 0 while the die is in reset, as its Reset column prints, and from then on the engine's state.
DESIGN CHOICE (log 68): FREE and FBEFF of a die out of reset read its free slots and its effective freeboard, ring or no ring. -/
def Die.rgstat (d : Die) : Nat :=
  let r := d.rg
  if !d.live then 0 else
  let state := if 2 ≤ r.state then r.state else if bitsOf d.rgctl 50 50 = 1 || r.sending then 1 else 0
  r.queue.length % 2048 * 2 ^ 53 + (d.slots - (r.firm + r.retained.length)) % 2048 * 2 ^ 42 + r.kept.length % 2048 * 2 ^ 31
    + r.events.length % 128 * 2 ^ 24 + d.freeboard % 64 * 2 ^ 18 + state % 16 * 2 ^ 14

/-- RSTAT: the next event, waiting or not, a descriptor or a ring register (R363). -/
def execRstat (rd ra : BitVec 5) (s : State) :=
  answer (ringWord rd (fun die s => do
    let (a, s1) ← readReg ra s
    let sel := bitsOf a 7 0
    if sel < 6 then ringOperand ra a (255 + (if sel = 2 then (2 ^ 20 - 1) * 2 ^ 32 else 0)) else pure ()
    let d := s1.die die
    let r := d.rg
    if sel < 2 then
      match r.events with
      | e :: rest => pure (e, s1.setRg die { r with events := rest })
      | [] => if sel = 0 then hold .uncounted else pure (0, s1)
    else if sel = 2 then pure ((d.seg (bitsOf a 51 32)).toNat, s1)
    else if sel = 3 then pure (d.rgctl.toNat, s1)
    else if sel = 4 then pure (d.rgstat, s1)
    else if sel = 5 then pure (r.count.toNat, s1)
    else pure (0, s1)) s)

end Sys2Proof.Machine
end

