-- ==== Sys2Proof/Machine/TaskWords.lean ====
section
/-! DEFINITION. The words of the task block (R321-R329). -/

namespace Sys2Proof.Machine

/-- A task word: an access on path syn at its place, that the task engine answers (R321). While the engine is down after a
reset, the word waits (R337). -/
def taskWord (mark : Marking) (tk : BitVec 4) (body : State → State → Res Eff) (s : State) : State :=
  runWordM mark 1 (· = .x) tk (fun s0 s => do
    untilTrue s0.acquired
    untilTrue (s0.te s0.cur.die).down.isNone
    body s0 s) s

/-- Put a task word in progress: 1000 JOIN, 1001 SPAWN, 1002 JCANCEL, and what it keeps. -/
def State.taskWaits (s : State) (kind : Nat) (more ids : List Nat) : Eff :=
  .stay (s.setPending { ids := ids, data := kind :: more })

/-- Whether every access of the executing strand before its word has been performed, copies and matrix commands among them
(R326). -/
def State.allBefore (s : State) : Bool :=
  let c := s.cur
  let k := s.stream c
  let crew := s.crew c.die c.polder
  let mine (m : MatCmd) : Bool := m.strand = c.strand
  let act (a : Option MatActive) : Bool := match a with
    | some a => a.cmd.strand = c.strand
    | none => false
  s.releaseReady c.die c.polder c.strand c.str k.seq k.marks
    && !(crew.copies.toList.any fun e => e.state ≠ .free && e.strand = c.strand && e.seq < k.seq)
    && !(crew.matQ.any mine) && !(crew.matU.any mine) && !act crew.actQ && !act crew.actU

/-- The lowest free slot of a run's reserve (R323). -/
def Task.freeSlot (x : Task) (run : Nat) : Option Nat :=
  let used := (x.children.filterMap (·.slot)) ++ x.pre.toList ++ x.retained
  (List.range x.record.resSlots).find? fun k => !used.contains (run, k)

/-- SPAWN at the task engine: the word it writes, and the state after (R323). -/
def State.spawnNow (s : State) (c : Ctx) (job template arg : Nat) : Nat × State :=
  let die := c.die
  let te := s.te die
  let run := s.runOf c
  let t := (te.run run).task
  let x := te.task t
  let childJob := if job = 0 then x.job else job
  if s.cancelledTask die x || s.jobCancelled die x.context childJob then (1, s)
  else if 8 ≤ x.depth then (2, s)
  else if 64 ≤ x.children.length then (3, s)
  else match s.readRecord die template none with
    | none => (6, s.rejectUnread die template none none)
    | some r =>
      let gate : Gate := { cfg := (te.queue x.queue).cfg, ownJob := false, saveBad := false }
      match s.admitLaunch die gate r with
      | .error (code, _) => (code * 2 ^ 8 + 6, s)
      | .ok r1 =>
        let slot := x.freeSlot run
        if r1.gridX ≠ 1 || r1.gridY ≠ 1 || r1.progress = 2 || r1.tagKeyed then (6, s)
        else if r1.nviews ≠ x.record.nviews || r1.viewOps ≠ x.record.viewOps then (7, s)
        else if x.record.nviews ≠ 0 && slot.isNone then (4, s)
        else match te.freeTask with
          | none => (5, s)
          | some i =>
            let position := x.children.length
            let own := if x.record.nviews = 0 then none else slot.map fun k => (run, k)
            let child : Task :=
              { launch := x.launch, record := r1, entry := r1.entry, gang := 0, parent := some t, child := true
                position := position, depth := x.depth + 1, job := childJob, context := r1.context, queue := x.queue
                timestamp := x.timestamp, origin := (te.run run).origin, first := [BitVec.ofNat 64 arg], request := none
                tag := 0, doomed := false, cancelled := false, fault := none, children := [], foldAt := 0, pre := none
                folded := 0, cancelMask := 0, faultMask := 0, retained := [], ownSlot := own }
            let x1 := { x with children := x.children ++ [{ task := i, fate := .unresolved, slot := own }] }
            let te1 := (te.setTask i child).setTask t x1
            (position * 2 ^ 16, (s.setTe die te1).pushReady die (.child i) x.queue x.timestamp)

/-- SPAWN: a release at die scope by its strand, and a stop point (R322, R323, R327, R333). -/
def execSpawn (tk : BitVec 4) (rd ra rb : BitVec 5) (s : State) :=
  answer (taskWord markSync tk (fun s0 s => do
    let c := s.cur
    let (job, s1) ← readReg rd s
    let (template, s2) ← readReg ra s1
    let (arg, s3) ← readReg rb s2
    if template.toNat % 256 ≠ 0 || !inBerm c.die template.toNat 256 then trap 0x60 1
    if job.toNat / 2 ^ 32 ≠ 0 then trap 0x60 2
    let go (s0 s3 : State) : Res Eff := do
      let (v, s4) := s3.spawnNow c job.toNat template.toNat arg.toNat
      let s5 ← writeResult rd (BitVec.ofNat 64 v) s4
      pure (if s0.stopPoint c then .done (s5.cancelGang c) else .next s5)
    match s0.pending with
    | some p => if s0.allReplied p.ids then go s0 (s3.forgetAll p.ids) else pure (.stay s0)
    | none => do
      let k := s0.stream c
      untilTrue (s0.releaseReady c.die c.polder c.strand c.str k.seq k.marks)
      let (ids, t) := s0.writeBackContext c
      if ids.isEmpty then go s0 s3 else pure (t.taskWaits 1001 [] ids)) s)

/-- ENDT: X ends as at EXIT; at a stop point of a cancelled job the gang ends as cancelled (R327). -/
def execEndt (tk : BitVec 4) (s : State) :=
  answer (taskWord markSync tk (fun _ s => do
    if s.stopPoint s.cur then pure (.done (s.cancelGang s.cur))
    else do
      let s1 ← giveTokens tk s
      let s2 ← endStream s1
      pure (.done s2)) s)

/-- CHECK (R327). -/
def execCheck (tk : BitVec 4) (rd : BitVec 5) (s : State) :=
  answer (taskWord markSync tk (fun _ s => do
    let c := s.cur
    if s.stopPoint c then do
      let s1 ← writeResult rd 1 s
      pure (.done (s1.cancelGang c))
    else do
      let s1 ← writeResult rd 0 s
      pure (.next s1)) s)

/-- JOIN: an acquire at die scope that waits until every child is resolved and folded (R326, R333). -/
def execJoin (tk : BitVec 4) (rd : BitVec 5) (s : State) :=
  answer (taskWord markSyncAcq tk (fun s0 s => do
    let c := s.cur
    let t := s0.taskOf c
    let go (s : State) : Res Eff := do
      let origin := ((s.te c.die).run (s.runOf c)).origin
      let (v, s1) := s.joinNow c.die t origin
      let s2 ← writeResult rd (BitVec.ofNat 64 v) (s1.invalidateContext c)
      pure (.next s2)
    let ready := s0.allBefore && ((s0.te c.die).task t).joinReady
    match s0.pending with
    | some p =>
      -- a child spawned while the write-backs were out is waited for, too (R326)
      if !p.ids.isEmpty then
        if s0.allReplied p.ids && ready then go (s.forgetAll p.ids) else pure (.stay s0)
      else if !ready then pure (.stay s0)
      else
        let (ids, w) := s0.writeBackContext c
        if ids.isEmpty then go s else pure (w.taskWaits 1000 [] ids)
    | none =>
      if !ready then pure (s0.taskWaits 1000 [] [])
      else
        let (ids, w) := s0.writeBackContext c
        if ids.isEmpty then go s else pure (w.taskWaits 1000 [] ids)) s)

/-- LAUNCH (R322, R329). -/
def execLaunch (tk : BitVec 4) (rd ra rb : BitVec 5) (s : State) :=
  answer (taskWord markSync tk (fun _ s => do
    let c := s.cur
    let (a, s1) ← readReg ra s
    let (q, s2) ← readReg rb s1
    if a.toNat % 256 ≠ 0 || !inBerm c.die a.toNat 256 then trap 0x60 1
    if 31 < q.toNat then trap 0x60 3
    if !s.myCrew.system && bitsOf ((s.te c.die).queue q.toNat).cfg 5 0 ≠ s.myCrew.context then trap 0x61 q
    let (v, s3) := s2.enqueue c.die q.toNat a.toNat none
    let s4 ← writeResult rd (BitVec.ofNat 64 v) s3
    pure (.next s4)) s)

/-- JCANCEL: the job is cancelled on this die at once, and on the others by engine notices; a die outside the group takes
its cancel point at once (R330, R382; log 20). -/
def execJcancel (tk : BitVec 4) (rd ra : BitVec 5) (s : State) :=
  answer (taskWord markSync tk (fun s0 s => do
    let c := s.cur
    let (j, s1) ← readReg ra s
    if j.toNat / 2 ^ 32 ≠ 0 then trap 0x60 6
    let context := s.myCrew.context
    let start (s : State) : Nat × List Nat × State :=
      (List.range 16).foldl (fun (acc : Nat × List Nat × State) d =>
        let (full, ids, s) := acc
        if d = c.die || !s.inGroup c.die 0 d then
          let (f, s1) := s.cancelPoint d context j.toNat
          (if f then 1 else full, ids, s1)
        else
          let (id, s1) := s.request { Req.blank c.die 65 3 5 (dieAddr d 0) 0 context with
            op := 1, arg := context * 2 ^ 32 + j.toNat, owner := some 0 }
          (full, ids ++ [id], s1)) (0, [], s)
    match s0.pending with
    | none => do
      let (full, ids, s2) := start s1
      if ids.isEmpty then do
        let s3 ← writeResult rd (BitVec.ofNat 64 full) s2
        pure (.next s3)
      else
        let (full, ids, w) := start s0
        pure (w.taskWaits 1002 [full] ids)
    | some p => do
      if !s0.allReplied p.ids then pure (.stay s0)
      else
        let bad := p.data.getD 1 0 ≠ 0 || p.ids.any fun i => match s0.replyOf i with
          | some r => r.status ≠ 0 || r.data ≠ 0
          | none => true
        let s2 ← writeResult rd (if bad then 1 else 0) (s1.forgetAll p.ids)
        pure (.next s2)) s)

/-- What TINFO reads (R328). -/
def State.taskInfo (s : State) (c : Ctx) (sel : Nat) : Nat :=
  let te := s.te c.die
  let i := s.taskOf c
  let x := te.task i
  let r := (te.launch x.launch).record
  match sel with
  | 0 => x.identity i
  | 1 => x.gang % max 1 r.gridX * 2 ^ 16 + x.gang / max 1 r.gridX
  | 2 => r.gridX * 2 ^ 16 + r.gridY
  | 3 => r.addr
  | 4 => x.request.getD (2 ^ 63)
  | 5 => if x.request.isSome then x.tag else 2 ^ 63
  | 6 => x.cancelMask
  | 7 => x.faultMask
  | _ => match x.retained.head? with
    | some k => x.record.resBase + k.2 * x.record.viewBytes
    | none => 2 ^ 63

/-- TINFO (R322, R328). -/
def execTinfo (tk : BitVec 4) (rd ra : BitVec 5) (s : State) :=
  answer (taskWord markSync tk (fun _ s => do
    let (sel, s1) ← readReg ra s
    if 8 < sel.toNat then trap 0x60 5
    let s2 ← writeResult rd (BitVec.ofNat 64 (s.taskInfo s.cur sel.toNat)) s1
    pure (.next s2)) s)

/-- Word k of an entry of the request table (R319). -/
def Request.word (r : Request) (k : Nat) : Nat :=
  match k with
  | 0 => r.id % 2 ^ 32 * 2 ^ 32 + r.next % 4096 * 2 ^ 20 + r.rot % 256 * 2 ^ 12 + r.late % 16 * 2 ^ 8 + r.budget % 16 * 2 ^ 4
      + (if r.close then 8 else 0) + r.state % 4 * 2 + 1
  | 1 => r.slot % 8 * 2 ^ 61 + r.ts % 2 ^ 61
  | 2 => r.setNext % 2 ^ 20 * 2 ^ 44 + r.seq % 2 ^ 32
  | _ => 0

/-- The bits of s[RB] that an operation of RQSET uses (R329). -/
def rqsetBits (op : Nat) : Nat :=
  15 * 2 ^ 60 + (if op = 0 then 7 * 2 ^ 56 + 4095 * 2 ^ 32 + 15 else if op = 1 then 4095 else 0)

/-- RQSET at the task engine: the word it writes, and the state after (R329). -/
def State.rqsetNow (s : State) (die : Nat) (a b : Word) : Nat × State :=
  let te := s.te die
  let op := bitsOf b 63 60
  let none_ := 2 ^ 63 + 4
  let entry (f : Request → Nat × Option Request) : Nat × State := match look a.toNat te.requests with
    | none => (none_, s)
    | some r => match f r with
      | (v, some r1) => (v, s.setTe die { te with requests := put a.toNat r1 te.requests })
      | (v, none) => (v, s.setTe die { te with requests := unput a.toNat te.requests })
  match op with
  | 0 =>
    let slot := bitsOf b 58 56
    let e := bitsOf b 43 32
    match (List.range 1024).find? fun i => (look i te.requests).isNone with
    | none => (2 ^ 63 + 1, s)
    | some i => match look slot te.slots with
      | none => (2 ^ 63 + 2, s)
      | some l =>
        if (te.launch l).closed then (2 ^ 63 + 2, s)
        else if (te.launch l).record.tkCount ≤ e then (2 ^ 63 + 3, s)
        else
          let r : Request :=
            { id := bitsOf a 31 0, next := e, rot := 0, late := 0, budget := max 1 (bitsOf b 3 0), close := false, state := 0
              slot := slot, ts := s.cycleOf die % 2 ^ 61, setNext := 0, seq := te.tagSeq }
          (i, s.setTe die { te with requests := put i r te.requests })
  | 1 =>
    entry fun r =>
      let e := bitsOf b 11 0
      let l := te.launch ((look r.slot te.slots).getD 0)
      if l.record.tkCount ≤ e then (2 ^ 63 + 3, some r)
      else if r.state = 1 then (0, some { r with setNext := e + 1 })
      else (0, some { r with next := e, state := 0 })
  | 2 => entry fun r => if r.state = 1 then (0, some { r with close := true }) else (0, none)
  | 3 => match look a.toNat te.requests with
    | none => (0, s)
    | some r => (r.word 0, s)
  | _ => match look (bitsOf a 2 0) te.slots with
    | none => (0, s)
    | some l => (0, s.closeSlot die l)

/-- RQSET: its operand and context checks, and its effect. An add or a remove replies once the mirror downstream has taken
it up (R322, R329, R336, R370). -/
def execRqset (tk : BitVec 4) (rd ra rb : BitVec 5) (s : State) :=
  answer (taskWord markSync tk (fun s0 s => do
    let c := s.cur
    let (a, s1) ← readReg ra s
    let (b, s2) ← readReg rb s1
    let op := bitsOf b 63 60
    let te := s.te c.die
    match s0.pending with
    | some p =>
      if !s0.mirrored c.die then pure (.stay s0)
      else do
        let s3 ← writeResult rd (BitVec.ofNat 64 (p.data.getD 1 0)) s2
        pure (.next s3)
    | none => do
      if 5 ≤ op || b.toNat &&& (rqsetBits op ^^^ (2 ^ 64 - 1)) ≠ 0 || (1 ≤ op && op ≤ 3 && 1023 < a.toNat) then trap 0x60 4
      let slot := if op = 0 then some (bitsOf b 58 56) else if op = 4 then some (bitsOf a 2 0)
        else (look a.toNat te.requests).map (·.slot)
      match slot with
      | none => pure ()
      | some k => match look k te.slots with
        | none => pure ()
        | some l =>
          if (te.launch l).context ≠ s.myCrew.context && !s.myCrew.system then trap 0x61 (BitVec.ofNat 64 k)
      if op = 0 || op = 2 then
        let (v, t) := s0.rqsetNow c.die a b
        let t1 := t.sendMirror c.die
        if t1.mirrored c.die then do
          let (v, s3) := s2.rqsetNow c.die a b
          let s4 ← writeResult rd (BitVec.ofNat 64 v) (s3.sendMirror c.die)
          pure (.next s4)
        else pure (t1.taskWaits 1004 [v] [])
      else do
        let (v, s3) := s2.rqsetNow c.die a b
        let s4 ← writeResult rd (BitVec.ofNat 64 v) s3
        pure (.next s4)) s)

end Sys2Proof.Machine
end

