-- ==== Sys2Proof/Machine/DieRegs.lean ====
section
/-! DEFINITION. The die register block as it reads (R64, R139, R144, R152, R258, R319, R334, R335, R351, R352, R405, R411,
R412, R455, R456, R460). -/

namespace Sys2Proof.Machine

/-- The number of fault records and where they begin; none unless they lie in the berm (R143, R144). -/
def Die.faultArea (d : Die) (die : Nat) : Nat × Nat :=
  let n := min 4096 (bitsOf d.frctl 12 0)
  let base := d.frbase.toNat % 2 ^ 52 / 32 * 32
  if inBerm die base (32 * n) then (n, base) else (0, base)

/-- Records of the fault-record area that are in use: FRSTAT.INUSE (R143, R144). -/
def State.faultsInUse (s : State) (die : Nat) : Nat :=
  let (n, base) := (s.die die).faultArea die
  if s.mem.isEmpty then 0 else ((List.range n).filter fun k => s.readN (base + 32 * k + 7) 1 / 128 = 1).length

/-- Task engine registers by offset (R64, R334, R335). -/
def State.readTask (s : State) (die off : Nat) : Nat :=
  let d := s.die die
  let te := d.te
  if off = 0x1000 then te.ctl.toNat
  else if off = 0x1008 then d.stallwd.toNat
  else if off = 0x1010 then d.rampctl.toNat
  else if off = 0x1018 then d.rampstat.toNat
  else if off = 0x1028 then
    let free := ((List.range 64).filter fun p => (s.crew? die p).isNone).length
    te.tasks.length * 2 ^ 48 + free * 2 ^ 40 + te.drops * 2 ^ 32 + te.rejects
  else if off = 0x1040 then te.preempt.toNat
  else if off = 0x1048 then te.preemptRec.toNat
  else if off = 0x1050 then te.saveBase.toNat
  else if off = 0x1058 then te.saveSize.toNat
  else if off = 0x1060 then te.snapSel.toNat
  else if off = 0x1068 then te.snapWord.toNat
  else if 0x1100 ≤ off && off < 0x1300 then
    let q := (off - 0x1100) / 16
    let x := te.queue q
    if off % 16 = 0 then x.cfg.toNat
    else x.pass % 2 ^ 32 * 2 ^ 32 + x.pending.length % 128 * 2 ^ 16 + (te.ready.filter (·.queue = q)).length % 65536
  else 0

/-- Fault-record, requester and sync engine registers by offset (R144, R152, R258). -/
def State.readAccess (s : State) (die off : Nat) : Nat :=
  let d := s.die die
  let chunks (kind : Nat) : Nat := (d.chunks.filter (·.2 = kind)).length
  if off = 0x2000 then d.frbase.toNat
  else if off = 0x2008 then d.frctl.toNat
  else if off = 0x2010 then d.frlost * 2 ^ 32 + s.faultsInUse die
  else if off = 0x2020 then d.remtimeout.toNat
  else if off = 0x3000 then d.syncctl.toNat
  else if off = 0x3008 then d.syncOvBase.toNat
  else if off = 0x3010 then d.syncOvSize.toNat
  else if off = 0x3018 then chunks 1 % 65536 * 2 ^ 48 + chunks 2 % 65536 * 2 ^ 32 + d.syncRefused
  else 0

/-- Ring engine registers by offset (R352). -/
def Die.readRing (d : Die) (off : Nat) : Nat :=
  if off = 0x4000 then d.rgctl.toNat
  else if off = 0x4008 then d.rgstat
  else if off = 0x4010 then d.rg.count.toNat
  else if off = 0x4018 then d.rptext.toNat
  else if off = 0x4020 then d.rpentry.toNat
  else if off = 0x4028 then (if d.rprunning then 2 ^ 61 else 0) + d.rpreason.toNat * 256 + d.rpcause.toNat
  else if off = 0x4030 then d.rppc.toNat
  else if off = 0x4038 then d.rg.loss.toNat
  else if off = 0x4040 then d.rg.lossCnt % 65536
  else 0

/-- LINKSTAT (R405). -/
def Link.stat (k : Link) : Nat :=
  (if k.up then 2 ^ 63 else 0) + k.keyNum % 2 * 2 ^ 62 + (if k.oldKey.isSome then 2 ^ 61 else 0) + k.txMask % 256 * 2 ^ 48
    + k.rxMask % 256 * 2 ^ 40 + k.keyNum % 2 ^ 32

/-- Fabric engine registers by offset (R388, R405). -/
def State.readFabric (s : State) (die off : Nat) : Nat :=
  let d := s.die die
  if off = 0x5000 then d.congctl.toNat
  else if off = 0x5008 then d.fbstat.toNat
  else if off = 0x5010 then
    (d.invals.filter fun v => v.holder ≠ die).length % 65536 * 2 ^ 48 + d.xaBcast * 2 ^ 32 + d.xaFills
  else if off = 0x5018 then s.domTime % 2 ^ 64
  else if 0x5100 ≤ off && off < 0x5300 then
    let k := d.links.get (Fin.ofNat 4 ((off - 0x5100) / 128))
    let r := off % 128
    if r = 0 then k.ctl.toNat
    else if r = 8 then k.stat
    else if r = 16 then k.err.toNat
    else if 64 ≤ r then (k.lanes.get (Fin.ofNat 8 ((r - 64) / 8))).toNat
    else 0
  else 0

/-- Group map, error log and power registers by offset (R411, R412, R455, R456). -/
def Die.readGroup (d : Die) (off : Nat) : Nat :=
  if off = 0x6000 then d.gmap.toNat
  else if off = 0x6008 then d.gmember.toNat
  else if 0x6100 ≤ off && off < 0x6300 then ((look ((off - 0x6100) / 8) d.gpos).getD 0).toNat
  else if off = 0x7000 then d.errBase.toNat
  else if off = 0x7008 then d.errCtl.toNat
  else if off = 0x7010 then d.errHead
  else if off = 0x7018 then d.errTail.toNat
  else if off = 0x7020 then d.errDrop
  else if off = 0x7040 then d.mxcap.toNat
  else 0

/-- The value of the aligned word of the register block at an offset; an offset with no register, and a register that is only
written, read zero (log 18). -/
def State.dieReg (s : State) (die off : Nat) : Nat :=
  let d := s.die die
  if off < 0x2000 then s.readTask die off
  else if off < 0x4000 then s.readAccess die off
  else if off < 0x5000 then d.readRing off
  else if off < 0x6000 then s.readFabric die off
  else if off < 0x8000 then d.readGroup off
  else if 0x080000 ≤ off && off < 0x088000 then
    match look ((off - 0x080000) / 32) d.te.requests with
    | some r => r.word (off / 8 % 4)
    | none => 0
  else if 0x100000 ≤ off && off < 0x110000 then
    let e := (look ((off - 0x100000) / 16) d.xent).getD (0, 0)
    (if off / 8 % 2 = 0 then e.1 else e.2).toNat
  else if 0x200000 ≤ off && off < 0x220000 then (d.seg ((off - 0x200000) / 8)).toNat
  else 0

/-- Read the aligned word of the register block that holds an offset (R460). Reading changes nothing. -/
def readDieReg (s : State) (die off : Nat) : Word × State := (BitVec.ofNat 64 (s.dieReg die (off / 8 * 8)), s)

end Sys2Proof.Machine
end

