-- ==== Sys2Proof/Machine/Access.lean ====
section
/-! DEFINITION. The access engine's words and events: loads through a handle and from the scratchpad, translation and
handles, page requests, prefetch, scoreboard queries and load streams (04 R125-R156). -/

namespace Sys2Proof.Machine

/-- Outcome of a load word's read: it must wait for its homes, with what it has in progress, or it has its sectors'
results and the requests to forget. -/
inductive Fetch where
  | stay (s : State)
  | got (rs : List (Nat × Reply)) (ids : List Nat) (s : State)
  deriving Inhabited

/-- The executing strand as a reader of pages of a kind. -/
def State.reader (s : State) (kind : BitVec 2) (acquire : Bool) : Reader :=
  { die := s.cur.die, unit := s.cur.polder, context := s.myCrew.context, kind := kind, acquire := acquire }

/-- Whether a load's target has room: the scalar queue where it writes a31, or its vector queue. -/
def State.loadRoom (s : State) (rd : BitVec 5) : Bool := rd ≠ 31 || (s.strand s.cur).qAX.length < 16

/-- Read the sectors of ranges for the executing word: its first turn checks the range scoreboard and, for an acquire at
die scope or wider, starts the write-backs (R53); while homes owe replies the word stays in progress, holding `data`. An acquire
and an SO load wait for room in their target queue before they are sent, so that a stop can complete them (R25, R159). -/
def fetchRanges (rd : RegRead) (r : Reader) (wide room : Bool) (ranges : List (Nat × Nat)) (data : List Nat) (s0 s : State) :
    Res Fetch := do
  let secs := sectorsOf ranges
  match s0.pending with
  | none => do
    if (r.kind = 0 || r.acquire) && !room then hold .dataQueue
    untilTrue (!s.scoreboardHolds ranges)
    if r.kind = 0 then untilTrue (!s0.soHeld) else pure ()
    let (wb, s1) := if wide then s0.writeBackContext s0.cur else ([], s0)
    let (ids, s2) := s1.askSectors r [] secs
    if wb.isEmpty && ids.isEmpty then do
      let (rs, s3) := readSectors rd r [] secs s
      pure (.got rs [] s3)
    else pure (.stay (s2.setPending { ids := wb ++ ids, data := data }))
  | some p => do
    let held := s0.readsHeld p.ids
    let (more, s1) := s0.askSectors r held secs
    if !more.isEmpty then pure (.stay (s1.setPending { ids := p.ids ++ more, data := data }))
    else if !s0.allReplied p.ids then pure (.stay s0)
    else do
      let (rs, s2) := readSectors rd r held secs s
      pure (.got rs p.ids s2)

/-! ## Scalar loads through a handle (R130) -/

/-- A value of `8 × b` bits extended to 64 bits (R130). -/
def extendLoad (v b : Nat) (u : BitVec 1) : Word :=
  if u = 1 || v < 2 ^ (8 * b - 1) then BitVec.ofNat 64 v else BitVec.ofNat 64 (v + 2 ^ 64 - 2 ^ (8 * b))

/-- The register result of a load (R127, R130, R57). -/
def loadResult (g : Got) (b : Nat) (u stf : BitVec 1) (s : State) : Res (Word × State) :=
  match g.poisonAt with
  | some p => trap 0x08 (BitVec.ofNat 64 p)
  | none =>
    if g.status ≠ 0 then
      if stf = 0 then trap (loadCause g.status) (BitVec.ofNat 64 g.failAt)
      else pure (0, s.loadFailed s.cur g.status s.pc)
    else pure (extendLoad g.data b u, s)

/-- LD and LD.ACQ (R130). -/
def scalarLoad (rd : BitVec 5) (h : BitVec 3) (ra : BitVec 5) (size : BitVec 2) (u stf : BitVec 1)
    (acq : Option (BitVec 3)) (s0 s : State) : Res Eff := do
  let b := 2 ^ size.toNat
  let hd := s.handle h.toNat
  let (off, s1) ← readReg ra s
  let pa ← handleCheck hd h.toNat off.toNat b
  if let some u := s.bankSplit s.cur.die pa b then trap 0x24 (BitVec.ofNat 64 u)
  let wide := match acq with
    | some sc => dieScope sc
    | none => false
  match ← fetchRanges readDieReg (s.reader hd.kind acq.isSome) wide (s.loadRoom rd) [(pa, b)] [] s0 s1 with
  | .stay t => pure (.stay t)
  | .got rs ids t => do
    let (v, t1) ← loadResult (collectRange rs pa b) b u stf t
    let t2 ← writeReg rd v t1
    let t3 := t2.forgetAll ids
    pure (.next (if wide then t3.invalidateContext t3.cur else t3))

def execLd (tk : BitVec 4) (rd : BitVec 5) (h : BitVec 3) (ra : BitVec 5) (size : BitVec 2) (u stf : BitVec 1) (s : State) :=
  answer (runLoad markLoad tk (scalarLoad rd h ra size u stf none) s)
def execLdAcq (tk : BitVec 4) (rd : BitVec 5) (h : BitVec 3) (ra : BitVec 5) (size : BitVec 2) (u stf : BitVec 1)
    (scope : BitVec 3) (s : State) :=
  answer (runLoad markLoadAcq tk (scalarLoad rd h ra size u stf (some scope)) s)

/-! ## Vectors in the A-to-X queues -/

/-- The load stream of a queue. -/
def Strand.loadStream (st : Strand) (q : Nat) : Option AffineStream := if q = 0 then st.ls0 else st.ls1

/-- Replace the load stream of a queue. -/
def Strand.setLoadStream (st : Strand) (q : Nat) (x : Option AffineStream) : Strand :=
  if q = 0 then { st with ls0 := x } else { st with ls1 := x }

/-- The entries of an A-to-X vector queue. -/
def Strand.vAX (st : Strand) (q : Nat) : List VEntry := if q = 0 then st.vAX0 else st.vAX1

/-- Push an entry without a check. -/
def Strand.pushVAX (st : Strand) (q : Nat) (e : VEntry) : Strand :=
  if q = 0 then { st with vAX0 := st.vAX0 ++ [e] } else { st with vAX1 := st.vAX1 ++ [e] }

/-- Push an entry by a word of the A stream (R23, R63). -/
def pushVector (q : Nat) (e : VEntry) (s : State) : Res State := do
  let st := s.strand s.cur
  let _ ← pushQueue s s.cur .x (3 + q) 8 (st.vAX q) e
  pure (s.setStrand s.cur (st.pushVAX q e))

/-- A vector load of a queue with a load stream bound to it traps 0x2B (R134). -/
def unboundQueue (q : Nat) (s : State) : Res Unit :=
  if ((s.strand s.cur).loadStream q).isSome then trap 0x2B (BitVec.ofNat 64 q) else pure ()

/-- The outcome of one unit of a vector: its data, and its failure as a status, a cause and its information; a null
unit fails without either (R128, R133). -/
inductive Lane where
  | ok (v : Nat)
  | null
  | bad (status cause : Nat) (info : Word)
  deriving DecidableEq, Repr, Inhabited

/-- Complete (R128): the entry, and the failing status to be recorded. `per` is the number of elements that one unit
holds, 2 for 4-bit elements and 1 for wider ones; `bits` the bits of a unit. -/
def completeVector (lanes : List Lane) (per bits : Nat) (statp : BitVec 4) : Res (VEntry × Option Nat) :=
  let bad := lanes.findSome? fun l => match l with
    | .bad st cause info => some (st, cause, info)
    | _ => none
  let failing (l : Lane) : Nat := match l with
    | .ok _ => 0
    | _ => 2 ^ per - 1
  let data := packElems bits (lanes.map fun l => match l with
    | .ok v => v
    | _ => 0)
  let mask := packElems per (lanes.map failing)
  let entry : VEntry :=
    { data := BitVec.ofNat 4096 data, statp := statp, mask := BitVec.ofNat 1024 mask, fail := none, poison := false }
  match bad with
  | none => pure (entry, none)
  | some (st, cause, info) => if statp = 15 then trap cause info else pure (entry, some st)

/-- A unit from the bytes read for it; poisoned data traps (R57, R127). -/
def laneOf (g : Got) : Res Lane :=
  match g.poisonAt with
  | some p => trap 0x08 (BitVec.ofNat 64 p)
  | none => pure (if g.status ≠ 0 then .bad g.status (loadCause g.status) (BitVec.ofNat 64 g.failAt) else .ok g.data)

/-! ## Vector loads through a handle (R132-R134) -/

/-- The operands of a vector load: form 1 LDV, 2 LDVS, 3 LDVG (R158). -/
structure VLoad where
  form : Nat
  tk : BitVec 4
  q : BitVec 1
  width : BitVec 2
  h : BitVec 3
  ra : BitVec 5
  rb : BitVec 5
  acq : Option (BitVec 3)
  statp : BitVec 4
  deriving DecidableEq, Repr, Inhabited

/-- A vector load as the record of the word in progress holds it. -/
def VLoad.toList (v : VLoad) : List Nat :=
  [v.form, v.tk.toNat, v.q.toNat, v.width.toNat, v.h.toNat, v.ra.toNat, v.rb.toNat,
    (match v.acq with
      | none => 0
      | some s => 1 + s.toNat), v.statp.toNat]

/-- A vector load from its record. -/
def VLoad.ofList : List Nat → Option VLoad
  | [form, tk, q, width, h, ra, rb, acq, statp] =>
    some { form := form, tk := BitVec.ofNat 4 tk, q := BitVec.ofNat 1 q, width := BitVec.ofNat 2 width, h := BitVec.ofNat 3 h
           ra := BitVec.ofNat 5 ra, rb := BitVec.ofNat 5 rb
           acq := if acq = 0 then none else some (BitVec.ofNat 3 (acq - 1)), statp := BitVec.ofNat 4 statp }
  | _ => none

/-- Elements of a vector of a width code (R126). -/
def laneCount (width : BitVec 2) : Nat := 4096 / (4 * 2 ^ width.toNat)

/-- Bytes of an element of a width code of 8 bits or more. -/
def laneBytes (width : BitVec 2) : Nat := 2 ^ width.toNat / 2

/-- An index list in the scratchpad: cause 0x23 unless aligned and within one bank, 0x28 beyond the scratchpad (R133). -/
def indexList (u n : Nat) (s : State) : Res (List Nat) := do
  if u % 4 ≠ 0 || u / 65536 ≠ (u + 4 * n - 1) / 65536 then trap 0x23 (BitVec.ofNat 64 u)
  else if s.myCrew.scratchBytes < u + 4 * n then trap 0x28 (BitVec.ofNat 64 u)
  else do
    let pa := s.scratchPa u
    untilTrue (!s.scoreboardHolds [(pa, 4 * n)])
    match s.poisonIn pa (4 * n) with
    | some p => trap 0x08 (BitVec.ofNat 64 p)
    | none => pure (elems 32 n (s.readN pa (4 * n)))

/-- Where a unit of a vector is read: an address, a null index, or a gather index past the end of the page. -/
inductive Source where
  | at (pa : Nat)
  | null
  | past
  deriving DecidableEq, Repr, Inhabited

/-- The units of a vector load with the bytes of each (R132, R133). -/
def vloadSources (v : VLoad) (s : State) : Res (List Source × Nat × State) := do
  let hd := s.handle v.h.toNat
  let (off, s1) ← readReg v.ra s
  let w := laneBytes v.width
  let n := laneCount v.width
  if v.form = 1 then do
    let pa ← handleCheck hd v.h.toNat off.toNat 512
    let w := max w 1
    pure ((List.range (512 / w)).map (fun i => .at (pa + i * w)), w, s1)
  else do
    let (b, s2) ← readReg v.rb s1
    if v.form = 2 then do
      let pas ← (List.range n).mapM fun (i : Nat) =>
        handleCheck hd v.h.toNat ((off.toNat : Int) + (i : Int) * b.toInt) w
      pure (pas.map .at, w, s2)
    else if !hd.valid then trap 0x20 (BitVec.ofNat 64 v.h.toNat)
    else do
      let idx ← indexList b.toNat n s
      pure (idx.map (fun i =>
        if i = 2 ^ 32 - 1 then .null
        else if pageBytes hd.size < off.toNat + i * w + w then .past
        else .at (hd.base.toNat + off.toNat + i * w)), w, s2)

/-- The ranges of units that are read. -/
def sourceRanges (us : List Source) (w : Nat) : List (Nat × Nat) :=
  us.filterMap fun u => match u with
    | .at pa => some (pa, w)
    | _ => none

/-- The units of a vector from the results of its sectors. -/
def lanesOf (us : List Source) (w : Nat) (rs : List (Nat × Reply)) : Res (List Lane) :=
  us.zipIdx.mapM fun e => match e.1 with
    | .at pa => laneOf (collectRange rs pa w)
    | .null => pure .null
    | .past => pure (.bad 4 0x2A (BitVec.ofNat 64 e.2))

/-- Deliver a vector: record a failure and push the entry (R128). -/
def deliverVector (lanes : List Lane) (width : BitVec 2) (w q : Nat) (statp : BitVec 4) (s : State) : Res State := do
  let per := if width = 0 then 2 else 1
  let (e, st) ← completeVector lanes per (8 * w) statp
  let s1 := match st with
    | some st => s.loadFailed s.cur st s.pc
    | none => s
  pushVector q e s1

/-- A vector load: its turn checks it and sends for its sectors; VECTOR_LOAD_COMPLETE completes it (R128, R132). -/
def vectorLoad (v : VLoad) (complete : Bool) (s0 s : State) : Res Eff := do
  unboundQueue v.q.toNat s
  let hd := s.handle v.h.toNat
  let (us, w, s1) ← vloadSources v s
  let ranges := sourceRanges us w
  let split := ranges.findSome? fun r => s.bankSplit s.cur.die r.1 r.2
  let split := if v.form = 1 then (match ranges with
    | (pa, _) :: _ => s.bankSplit s.cur.die pa 512
    | [] => none) else split
  if let some u := split then trap 0x24 (BitVec.ofNat 64 u)
  let wide := match v.acq with
    | some sc => dieScope sc
    | none => false
  match ← fetchRanges readDieReg (s.reader hd.kind v.acq.isSome) wide (((s.strand s.cur).vAX v.q.toNat).length < 8) ranges
    v.toList s0 s1 with
  | .stay t => pure (.stay t)
  | .got rs ids t =>
    if complete then do
      let lanes ← lanesOf us w rs
      let t1 ← deliverVector lanes v.width w v.q.toNat v.statp t
      let t2 := t1.forgetAll ids
      pure (.next (if wide then t2.invalidateContext t2.cur else t2))
    else if s0.pending.isSome then pure (.stay s0)
    else pure (.stay (s0.setPending { ids := [], data := v.toList }))

/-- The turn of a vector load word. -/
def vectorLoadWord (mark : Marking) (v : VLoad) (s : State) : State := runLoad mark v.tk (vectorLoad v false) s

def execLdv (tk : BitVec 4) (q : BitVec 1) (width : BitVec 2) (h : BitVec 3) (ra : BitVec 5) (statp : BitVec 4) (s : State) :=
  answer (vectorLoadWord markLoad ⟨1, tk, q, width, h, ra, 0, none, statp⟩ s)
def execLdvAcq (tk : BitVec 4) (q : BitVec 1) (width : BitVec 2) (h : BitVec 3) (ra : BitVec 5) (scope : BitVec 3)
    (statp : BitVec 4) (s : State) :=
  answer (vectorLoadWord markLoadAcq ⟨1, tk, q, width, h, ra, 0, some scope, statp⟩ s)
def execLdvs (tk : BitVec 4) (q : BitVec 1) (width : BitVec 2) (h : BitVec 3) (ra rb : BitVec 5) (statp : BitVec 4) (s : State) :=
  answer (vectorLoadWord markLoad ⟨2, tk, q, width, h, ra, rb, none, statp⟩ s)
def execLdvg (tk : BitVec 4) (q : BitVec 1) (width : BitVec 2) (h : BitVec 3) (ra rb : BitVec 5) (statp : BitVec 4) (s : State) :=
  answer (vectorLoadWord markLoad ⟨3, tk, q, width, h, ra, rb, none, statp⟩ s)

/-- VECTOR_LOAD_COMPLETE: the vector load in progress in the strand's A stream has every sector's result (R128). -/
def execVectorLoadComplete (s : State) :=
  let c : Ctx := { s.cur with str := .a, rot := false }
  let t := { s with cur := c }
  answer (match (s.strand? c).bind (fun st => st.a.pend.bind fun p => VLoad.ofList p.data) with
    | none => s
    | some v => runWord 1 (fun _ => true) v.tk (vectorLoad v true) t)

/-! ## Scratchpad loads (R135-R138) -/

/-- Check that bytes lie in the scratchpad: cause 0x28 with the address the word named (R135). -/
def inScratch (s : State) (u n info : Nat) : Res Unit :=
  if s.myCrew.scratchBytes < u + n then trap 0x28 (BitVec.ofNat 64 info) else pure ()

/-- Read bytes of the scratchpad; poisoned data traps (R57). -/
def scratchRead (s : State) (u n : Nat) : Res Nat := do
  let pa := s.scratchPa u
  match s.poisonIn pa n with
  | some p => trap 0x08 (BitVec.ofNat 64 p)
  | none => pure (s.readN pa n)

/-- LDP (R136). -/
def execLdp (tk : BitVec 4) (rd ra : BitVec 5) (size : BitVec 2) (u : BitVec 1) (s : State) :=
  answer (runLoad markLoad tk (fun _ s => do
    let b := 2 ^ size.toNat
    let (a, s1) ← readReg ra s
    inScratch s a.toNat 1 a.toNat
    if a.toNat % b ≠ 0 then trap 0x23 a
    untilTrue (!s.scoreboardHolds [(s.scratchPa a.toNat, b)])
    let v ← scratchRead s a.toNat b
    let s2 ← writeReg rd (extendLoad v b u) s1
    pure (.next s2)) s)

/-- The bytes of a block column access: element i begins in row i mod 64, byte-column c + w × (i div 64) (R136). -/
def columnByte (u w i j : Nat) : Nat := u / 4096 * 4096 + i % 64 * 64 + u % 64 + w * (i / 64) + j

/-- LDPV row on a 6-bit bank (R137). -/
def sixBitRow (width : BitVec 2) (u : Nat) (s : State) : Res Nat := do
  let bank := u / 65536
  let o := u % 65536
  let f := s.myCrew.fmtOf bank
  if width ≠ 1 then trap 0x24 (BitVec.ofNat 64 u)
  if o % 64 ≠ 0 || 32768 < o + 256 then trap 0x23 (BitVec.ofNat 64 u)
  let base := s.scratchPa (bank * 65536)
  untilTrue (!s.scoreboardHolds [(base + o, 256), (base + 32768 + o / 2, 128)])
  match (s.poisonIn (base + o) 256).or (s.poisonIn (base + 32768 + o / 2) 128) with
  | some p => trap 0x08 (BitVec.ofNat 64 p)
  | none => pure (packElems 8 ((List.range 512).map fun i => widen6 f (s.sixBitElt base (2 * o + i))))

/-- The data of LDPV (R136, R137). DESIGN CHOICE (log 64): of several checks that fail at once 0x28 comes first, then 0x23, then
0x24; R136 gives no order. -/
def scratchVector (width : BitVec 2) (col : Bool) (u : Nat) (s : State) : Res Nat := do
  let w := max 1 (laneBytes width)
  inScratch s u 1 u
  let c := s.myCrew
  if (c.fmtOf (u / 65536)).sixBit then
    if col then trap 0x24 (BitVec.ofNat 64 u) else sixBitRow width u s
  else if col then do
    if u / 64 % 64 ≠ 0 || u % 64 % w ≠ 0 || 64 < u % 64 + 8 then trap 0x23 (BitVec.ofNat 64 u)
    let pa := s.scratchPa (u / 4096 * 4096)
    let byte (k : Nat) : Nat := s.scratchPa (columnByte u w (k / w) (k % w))
    untilTrue (!s.scoreboardHolds ((List.range 64).map fun r => (pa + 64 * r + u % 64, 8)))
    match (List.range 512).findSome? (fun k => s.poisonIn (byte k) 1) with
    | some p => trap 0x08 (BitVec.ofNat 64 p)
    | none => pure (packElems 8 ((List.range 512).map fun k => (s.byteAt (byte k)).toNat))
  else do
    inScratch s u 512 u
    if u % w ≠ 0 then trap 0x23 (BitVec.ofNat 64 u)
    if c.fmtCode (u / 65536) ≠ c.fmtCode ((u + 511) / 65536) then trap 0x24 (BitVec.ofNat 64 u)
    untilTrue (!s.scoreboardHolds [(s.scratchPa u, 512)])
    scratchRead s u 512

/-- A vector of plain data. -/
def plainEntry (v : Nat) : VEntry :=
  { data := BitVec.ofNat 4096 v, statp := 15, mask := 0, fail := none, poison := false }

/-- LDPV (R136, R137). -/
def execLdpv (tk : BitVec 4) (q : BitVec 1) (width : BitVec 2) (orient : BitVec 1) (ra : BitVec 5) (s : State) :=
  answer (runLoad markLoad tk (fun _ s => do
    unboundQueue q.toNat s
    let (a, s1) ← readReg ra s
    let v ← scratchVector width (orient = 1) a.toNat s
    let s2 ← pushVector q.toNat (plainEntry v) s1
    pure (.next s2)) s)

/-- The elements LDPVG gathers (R136). DESIGN CHOICE (log 64): of several checks that fail at once 0x28 comes first, then 0x23,
then 0x24; R136 gives no order. -/
def scratchGather (u w : Nat) (idx : List Nat) (s : State) : Res Nat := do
  let addr (i : Nat) : Nat := u + i * w
  let used := idx.filter (· ≠ 2 ^ 32 - 1)
  let c := s.myCrew
  if let some i := used.find? (fun i => c.scratchBytes < addr i + w) then trap 0x28 (BitVec.ofNat 64 (addr i))
  if let some i := used.find? (fun i => addr i % w ≠ 0) then trap 0x23 (BitVec.ofNat 64 (addr i))
  let code (i : Nat) : Nat := c.fmtCode (addr i / 65536)
  match used with
  | [] => pure 0
  | f :: _ => do
    if let some i := used.find? (fun i => code i ≠ code f || (c.fmtOf (addr i / 65536)).sixBit) then
      trap 0x24 (BitVec.ofNat 64 (addr i))
    untilTrue (!s.scoreboardHolds (used.map fun i => (s.scratchPa (addr i), w)))
    match used.findSome? (fun i => s.poisonIn (s.scratchPa (addr i)) w) with
    | some p => trap 0x08 (BitVec.ofNat 64 p)
    | none => pure (packElems (8 * w) (idx.map fun i => if i = 2 ^ 32 - 1 then 0 else s.readN (s.scratchPa (addr i)) w))

/-- LDPVG (R135, R136). -/
def execLdpvg (tk : BitVec 4) (q : BitVec 1) (width : BitVec 2) (ra rb : BitVec 5) (s : State) :=
  answer (runLoad markLoad tk (fun _ s => do
    unboundQueue q.toNat s
    let (a, s1) ← readReg ra s
    let (b, s2) ← readReg rb s1
    inScratch s a.toNat 1 a.toNat
    let idx ← indexList b.toNat (laneCount width) s
    let v ← scratchGather a.toNat (laneBytes width) idx s
    let s3 ← pushVector q.toNat (plainEntry v) s2
    pure (.next s3)) s)

/-! ## Translation and handles (R139-R141) -/

/-- Whether an entry matches a virtual address for a context (R139, R141); `remote` leaves segment-window pages out, as
the translation agent does (R392). -/
def entryMatches (die context va : Nat) (remote : Bool) (w : Word × Word) : Bool :=
  let size : BitVec 2 := BitVec.ofNat 2 (bitsOf w.1 60 59)
  let page := pageBytes size
  bitsOf w.1 63 63 = 1 && bitsOf w.1 62 61 ≠ 3 && bitsOf w.2 63 58 = context
    && bitsOf w.2 57 18 * 65536 / page = va % 2 ^ 56 / page
    && (bitsOf w.1 57 57 = 0
        || (!remote && size = 3 && bitsOf w.1 51 16 * 65536 / page * page = dieAddr die 0))

/-- The matching entry of lowest index (R141, R392). -/
def Die.search (d : Die) (die context va : Nat) (remote : Bool) : Option (Nat × Word) :=
  (d.xent.find? fun e => entryMatches die context va remote e.2).map fun e => (e.1, e.2.1)

/-- Replace a handle register of the executing strand. -/
def State.setHandle (s : State) (n : Nat) (h : Handle) : State :=
  let st := s.strand s.cur
  let i : Fin 16 := Fin.ofNat 16 n
  s.setStrand s.cur { st with h := st.h.set i.val h i.isLt }

/-- XLATE (R141). -/
def execXlate (tk : BitVec 4) (rd : BitVec 5) (hn : BitVec 4) (ra : BitVec 5) (s : State) :=
  answer (runA tk (fun s => do
    let (va, s1) ← readReg ra s
    let old := s.handle hn.toNat
    if bitsOf va 63 56 ≠ 0 then do
      let s2 ← writeReg rd 2 (s1.setHandle hn.toNat { old with valid := false })
      pure (.next s2)
    else
      match (s.die s.cur.die).search s.cur.die s.myCrew.context va.toNat false with
      | none => do
        let s2 ← writeReg rd 1 (s1.setHandle hn.toNat { old with valid := false })
        pure (.next s2)
      | some (k, w0) => do
        let s2 ← writeReg rd (BitVec.ofNat 64
          (bitsOf w0 57 57 * 2 ^ 9 + bitsOf w0 58 58 * 2 ^ 8 + bitsOf w0 62 61 * 2 ^ 6 + bitsOf w0 60 59 * 2 ^ 4))
          (s1.setHandle hn.toNat (handleOf k w0 true))
        pure (.next s2)) s)

/-- HTEST (R141). -/
def execHtest (tk : BitVec 4) (rd : BitVec 5) (hn : BitVec 4) (s : State) :=
  answer (runA tk (fun s => do
    let s1 ← writeReg rd (BitVec.ofNat 64 (s.handle hn.toNat).toNat) s
    pure (.next s1)) s)

/-- HREL (R141). -/
def execHrel (tk hn : BitVec 4) (s : State) :=
  answer (runA tk (fun s => pure (.next (s.setHandle hn.toNat { s.handle hn.toNat with valid := false }))) s)

/-- HMOV (R141). -/
def execHmov (tk hn hm : BitVec 4) (s : State) :=
  answer (runA tk (fun s => pure (.next (s.setHandle hn.toNat (s.handle hm.toNat)))) s)

/-! ## Page requests and fault records (R142-R144) -/

/-- The record unit merges a request into an open record of its block, or takes the free record of lowest index (R143). -/
def State.faultRecord (s : State) (c : Ctx) (context va : Nat) : Nat × State :=
  let d := s.die c.die
  let (n, base) := d.faultArea c.die
  let block := va / 2 ^ 22 * 2 ^ 22
  let page := va / 65536 % 64
  let tag := 3 * 2 ^ 62 + context * 2 ^ 56 + block
  let word (k i : Nat) : Word := s.word64 (base + 32 * k + 8 * i)
  match (List.range n).find? (fun k => (word k 0).toNat / 2 ^ 22 = tag / 2 ^ 22) with
  | some k =>
    let w1 := word k 1 ||| BitVec.ofNat 64 (2 ^ page)
    let s1 := s.writeN (base + 32 * k + 8) w1.toNat 8
    (0, s1.writeN (base + 32 * k + 16) (satAdd (word k 2) 63 32 1).toNat 8)
  | none =>
    match (List.range n).find? (fun k => bitsOf (word k 0) 63 63 = 0) with
    | some k =>
      let s1 := s.writeN (base + 32 * k) tag 8
      let s2 := s1.writeN (base + 32 * k + 8) (2 ^ page) 8
      let s3 := s2.writeN (base + 32 * k + 16) (2 ^ 32 + c.polder * 2 ^ 26 + c.strand * 2 ^ 24) 8
      let s4 := s3.writeN (base + 32 * k + 24) (s.cycleOf c.die) 8
      (0, s4.raise c.die 0)
    | none => (2, s.setDie c.die { d with frlost := min (d.frlost + 1) (2 ^ 32 - 1) })

/-- PREQ (R142). DESIGN CHOICE (log 65): results 3 and 1 of R142 come before the 2 that R144 gives every PREQ while FRCTL.COUNT
is 0. -/
def execPreq (tk : BitVec 4) (rd ra : BitVec 5) (s : State) :=
  answer (runA tk (fun s => do
    let (va, s1) ← readReg ra s
    let (r, s2) :=
      if bitsOf va 63 56 ≠ 0 then (3, s1)
      else if ((s.die s.cur.die).search s.cur.die s.myCrew.context va.toNat false).isSome then (1, s1)
      else s1.faultRecord s.cur s.myCrew.context va.toNat
    let s3 ← writeReg rd (BitVec.ofNat 64 r) s2
    pure (.next s3)) s)

/-- Close a fault record: later requests for its block open a new one (R143, R144). -/
def State.closeRecord (s : State) (die k : Nat) : State :=
  let (n, base) := (s.die die).faultArea die
  if n ≤ k then s
  else
    let a := base + 32 * k
    s.writeN a (setBits (s.word64 a) 62 62 0).toNat 8

/-! ## Prefetch (R145) -/

/-- The bytes of a prefetch length code. -/
def prefBytes (len : BitVec 2) : Nat :=
  if len = 0 then 128 else if len = 1 then 1024 else if len = 2 then 4096 else 65536

/-- Prefetch one sector: it is filled unless it is held, or dropped when no tag is free. -/
def State.prefetch (s : State) (r : Reader) (idx : Nat) : State :=
  let p := s.place r.die (128 * idx)
  if !(p = .remote || p = .host) || (s.cached r idx (fullMask 128)).isSome || (s.freeTag r.die r.unit 0).isNone then s
  else
    let s1 := (s.sectorFor r.die idx r.context).2
    (s1.request { Req.blank r.die r.unit 0 0 (128 * idx) 128 r.context with op := 127, purpose := .fill r.context }).2

/-- PREF (R145). -/
def execPref (tk : BitVec 4) (h : BitVec 3) (ra : BitVec 5) (len : BitVec 2) (s : State) :=
  answer (runA tk (fun s => do
    let (off, s1) ← readReg ra s
    let hd := s.handle h.toNat
    if !hd.valid || hd.kind = 0 || pageBytes hd.size ≤ off.toNat then pure (.next s1)
    else
      let n := min (prefBytes len) (pageBytes hd.size - off.toNat)
      let a := hd.base.toNat + off.toNat
      let count := (a + n - 1) / 128 - a / 128 + 1
      let r := s.reader hd.kind false
      pure (.next ((List.range count).foldl (fun s i => s.prefetch r (a / 128 + i)) s1))) s)

/-! ## Range scoreboard queries (R146) -/

/-- SCBQ (R146). -/
def execScbq (tk : BitVec 4) (rd ra rb : BitVec 5) (space : BitVec 1) (s : State) :=
  answer (runA tk (fun s => do
    let (a, s1) ← readReg ra s
    let (n, s2) ← readReg rb s1
    let (pa, len) :=
      if space = 1 then (a.toNat, n.toNat) else (s.scratchPa a.toNat, min n.toNat (0x800000 - a.toNat))
    let es := s.myCrew.copies.toList
    let hits := packElems 1 (es.map fun e => if e.overlaps pa len then 1 else 0)
    let valid := (es.filter fun e => e.state ≠ .free).length
    let s3 ← writeReg rd (BitVec.ofNat 64 (hits + valid * 2 ^ 16)) s2
    pure (.next s3)) s)

/-- SCBWAIT: wait until the entries named at issue have retired (R146). -/
def execScbwait (tk : BitVec 4) (ra : BitVec 5) (s : State) :=
  answer (runWord 1 (· = .a) tk (fun s0 s => do
    let (m, s1) ← readReg ra s
    let es := s.myCrew.copies.toList
    let named (i : Nat) : Bool := m.toNat % 65536 = 0 || m.toNat / 2 ^ i % 2 = 1
    let live (i order : Nat) : Bool := match es[i]? with
      | some e => e.state ≠ .free && e.order = order
      | none => false
    let waits := match s0.pending with
      | some p => p.data.tail
      | none => es.zipIdx.filterMap fun e => if e.1.state ≠ .free && named e.2 then some (e.1.order * 16 + e.2) else none
    if waits.any fun w => live (w % 16) (w / 16) then pure (.stay (s0.setPending { ids := [], data := 0 :: waits }))
    else pure (.next s1)) s)

/-! ## Load streams (R147-R150, R156) -/

/-- The lowest and highest address of a pattern with vectors (R148). -/
def Descr.extremes (d : Descr) : Int × Int :=
  (d.counts.zip d.strides).foldl (fun (acc : Int × Int) cs =>
    let far := ((cs.1 : Int) - 1) * cs.2
    (acc.1 + min 0 far, acc.2 + max 0 far)) ((d.base : Int), (d.base : Int))

/-- Every address of a pattern that lies within `span` bytes. -/
def Descr.addrs (d : Descr) (span : Nat) : List Int :=
  (d.counts.zip d.strides).foldl (fun (as : List Int) cs =>
    let n := if cs.2 = 0 then min cs.1 1 else min cs.1 (span / cs.2.natAbs + 1)
    (as.flatMap fun a => (List.range n).map fun (i : Nat) => a + (i : Int) * cs.2).eraseDups) [(d.base : Int)]

/-- Whether a scratchpad address breaks the alignment or orientation rules of R136 or R137 for a width and orientation. -/
def scratchRuleBroken (c : Crew) (width : BitVec 2) (col : Bool) (u : Nat) : Bool :=
  let w := max 1 (laneBytes width)
  if (c.fmtOf (u / 65536)).sixBit then
    col || width ≠ 1 || u % 65536 % 64 ≠ 0 || 32768 < u % 65536 + 256
  else if col then width = 0 || u / 64 % 64 ≠ 0 || u % 64 % w ≠ 0 || 64 < u % 64 + 8
  else u % w ≠ 0

/-- The first check a load stream descriptor fails, by reason (R148). -/
def streamFault (c : Crew) (h : Nat → Handle) (d : Descr) : Option Nat :=
  let statp := bitsOf d.ctrl 15 12
  let space := bitsOf d.ctrl 8 8
  let width : BitVec 2 := BitVec.ofNat 2 (bitsOf d.ctrl 7 6)
  let col := bitsOf d.ctrl 9 9 = 1
  let hd := h (bitsOf d.ctrl 2 0)
  let (lo, hi) := d.extremes
  let some1 := d.total ≠ 0
  if bitsOf d.ctrl 63 16 ≠ 0 || bitsOf d.ctrl 5 3 ≠ 0 || (12 ≤ statp && statp ≤ 14) || (space = 1 && statp ≠ 15) then some 1
  else if space = 0 && !hd.valid then some 2
  else if some1 && space = 0 && (lo < 0 || (pageBytes hd.size : Int) < hi + 512) then some 3
  else if some1 && space = 1 && (lo < 0 || (c.scratchBytes : Int) ≤ hi) then some 3
  else if some1 && space = 1 && !col
      && (d.addrs 0x800000).any (fun a => !(c.fmtOf (a.toNat / 65536)).sixBit && (c.scratchBytes : Int) < a + 512) then some 3
  else if some1 && space = 1 && (d.addrs 0x800000).any (fun a => scratchRuleBroken c width col a.toNat) then some 4
  else if 2 ^ 32 ≤ d.total then some 5
  else none

/-- Read a descriptor of 64 bytes from the scratchpad (R148, R283); `bad` and `far` are the causes of a misaligned and of
an absent address. -/
def readDescr (u bad far : Nat) (s : State) : Res (Vector Word 8) := do
  if u % 64 ≠ 0 then trap bad (BitVec.ofNat 64 u)
  if s.myCrew.scratchBytes < u + 64 then trap far (BitVec.ofNat 64 u)
  untilTrue (!s.scoreboardHolds [(s.scratchPa u, 64)])
  let v ← scratchRead s u 64
  pure (Vector.ofFn fun i => BitVec.ofNat 64 (v / 2 ^ (64 * i.val)))

/-- SBIND (R148). -/
def execSbind (tk : BitVec 4) (q : BitVec 1) (ra : BitVec 5) (s : State) :=
  answer (runLoad markLoad tk (fun _ s => do
    let (a, s1) ← readReg ra s
    if a.toNat % 64 ≠ 0 then trap 0x23 a
    unboundQueue q.toNat s
    let desc ← readDescr a.toNat 0x23 0x28 s
    let d := descrOf desc
    match streamFault s.myCrew s.handle d with
    | some r => trap 0x29 (a + BitVec.ofNat 64 (2 ^ 32 * r))
    | none =>
      let st := s1.strand s.cur
      let x : AffineStream :=
        { desc := desc, handle := s.handle (bitsOf d.ctrl 2 0), word := s.pc, next := 0, count := d.total, pushed := 0
          flight := none, place := 0, began := 0, reqs := [], stopped := none }
      pure (.next (s1.setStrand s.cur (st.setLoadStream q.toNat (some x))))) s)

/-- SUNBIND: vectors not yet begun are dropped; the queue is unbound once a fetch in flight has pushed (R149). -/
def execSunbind (tk : BitVec 4) (q : BitVec 1) (s : State) :=
  answer (runWord 1 (· = .a) tk (fun s0 s =>
    let st := s.strand s.cur
    match st.loadStream q.toNat with
    | none => pure (.next s)
    | some x =>
      if x.flight.isSome then
        let y := { x with count := x.next }
        pure (.stay (s0.setStrand s0.cur ((s0.strand s0.cur).setLoadStream q.toNat (some y))))
      else pure (.next (s.setStrand s.cur (st.setLoadStream q.toNat none)))) s)

/-- SBGET (R150). -/
def execSbget (tk : BitVec 4) (q : BitVec 1) (rd : BitVec 5) (s : State) :=
  answer (runA tk (fun s => do
    let v := match (s.strand s.cur).loadStream q.toNat with
      | none => 0
      | some x => 2 ^ 63 + x.pushed % 2 ^ 32
    let s1 ← writeReg rd (BitVec.ofNat 64 v) s
    pure (.next s1)) s)

/-- SBADV (R150). -/
def execSbadv (tk : BitVec 4) (q : BitVec 1) (ra : BitVec 5) (s : State) :=
  answer (runA tk (fun s => do
    let (n, s1) ← readReg ra s
    let st := s1.strand s.cur
    match st.loadStream q.toNat with
    | none => trap 0x2B (BitVec.ofNat 64 q.toNat)
    | some x =>
      let y := { x with next := x.next + min n.toNat (x.count - x.next) }
      pure (.next (s1.setStrand s.cur (st.setLoadStream q.toNat (some y))))) s)

/-- Whether a bound stream has ended: no vector is left and none is in flight (R149). -/
def AffineStream.ended (x : AffineStream) : Bool := x.count ≤ x.next && x.flight.isNone

/-- SBWAIT (R150). -/
def execSbwait (tk : BitVec 4) (q : BitVec 1) (s : State) :=
  answer (runA tk (fun s =>
    match (s.strand s.cur).loadStream q.toNat with
    | none => pure (.next s)
    | some x => if x.ended then pure (.next s) else hold .dataQueue) s)

/-- A FENCE.X at which the A stream waits, as the word in progress holds it: its P1 and P2 paths, and the fetches that had
begun when it was reached, as one more than their numbers (R93, R156). -/
def Stream.fencePaths (st : Stream) : Option (Nat × Nat × List Nat) :=
  match st.arrived, st.pend with
  | true, some p => (match p.data with
    | [p1, p2, f0, f1] => some (p1, p2, [f0, f1])
    | _ => none)
  | _, _ => none

/-- Push what a fetch came to: its vector, or a failure marker (R149). -/
def fetchEntry (x : AffineStream) (r : Res (VEntry × Option Nat)) (q : Nat) (s : State) : State :=
  let c := s.cur
  let st := s.strand c
  let y := { x with flight := none, reqs := [], pushed := x.pushed + 1 }
  let s1 := s.forgetAll x.reqs
  match r with
  | .ok (e, bad) =>
    let s2 := s1.setStrand c ((st.setLoadStream q (some y)).pushVAX q e)
    (match bad with
      | some status => s2.loadFailed c status x.word
      | none => s2)
  | .error (.trap cause info) =>
    -- a revoked handle stops the stream
    let y := if cause = 0x20 then { y with count := y.next, stopped := some (cause, info) } else y
    s1.setStrand c ((st.setLoadStream q (some y)).pushVAX q
      { data := 0, statp := 15, mask := 0, fail := some (cause, info), poison := false })
  | .error (.wait _) => s

/-- What holds a fetch back: ranges of copies that come before it, and on an SO page the accesses that do (R39, R49, R156). -/
def State.fetchHeld (s : State) (x : AffineStream) (ranges : List (Nat × Nat)) : Bool :=
  let st := s.stream s.cur
  let copies := s.myCrew.copies.toList.any fun c =>
    c.state ≠ .free && (c.strand ≠ s.cur.strand || c.seq < x.place) && ranges.any fun r => c.overlaps r.1 r.2
  copies || (x.handle.kind = 0 && s.soBlocked s.cur .a x.place st.marks x.began)

/-- Fetch the vector in flight, or send for its sectors (R149, R156). -/
def fetchVector (x : AffineStream) (k q : Nat) (s : State) : State :=
  let c := s.cur
  let d := descrOf x.desc
  let width : BitVec 2 := BitVec.ofNat 2 (bitsOf d.ctrl 7 6)
  let w := max 1 (laneBytes width)
  let per := if width = 0 then 2 else 1
  let a := d.addr k
  if bitsOf d.ctrl 8 8 = 1 then
    match scratchVector width (bitsOf d.ctrl 9 9 = 1) a.toNat s with
    | .error (.wait _) => s
    | .error e => fetchEntry x (.error e) q s
    | .ok v => fetchEntry x (.ok (plainEntry v, none)) q s
  else
    match handleCheck x.handle (bitsOf d.ctrl 2 0) a 512 with
    | .error e => fetchEntry x (.error e) q s
    | .ok pa =>
      if let some u := s.bankSplit c.die pa 512 then fetchEntry x (.error (.trap 0x24 (BitVec.ofNat 64 u))) q s
      else if s.fetchHeld x [(pa, 512)] then s
      else
        let r := s.reader x.handle.kind false
        let secs := sectorsOf [(pa, 512)]
        let held := s.readsHeld x.reqs
        let (more, s1) := s.askSectors r held secs
        if !more.isEmpty then
          s1.setStrand c ((s1.strand c).setLoadStream q (some { x with reqs := x.reqs ++ more }))
        else if !s.allReplied x.reqs then s
        else
          let (rs, s2) := readSectors readDieReg r held secs s
          let us := (List.range (512 / w)).map fun i => Source.at (pa + i * w)
          fetchEntry x (do
            let lanes ← lanesOf us w rs
            completeVector lanes per (8 * w) (BitVec.ofNat 4 (bitsOf d.ctrl 15 12))) q s2

/-- LOAD_STREAM_FETCH: a bound load stream begins its next vector when its queue has room, and delivers the vector in
flight when its sectors have their results (R149). Input: the queue. -/
def execLoadStreamFetch (s : State) :=
  let c : Ctx := { s.cur with str := .a, rot := false }
  let q := s.inp.getD 0 0 % 2
  let t := { s with cur := c }
  answer (match s.strand? c with
    | none => s
    | some st => match st.loadStream q with
      | none => s
      | some x => match x.flight with
        | some k => fetchVector x k q t
        | none =>
          let fenced := match st.a.fencePaths with
            | some (_, p2, _) => p2 % 2 = 1
            | none => false
          if x.count ≤ x.next || 8 ≤ (st.vAX q).length || fenced || (s.crew c.die c.polder).halted || !t.acquired then s
          else
            let y := { x with flight := some x.next, next := x.next + 1, place := st.a.seq, began := t.reqNo }
            let t1 := { t with reqNo := t.reqNo + 1 }
            fetchVector y x.next q (t1.setStrand c (st.setLoadStream q (some y))))

/-! ## Requester timers (R152) -/

/-- REQUESTER_TIMEOUT: a request whose timer has reached the interval completes with status 2, its tag's generation
advances and the tag rests (R152). Input: the request. -/
def execRequesterTimeout (s : State) :=
  let id := s.inp.getD 0 0
  answer (match look id s.reqs with
    | none => s
    | some r =>
      if r.reply.isSome || !s.expired r then s
      else
        let s1 := s.restTag r
        -- a request on the host link may still be completed there (R444)
        let h := s1.host
        let onLink := r.mark && r.kind ≠ 3 && !h.lost.contains id
        let s2 := if onLink then { s1 with host := { h with late := put id r h.late } } else s1
        s2.deliver id ⟨2, 0, 0⟩)

/-- TAG_REST_END: a tag at rest may be issued again (R152). Input: the tag's key. -/
def execTagRestEnd (s : State) :=
  let key := s.inp.getD 0 0
  answer (match look key s.tagRest with
    | none => s
    | some t => if s.cycle < t then s else { s with tagRest := unput key s.tagRest }.pump)

end Sys2Proof.Machine
end

