-- ==== Sys2Proof/Machine/Crypto.lean ====
section
/-! DEFINITION. The checks and ciphers that the spec names and that are public standards (R376, R395, R449, R454): CRC-32C,
SHA3-256 (FIPS 202), and AES-256 in Galois counter mode (FIPS 197, SP 800-38D). Strings of bytes are numbers, byte 0 lowest; the
steps inside them are PRESUMED from the standards (log 70). -/

namespace Sys2Proof.Machine

/-- Byte `i` of a number. -/
def byteAt (v i : Nat) : Nat := v / 2 ^ (8 * i) % 256

/-- Put numbers of `w` bits side by side, the first lowest. -/
def joinBits (w : Nat) (vs : List Nat) : Nat := vs.foldr (fun v acc => v % 2 ^ w + 2 ^ w * acc) 0

/-- Cut a number into `n` numbers of `w` bits, the lowest first. -/
def cutBits (w v : Nat) : Nat → List Nat
  | 0 => []
  | n + 1 => v % 2 ^ w :: cutBits w (v / 2 ^ w) n

/-- Rotate a number of `w` bits left. -/
def rotl (w v k : Nat) : Nat := v * 2 ^ (k % w) % 2 ^ w + v / 2 ^ (w - k % w)

/-! ## CRC-32C (R376) -/

/-- One bit of the reflected CRC over polynomial 0x1EDC_6F41. -/
def crc32Bit (c : Nat) : Nat := if c % 2 = 1 then (c / 2) ^^^ 0x82F63B78 else c / 2

/-- CRC-32C over the first `n` bytes of a string. -/
def crc32c (v n : Nat) : Nat :=
  ((cutBits 8 v n).foldl (fun c b => (List.range 8).foldl (fun c _ => crc32Bit c) (c ^^^ b)) 0xFFFFFFFF) ^^^ 0xFFFFFFFF

/-! ## SHA3-256 (R449, R452, R454) -/

/-- The 24 round constants of Keccak-f[1600], the first lowest. -/
def keccakRounds : List Nat := cutBits 64
  0x8000000080008008000000008000000180000000000080808000000080008081800000008000000A000000000000800A8000000000000080800000000000800280000000000080038000000000008089800000000000008B000000008000808B000000008000000A00000000800080090000000000000088000000000000008A800000000000800980000000800080810000000080000001000000000000808B8000000080008000800000000000808A00000000000080820000000000000001 24

/-- The rotations of the lanes, lane x + 5y at place x + 5y. -/
def keccakShifts : List Nat := cutBits 8
  0xE383D021208150F2D2927192B0A031437062C241B1C3E0100 25

/-- The lane that moves to lane `j` in the step pi. -/
def keccakFrom (j : Nat) : Nat := let x := (j % 5 + 3 * (j / 5)) % 5; x + 5 * (j % 5)

/-- One round of Keccak-f[1600] on the lanes. -/
def keccakRound (a : List Nat) (rc : Nat) : List Nat :=
  let at_ (v : List Nat) (i : Nat) : Nat := v.getD i 0
  let c := (List.range 5).map fun x => (List.range 5).foldl (fun acc y => acc ^^^ at_ a (x + 5 * y)) 0
  let d := (List.range 5).map fun x => at_ c ((x + 4) % 5) ^^^ rotl 64 (at_ c ((x + 1) % 5)) 1
  let t := (List.range 25).map fun i => at_ a i ^^^ at_ d (i % 5)
  let b := (List.range 25).map fun j => rotl 64 (at_ t (keccakFrom j)) (at_ keccakShifts (keccakFrom j))
  let u := (List.range 25).map fun j =>
    at_ b j ^^^ ((2 ^ 64 - 1 - at_ b ((j + 1) % 5 + j / 5 * 5)) &&& at_ b ((j + 2) % 5 + j / 5 * 5))
  u.set 0 (at_ u 0 ^^^ rc)

/-- Absorb blocks of 136 bytes and answer the lanes. -/
def keccakAbsorb (v : Nat) : Nat → List Nat → List Nat
  | 0, a => a
  | n + 1, a =>
    let block := cutBits 64 (v % 2 ^ 1088) 25
    keccakAbsorb (v / 2 ^ 1088) n (keccakRounds.foldl keccakRound (List.zipWith (· ^^^ ·) a block))

/-- SHA3-256 of the first `n` bytes of a string; byte 0 of the digest lowest. -/
def sha3Bytes (v n : Nat) : Nat :=
  let blocks := n / 136 + 1
  let padded := v % 256 ^ n + 6 * 256 ^ n + 128 * 256 ^ (136 * blocks - 1)
  joinBits 64 ((keccakAbsorb padded blocks (List.replicate 25 0)).take 4)

/-! ## AES-256 (R395) -/

/-- The substitution box, entry 0 lowest. -/
def aesBox : Nat :=
  0x16bb54b00f2d99416842e6bf0d89a18cdf2855cee9871e9b948ed9691198f8e19e1dc186b95735610ef6034866b53e708a8bbd4b1f74dde8c6b4a61c2e2578ba08ae7a65eaf4566ca94ed58d6d37c8e779e4959162acd3c25c2406490a3a32e0db0b5ede14b8ee4688902a22dc4f816073195d643d7ea7c41744975fec130ccdd2f3ff1021dab6bcf5389d928f40a351a89f3c507f02f94585334d43fbaaefd0cf584c4a39becb6a5bb1fc20ed00d153842fe329b3d63b52a05a6e1b1a2c830975b227ebe28012079a059618c323c7041531d871f1e5a534ccf73f362693fdb7c072a49cafa2d4adf04759fa7dc982ca76abd7fe2b670130c56f6bf27b777c63

/-- Substitute each of `n` bytes. -/
def aesSub (v n : Nat) : Nat := joinBits 8 ((cutBits 8 v n).map (byteAt aesBox))

/-- The next eight words of the key schedule from the last eight. -/
def aesNextWords (w : List Nat) (rc : Nat) : List Nat :=
  let at_ (i : Nat) : Nat := w.getD i 0
  let n0 := at_ 0 ^^^ aesSub (rotl 32 (at_ 7) 24) 4 ^^^ rc
  let n1 := at_ 1 ^^^ n0
  let n2 := at_ 2 ^^^ n1
  let n3 := at_ 3 ^^^ n2
  let n4 := at_ 4 ^^^ aesSub n3 4
  let n5 := at_ 5 ^^^ n4
  let n6 := at_ 6 ^^^ n5
  [n0, n1, n2, n3, n4, n5, n6, at_ 7 ^^^ n6]

/-- The words of the key schedule, eight for each constant that follows the key's own eight. -/
def aesWords : List Nat → List Nat → List Nat
  | w, [] => w
  | w, rc :: r => w ++ aesWords (aesNextWords w rc) r

/-- The fifteen round keys of a 256-bit key. -/
def aesKeys (key : Nat) : List Nat :=
  cutBits 128 (joinBits 32 (aesWords (cutBits 32 key 8) [1, 2, 4, 8, 16, 32, 64])) 15

/-- Double each byte of a block in the field of AES. -/
def aesDouble (v : Nat) : Nat :=
  (v &&& 0x7F7F7F7F7F7F7F7F7F7F7F7F7F7F7F7F) * 2 ^^^ (v / 128 &&& 0x01010101010101010101010101010101) * 0x1B

/-- Substitute the bytes of a block and shift its rows: byte r + 4c is row r of column c. -/
def aesShift (v : Nat) : Nat := joinBits 8 ((List.range 16).map fun i => byteAt aesBox (byteAt v ((i + 4 * (i % 4)) % 16)))

/-- Mix the columns of a block. -/
def aesMix (v : Nat) : Nat :=
  let turn (k : Nat) : Nat := joinBits 32 ((cutBits 32 v 4).map fun w => rotl 32 w (32 - 8 * k))
  aesDouble (v ^^^ turn 1) ^^^ turn 1 ^^^ turn 2 ^^^ turn 3

/-- The rounds after the first key: the last one mixes no columns. -/
def aesRounds (v : Nat) : List Nat → Nat
  | [] => v
  | [k] => aesShift v ^^^ k
  | k :: r => aesRounds (aesMix (aesShift v) ^^^ k) r

/-- AES-256 of a 16-byte block under the round keys. -/
def aesBlock (keys : List Nat) (v : Nat) : Nat := aesRounds (v ^^^ keys.headD 0) keys.tail

/-! ## Galois counter mode (R395) -/

/-- A block with its bytes in the other order. -/
def swapBytes (v n : Nat) : Nat := joinBits 8 (cutBits 8 v n).reverse

/-- The product of two blocks in the field of GHASH, both with byte 0 highest. -/
def ghashMul (x y : Nat) : Nat :=
  ((List.range 128).foldl (fun (zv : Nat × Nat) i =>
    (if x / 2 ^ (127 - i) % 2 = 1 then zv.1 ^^^ zv.2 else zv.1,
      if zv.2 % 2 = 1 then (zv.2 / 2) ^^^ 0xE1000000000000000000000000000000 else zv.2 / 2)) (0, y)).1

/-- GHASH of blocks under a hash key. -/
def ghash (h : Nat) (blocks : List Nat) : Nat :=
  swapBytes (blocks.foldl (fun acc b => ghashMul (acc ^^^ swapBytes b 16) (swapBytes h 16)) 0) 16

/-- Counter block `c` of a 96-bit nonce. -/
def gcmCounter (nonce c : Nat) : Nat := nonce % 2 ^ 96 + swapBytes c 4 * 2 ^ 96

/-- The keystream of `n` blocks. -/
def gcmStream (keys : List Nat) (nonce n : Nat) : Nat :=
  joinBits 128 ((List.range n).map fun i => aesBlock keys (gcmCounter nonce (i + 2)))

/-- Encrypt, or decrypt, `n` blocks. -/
def gcmCrypt (key nonce n text : Nat) : Nat := text % 2 ^ (128 * n) ^^^ gcmStream (aesKeys key) nonce n

/-- The tag of `n` blocks of ciphertext with `a` bytes of additional data, at most 16. -/
def gcmTag (key nonce a aad n cipher : Nat) : Nat :=
  let keys := aesKeys key
  let sizes := swapBytes (8 * a) 8 + swapBytes (128 * n) 8 * 2 ^ 64
  ghash (aesBlock keys 0) (aad % 2 ^ (8 * a) :: cutBits 128 cipher n ++ [sizes]) ^^^ aesBlock keys (gcmCounter nonce 1)

end Sys2Proof.Machine
end

