-- ==== Sys2Proof/Machine/Packets.lean ====
section
/-! DEFINITION. The bytes of the fabric: packets as slots, control records, flits with their header, ciphertext, tag and CRC, and
their beats on the lanes (R376-R382, R395). A string of bytes is a number, byte 0 lowest. -/

namespace Sys2Proof.Machine

/-- Put fields side by side, each with its width, the lowest first. -/
def joinFields (fs : List (Nat × Nat)) : Nat := fs.foldr (fun f acc => f.1 % 2 ^ f.2 + 2 ^ f.2 * acc) 0

/-- Bits [hi:lo] of a number. -/
def fieldOf (v hi lo : Nat) : Nat := v / 2 ^ lo % 2 ^ (hi + 1 - lo)

/-! ## Packets (R381, R382) -/

/-- The kinds of packets. -/
def packetKinds : List Nat := [0, 1, 2, 3, 4, 5, 8, 9, 10, 11, 12, 13]

/-- Whether a packet is of the response class (R382). -/
def Packet.isResponse (p : Packet) : Bool := 8 ≤ p.kind

/-- Whether the last slot of a packet holds a byte mask (R382). -/
def Packet.masked (p : Packet) : Bool := p.kind = 1 && 128 ≤ p.op

/-- PK.LEN (R381, R382). -/
def Packet.len (p : Packet) : Nat := p.dataSlots + if p.masked then 1 else 0

/-- The header slot of a packet (R381). -/
def Packet.header (p : Packet) : Nat :=
  joinFields [
    (p.deadline, 16), (0, 10), (if p.host then 1 else 0, 1), (if p.eng then 1 else 0, 1), (p.len, 3), (p.gen, 4), (p.tag, 6), (p.unit, 6),
    (p.srcDie, 4), (p.srcMod, 2), (p.dstDie, 4), (p.dstMod, 2), (if p.isResponse then 1 else 0, 1), (p.kind, 4),
    (p.addr, 52), (0, 6), (p.context, 6), (0, 32), (p.op, 8), (p.status, 8), (p.poison, 16), (p.arg, 64)]

/-- The slots of a packet, its header slot first (R381, R382). -/
def Packet.slots (p : Packet) : List Nat :=
  p.header :: cutBits 256 p.data p.dataSlots ++ if p.masked then [p.mask % 2 ^ 128] else []

/-- The class of a requester's tags that a packet kind uses: loads, stores, sync commands, the rest (R151). -/
def tagClass (kind : Nat) : Nat :=
  if kind = 0 || kind = 8 then 0 else if kind = 1 || kind = 9 then 1 else if kind = 2 || kind = 10 then 2 else 3

/-- The packet that slots hold: header, then data (R381, R382). -/
def readPacket (header : Nat) (data : List Nat) : Packet :=
  let f (hi lo : Nat) : Nat := fieldOf header hi lo
  let p : Packet :=
    { kind := f 63 60, dstMod := f 58 57, dstDie := f 56 53, srcMod := f 52 51, srcDie := f 50 47, unit := f 46 41, eng := f 27 27 = 1
      tag := f 40 35, gen := f 34 31, cls := tagClass (f 63 60), host := f 26 26 = 1, deadline := f 15 0, context := f 127 122
      addr := f 115 64, poison := f 191 176, status := f 175 168, op := f 167 160, arg := f 255 192, data := 0, mask := 0 }
  { p with
    data := joinBits 256 (data.take p.dataSlots)
    mask := if p.masked then (data.getD p.dataSlots 0) % 2 ^ 128 else 0 }

/-- Whether a header slot is of a kind of this manual, with the class that its kind has (R382). -/
def headerOk (header : Nat) : Bool :=
  let kind := fieldOf header 63 60
  packetKinds.contains kind && fieldOf header 59 59 = if 8 ≤ kind then 1 else 0

/-! ## Control records (R378; log 71) -/

/-- A control record as a slot: its kind, and what it names. -/
def LinkRec.slot : LinkRec → Nat
  | .aside d => joinFields [(1, 8), (d, 8)]
  | .lane j back => joinFields [(2, 8), (j, 8), (if back then 1 else 0, 8)]
  | .marker => 3
  | .keyDone => 4

/-- The control record of a slot, if it holds one. -/
def readLinkRec (v : Nat) : Option LinkRec :=
  let kind := fieldOf v 7 0
  if kind = 1 then some (.aside (fieldOf v 15 8))
  else if kind = 2 then some (.lane (fieldOf v 10 8) (fieldOf v 16 16 = 1))
  else if kind = 3 then some .marker
  else if kind = 4 then some .keyDone
  else none

/-! ## Flits (R376-R378) -/

/-- The 96 bits of a flit header (R377). -/
def FlitHeader.bits (h : FlitHeader) : Nat :=
  joinFields [(0, 25), (h.crs, 6), (h.crq, 6), (h.sop, 7), (h.lmap, 8), (h.ftype, 2), (h.keyIdx, 1), (if h.nak then 1 else 0, 1),
    (h.ack, 20), (h.seq, 20)]

/-- The header of a flit's bytes (R376, R377). -/
def flitHeader (flit : Nat) : FlitHeader :=
  let f (hi lo : Nat) : Nat := fieldOf flit hi lo
  { seq := f 95 76, ack := f 75 56, nak := f 55 55 = 1, keyIdx := f 54 54, ftype := f 53 52, lmap := f 51 44, sop := f 43 37
    crq := f 36 31, crs := f 30 25 }

/-- A flit's bytes from its header bits, its 224 payload bytes and its tag: the CRC comes last (R376). -/
def flitBytes (header payload tag : Nat) : Nat :=
  let body := joinFields [(header, 96), (payload, 1792), (tag, 128)]
  body + crc32c body 252 * 2 ^ 2016

/-- Whether a flit's CRC-32C matches (R379). -/
def flitCrcOk (flit : Nat) : Bool := crc32c (flit % 2 ^ 2016) 252 = fieldOf flit 2047 2016

/-- Key `n` of a link direction, and its salt: the direction byte is 0 from the lower-numbered end (R395; log 70). -/
def linkKey (secret dir n : Nat) : Nat := sha3Bytes (joinFields [(secret, 256), (dir, 8), (n, 32)]) 37
def linkSalt (secret dir n : Nat) : Nat := sha3Bytes (joinFields [(secret, 256), (dir, 8), (n, 32), (1, 8)]) 38 % 2 ^ 32

/-- The nonce of a key's flit number `count`: the salt, then the count (R395). -/
def linkNonce (secret dir n count : Nat) : Nat := joinFields [(linkSalt secret dir n, 32), (count, 64)]

/-- A sequenced flit's bytes: its payload is encrypted under key `n`, and its header is authenticated with it (R376, R395). -/
def sealFlit (secret dir n count : Nat) (h : FlitHeader) (payload : Nat) : Nat :=
  let key := linkKey secret dir n
  let nonce := linkNonce secret dir n count
  let cipher := gcmCrypt key nonce 14 payload
  flitBytes h.bits cipher (gcmTag key nonce 12 h.bits 14 cipher)

/-- The payload of a sequenced flit, if its tag verifies under key `n` (R379, R395). -/
def openFlit (secret dir n count : Nat) (flit : Nat) : Option Nat :=
  let key := linkKey secret dir n
  let nonce := linkNonce secret dir n count
  let cipher := fieldOf flit 1887 96
  if gcmTag key nonce 12 (flit % 2 ^ 96) 14 cipher = fieldOf flit 2015 1888 then some (gcmCrypt key nonce 14 cipher) else none

/-- The seven slots of a payload (R376). -/
def payloadSlots (payload : Nat) : List Nat := cutBits 256 payload 7

/-! ## Lanes (R376) -/

/-- The active lanes of a mask, ascending. -/
def lightLanes (mask : Nat) : List Nat := (List.range 8).filter fun j => mask / 2 ^ j % 2 = 1

/-- The eight beats of a flit, each on its lane (R376). -/
def stripe (mask flit : Nat) : List (Nat × Nat) :=
  let lanes := lightLanes mask
  (cutBits 256 flit 8).zipIdx.map fun b => (lanes.getD (b.2 % lanes.length) 0, b.1)

/-- The flit that a receiver puts together from beats by the mask it holds: beat `j` is the next one of its lane (R376, R399). -/
def unstripe (mask : Nat) (beats : List (Nat × Nat)) : Nat :=
  let lanes := lightLanes mask
  joinBits 256 ((List.range 8).map fun j =>
    (((beats.filter fun b => b.1 = lanes.getD (j % lanes.length) 0)[j / lanes.length]?).map (·.2)).getD 0)

end Sys2Proof.Machine
end

