-- ==== Sys2Proof/Machine/RegWrite.lean ====
section
/-! DEFINITION. Writes to the die register block, with what they set going: translation entries that are cleared, records
closed, engines started (R139, R144, R335, R352, R393, R460). -/

namespace Sys2Proof.Machine

/-! ## Clearing a translation (R139, R393) -/

/-- A handle made from entry `k` is no longer valid (R139). -/
def Handle.revoke (h : Handle) (k : Nat) : Handle := if h.entry.toNat = k then { h with valid := false } else h

/-- A load or drain stream whose handle copy was made from entry `k`. -/
def AffineStream.revoke (x : AffineStream) (k : Nat) : AffineStream := { x with handle := x.handle.revoke k }

/-- Every handle register and stream of a die that names entry `k` loses its handle; copies through it end (R139, R196). -/
def State.revoke (s : State) (die k : Nat) : State :=
  let strands : List (Nat × Strand) := s.strands.map fun e =>
    if e.1 / 256 = die then
      (e.1, { e.2 with
        h := e.2.h.map (·.revoke k), ls0 := e.2.ls0.map (·.revoke k), ls1 := e.2.ls1.map (·.revoke k)
        ds0 := e.2.ds0.map (·.revoke k), ds1 := e.2.ds1.map (·.revoke k) })
    else e
  { s with strands := strands }.revokeCopies die k

/-- Whether an entry's V is 1 (R139). -/
def Die.entryValid (d : Die) (k : Nat) : Bool := bitsOf ((look k d.xent).getD (0, 0)).1 63 63 = 1

/-- Invalidations that `which` selects end, with their requests; an entry whose last holder this was, and that is not valid
again, has no holders any more (R393). -/
def State.dropInvals (s : State) (die : Nat) (which : Inval → Bool) : State :=
  let d := s.die die
  let gone := d.invals.filter fun v => v.holder ≠ die && which v
  let rest := d.invals.filter fun v => !(v.holder ≠ die && which v)
  let done (k : Nat) : Bool := (gone.any fun v => v.entry = k) && !(rest.any fun v => v.entry = k && v.holder ≠ die)
    && !d.entryValid k
  let s1 := gone.foldl (fun (s : State) v => match v.req.bind fun i => (look i s.reqs).map fun r => (i, r) with
    | some (i, r) => { s.restTag r with reqs := unput i s.reqs }
    | none => s) s
  s1.setDie die { d with invals := rest, holders := d.holders.filter fun e => !done e.1 }

/-- An invalidation to a holder, sent by the translation agent as a request of its own; a holder that cannot be reached counts
as having acknowledged (R382, R389, R393). -/
def State.sendInval (s : State) (die : Nat) (v : Inval) : State :=
  let (id, s1) := s.request { Req.blank die 64 3 4 (v.holder * 2 ^ 44) 0 0 with op := v.size, arg := v.base, owner := some 0 }
  let d := s1.die die
  if (s1.replyOf id).isSome then s1.forget id
  else s1.setDie die { d with invals := d.invals ++ [{ v with req := some id }] }

/-- The dies of the group of a die but itself, as module × 16 + die (R412). -/
def State.groupDies (s : State) (die : Nat) : List Nat :=
  (List.range 64).filter fun i => s.inGroup die (i / 16) (i % 16) && i ≠ die

/-- Clear V of an entry: GEN counts, handles are revoked, holders are told; the write waits for them and for the accesses
that passed their checks (R139, R393). `owner` is the strand whose write it is. -/
def State.clearEntry (s : State) (die k : Nat) (w0 w1 : Word) (owner : Option Nat) : State :=
  let d := s.die die
  let gen := bitsOf w0 15 0 + 1
  let cleared := setBits (setBits (setBits w0 63 63 0) 15 0 gen) 56 56 (if gen = 0xFFFF then 1 else bitsOf w0 56 56)
  let size := bitsOf w0 60 59
  let page := pageBytes (BitVec.ofNat 2 size)
  let base := bitsOf w0 51 16 * 65536 / page * page
  let (hs, all) := (look k d.holders).getD ([], false)
  let told := (if all then s.groupDies die else hs).filter fun h =>
    s.inGroup die (h / 16) (h % 16) && !(h / 16 = 0 && s.mgmt.fenced.contains (h % 16))
  let inval (h : Nat) : Inval := { entry := k, holder := h, base := base, size := size, sent := s.cycle, owner := owner, req := none }
  let vs : List Inval := told.map inval
  let own : Inval := { inval die with sent := s.reqNo }
  let s1 := s.setDie die { d with
    xent := put k (cleared, w1) d.xent, filled := unput k d.filled
    xaBcast := if all then min (d.xaBcast + 1) 65535 else d.xaBcast
    holders := if told.isEmpty then unput k d.holders else d.holders
    invals := (d.invals.filter fun v => s.clearing die v) ++ [own] }
  (vs.foldl (fun (s : State) v => s.sendInval die v) s1).revoke die k

/-- Bits of an entry's words that software writes (R139). -/
def xentBits0 : Word := 0xFE0FFFFFFFFF0000
def xentBits1 : Word := 0xFFFFFFFFFFFC0000

/-- Write word 0 or 1 of a translation entry (R139). -/
def State.writeEntry (s : State) (die k word : Nat) (v : Word) (owner : Option Nat) : State :=
  let d := s.die die
  let (w0, w1) := (look k d.xent).getD (0, 0)
  if word = 1 then
    if bitsOf w0 63 63 = 1 then s else s.setDie die { d with xent := put k (w0, v &&& xentBits1) d.xent }
  else
    let n := (v &&& xentBits0) ||| (w0 &&& ~~~xentBits0)
    if bitsOf w0 63 63 = 1 && bitsOf v 63 63 = 0 then
      -- the page of the invalidations is the one the entry held
      let s1 := s.clearEntry die k w0 w1 owner
      let c := ((look k (s1.die die).xent).getD (0, 0)).1
      s1.setDie die { s1.die die with xent := put k ((v &&& xentBits0) ||| (c &&& ~~~xentBits0), w1) (s1.die die).xent }
    else if bitsOf v 63 63 = 1 && bitsOf w0 56 56 = 1 then s
    else
      -- an entry that becomes valid again starts with no holder
      let fresh := bitsOf v 63 63 = 1 && bitsOf w0 63 63 = 0
      s.setDie die { d with xent := put k (n, w1) d.xent, holders := if fresh then unput k d.holders else d.holders }

/-- The owner of a clearing write that the host made, apart from every strand's key (R393). -/
def hostOwner : Nat := 2 ^ 32

/-- XENT_WRITE (R139, R393). Inputs: the entry, the word, the value. -/
def execXentWrite (s : State) :=
  answer (s.writeEntry s.cur.die (s.inp.getD 0 0 % 4096) (s.inp.getD 1 0 % 2) (BitVec.ofNat 64 (s.inp.getD 2 0)) (some hostOwner))

/-- FRCLOSE: record k is closed (R143, R144). Input: the value. -/
def execFrclose (s : State) := answer (s.closeRecord s.cur.die (s.inp.getD 0 0))

/-! ## Fields (R460) -/

/-- A written word: bits of `rw` take the value where the write covers them, bits of `w1c` are cleared where it writes 1. -/
def fieldWrite (cur v cover rw w1c : Word) : Word :=
  (cur &&& ~~~(rw ||| (w1c &&& v &&& cover))) ||| (rw &&& ((v &&& cover) ||| (cur &&& ~~~cover)))

/-- The bits that the written bytes cover, from a byte mask. -/
def coverOf (bytes : Nat) : Word := BitVec.ofNat 64 (byteBits bytes 8)

/-! ## Registers by engine -/

/-- Enter a record address as QPUSH does: a full or disabled queue drops it (R335). -/
def State.qpush (s : State) (die q a : Nat) : State :=
  let (r, s1) := s.enqueue die q (a % 2 ^ 52) none
  if r = 0 then s1
  else s1.setTe die { s1.te die with drops := min ((s1.te die).drops + 1) 255 }

/-- Remove an entry of the cancelled-job table (R335). -/
def State.jobClear (s : State) (die v : Nat) : State :=
  let te := s.te die
  s.setTe die { te with jobs := te.jobs.filter (· ≠ (v / 2 ^ 32 % 64, v % 2 ^ 32)) }

/-- Write a task engine register (R64, R334, R335). -/
def State.writeTask (s : State) (die off : Nat) (v cover : Word) : State :=
  let d := s.die die
  let te := d.te
  let f (cur rw w1c : Word) : Word := fieldWrite cur v cover rw w1c
  let cmd := v &&& cover
  if off = 0x1000 then s.setTe die { te with ctl := f te.ctl 1 0 }
  else if off = 0x1008 then s.setDie die { d with stallwd := f d.stallwd 0x80FFFFFF 0 }
  else if off = 0x1010 then s.setDie die { d with rampctl := f d.rampctl 0x8000000000000FFF 0 }
  else if off = 0x1020 then s.jobClear die cmd.toNat
  else if off = 0x1028 then
    let n := f (BitVec.ofNat 64 (te.drops * 2 ^ 32 + te.rejects)) 0 0xFFFFFFFFFF
    s.setTe die { te with drops := bitsOf n 39 32, rejects := bitsOf n 31 0 }
  else if off = 0x1040 then
    let run (b : Nat) (g : State → State) (s : State) : State := if bitsOf cmd b b = 1 then g s else s
    let s1 := run 63 (fun s => s.preemptStop die true) s
    let s2 := run 61 (fun s => s.preemptStop die false) s1
    let s3 := run 60 (fun s => s.preemptResume die) s2
    run 59 (fun s => s.preemptDiscard die) s3
  else if off = 0x1048 then s.setTe die { te with preemptRec := f te.preemptRec 0xFFFFFFFFFFFFF 0 }
  else if off = 0x1050 then s.setTe die { te with saveBase := f te.saveBase 0xFFFFFFFFFFFFF 0 }
  else if off = 0x1058 then s.setTe die { te with saveSize := f te.saveSize (BitVec.allOnes 64) 0 }
  else if off = 0x1060 then s.setTe die { te with snapSel := f te.snapSel 0x3F0000FFFF 0 }
  else if off = 0x1068 then s.writeSnap die (f te.snapWord (BitVec.allOnes 64) 0)
  else if 0x1100 ≤ off && off < 0x1300 && off % 16 = 0 then
    let q := (off - 0x1100) / 16
    let x := te.queue q
    s.setTe die (te.setQueue q { x with cfg := f x.cfg 0xC30003FF0000003F 0x2000000000000000 })
  else if 0x1400 ≤ off && off < 0x1500 then s.qpush die ((off - 0x1400) / 8) cmd.toNat
  else s

/-- Write a fault-record, requester or sync engine register (R144, R152, R258). -/
def State.writeAccess (s : State) (die off : Nat) (v cover : Word) : State :=
  let d := s.die die
  let f (cur rw w1c : Word) : Word := fieldWrite cur v cover rw w1c
  let ones : Word := BitVec.allOnes 64
  if off = 0x2000 then s.setDie die { d with frbase := f d.frbase 0xFFFFFFFFFFFFF 0 }
  else if off = 0x2008 then s.setDie die { d with frctl := f d.frctl 0x1FFF 0 }
  else if off = 0x2010 then s.setDie die { d with frlost := (f (BitVec.ofNat 64 (d.frlost * 2 ^ 32)) 0 ones).toNat / 2 ^ 32 }
  else if off = 0x2018 then s.closeRecord die (v &&& cover).toNat
  else if off = 0x2020 then s.setDie die { d with remtimeout := f d.remtimeout 0xFFFFFF 0 }
  else if off = 0x3000 then s.setDie die { d with syncctl := f d.syncctl 0xFFFFFF 0 }
  else if off = 0x3008 then s.setDie die { d with syncOvBase := f d.syncOvBase 0xFFFFFFFFFC000 0 }
  else if off = 0x3010 then s.setDie die { d with syncOvSize := f d.syncOvSize 0x1FFF 0 }
  else if off = 0x3018 then s.setDie die { d with syncRefused := (f (BitVec.ofNat 64 d.syncRefused) 0 0xFFFFFFFF).toNat }
  else s

/-- Write a ring engine register (R352). -/
def State.writeRing (s : State) (die off : Nat) (v cover : Word) : State :=
  let d := s.die die
  let f (cur rw w1c : Word) : Word := fieldWrite cur v cover rw w1c
  if off = 0x4000 then
    let n := f d.rgctl 0x0006380000000000 0
    let size := if d.rg.queue.isEmpty then (if bitsOf n 45 43 = 7 then 2 else bitsOf n 45 43) else bitsOf d.rgctl 45 43
    (s.setDie die { d with rgctl := setBits n 45 43 size }).startNext die
  else if off = 0x4010 then s.setRg die { d.rg with count := f d.rg.count 0 (BitVec.allOnes 64) }
  else if off = 0x4018 then s.setDie die { d with rptext := f d.rptext 0xFFFFFFFFFFFF0000 0 }
  else if off = 0x4020 then s.setDie die { d with rpentry := f d.rpentry 0xFFFFFFFFFFFFF 0 }
  else if off = 0x4028 then
    let s1 := if bitsOf (v &&& cover) 63 63 = 1 then s.startRotation die else s
    if bitsOf (v &&& cover) 62 62 = 1 && (s1.die die).rprunning then s1.stopRotation die 0 0 else s1
  else if off = 0x4038 then s.setRg die { d.rg with loss := f d.rg.loss (BitVec.allOnes 64) 0 }
  else if off = 0x4040 then s.setRg die { d.rg with lossCnt := (f (BitVec.ofNat 64 d.rg.lossCnt) 0xFFFF 0).toNat }
  else s

/-- Write a fabric engine register (R405). -/
def State.writeFabric (s : State) (die off : Nat) (v cover : Word) : State :=
  let d := s.die die
  let f (cur rw w1c : Word) : Word := fieldWrite cur v cover rw w1c
  if off = 0x5000 then s.setDie die { d with congctl := f d.congctl 0x0000FFFF00FFFFFF 0 }
  else if off = 0x5008 then s.setDie die { d with fbstat := f d.fbstat 0 (BitVec.allOnes 64) }
  else if off = 0x5010 then
    let n := f (BitVec.ofNat 64 (d.xaBcast * 2 ^ 32 + d.xaFills)) 0 0xFFFFFFFFFFFF
    s.setDie die { d with xaBcast := bitsOf n 47 32, xaFills := bitsOf n 31 0 }
  else if 0x5100 ≤ off && off < 0x5300 then
    let i : Fin 4 := Fin.ofNat 4 ((off - 0x5100) / 128)
    let k := d.links.get i
    let r := off % 128
    let set (x : Link) : State := s.setDie die { d with links := d.links.set i.val x i.isLt }
    if r = 0 then set { k with ctl := f k.ctl 0x0000FFFF00000001 0 }
    else if r = 16 then set { k with err := f k.err 0 (BitVec.allOnes 64) }
    else if 64 ≤ r then
      let j : Fin 8 := Fin.ofNat 8 ((r - 64) / 8)
      set { k with lanes := k.lanes.set j.val (f (k.lanes.get j) 0 0xFFFF) j.isLt }
    else s
  else s

/-- Write an error log register (R455); MXCAP is the controller's (R456), and the group map the sluice's (R411). -/
def State.writeError (s : State) (die off : Nat) (v cover : Word) : State :=
  let d := s.die die
  let f (cur rw w1c : Word) : Word := fieldWrite cur v cover rw w1c
  if off = 0x7000 then s.setDie die { d with errBase := f d.errBase 0xFFFFFFFFFFFE0 0 }
  else if off = 0x7008 then s.setDie die { d with errCtl := f d.errCtl 0xFFF 0 }
  else if off = 0x7018 then s.setDie die { d with errTail := f d.errTail 0xFFF 0 }
  else if off = 0x7020 then s.setDie die { d with errDrop := (f (BitVec.ofNat 64 d.errDrop) 0 0xFFFFFFFF).toNat }
  else s

/-- Write the aligned word of the register block at an offset; `cover` holds the bits that the write's bytes cover. A write to
an offset with no register, and to one that is only read, changes nothing (R460; log 18). -/
def State.writeDieReg (s : State) (die off : Nat) (v cover : Word) (owner : Option Nat) : State :=
  if off < 0x2000 then s.writeTask die off v cover
  else if off < 0x4000 then s.writeAccess die off v cover
  else if off < 0x5000 then s.writeRing die off v cover
  else if off < 0x6000 then s.writeFabric die off v cover
  else if off < 0x8000 then s.writeError die off v cover
  else if 0x100000 ≤ off && off < 0x110000 then
    let k := (off - 0x100000) / 16
    let e := (look k (s.die die).xent).getD (0, 0)
    let cur := if off / 8 % 2 = 0 then e.1 else e.2
    s.writeEntry die k (off / 8 % 2) ((v &&& cover) ||| (cur &&& ~~~cover)) owner
  else if 0x200000 ≤ off && off < 0x220000 then
    let i := (off - 0x200000) / 8
    s.setSeg die i (fieldWrite ((s.die die).seg i) v cover 0x2000000000000000 0)
  else s

end Sys2Proof.Machine
end

