-- ==== Sys2Proof/Machine/Links.lean ====
section
/-! DEFINITION. The fabric links of a die: routes, credits, set-aside queues, flits and their acceptance, link keys, lanes
(R375-R387, R395-R400, R407). -/

namespace Sys2Proof.Machine

/-! ## Links -/

/-- Link `l` of a die. -/
def State.link (s : State) (die l : Nat) : Link := (s.die die).links.get (Fin.ofNat 4 l)

/-- Replace link `l` of a die. -/
def State.setLink (s : State) (die l : Nat) (x : Link) : State :=
  let d := s.die die
  let i : Fin 4 := Fin.ofNat 4 l
  s.setDie die { d with links := d.links.set i.val x i.isLt }

/-- The link at the other end of link `l` (R409). -/
def farLink (l : Nat) : Nat := if l % 2 = 0 then l + 1 else l - 1

/-- A sequence number's distance ahead of another, modulo 2^20 (R378). -/
def ahead (a b : Nat) : Nat := (a + 2 ^ 20 - b) % 2 ^ 20

/-- Whether a deadline has passed (R388). -/
def State.deadlinePassed (s : State) (p : Packet) : Bool :=
  let d := (s.domTime / 16 % 65536 + 65536 - p.deadline) % 65536
  1 ≤ d && d ≤ 2 ^ 15

/-- Count in a field of FBSTAT (R405). -/
def State.countFabric (s : State) (die hi lo n : Nat) : State :=
  let d := s.die die
  s.setDie die { d with fbstat := satAdd d.fbstat hi lo n }

/-- The destination of a packet among the domain's dies. -/
def Packet.dest (p : Packet) : Nat := 16 * p.dstMod + p.dstDie

/-- The shorter way from `x` to `y` on a ring of `n`: the next direction first (R384). -/
def direction (x y n next previous : Nat) : Nat := if 2 * ((y + n - x) % n) ≤ n then next else previous

/-- The link by which a packet leaves a die: the X ring first, then the Y ring; none at its destination's position or where
the group map gives no position (R384, R412). -/
def Die.route (d : Die) (p : Packet) : Option Nat :=
  let g := ((look p.dest d.gpos).getD 0).toNat
  if g / 128 % 2 = 0 then none
  else
    let x := bitsOf d.gmap 27 24
    let y := bitsOf d.gmap 23 22
    let px := g / 8 % 16
    let py := g % 4
    if x ≠ px then some (direction x px (bitsOf d.gmap 21 18 + 1) 0 1)
    else if y ≠ py then some (direction y py (bitsOf d.gmap 17 16 + 1) 2 3)
    else none

/-! ## Buffers (R385, R386) -/

/-- Whether a flow is set aside at a die. -/
def Die.asideOf (d : Die) (dest : Nat) : Option Aside := d.asides.find? fun a => a.dest = dest

/-- CONGCTL (R405). -/
def Die.congWindow (d : Die) : Nat := max 1 (bitsOf d.congctl 47 32)
def Die.congThresh (d : Die) : Nat := min 48 (max 1 (bitsOf d.congctl 23 16))
def Die.congRelease (d : Die) : Nat := max 1 (bitsOf d.congctl 15 0)

/-- The request packets that hold an input buffer of a die, with their links (R385, R386). -/
def Die.held (d : Die) : List (Packet × Nat) :=
  (d.router ++ d.inbox ++ d.asides.flatMap fun a => a.packets).filter fun e => e.2 < 4 && !e.1.isResponse

/-- Packets of a flow in the input buffers of a router (R386). -/
def Die.flowCount (d : Die) (dest : Nat) : Nat := (d.held.filter fun e => e.1.dest = dest).length

/-- Packets in the set-aside queue of a flow: a flow to the die itself keeps its place in the inbox (R386). -/
def Die.queued (d : Die) (dest : Nat) : Nat :=
  ((d.inbox ++ d.asides.flatMap fun a => a.packets).filter fun e => 8 ≤ e.2 && !e.1.isResponse && e.1.dest = dest).length

/-- Free an input buffer of a class: it is to be returned to the sender at the other end of its link (R385). -/
def State.giveBack (s : State) (die inl : Nat) (response : Bool) : State :=
  if 4 ≤ inl then s
  else
    let k := s.link die inl
    s.setLink die inl (if response then { k with owedS := k.owedS + 1 } else { k with owedQ := k.owedQ + 1 })

/-- Take the buffer that a packet needs at the next router; a response to the peer itself needs none (R385). -/
def Link.spend (k : Link) (p : Packet) : Link :=
  if p.isResponse then (if k.peer = some p.dest then k else { k with creditS := k.creditS - 1 })
  else { k with creditQ := k.creditQ - 1 }

/-- Keep count of since when each destination has had CONGCTL.THRESH packets here (R386). -/
def State.watchFlows (s : State) (die : Nat) : State :=
  let d := s.die die
  let dests := (d.held.map fun e => e.1.dest).eraseDups
  let hot := dests.filter fun x => d.congThresh ≤ d.flowCount x
  let kept := d.busy.filter fun e => hot.contains e.1
  let fresh := hot.filter fun x => (look x d.busy).isNone
  s.setDie die { d with busy := fresh.foldl (fun b x => put x s.cycle b) kept }

/-- Whether the credits of link `l` let a packet out that came in by link `inl`, 4 for one of the die's own: two to enter a ring,
one to continue in it, none for a response to its destination (R385). -/
def State.mayPass (s : State) (die l inl : Nat) (p : Packet) : Bool :=
  let k := s.link die l
  if p.isResponse && k.peer = some p.dest then true
  else
    let entering := inl % 8 = 4 || (inl % 8 < 2 && 2 ≤ l)
    k.peer.isSome && (if entering then 2 else 1) ≤ (if p.isResponse then k.creditS else k.creditQ)

/-! ## Flits (R376-R380) -/

/-- The direction byte of what an end of a link sends: 0 from the lower-numbered end (R395; log 70). -/
def linkDir (die l peer : Nat) : Nat := if 4 * die + l < 4 * peer + farLink l then 0 else 1

/-- The secret of a link: of the domain secret, the relock count, and the module, die and link of its two ends, the lower first
(R454). -/
def linkSecret (domain r die l peer : Nat) : Nat :=
  let a := 4 * die + l
  let b := 4 * peer + farLink l
  let name (e : Nat) : List (Nat × Nat) := [(e / 64, 8), (e / 4 % 16, 8), (e % 4, 8)]
  sha3Bytes (joinFields ([(domain, 256), (r, 32)] ++ name (min a b) ++ name (max a b))) 42

/-- Put a flit on the light, striped by a mask: to a die of this module, or out by an external fabric port (R376, R408). -/
def State.launchFlit (s : State) (die l mask bytes : Nat) : State :=
  match (s.link die l).peer with
  | none => s
  | some p =>
    if 16 ≤ p then { s with fabricOut := s.fabricOut ++ [(4 * die + 2 * (l - 2), stripe mask bytes)] }
    else
      let k := s.link p (farLink l)
      s.setLink p (farLink l) { k with wire := k.wire ++ [stripe mask bytes] }

/-- Whether a reconfiguration has frozen the credit counters of a die's links (R418). -/
def State.creditsFrozen (s : State) (die : Nat) : Bool := 3 ≤ bitsOf s.sluice.ctl 47 40 && s.sluice.dies.contains die

/-- The header of the next flit of an end: it acknowledges, asks for a replay if one is due, announces a mask, and returns
buffers, but while the credits are frozen (R377, R378, R385, R418). -/
def Link.header (k : Link) (frozen : Bool) (ftype lmap sop : Nat) : FlitHeader :=
  { seq := k.txSeq, ack := k.rxSeq, nak := k.nakDue, keyIdx := k.keyNum % 2, ftype := ftype, lmap := lmap, sop := sop
    crq := if frozen then 0 else min 63 k.owedQ, crs := if frozen then 0 else min 63 k.owedS }

/-- What any flit takes with it: the NAK, and the buffers it returns. -/
def Link.told (k : Link) (frozen : Bool) : Link := { k with
  nakDue := false, owedQ := if frozen then k.owedQ else k.owedQ - 63, owedS := if frozen then k.owedS else k.owedS - 63 }

/-- Send a new sequenced flit with slots: it takes the next number and the current key, announces the outbound mask, and is kept
for replay with the mask that its predecessor announced (R378, R380, R395, R396, R399). -/
def State.sendSequenced (s : State) (die l ftype sop : Nat) (slots : List Nat) : State :=
  let k := s.link die l
  let payload := joinBits 256 slots
  let frozen := s.creditsFrozen die
  let bytes := sealFlit k.secret (linkDir die l (k.peer.getD 0)) k.keyNum k.keyCount (k.header frozen ftype k.txMask sop) payload
  let s1 := s.setLink die l { k.told frozen with
    txSeq := (k.txSeq + 1) % 2 ^ 20, maskDue := false, txLast := k.txMask, keyCount := k.keyCount + 1
    replay := k.replay ++ [{ bytes := bytes, mask := k.txLast, payload := payload }] }
  s1.launchFlit die l k.txLast bytes

/-- Send an idle flit: it has no payload and no tag, and its mask is the current one (R378). -/
def State.sendIdle (s : State) (die l : Nat) : State :=
  let k := s.link die l
  let frozen := s.creditsFrozen die
  (s.setLink die l (k.told frozen)).launchFlit die l k.txLast (flitBytes (k.header frozen 0 k.txLast 0).bits 0 0)

/-- The next packet for a link: an ordinary one of the router, or the head of a set-aside queue whose flow has none left in the
router's ordinary buffers; the input buffer it held is free (R384-R386). -/
def State.nextPacket (s : State) (die l : Nat) : Option (Packet × State) :=
  let d := s.die die
  let goes (e : Packet × Nat) : Bool := d.route e.1 = some l && s.mayPass die l e.2 e.1
  match d.router.find? goes with
  | some e => some (e.1, (s.setDie die { d with router := d.router.erase e }).giveBack die e.2 e.1.isResponse)
  | none =>
    let ready (a : Aside) : Bool := !(d.router.any fun e => e.2 < 4 && !e.1.isResponse && e.1.dest = a.dest)
      && (match a.packets with
        | e :: _ => goes e
        | [] => false)
    match d.asides.find? ready with
    | none => none
    | some a =>
      match a.packets with
      | [] => none
      | e :: r =>
        let a1 : Aside := { a with packets := r, since := if r.isEmpty then s.cycle else a.since }
        some (e.1, (s.setDie die { d with asides := d.asides.map fun b => if b.dest = a.dest then a1 else b }).giveBack die e.2 false)

/-- Fill the slots of a data flit, of which `n` are left: with the rest of the packet that has been sent in part, then with
further packets. The slots, FL.SOP, and the state after (R377, R381, R385). -/
def State.fillSlots (s : State) (die l : Nat) : Nat → List Nat × Nat × State
  | 0 => ([], 0, s)
  | n + 1 =>
    let k := s.link die l
    match k.outSlots with
    | v :: r =>
      let (vs, sop, t) := (s.setLink die l { k with outSlots := r }).fillSlots die l n
      (v :: vs, sop, t)
    | [] =>
      match s.nextPacket die l with
      | none => ([], 0, s)
      | some (p, s1) =>
        let (vs, sop, t) :=
          (s1.setLink die l { (s1.link die l).spend p with outSlots := p.slots.tail }).fillSlots die l n
        (p.header :: vs, sop + 2 ^ (6 - n), t)

/-- Responses past their deadline leave the router (R388). -/
def State.dropLate (s : State) (die : Nat) : State :=
  let d := s.die die
  let isLate (e : Packet × Nat) : Bool := e.1.isResponse && s.deadlinePassed e.1
  let late := d.router.filter isLate
  if late.isEmpty then s
  else
    late.foldl (fun (s : State) e => s.giveBack die e.2 true)
      ((s.setDie die { d with router := d.router.filter fun e => !isLate e }).countFabric die 31 16 late.length)

/-- FLIT_SEND: a stored flit that is being replayed, by the mask stored with it, or else the next sequenced flit, or else an idle
one (R378, R380, R384-R386, R399). Control records wait for the rest of a packet in progress (R381). Input: the link. -/
def execFlitSend (s : State) :=
  let die := s.cur.die
  let l := s.inp.getD 0 0 % 4
  let s0 := s.dropLate die
  let k := s0.link die l
  answer (if !k.up || k.relock.isSome then s
    else match k.resend with
    | some n =>
      match k.replay[n]? with
      | some f =>
        (s0.setLink die l { k with resend := if n + 1 < k.replay.length then some (n + 1) else none }).launchFlit die l f.mask f.bytes
      | none => s0.setLink die l { k with resend := none }
    | none =>
      if 512 ≤ k.replay.length then s0.sendIdle die l
      else if !k.records.isEmpty && k.outSlots.isEmpty then
        (s0.setLink die l { k with records := k.records.drop 7 }).sendSequenced die l 2 0 ((k.records.take 7).map LinkRec.slot)
      else
        let (slots, sop, s1) := s0.fillSlots die l 7
        if !slots.isEmpty || k.maskDue then (s1.sendSequenced die l 1 sop slots).watchFlows die else s1.sendIdle die l)

/-! ## Links that go down and relock (R397, R407, R454) -/

/-- What an accepted header's acknowledgement does to the outbound direction (R380, R396). -/
def Link.acknowledge (k : Link) (ack : Nat) (nak : Bool) : Link :=
  let n := match k.replay with
    | [] => 0
    | f :: _ =>
      let seq := (flitHeader f.bytes).seq
      if ahead ack seq ≤ k.replay.length then ahead ack seq else 0
  let rest := k.replay.drop n
  let again := match k.resend with
    | some i => if i < n then (if rest.isEmpty then none else some 0) else if rest.isEmpty then none else some (i - n)
    | none => none
  let old := match k.oldKey with
    | some q => if ahead ack q < 2 ^ 19 then none else some q
    | none => none
  if nak && !rest.isEmpty then
    { k with replay := rest, oldKey := old, resend := some 0, err := satAdd k.err 47 32 1 }
  else { k with replay := rest, oldKey := old, resend := again }

/-- One end of a link goes down: flits under way are lost to it, and are sent again from the replay buffer (R397, R407). -/
def Link.down (k : Link) (since : Nat) : Link :=
  { k with
    up := false, relock := some since, wire := [], resend := if k.replay.isEmpty then none else some 0, nakDue := false
    authFails := 0 }

/-- One end under a new link secret: key numbers restart at 0, every lane of the mask is in use, and what is kept for replay goes
under the new secret (R397, R454; log 43). -/
def Link.rekey (k : Link) (secret dir mask : Nat) : Link :=
  { k with
    secret := secret, keyNum := 0, oldKey := none, keyCount := k.replay.length, rxKey := 0, rxCount := 0
    txMask := mask, txLast := mask, rxMask := mask, maskDue := false
    replay := k.replay.zipIdx.map fun (f : Sent × Nat) =>
      { f.1 with
        bytes := sealFlit secret dir 0 f.2 { flitHeader f.1.bytes with keyIdx := 0, lmap := mask } f.1.payload, mask := mask } }

/-- The lanes of a link that lie on a port which boot has left dark, at either end (R375, R447). -/
def State.darkLanes (s : State) (d l : Nat) : List Nat :=
  let dark (e m j : Nat) : Bool := s.mgmt.dark.contains (16 * e + 4 * m + j / 2)
  (List.range 8).filter fun j => dark d l j || (match (s.link d l).peer with
    | some p => p < 16 && dark p (farLink l) j
    | none => false)

/-- The mask of the lanes of a link that are not dark. -/
def State.litMask (s : State) (d l : Nat) : Nat := (s.darkLanes d l).foldl (fun m j => m - 2 ^ j) 255

/-- The number of a link in the relock counts: its two ends, the lower first. -/
def linkKeyOf (die l peer : Nat) : Nat :=
  let a := 4 * die + l
  let b := 4 * peer + farLink l
  256 * min a b + max a b

/-- A link is relocked: its count rises (R454). -/
def State.countRelock (s : State) (die l peer : Nat) : State :=
  let key := linkKeyOf die l peer
  { s with mgmt := { s.mgmt with relocks := put key (((look key s.mgmt.relocks).getD 0 + 1) % 2 ^ 32) s.mgmt.relocks } }

/-- The secret of a link by the domain secret and its present relock count (R454). -/
def State.secretOf (s : State) (die l peer : Nat) : Nat :=
  linkSecret (s.mgmt.secret.getD 0) ((look (linkKeyOf die l peer) s.mgmt.relocks).getD 0) die l peer

/-- One end of a link goes down to be relocked; with `fresh` under its new secret, after the peer has told which flit it expects
(R454; log 43). -/
def State.relockEnd (s : State) (die l peer : Nat) (fresh : Bool) (expected : Option Nat) : State :=
  let k := s.link die l
  if !fresh then s.setLink die l (k.down s.cycle)
  else
    let k1 := (match expected with
      | some n => k.acknowledge n false
      | none => k).down s.cycle
    s.setLink die l (k1.rekey (s.secretOf die l peer) (linkDir die l peer) (s.litMask die l))

/-- Take the ends of a link down to be relocked; with `fresh` under a new secret, which the relock count goes into (R397, R407,
R454). -/
def State.relockLink (s : State) (die l : Nat) (fresh : Bool) : State :=
  match (s.link die l).peer with
  | none => s
  | some p =>
    let s1 := if fresh then s.countRelock die l p else s
    if 16 ≤ p then s1.relockEnd die l p fresh none
    else
      let far := farLink l
      (s1.relockEnd die l p fresh (some (s.link p far).rxSeq)).relockEnd p far die fresh (some (s.link die l).rxSeq)

/-- Raise one end of a link: lanes of the mask are active, dark ones are out, and the others are trained again (R400, R407,
R447). -/
def State.raiseLink (s : State) (d l : Nat) : State :=
  let k := s.link d l
  let dark := s.darkLanes d l
  let lane (j : Nat) (w : Word) : Word :=
    if dark.contains j then setBits (setBits w 63 61 4) 51 48 0
    else if k.rxMask / 2 ^ j % 2 = 1 then setBits (setBits w 63 61 0) 51 48 0
    else setBits (setBits w 63 61 2) 51 48 1
  s.setLink d l { k with
    up := true, relock := none, txMask := k.txLast, maskDue := false, refused := [], notices := []
    records := k.records.filter fun r => match r with
      | .lane _ _ => false
      | _ => true
    lanes := Vector.ofFn fun (i : Fin 8) => lane i.val (k.lanes.get i) }

/-- LINK_RELOCK_COMPLETE: a link that was taken down resumes, if its light is on and a domain secret is installed (R407, R454).
Input: the link. -/
def execLinkRelockComplete (s : State) :=
  let die := s.cur.die
  let l := s.inp.getD 0 0 % 4
  let k := s.link die l
  answer (match k.peer with
    | none => s
    | some p =>
      if k.relock.isNone || !k.lit || (p < 16 && !(s.link p (farLink l)).lit) || s.mgmt.secret.isNone then s
      else if 16 ≤ p then s.raiseLink die l
      else (s.raiseLink die l).raiseLink p (farLink l))

/-! ## Acceptance (R379, R380, R396-R399) -/

/-- LANESTAT of a lane (R405). -/
def Link.lane (k : Link) (j : Nat) : Word := k.lanes.get (Fin.ofNat 8 j)
def Link.setLane (k : Link) (j : Nat) (w : Word) : Link :=
  let i : Fin 8 := Fin.ofNat 8 j
  { k with lanes := k.lanes.set i.val w i.isLt }

/-- The receiver takes up a mask that an accepted flit announced: lanes taken out go to training, lanes brought back are
active (R399, R400). -/
def Link.takeMask (k : Link) (mask : Nat) : Link :=
  let k1 := (List.range 8).foldl (fun (k : Link) j =>
    let was := k.rxMask / 2 ^ j % 2
    let now := mask / 2 ^ j % 2
    let w := k.lane j
    if was = 1 && now = 0 then
      k.setLane j (setBits (setBits (setBits (setBits w 63 61 2) 51 48 1) 47 32 (bitsOf w 31 16)) 31 16 0)
    else if was = 0 && now = 1 then k.setLane j (setBits (setBits w 63 61 0) 31 16 0)
    else k) k
  { k1 with rxMask := mask % 256 }

/-- Take in the control records of an accepted flit (R378). -/
def Link.takeRecords (k : Link) (rs : List LinkRec) : Link :=
  rs.foldl (fun (k : Link) r => match r with
    | .aside d => { k with asideIn := k.asideIn ++ [d] }
    | .lane j b => { k with notices := k.notices ++ [(j, b)] }
    | .marker => { k with marked := true }
    -- the old key is retired by FL.ACK alone (R396)
    | .keyDone => k) k

/-- A set-aside queue with eight packets tells the neighbours that lately sent packets of its flow, once each (R387). -/
def State.noticeAside (s : State) (die dest : Nat) : State :=
  let d := s.die die
  match d.asideOf dest with
  | none => s
  | some _ =>
    if d.queued dest < 8 then s
    else (List.range 4).foldl (fun (s : State) l =>
      let d := s.die die
      match d.asideOf dest with
      | none => s
      | some a =>
        let recent := match look (4 * dest + l) d.flows with
          | some c => s.cycle - c ≤ d.congWindow
          | none => false
        if !recent || a.noticed.contains l then s
        else
          let a1 : Aside := { a with noticed := a.noticed ++ [l] }
          let s1 := s.setDie die { d with asides := d.asides.map fun b => if b.dest = dest then a1 else b }
          let k := s1.link die l
          s1.setLink die l { k with records := k.records ++ [.aside dest] }) s

/-- A packet that has come in over link `l`: to this die's own inbox or into the router; one of a flow that is set aside takes a
place in the queue, if one is free, and its input buffer is free again. One with no way on is dropped (R382, R384-R386). -/
def State.takePacket (s : State) (die l : Nat) (p : Packet) : State :=
  let d0 := s.die die
  let d : Die := { d0 with flows := if p.isResponse then d0.flows else put (4 * p.dest + l) s.cycle d0.flows }
  if p.dest ≠ die && (d.route p).isNone then (s.countFabric die 15 8 1).giveBack die l p.isResponse
  else
    let aside := if p.isResponse then none else d.asideOf p.dest
    let queued := aside.isSome && d.queued p.dest < 16
    let e : Packet × Nat := (p, if queued then l + 8 else l)
    let d1 : Die :=
      if p.dest = die then { d with inbox := d.inbox ++ [e] }
      else match aside with
        | some a => { d with asides := d.asides.map fun b => if b.dest = a.dest then { a with packets := a.packets ++ [e] } else b }
        | none => { d with router := d.router ++ [e] }
    let s1 := s.setDie die d1
    ((if queued then s1.giveBack die l false else s1).watchFlows die).noticeAside die p.dest

/-- Take one slot of an accepted data flit: the header slot of a packet, or a further slot of the one in progress. A packet whose
slots are all there is taken, unless its kind is none of this manual or its class contradicts it (R381, R382). -/
def State.takeSlot (s : State) (die l : Nat) (begins : Bool) (v : Nat) : State :=
  let k := s.link die l
  let part := if begins then [v] else if k.inSlots.isEmpty then [] else k.inSlots ++ [v]
  match part with
  | [] => s
  | h :: data =>
    if data.length < fieldOf h 30 28 then s.setLink die l { k with inSlots := part }
    else
      let s1 := s.setLink die l { k with inSlots := [] }
      if headerOk h then s1.takePacket die l (readPacket h data)
      else (s1.countFabric die 15 8 1).giveBack die l (fieldOf h 59 59 = 1)

/-- The flit that arrives next on a link: the next one on the light from a die of this module, put together by the inbound mask,
or one from outside, which is an input (R376, R399, R408). -/
def State.arriving (s : State) (die l : Nat) : Option (Nat × State) :=
  let k := s.link die l
  match k.peer with
  | none => none
  | some p =>
    if 16 ≤ p then s.inp[3]?.map fun v => (v % 2 ^ 2048, s)
    else match k.wire with
      | [] => none
      | b :: rest => some (unstripe k.rxMask b, s.setLink die l { k with wire := rest })

/-- The inbound key that a header names, and how many flits have been accepted under it (R396). -/
def Link.inKey (k : Link) (h : FlitHeader) : Nat × Nat :=
  if h.keyIdx = k.rxKey % 2 then (k.rxKey, k.rxCount) else ((k.rxKey + 1) % 2 ^ 32, 0)

/-- What the header of an accepted or an idle flit brings: the acknowledgement and the buffers returned (R377, R380, R385). -/
def Link.takeHeader (k : Link) (h : FlitHeader) : Link :=
  let k1 := k.acknowledge h.ack h.nak
  { k1 with creditQ := k1.creditQ + h.crq, creditS := k1.creditS + h.crs }

/-- Accept a sequenced flit: its header, its mask, the change of key it shows, then its records or its slots (R379, R381, R396,
R399). -/
def State.acceptFlit (s : State) (die l : Nat) (h : FlitHeader) (payload : Nat) : State :=
  let k := s.link die l
  let (key, count) := k.inKey h
  let k1 := k.takeHeader h
  let k2 : Link := { k1 with
    rxSeq := (k1.rxSeq + 1) % 2 ^ 20, authFails := 0, rxKey := key, rxCount := count + 1
    records := if key = k.rxKey then k1.records else k1.records ++ [.keyDone] }
  let k3 := if h.lmap = k2.rxMask then k2 else k2.takeMask h.lmap
  if h.ftype = 2 then s.setLink die l (k3.takeRecords ((payloadSlots payload).filterMap readLinkRec))
  else
    (payloadSlots payload).zipIdx.foldl (fun (s : State) v => s.takeSlot die l (h.sop / 2 ^ v.2 % 2 = 1) v.1) (s.setLink die l k3)

/-- FLIT_RECEIVE: the next flit on a link is accepted, or discarded with a NAK if it is damaged or not the one expected (R379,
R380, R396-R399). Inputs: the link; one more than the lane whose codeword could not be corrected, or 0; the bits of the flit that
are damaged; on a link to another module, the flit (log 72). -/
def execFlitReceive (s : State) :=
  let die := s.cur.die
  let l := s.inp.getD 0 0 % 4
  let lane := s.inp.getD 1 0
  answer (match s.arriving die l with
    | none => s
    | some (sent, s0) =>
      let k := s0.link die l
      let flit := sent ^^^ s.inp.getD 2 0 % 2 ^ 2048
      let h := flitHeader flit
      let uncorrected := 1 ≤ lane && lane ≤ 8
      if !k.up then s0
      else if uncorrected || h.ftype = 3 || !flitCrcOk flit then
        let k1 := if uncorrected then k.setLane (lane - 1) (satAdd (k.lane (lane - 1)) 15 0 1) else k
        s0.setLink die l { k1 with err := satAdd k1.err 63 48 1, nakDue := k1.nakDue || h.ftype ≠ 0 }
      else if h.ftype = 0 then s0.setLink die l (k.takeHeader h)
      else if h.seq ≠ k.rxSeq then s0.setLink die l { k with nakDue := true }
      else
        let (key, count) := k.inKey h
        let p := k.peer.getD 0
        match openFlit k.secret (linkDir p (farLink l) die) key count flit with
        | some payload => s0.acceptFlit die l h payload
        | none =>
          let k1 : Link := { k with err := satAdd k.err 31 16 1, nakDue := true, authFails := k.authFails + 1 }
          if k1.authFails < 3 then s0.setLink die l k1
          else
            let s1 := { s0 with mgmt := { s0.mgmt with linkFails := s0.mgmt.linkFails ++ [4 * die + l] } }
            (s1.setLink die l k1).relockLink die l true)

/-! ## Set-aside queues (R386, R387) -/

/-- Set a flow aside, if a queue is free; the flow's packets in the ordinary buffers stay there. -/
def State.setAside (s : State) (die dest : Nat) : State :=
  let d := s.die die
  if 4 ≤ d.asides.length || (d.asideOf dest).isSome then s
  else
    (s.setDie die { d with asides := d.asides ++ [{ dest := dest, packets := [], since := s.cycle, noticed := [] }] }).countFabric
      die 7 0 1

/-- CONGESTION_DETECT (R386). Input: the destination. -/
def execCongestionDetect (s : State) :=
  let die := s.cur.die
  let dest := s.inp.getD 0 0
  let d := s.die die
  answer (match look dest d.busy with
    | none => s
    | some since => if s.cycle - since < d.congWindow || d.flowCount dest < d.congThresh then s else s.setAside die dest)

/-- SET_ASIDE_NOTICE: a received notice sets the flow aside, if a queue is free (R387). Input: the link. -/
def execSetAsideNotice (s : State) :=
  let die := s.cur.die
  let l := s.inp.getD 0 0 % 4
  let k := s.link die l
  answer (match k.asideIn with
    | [] => s
    | dest :: rest => (s.setLink die l { k with asideIn := rest }).setAside die dest)

/-- SET_ASIDE_RELEASE: a queue that has stayed empty long enough is freed (R387). Input: the destination. -/
def execSetAsideRelease (s : State) :=
  let die := s.cur.die
  let dest := s.inp.getD 0 0
  let d := s.die die
  answer (match d.asideOf dest with
    | none => s
    | some a =>
      if !a.packets.isEmpty || 0 < d.queued dest || s.cycle - a.since < d.congRelease then s
      else s.setDie die { d with asides := d.asides.filter fun b => b.dest ≠ dest })

/-! ## Key rotation (R396) -/

/-- Start a rotation of an outbound direction: the next sequenced flit goes under key n + 1, and key n stays until the last flit
under it is acknowledged. -/
def Link.rotate (k : Link) : Link :=
  { k with
    keyNum := (k.keyNum + 1) % 2 ^ 32, keyCount := 0, oldKey := if k.replay.isEmpty then none else some k.txSeq }

/-- AUTO_KEY_ROTATION: after 2^32 flits under one key, with AUTOKEY on and no old key unretired (R396). Input: the link. -/
def execAutoKeyRotation (s : State) :=
  let die := s.cur.die
  let l := s.inp.getD 0 0 % 4
  let k := s.link die l
  answer (if k.up && bitsOf k.ctl 0 0 = 1 && 2 ^ 32 ≤ k.keyCount && k.oldKey.isNone then
      s.setLink die l { k.rotate with rotated := some s.cycle }
    else s)

/-! ## Lanes (R398-R400) -/

/-- LINKCTL.THRESH (R405). -/
def Link.thresh (k : Link) : Nat := max 1 (bitsOf k.ctl 47 32)

/-- Hand a lane back: a notice goes out, unless the lane is not active or noticed (1), or too few would be left (2); the answer
is the one FLANE gives (R399, R404). -/
def State.handBack (s : State) (die l j : Nat) : Nat × State :=
  let k := s.link die l
  let w := k.lane j
  let left := ((List.range 8).filter fun i => bitsOf (k.lane i) 63 61 = 0 && k.rxMask / 2 ^ i % 2 = 1).length - 1
  if bitsOf w 63 61 ≠ 0 || k.rxMask / 2 ^ j % 2 = 0 then (1, s)
  else if left < 4 then
    if k.refused.contains j then (2, s)
    else (2, s.setLink die l { k with err := satAdd k.err 15 8 1, refused := k.refused ++ [j] })
  else
    let k1 := k.setLane j (setBits w 61 61 1)
    (0, s.setLink die l { k1 with records := k1.records ++ [.lane j false] })

/-- A lane's corrected count rises within a window; at the threshold the lane is handed back (R398). -/
def State.laneCounts (s : State) (die l j n : Nat) : State :=
  let k := s.link die l
  let w := k.lane j
  let s1 := s.setLink die l (k.setLane j (setBits w 31 16 n))
  if bitsOf w 63 62 ≠ 0 || n < bitsOf w 31 16 then s else if n < k.thresh then s1 else (s1.handBack die l j).2

/-- LANE_THRESHOLD_CROSS: the corrected counts of lanes rise in one cycle; the lanes are taken in ascending order (R398, R399).
Inputs: the link, then a count for each lane from 0 on, 0 for one that does not rise. -/
def execLaneThresholdCross (s : State) :=
  let die := s.cur.die
  let l := s.inp.getD 0 0 % 4
  answer (if !(s.link die l).up then s
    else
      (List.range 8).foldl (fun (t : State) j =>
        let n := min (s.inp.getD (j + 1) 0) 65535
        if n = 0 then t else t.laneCounts die l j n) s)

/-- LANE_WINDOW_END: a window of 2^16 codewords ends on an active lane: its count moves to LAST and restarts (R398). Inputs: the
link, the lane. -/
def execLaneWindowEnd (s : State) :=
  let die := s.cur.die
  let l := s.inp.getD 0 0 % 4
  let j := s.inp.getD 1 0 % 8
  let k := s.link die l
  let w := k.lane j
  answer (if !k.up || bitsOf w 63 62 ≠ 0 then s
    else
      let k1 := k.setLane j (setBits (setBits w 47 32 (bitsOf w 31 16)) 31 16 0)
      s.setLink die l { k1 with refused := k1.refused.filter (· ≠ j) })

/-- LANE_NOTICE: the transmitter takes a lane out of its mask, or brings it back; the next sequenced flit announces it (R399,
R400). Inputs: the link, the lane. -/
def execLaneNotice (s : State) :=
  let die := s.cur.die
  let l := s.inp.getD 0 0 % 4
  let j := s.inp.getD 1 0 % 8
  let k := s.link die l
  answer (match k.notices.find? fun n => n.1 = j with
    | none => s
    | some n =>
      let bit := 2 ^ j
      let mask := if n.2 then k.txMask ||| bit else k.txMask &&& (255 - bit)
      s.setLink die l { k with notices := k.notices.erase n, txMask := mask, maskDue := true })

/-- TRAINING_ATTEMPT_END: a lane in training has been measured; it is brought back, tried again, or goes out after fifteen
failures (R400). Inputs: the link, the lane, the corrected symbols, the uncorrectable codewords. -/
def execTrainingAttemptEnd (s : State) :=
  let die := s.cur.die
  let l := s.inp.getD 0 0 % 4
  let j := s.inp.getD 1 0 % 8
  let n := min (s.inp.getD 2 0) 65535
  let bad := s.inp.getD 3 0
  let k := s.link die l
  let w := k.lane j
  answer (if !k.up || bitsOf w 63 62 ≠ 1 || bitsOf w 61 61 = 1 then s
    else
      let w1 := satAdd (setBits w 31 16 n) 15 0 bad
      if n ≤ k.thresh / 16 && bad = 0 then
        let k1 := k.setLane j (setBits w1 61 61 1)
        s.setLink die l { k1 with records := k1.records ++ [.lane j true] }
      else if bitsOf w 51 48 = 15 then
        let k1 := k.setLane j (setBits w1 63 62 2)
        s.setLink die l { k1 with err := satAdd k1.err 7 0 1 }
      else s.setLink die l (k.setLane j (setBits (setBits w1 51 48 (bitsOf w 51 48 + 1)) 31 16 0)))

end Sys2Proof.Machine
end

