-- ==== Sys2Proof/Machine/Fabric.lean ====
section
/-! DEFINITION. The fabric engine at a target and at a requester: inbound requests and responses, the translation agent with
its holders, the words of the fabric block, and the engine's reset (R388-R394, R401-R407). -/

namespace Sys2Proof.Machine

/-! ## Inbound requests (R388, R390-R393) -/

/-- Whether an earlier request from one source die to the same sector is still to be performed (R390). -/
def State.inboxHeld (s : State) (die n : Nat) (p : Packet) : Bool :=
  ((s.die die).inbox.take n).any fun e =>
    !e.1.isResponse && e.1.srcMod = p.srcMod && e.1.srcDie = p.srcDie && e.1.addr / 128 = p.addr / 128

/-- Take packet `n` out of a die's inbox: a request's input buffer is free, and a set-aside queue for the die may be empty from
now on (R385-R387). -/
def State.dropInbox (s : State) (die n : Nat) : State :=
  let d := s.die die
  match d.inbox[n]? with
  | none => s
  | some e =>
    let d1 : Die := { d with inbox := d.inbox.eraseIdx n }
    let d2 : Die :=
      if 8 ≤ e.2 && d1.queued die = 0 then
        { d1 with asides := d1.asides.map fun a => if a.dest = die then { a with since := s.cycle } else a }
      else d1
    let s1 := s.setDie die d2
    if e.1.isResponse then s1 else s1.giveBack die e.2 false

/-- Whether a packet brings the payload of a context that is not bound on this module (R453). -/
def State.sealed (s : State) (p : Packet) : Bool := p.crosses && p.kind < 3 && (s.mgmt.binding p.context).isNone

/-- Perform request `n` of the inbox, if it is of a kind and its turn has come; one past its deadline is dropped, and the payload
of another module's is decrypted (R388, R390, R453). -/
def State.serve (s : State) (kind : Nat) (perform : Nat → Packet → State → State) : State :=
  let die := s.cur.die
  let n := s.inp.getD 0 0
  match (s.die die).inbox[n]? with
  | none => s
  | some (p, _) =>
    if p.kind ≠ kind || s.inboxHeld die n p then s
    else
      let s1 := s.dropInbox die n
      if s.deadlinePassed p then s1.countFabric die 31 16 1
      else if s.sealed p then s1.respond die p (p.kind + 8) ⟨4, 0, 0⟩
      else perform die (s1.openPacket p) s1

/-- Hand a request for host memory to the host engine of this die's module (R391). -/
def State.toHost (s : State) (die : Nat) (p : Packet) (kind : Nat) : State :=
  if s.place die p.addr = Place.host then
    (s.request { Req.blank die 127 3 p.kind p.addr (p.op % 128 + 1) p.context with
      data := p.data, mask := p.mask, poison := p.poison, op := p.op, arg := p.arg, purpose := .proxied p }).2
  else s.respond die p kind ⟨4, 0, 0⟩

/-- Whether a packet's address is one of this die's own. -/
def homed (die : Nat) (p : Packet) : Bool := paModule p.addr = 0 && paDie p.addr = die

/-- READ_REQUEST (R390). Input: the place of the packet in the inbox. -/
def execReadRequest (s : State) :=
  answer (s.serve 0 fun die p s =>
    if p.host then s.toHost die p 8
    else s.respond die p 8 (if homed die p then s.readHome die p.addr (p.op % 128 + 1) else ⟨4, 0, 0⟩))

/-- WRITE_REQUEST (R44, R390). Input: the place of the packet in the inbox. -/
def execWriteRequest (s : State) :=
  answer (s.serve 1 fun die p s =>
    if p.host then s.toHost die p 9
    else
      let n := p.op % 128 + 1
      let (status, s1) :=
        if homed die p then s.writeHome die p.addr n p.data (if 128 ≤ p.op then p.mask else fullMask n) p.poison else (4, s)
      s1.respond die p 9 ⟨status, 0, 0⟩)

/-- SYNC_COMMAND_REQUEST: the home's sync engine performs the command (R256, R390); a report goes into an error word (R440).
Input: the place of the packet in the inbox. -/
def execSyncCommandRequest (s : State) :=
  answer (s.serve 2 fun die p s =>
    let v1 := p.data % 2 ^ 64
    let v2 := p.data / 2 ^ 64
    if p.host then s.toHost die p 10
    else if !homed die p then s.respond die p 10 ⟨4, 0, 0⟩
    else if p.op = opReport then
      if s.homePlace die (paOffset p.addr) ≠ .mem then s.respond die p 10 ⟨4, 0, 0⟩
      else if (s.poisonIn p.addr 8).isSome then (s.errorEvent die 1 3 0 p.addr 5).respond die p 10 ⟨5, 0, 0⟩
      else
        let w := errorWord (s.readN p.addr 8) (v1 / 2 ^ 56) (v1 / 2 ^ 51 % 32) (v1 / 2 ^ 40 % 256) (v1 % 2 ^ 32)
        (s.writeN p.addr w 8).respond die p 10 ⟨0, 0, 0⟩
    else s.syncPerform die p.op p.addr v1 v2 (.packet p))

/-- Record a die as a holder of an entry; a seventeenth sets the broadcast bit (R392). -/
def Die.addHolder (d : Die) (k h : Nat) : Die :=
  let (hs, all) := (look k d.holders).getD ([], false)
  if hs.contains h then d
  else if hs.length < 16 then { d with holders := put k (hs ++ [h], all) d.holders }
  else { d with holders := put k (hs, true) d.holders }

/-- TRANSLATION_REQUEST: the lowest matching entry, and its holder (R392). Input: the place of the packet in the inbox. -/
def execTranslationRequest (s : State) :=
  answer (s.serve 3 fun die p s =>
    let d := s.die die
    let d1 : Die := { d with xaFills := min (d.xaFills + 1) (2 ^ 32 - 1) }
    match d.search die p.context p.arg true with
    | none => (s.setDie die d1).respond die p 11 ⟨7, 0, 0⟩
    | some (k, w0) =>
      let w1 := ((look k d.xent).getD (0, 0)).2
      (s.setDie die (d1.addHolder k (16 * p.srcMod + p.srcDie))).respond die p 11 ⟨0, w0.toNat + w1.toNat * 2 ^ 64, 0⟩)

/-- Whether two ranges of addresses meet. -/
def meets (a n b m : Nat) : Bool := a < b + m && b < a + n

/-- The local entries filled from a target whose pages meet a range lose V (R393). -/
def State.clearFilled (s : State) (die target base bytes : Nat) : State :=
  (s.die die).filled.foldl (fun (s : State) e =>
    let (w0, w1) := (look e.1 (s.die die).xent).getD (0, 0)
    let page := pageBytes (BitVec.ofNat 2 (bitsOf w0 60 59))
    if e.2 = target && bitsOf w0 63 63 = 1 && meets (bitsOf w0 51 16 * 65536 / page * page) page base bytes then
      s.clearEntry die e.1 w0 w1 none
    else s) s

/-- Whether an invalidation that this die performs is done: its write-backs have ended, and so have the requests to its page
that passed their checks before it (R139, R393). -/
def State.cleared (s : State) (die : Nat) (x : Clearing) : Bool :=
  let bytes := pageBytes (BitVec.ofNat 2 x.packet.op)
  s.allReplied x.wb && !s.reqs.any fun e =>
    e.1 < x.upTo && e.2.die = die && e.2.reply.isNone && meets e.2.addr (max 1 e.2.len) x.packet.addr bytes

/-- Answer the invalidations that are done (R393). -/
def State.answerCleared (s : State) (die : Nat) : State :=
  let d := s.die die
  let s1 := s.setDie die { d with performing := d.performing.filter fun x => !s.cleared die x }
  (d.performing.filter (s.cleared die)).foldl (fun (s : State) x => (s.forgetAll x.wb).respond die x.packet 12 ⟨0, 0, 0⟩) s1

/-- Begin an invalidation: filled entries are cleared, outstanding fills from the target are raced, and the sectors of the range
are written back and given up (R393, R394). -/
def State.beginClearing (s : State) (die : Nat) (p : Packet) : State :=
  let target := 16 * p.srcMod + p.srcDie
  let bytes := pageBytes (BitVec.ofNat 2 p.op)
  let inside (i : Nat) : Bool := meets (128 * i) 128 p.addr bytes
  let s1 := s.clearFilled die target p.addr bytes
  let reqs : List (Nat × Req) := s1.reqs.map fun e =>
    if e.2.die = die && e.2.kind = 3 && e.2.addr = target * 2 ^ 44 then (e.1, { e.2 with mark := true }) else e
  let s2 := { s1 with reqs := reqs }
  let upTo := s2.reqNo
  let (wb, s3) := s2.flush die (fun i _ => inside i) none
  let s4 := s3.invalidate die fun i _ => inside i
  let d := s4.die die
  s4.setDie die { d with performing := d.performing ++ [{ packet := p, wb := wb, upTo := upTo }] }

/-- INVALIDATION_REQUEST: an invalidation that is not past its deadline is begun; those that are done are answered (R388, R393,
R394). Input: the place of the packet in the inbox. -/
def execInvalidationRequest (s : State) :=
  let die := s.cur.die
  let n := s.inp.getD 0 0
  let s1 := match (s.die die).inbox[n]? with
    | none => s
    | some (p, _) =>
      if p.kind ≠ 4 then s
      else
        let t := s.dropInbox die n
        if s.deadlinePassed p then t.countFabric die 31 16 1 else t.beginClearing die p
  answer (s1.answerCleared die)

/-- ENGINE_NOTICE: a hold of the ring, or the cancel of a job of a context (R330, R366, R382; log 17). Input: the place of the
packet in the inbox. -/
def execEngineNotice (s : State) :=
  answer (s.serve 5 fun die p s =>
    if p.op = 1 then
      let (full, s1) := s.cancelPoint die (p.arg / 2 ^ 32 % 64) (p.arg % 2 ^ 32)
      s1.respond die p 13 ⟨0, if full then 1 else 0, 0⟩
    else if p.op = 0 then
      (s.takeHold die p.arg).respond die p 13 ⟨0, 0, 0⟩
    else s.respond die p 13 ⟨4, 0, 0⟩)

/-! ## Inbound responses (R388, R389) -/

/-- Take response `n` of the inbox: past its deadline it is dropped, one that matches no request is counted as late, and
otherwise its request has its reply. -/
def State.takeResponse (s : State) (kind : Nat) : State :=
  let die := s.cur.die
  let n := s.inp.getD 0 0
  match (s.die die).inbox[n]? with
  | none => s
  | some (p, _) =>
    if p.kind ≠ kind then s
    else
      let s1 := s.dropInbox die n
      if s.deadlinePassed p then s1.countFabric die 31 16 1
      else match s1.matchReq die (p.unit + if p.eng then 64 else 0) p.cls p.tag p.gen with
        | some id => s1.deliver id ⟨p.status, if kind = 13 then p.arg else (s1.openPacket p).data, p.poison⟩
        | none => s1.countFabric die 63 32 1

/-- READ_DATA (R389). Input: the place of the packet in the inbox. -/
def execReadData (s : State) := answer (s.takeResponse 8)

/-- WRITE_ACKNOWLEDGEMENT (R286, R389). Input: the place of the packet in the inbox. -/
def execWriteAcknowledgement (s : State) := answer (s.takeResponse 9)

/-- SYNC_REPLY (R260, R389). Input: the place of the packet in the inbox. -/
def execSyncReply (s : State) := answer (s.takeResponse 10)

/-- TRANSLATION_REPLY (R389, R402). Input: the place of the packet in the inbox. -/
def execTranslationReply (s : State) := answer (s.takeResponse 11)

/-- NOTICE_ACKNOWLEDGEMENT (R382, R389). Input: the place of the packet in the inbox. -/
def execNoticeAcknowledgement (s : State) := answer (s.takeResponse 13)

/-- INVALIDATION_ACKNOWLEDGEMENT: the holder that answers is done with the page; one that nothing awaits is late (R389, R393).
Input: the place of the packet in the inbox. -/
def execInvalidationAcknowledgement (s : State) :=
  let die := s.cur.die
  let n := s.inp.getD 0 0
  answer (match (s.die die).inbox[n]? with
    | none => s
    | some (p, _) =>
      if p.kind ≠ 12 then s
      else
        let s1 := s.dropInbox die n
        if s.deadlinePassed p then s1.countFabric die 31 16 1
        else match s1.matchReq die 64 p.cls p.tag p.gen with
          | some id => (s1.deliver id ⟨0, 0, 0⟩).dropInvals die fun v => v.req = some id
          | none => s1.countFabric die 63 32 1)

/-- Send the invalidations of a die that `due` selects again, each as a new request (R152, R393). -/
def State.resendInvals (s : State) (die : Nat) (due : Inval → Bool) : State :=
  let d := s.die die
  let go (v : Inval) : Bool := v.holder ≠ die && due v
  let again := d.invals.filter go
  let s1 := again.foldl (fun (s : State) v => match v.req.bind fun i => (look i s.reqs).map fun r => (i, r) with
    | some (i, r) => { s.restTag r with reqs := unput i s.reqs }
    | none => s) (s.setDie die { d with invals := d.invals.filter fun v => !go v })
  again.foldl (fun (s : State) v => s.sendInval die { v with sent := s.cycle }) s1

/-- INVALIDATION_RESEND: invalidations unanswered for a requester interval (R393). Input: the entry. -/
def execInvalidationResend (s : State) :=
  let die := s.cur.die
  let k := s.inp.getD 0 0
  answer (s.resendInvals die fun v => v.entry = k && v.sent + (s.die die).interval ≤ s.cycle)

/-! ## Reset (R407) -/

/-- FABRIC_ENGINE_RESET: links relock with their replay buffers and keys; requests not begun are dropped, fills end with their
tags at rest, and invalidations are sent again (R61, R407). -/
def execFabricEngineReset (s : State) :=
  let die := s.cur.die
  let s1 := (List.range 4).foldl (fun (s : State) l => if (s.link die l).up then s.relockLink die l false else s) s
  let d := s1.die die
  let dropped := d.inbox.filter fun e => !e.1.isResponse
  let s2 := dropped.foldl (fun (s : State) e => s.giveBack die e.2 false)
    (s1.setDie die { d with inbox := d.inbox.filter fun e => e.1.isResponse })
  let fills := s2.reqs.filter fun e => e.2.die = die && e.2.kind = 3 && e.2.reply.isNone
  let s3 := fills.foldl (fun (s : State) e => (s.restTag e.2).deliver e.1 ⟨2, 0, 0⟩) s2
  answer ((s3.resendInvals die fun _ => true).errorEvent die 2 4 0 (2 ^ 64 - 1) 0)

/-! ## The fabric block (R401-R404) -/

/-- A fabric word: D executes it at its place (R401). -/
def fabricWord (tk : BitVec 4) (body : State → State → Res Eff) (s : State) : State :=
  runWordM markNone 1 (· = .d) tk (fun s0 s => do
    untilTrue s0.acquired
    body s0 s) s

/-- Whether a local entry can take no fill: it is valid, or retired (R402). -/
def Die.entryTaken (d : Die) (k : Nat) : Bool :=
  let w := ((look k d.xent).getD (0, 0)).1
  bitsOf w 63 63 = 1 || bitsOf w 56 56 = 1

/-- What FXFILL returns for a reply, and the entry it installs (R394, R402). -/
def State.fillNow (s : State) (die k target : Nat) (r : Reply) (raced : Bool) : Nat × State :=
  let d := s.die die
  if r.status = 2 then (4, s)
  else if raced then (2, s)
  else if r.status = 7 then (1, s)
  else if r.status ≠ 0 then (4, s)
  else if d.entryTaken k then (3, s)
  else
    let w0 : Word := BitVec.ofNat 64 r.data
    let w1 : Word := BitVec.ofNat 64 (r.data / 2 ^ 64)
    let gen := bitsOf ((look k d.xent).getD (0, 0)).1 15 0
    let n := setBits (setBits (setBits (setBits w0 63 63 1) 57 57 0) 56 52 0) 15 0 gen
    (0, s.setDie die { d with xent := put k (n, w1 &&& xentBits1) d.xent, filled := put k target d.filled })

/-- FXFILL (R394, R402). -/
def execFxfill (tk : BitVec 4) (rd ra rb : BitVec 5) (s : State) :=
  answer (fabricWord tk (fun s0 s => do
    let die := s0.cur.die
    let (va, s1) ← readReg ra s
    let (b, s2) ← readReg rb s1
    let target := bitsOf b 29 24
    let k := bitsOf b 63 52
    match s0.pending with
    | none => do
      if bitsOf va 63 56 ≠ 0 || bitsOf b 51 38 ≠ 0 || bitsOf b 31 30 ≠ 0 || bitsOf b 23 0 ≠ 0 then trap 0x70 1
      if target = die then trap 0x70 2
      if !s0.inGroup die (target / 16) (target % 16) then trap 0x71 (BitVec.ofNat 64 target)
      if (s0.die die).entryTaken k then do
        let s3 ← writeResult rd 3 s2
        pure (.next s3)
      else
        let (id, w) := s0.request { Req.blank die 64 3 3 (target * 2 ^ 44) 0 (bitsOf b 37 32) with arg := va.toNat, owner := some 0 }
        pure (.stay (w.setPending { ids := [id], data := [2000] }))
    | some p => do
      let id := p.ids.headD 0
      match s0.replyOf id with
      | none => pure (.stay s0)
      | some r => do
        let raced := ((look id s0.reqs).map (·.mark)).getD false
        let (v, s3) := s2.fillNow die k target r raced
        let s4 ← writeResult rd (BitVec.ofNat 64 v) (s3.forget id)
        pure (.next s4)) s)

/-- FKEY (R396, R403). -/
def execFkey (tk : BitVec 4) (rd ra : BitVec 5) (s : State) :=
  answer (fabricWord tk (fun _ s => do
    let (a, s1) ← readReg ra s
    if bitsOf a 63 2 ≠ 0 then trap 0x70 1
    let die := s1.cur.die
    let l := bitsOf a 1 0
    let k := s1.link die l
    let (v, s2) :=
      if !k.up then (2, s1)
      -- an automatic rotation in the same cycle is this one (R403)
      else if k.rotated = some s1.cycle then (0, s1)
      else if k.oldKey.isSome then (1, s1)
      else (0, s1.setLink die l k.rotate)
    let s3 ← writeResult rd v s2
    pure (.next s3)) s)

/-- FLANE (R399, R400, R404). -/
def execFlane (tk : BitVec 4) (rd ra rb : BitVec 5) (s : State) :=
  answer (fabricWord tk (fun _ s => do
    let (a, s1) ← readReg ra s
    let (b, s2) ← readReg rb s1
    if bitsOf a 63 5 ≠ 0 || bitsOf b 63 2 ≠ 0 then trap 0x70 1
    let op := bitsOf b 1 0
    if op = 3 then trap 0x70 3
    let die := s2.cur.die
    let l := bitsOf a 1 0
    let j := bitsOf a 4 2
    let k := s2.link die l
    let w := k.lane j
    let (v, s3) :=
      if op = 0 then (w, s2)
      else if !k.up then (3, s2)
      else if op = 1 then
        let (r, s3) := s2.handBack die l j
        (BitVec.ofNat 64 r, s3)
      else if bitsOf w 63 62 ≠ 2 then (1, s2)
      else (0, s2.setLink die l (k.setLane j (setBits (setBits (setBits w 63 61 2) 51 48 1) 31 16 0)))
    let s4 ← writeResult rd v s3
    pure (.next s4)) s)

end Sys2Proof.Machine
end

