-- ==== Sys2Proof/Machine/Sluice.lean ====
section
/-! DEFINITION. The sluice: the check of a proposed map, the steps of a reconfiguration, and publication (R408-R423). Dies are
those of the domain, 16m + d; the maps that other modules propose are inputs (log 2). -/

namespace Sys2Proof.Machine

/-- Fields of a group map (R411). -/
def mapRing (g : Word) : Nat := bitsOf g 46 43
def mapPos (g : Word) : Nat := bitsOf g 42 39
def mapDies (g : Word) : Nat := bitsOf g 38 35
def mapInRing (g : Word) : Bool := bitsOf g 47 47 = 1
def mapInGroup (g : Word) : Bool := bitsOf g 33 33 = 1
def mapGroup (g : Word) : Nat := bitsOf g 31 28
def mapX (g : Word) : Nat := bitsOf g 27 24
def mapY (g : Word) : Nat := bitsOf g 23 22
def mapGx (g : Word) : Nat := bitsOf g 21 18 + 1
def mapGy (g : Word) : Nat := bitsOf g 17 16 + 1

/-- The dies of this module that SLSCOPE names. -/
def Sluice.scopeDies (x : Sluice) : List Nat := (List.range 16).filter fun d => bitsOf x.scope d d = 1

/-- The dies of the domain that SLSCOPE names. -/
def Sluice.scopeAll (x : Sluice) : List Nat := (List.range 64).filter fun d => bitsOf x.scope d d = 1

/-- The map in force on a die: of another module's, the one it took in a request with this module. -/
def State.mapNow (s : State) (d : Nat) : Word := if d < 16 then (s.die d).gmap else (look d s.sluice.others).getD 0

/-- The map of a die under the request: the proposed one in the scope, the one in force elsewhere (R414). -/
def State.proposed (s : State) (scope : List Nat) (d : Nat) : Word :=
  if !scope.contains d then s.mapNow d
  else if d < 16 then s.sluice.next.get (Fin.ofNat 16 d)
  else (look d s.sluice.offers).getD 0

/-- The members of a die's group, and of its ring, under maps. -/
def groupOf (f : Nat → Word) (d : Nat) : List Nat :=
  if mapInGroup (f d) then (List.range 64).filter fun e => mapInGroup (f e) && mapGroup (f e) = mapGroup (f d) else []
def ringOfMap (f : Nat → Word) (d : Nat) : List Nat :=
  if mapInRing (f d) then
    (List.range 64).filter fun e => mapInRing (f e) && mapRing (f e) = mapRing (f d) && mapGroup (f e) = mapGroup (f d)
  else []

/-- The die at the other end of link `l` of a die under maps (R409). -/
def peerOf (f : Nat → Word) (d l : Nat) : Option Nat :=
  let g := f d
  let x := mapX g
  let y := mapY g
  let gx := mapGx g
  let gy := mapGy g
  let dest := if l = 0 then ((x + 1) % gx, y) else if l = 1 then ((x + gx - 1) % gx, y)
    else if l = 2 then (x, (y + 1) % gy) else (x, (y + gy - 1) % gy)
  if (if l < 2 then gx else gy) = 1 then none else (groupOf f d).find? fun e => (mapX (f e), mapY (f e)) = dest

/-- The die that the ring egress of a die reaches under maps (R409). -/
def ringNext (f : Nat → Word) (d : Nat) : Option Nat :=
  (ringOfMap f d).find? fun e => mapPos (f e) = (mapPos (f d) + 1) % (mapDies (f d) + 1)

/-- Whether the external fabric ports of link 2 or 3 of a die of this module are lit and reach the opposite link of a die of
another module (R408, R409, R413). -/
def Sluice.reaches (x : Sluice) (d l e : Nat) : Bool :=
  (List.range 2).all fun i =>
    let w := (look (4 * d + 2 * (l - 2) + i) x.ext).getD 0
    bitsOf w 63 63 = 1 && bitsOf w 6 6 + 2 = farLink l && bitsOf w 5 4 = e / 16 && bitsOf w 3 0 = e % 16

/-! ## Validation (R414, R415) -/

/-- Whether check `reason` of R414 fails on a die of the scope. Checks 5 and 8 are this module's own of its dies. -/
def State.mapFails (s : State) (scope : List Nat) (reason d : Nat) : Bool :=
  let f (e : Nat) : Word := s.proposed scope e
  let g := f d
  let outside (e : Nat) : Bool := !scope.contains e
  if reason = 1 then
    (16 ≤ d && (look d s.sluice.offers).isNone)
      || bitsOf g 63 48 ≠ 0 || bitsOf g 34 34 ≠ 0 || bitsOf g 32 32 ≠ 0 || bitsOf g 15 0 ≠ 0
  else if reason = 2 then (groupOf s.mapNow d).any outside || (groupOf f d).any outside
  else if reason = 3 then
    let ms := groupOf f d
    mapInGroup g && (mapGx g ≤ mapX g || mapGy g ≤ mapY g || ms.length ≠ mapGx g * mapGy g || ms.any fun e =>
      mapGx (f e) ≠ mapGx g || mapGy (f e) ≠ mapGy g || (e ≠ d && mapX (f e) = mapX g && mapY (f e) = mapY g))
  else if reason = 4 then
    [0, 1].any fun l => match peerOf f d l with
      | some e => e / 16 ≠ d / 16
      | none => false
  else if reason = 5 then
    d < 16 && [2, 3].any fun l => match peerOf f d l with
      | some e => 16 ≤ e && !s.sluice.reaches d l e
      | none => false
  else if reason = 6 then
    let ms := ringOfMap f d
    let shared := (List.range 64).any fun e => mapInRing (f e) && mapRing (f e) = mapRing g && mapGroup (f e) ≠ mapGroup g
      && scope.contains e
    mapInRing g && (!mapInGroup g || mapDies g = 0 || mapDies g < mapPos g || shared || ms.length ≠ mapDies g + 1 || ms.any fun e =>
      mapDies (f e) ≠ mapDies g || (e ≠ d && mapPos (f e) = mapPos g))
  else if reason = 7 then
    -- the dies whose ring egress leaves their module, and those whose ring ingress comes from another (R409)
    let leaves (e : Nat) : Bool := match ringNext f e with
      | some n => n / 16 ≠ e / 16
      | none => false
    let enters (e : Nat) : Bool := (List.range 64).any fun p => leaves p && ringNext f p = some e
    let twice (crosses : Nat → Bool) : Bool := crosses d && (List.range 64).any fun e => e ≠ d && e / 16 = d / 16 && crosses e
    twice leaves || twice enters
  else if reason = 8 then s.mgmt.fenced.contains d && (mapInGroup g || mapInRing g)
  else false

/-- The lowest reason for which a request is invalid, with the lowest die it fails on (R414). -/
def State.mapReason (s : State) (scope : List Nat) : Option (Nat × Nat) :=
  ([1, 2, 3, 4, 5, 6, 7, 8].filterMap fun r => (scope.find? fun d => s.mapFails scope r d).map fun d => (r, d)).head?

/-- The first die, among the named dies and the dies of their current rings, that runs a ring (R415). -/
def State.ringRunning (s : State) (scope : List Nat) : Option Nat :=
  let runs (d : Nat) : Bool :=
    let x := s.die d
    let st := bitsOf (BitVec.ofNat 64 x.rgstat) 17 14
    bitsOf x.rgctl 50 50 = 1 || !(st = 0 || st = 4 || st = 5)
  (List.range 16).find? fun d => runs d && scope.any fun e => e = d || (s.ringDies e).contains d

/-! ## The steps (R415-R420) -/

/-- Set fields of SLCTL: BUSY, STATUS, STEP, REASON, BADDIE (R413). -/
def slctl (w : Word) (busy status step reason bad : Nat) : Word :=
  setBits (setBits (setBits (setBits (setBits w 62 62 busy) 55 48 status) 47 40 step) 39 32 reason) 31 24 bad

/-- The step in progress. -/
def Sluice.step (x : Sluice) : Nat := bitsOf x.ctl 47 40

/-- The drain limit in cycles. -/
def Sluice.limit (x : Sluice) : Nat := microseconds (max 1 (bitsOf x.time 23 0))

/-- End the request: its status, and the die the status names. -/
def State.endSluice (s : State) (status reason bad : Nat) : State :=
  let x := s.sluice
  { s with sluice := { x with ctl := slctl x.ctl 0 status 0 reason bad, dies := [], paths := [], failed := false, fenced := false } }

/-- Step 2 at a die: new requests are held, every dirty sector is written back, a marker goes out on every link of the scope
(R417). -/
def State.freezeDie (s : State) (scope : List Nat) (d : Nat) : State :=
  let hold (s : State) (n : Nat) : State := s.setDie d { s.die d with frozen := some n, markers := [] }
  let s1 := hold s (s.reqNo + 2 ^ 64)
  let (_, s2) := s1.writeBackAll d (fun _ _ => true) none
  let s3 := hold s2 s2.reqNo
  (List.range 4).foldl (fun (s : State) l =>
    let k := s.link d l
    match k.peer with
    | none => s
    | some p => if k.up && scope.contains p then s.setLink d l { k with records := k.records ++ [.marker], marked := false } else s) s3

/-- The greater of two epochs, as serial numbers modulo 2^16 (R420). -/
def laterEpoch (a b : Nat) : Nat := if (b + 65536 - a) % 65536 < 32768 then b else a

/-- SLCTL_GO, with the maps that other modules propose for their dies and their greatest epoch (R414, R415, R417, R420). -/
def State.sluiceGo (s0 : State) (offers : List (Nat × Word)) (farEpoch : Nat) : State :=
  let busy := bitsOf s0.sluice.ctl 62 62 = 1 || s0.patching
  let s := if busy then s0
    else { s0 with sluice := { s0.sluice with offers := offers, farEpoch := farEpoch } }
  let x := s.sluice
  let scope := x.scopeDies
  let set (w : Word) : State := { s with sluice := { x with ctl := w } }
  if busy then set (setBits x.ctl 55 48 1)
  else match s.ringRunning scope with
  | some d => set (slctl x.ctl 0 3 0 0 d)
  | none =>
    match s.mapReason x.scopeAll with
    | some (r, d) => set (slctl x.ctl 0 2 0 r d)
    | none =>
      let s1 := { s with sluice := { x with
        ctl := slctl x.ctl 1 (bitsOf x.ctl 55 48) 2 0 0, dies := scope, began := s.cycle, paths := [], relocked := 0, failed := false
        fenced := false } }
      scope.foldl (fun s d => s.freezeDie x.scopeAll d) s1

/-- A list of numbers as pairs. -/
def pairs : List Nat → List (Nat × Nat)
  | a :: b :: r => (a, b) :: pairs r
  | _ => []

/-- SLCTL_GO: a write of 1 to SLCTL.GO; a request that spans modules is given to every sluice concerned (R415). Inputs: of a
request that spans modules, the greatest epoch of the other modules, then each of their dies with its proposed map (log 2). -/
def execSlctlGo (s : State) :=
  answer (s.sluiceGo ((pairs s.inp.tail).map fun e => (e.1, BitVec.ofNat 64 e.2)) (s.inp.headD (bitsOf s.sluice.ctl 15 0)))

/-- DRAIN_MARKER: a marker has arrived on an inbound link direction (R417). Input: the link. -/
def execDrainMarker (s : State) :=
  let die := s.cur.die
  let l := s.inp.getD 0 0 % 4
  let k := s.link die l
  answer (if !k.marked then s
    else
      let s1 := s.setLink die l { k with marked := false }
      let d := s1.die die
      s1.setDie die { d with markers := if d.markers.contains l then d.markers else d.markers ++ [l] })

/-- Whether a die is quiesced (R417). -/
def State.quiesced (s : State) (d : Nat) : Bool :=
  let x := s.die d
  let scope := s.sluice.scopeAll
  let links := (List.range 4).all fun l =>
    let k := s.link d l
    let within : Bool := match k.peer with
      | some p => k.up && scope.contains p
      | none => false
    k.replay.isEmpty && k.records.isEmpty && k.outSlots.isEmpty && k.inSlots.isEmpty && (!within || x.markers.contains l)
  let owed := x.waiters.any fun w => match w.origin with
    | .packet _ => true
    | .here _ => false
  let proxied := s.reqs.any fun e => e.2.die = d && (match e.2.purpose with
    | .proxied _ => true
    | _ => false)
  links && x.performing.isEmpty && x.router.isEmpty && x.inbox.isEmpty && (x.asides.all fun a => a.packets.isEmpty) && !owed && !proxied

/-- The paths that change and reach a sink under the new maps (R408, R416). -/
def State.changedPaths (s : State) (scope : List Nat) : List Nat :=
  let old (e : Nat) : Word := s.mapNow e
  let new (e : Nat) : Word := s.proposed s.sluice.scopeAll e
  let links := scope.flatMap fun d =>
    ((List.range 4).filter fun l => peerOf new d l ≠ (s.link d l).peer && (peerOf new d l).isSome).map (4 * d + ·)
  let rings := scope.filter fun d => ringNext new d ≠ ringNext old d && (ringNext new d).isSome
  links ++ rings.map (64 + ·)

/-- SLUICE_DRAIN_COMPLETE: every die of the scope is quiesced; allowances are frozen, and the mirrors of the paths that change
begin to move (R416-R418). -/
def execSluiceDrainComplete (s : State) :=
  let x := s.sluice
  answer (if x.step ≠ 2 || !(x.dies.all s.quiesced) then s
    else
      let changed := s.changedPaths x.dies
      let new (e : Nat) : Word := s.proposed x.scopeAll e
      let dark (s : State) (d l : Nat) : State :=
        let k := s.link d l
        if peerOf new d l = k.peer then s else s.setLink d l { k with up := false, lit := false, relock := none }
      let s1 := x.dies.foldl (fun s d => (List.range 4).foldl (fun s l => dark s d l) s) s
      { s1 with sluice := { s1.sluice with
        ctl := setBits x.ctl 47 40 4, drainUs := (s.cycle - x.began) / 1200, began := s.cycle, paths := changed.map fun p => (p, 0) } })

/-- Held requests of the dies go on: each is checked against the map in force, and one that is unreachable has its fate
(R417, R420). -/
def State.releaseHeld (s : State) (dies : List Nat) : State :=
  let s1 := dies.foldl (fun (s : State) d => s.setDie d { s.die d with frozen := none, markers := [] }) s
  let s2 := s1.reqs.foldl (fun (s : State) e =>
    if dies.contains e.2.die && !e.2.asked && e.2.reply.isNone && s.place e.2.die e.2.addr = .unreach then s.deliver e.1 ⟨3, 0, 0⟩
    else s) s1
  s2.pump

/-- SLUICE_DRAIN_TIMEOUT: the drain limit has passed before every die was quiesced; nothing else changes (R417, R419). -/
def execSluiceDrainTimeout (s : State) :=
  let x := s.sluice
  answer (if x.step ≠ 2 || s.cycle < x.began + x.limit then s
    else
      let bad := (x.dies.find? fun d => !s.quiesced d).getD 0
      let clear (k : Link) : Link := { k with
        marked := false
        records := k.records.filter fun r => match r with
          | .marker => false
          | _ => true }
      let s1 := x.dies.foldl (fun (s : State) d => (List.range 4).foldl (fun (s : State) l => s.setLink d l (clear (s.link d l))) s) s
      (s1.releaseHeld x.dies).endSluice (if x.fenced then 6 else 4) 0 bad)

/-! ## Publication (R420) -/

/-- What the change of a die's ring does there (R420). -/
def State.ringChanged (s : State) (d : Nat) : State :=
  let s1 := s.endCopies d 8 fun e => e.state = .suspended
  let r := s1.rg d
  let s2 := s1.setRg d { RingEngine.reset with
    events := r.events, count := r.count, request := r.request, log := [], loss := r.loss, lossCnt := r.lossCnt, gen := r.gen + 1 }
  s2.setDie d { s2.die d with desc := [], arrivals := [], rgctl := setBits (s2.die d).rgctl 50 50 0 }

/-- What the change of a die's group does there: filled entries are cleared, sectors whose homes are no longer reachable are
discarded and their dirty bytes reported, and holders that have left count as having acknowledged (R393, R394, R420). -/
def State.groupChanged (s : State) (d : Nat) : State :=
  let s1 := (s.die d).filled.foldl (fun (s : State) e =>
    let (w0, w1) := (look e.1 (s.die d).xent).getD (0, 0)
    if bitsOf w0 63 63 = 1 then s.clearEntry d e.1 w0 w1 none else s) s
  let gone := (s1.die d).cache.filter fun e => s1.place d (128 * e.1) = .unreach
  let s2 := s1.setDie d { s1.die d with filled := [], cache := (s1.die d).cache.filter fun e => s1.place d (128 * e.1) ≠ .unreach }
  let s3 := gone.foldl (fun (s : State) e => if e.2.dirty = 0 then s else s.errorEvent d 4 4 0 (128 * e.1) 0) s2
  s3.dropInvals d fun v => !s3.inGroup d (v.holder / 16) (v.holder % 16)

/-- The registers a die takes at publication: GMAP with the epoch, GMEMBER, GPOS, and RGCTL's ring fields (R411, R412, R420). A
die in reset that is not fenced is in service from then on (R448, R458). -/
def State.publishDie (s : State) (f : Nat → Word) (epoch d : Nat) : State :=
  let g := setBits (f d) 63 48 epoch
  let ms := groupOf f d
  let x := s.die d
  let ring := setBits (setBits (setBits (setBits x.rgctl 63 60 (mapRing g)) 59 56 (mapPos g)) 55 52 (mapDies g)) 51 51
    (if mapInRing g && mapPos g = 0 then 1 else 0)
  s.setDie d { x with
    live := x.live || !s.mgmt.fenced.contains d
    gmap := g, gmember := BitVec.ofNat 64 (ms.foldl (fun acc e => acc + 2 ^ e) 0), rgctl := ring
    gpos := ms.map fun e => (e, BitVec.ofNat 64 (128 + mapX (f e) * 8 + mapY (f e))) }

/-- The links of a die take their new peers; one with a new peer starts with new keys and sequences and eight buffers of each
class, up if it has relocked, and at boot lit and down (R375, R409, R418, R454). -/
def State.patchLink (s : State) (f : Nat → Word) (boot : Bool) (failed : List Nat) (d l : Nat) : State :=
  let k := s.link d l
  let p := peerOf f d l
  if p = k.peer then s
  else
    let s1 := s.setLink d l { Link.reset with ctl := k.ctl, err := k.err, peer := p }
    match p with
    | none => s1
    | some e =>
      let mask := s1.litMask d l
      let s2 := s1.setLink d l { s1.link d l with creditQ := 8, creditS := 8, txMask := mask, txLast := mask, rxMask := mask }
      if boot then s2.setLink d l { s2.link d l with lit := (s2.darkLanes d l).length ≤ 4 }
      else if failed.contains (4 * d + l) || (e < 16 && failed.contains (4 * e + farLink l)) then s2
      else
        let s3 := if linkDir d l e = 0 then s2.countRelock d l e else s2
        (s3.setLink d l { s3.link d l with lit := true, secret := s3.secretOf d l e }).raiseLink d l

/-- New maps take force on every die of a scope in one step, and each die applies what changes there (R420). -/
def State.publishMaps (s : State) (scope : List Nat) (new : Nat → Word) (epoch : Nat) (boot : Bool) (failed : List Nat) : State :=
  let old (e : Nat) : Word := s.mapNow e
  let ringOff (d : Nat) : Bool := bitsOf (old d) 47 35 ≠ bitsOf (new d) 47 35 || ringOfMap old d ≠ ringOfMap new d
  let groupOff (d : Nat) : Bool :=
    mapInGroup (old d) ≠ mapInGroup (new d) || mapGroup (old d) ≠ mapGroup (new d) || groupOf old d ≠ groupOf new d
  let s1 := scope.foldl (fun s d => s.publishDie new epoch d) s
  let s2 := scope.foldl (fun s d => (List.range 4).foldl (fun s l => s.patchLink new boot failed d l) s) s1
  let s3 := scope.foldl (fun s d => if ringOff d then s.ringChanged d else s) s2
  let s3 := scope.foldl (fun s d => if ringOff d then s.renewMirrors d else s) s3
  let s4 := scope.foldl (fun s d => if groupOff d then s.groupChanged d else s) s3
  s4.releaseHeld scope

/-- Publish the new maps on every die of the scope in one step, then release what was held (R420). `failed` are the paths that
did not relock. -/
def State.publish (s : State) (failed : List Nat) : State :=
  let x := s.sluice
  let epoch := (laterEpoch (bitsOf x.ctl 15 0) x.farEpoch + 1) % 65536
  let new := s.proposed x.scopeAll
  let s5 := s.publishMaps x.dies new epoch false failed
  let relockUs := (s.cycle - x.began) / 1200
  let stat := x.drainUs % 65536 * 2 ^ 48 + x.darkUs % 256 * 2 ^ 40 + relockUs % 256 * 2 ^ 32 + x.relocked % 65536 * 2 ^ 16
  let s6 := s5.endSluice (if x.failed then 5 else 0) 0 0
  { s6 with sluice := { s6.sluice with
    ctl := setBits s6.sluice.ctl 15 0 epoch, stat := BitVec.ofNat 64 stat
    others := (x.scopeAll.filter (16 ≤ ·)).foldl (fun os d => put d (new d) os) x.others } }

/-- Publish once every path has relocked or failed twice. -/
def State.publishIfDone (s : State) : State :=
  let ps := s.sluice.paths
  if ps.all fun p => 2 ≤ p.2 then s.publish (ps.map (·.1)) else s

/-- SLUICE_DARK_END: the mirrors have settled, and the changed paths begin to relock (R416). -/
def execSluiceDarkEnd (s : State) :=
  let x := s.sluice
  answer (if x.step ≠ 4 then s
    else
      let s1 := { s with sluice := { x with
        ctl := setBits x.ctl 47 40 5, darkUs := (s.cycle - x.began) / 1200, began := s.cycle } }
      s1.publishIfDone)

/-- Whether a path can relock: neither of its dies is fenced, a fabric path finds a domain secret, and neither end is dark (R419,
R447, R454). -/
def State.canRelock (s : State) (path : Nat) : Bool :=
  let new (e : Nat) : Word := s.proposed s.sluice.scopeAll e
  let source := if path < 64 then path / 4 else path - 64
  let sink := if path < 64 then peerOf new (path / 4) (path % 4) else ringNext new (path - 64)
  let fenced (d : Nat) : Bool := s.mgmt.fenced.contains d
  let dark (e m j : Nat) : Bool := s.mgmt.dark.contains (16 * e + 4 * m + j / 2)
  match sink with
  | none => false
  | some e =>
    -- what lies on another module is not this controller's: its own sluice says when the path has relocked (log 2)
    !fenced source && (16 ≤ e || !fenced e) && (if 64 ≤ path then 16 ≤ e || !s.mgmt.dark.contains (256 + e)
      else s.mgmt.secret.isSome &&
        ((List.range 8).filter fun j => dark source (path % 4) j || (e < 16 && dark e (farLink (path % 4)) j)).length ≤ 4)

/-- PATH_RELOCK_COMPLETE (R418). Input: the path. -/
def execPathRelockComplete (s : State) :=
  let p := s.inp.getD 0 0
  let x := s.sluice
  answer (match x.paths.find? fun e => e.1 = p with
    | none => s
    | some e =>
      if x.step ≠ 5 || 2 ≤ e.2 || !s.canRelock p then s
      else
        { s with sluice := { x with paths := x.paths.filter fun e => e.1 ≠ p, relocked := x.relocked + 1 } }.publishIfDone)

/-- PATH_RELOCK_TIMEOUT: a path has not relocked within 40 µs; it is tried once more, and then published down (R418). Input: the
path. -/
def execPathRelockTimeout (s : State) :=
  let p := s.inp.getD 0 0
  let x := s.sluice
  answer (match x.paths.find? fun e => e.1 = p with
    | none => s
    | some e =>
      if x.step ≠ 5 || 2 ≤ e.2 || s.cycle < x.began + microseconds 40 * (e.2 + 1) then s
      else
        let ps : List (Nat × Nat) := x.paths.map fun e => if e.1 = p then (p, e.2 + 1) else e
        { s with sluice := { x with paths := ps, failed := x.failed || e.2 = 1 } }.publishIfDone)

/-! ## Registers (R413) -/

/-- The bits of a map that are fields; the RSVD bits of SLNEXT keep what was written, for check 1 of R414, and read as zero
(R6, R413, R414). -/
def gmapFields : Word := 0xFFFFFFFEFFFF0000

/-- Read the aligned word of the sluice register block at an offset; none where no register lies. -/
def State.readSluice (s : State) (off : Nat) : Option Nat :=
  let x := s.sluice
  -- BUSY reads 1 during a spillway patch too
  if off = 0 then some (setBits (setBits x.ctl 63 63 0) 62 62 (if s.patching then 1 else bitsOf x.ctl 62 62)).toNat
  else if off = 8 then some x.time.toNat
  else if off = 0x10 then some x.scope.toNat
  else if off = 0x18 then some x.stat.toNat
  else if 0x100 ≤ off && off < 0x180 then some (x.next.get (Fin.ofNat 16 ((off - 0x100) / 8)) &&& gmapFields).toNat
  else if 0x180 ≤ off && off < 0x200 then some (s.die ((off - 0x180) / 8)).gmap.toNat
  else if 0x200 ≤ off && off < 0x400 then some ((look ((off - 0x200) / 8) x.ext).getD 0).toNat
  else none

/-- Write the aligned word of the sluice register block at an offset. -/
def State.writeSluice (s : State) (off : Nat) (v cover : Word) : State :=
  let x := s.sluice
  let f (cur rw : Word) : Word := fieldWrite cur v cover rw 0
  let ones : Word := BitVec.allOnes 64
  let busy := bitsOf x.ctl 62 62 = 1 || s.patching
  if off = 0 then (if bitsOf (v &&& cover) 63 63 = 1 then s.sluiceGo [] (bitsOf x.ctl 15 0) else s)
  else if off = 8 then { s with sluice := { x with time := f x.time 0xFFFFFF } }
  else if busy then s
  else if off = 0x10 then { s with sluice := { x with scope := f x.scope ones } }
  else if 0x100 ≤ off && off < 0x180 then
    let i : Fin 16 := Fin.ofNat 16 ((off - 0x100) / 8)
    { s with sluice := { x with next := x.next.set i.val (f (x.next.get i) ones) i.isLt } }
  else s

end Sys2Proof.Machine
end

