-- ==== Sys2Proof/Machine/Host.lean ====
section
/-! DEFINITION. The host engine: the PCI Express function with its header, BARs and MSI-X vectors, user queues and their
packets, and the accesses of dies to host memory (R424-R445). -/

namespace Sys2Proof.Machine

/-! ## The configuration header (R425, R426; log 7) -/

/-- The bits of a dword of the configuration header that software writes. -/
def configBits (off : Nat) : Nat :=
  if off = 0x04 then 0x546
  else if off = 0x10 then 0xE0000000
  else if off = 0x14 then 0xFFFFFFFF
  else if off = 0x18 then 0xFFF00000
  else if off = 0x1C then 0xFFFFFFFF
  else if off = 0x24 then 0xFFFFFFFC
  else if off = 0x3C then 0xFF
  else if off = 0x40 then 0xC0000000
  else 0

/-- The bits of a dword of the configuration header that are fixed. -/
def configFixed (off : Nat) : Nat :=
  if off = 0x00 then 0x4C161E57
  else if off = 0x04 then 0x00100000
  else if off = 0x08 then 0x12000000 + Config.deviceFact 0 % 256
  else if off = 0x10 || off = 0x18 then 0x4
  else if off = 0x20 then 0xC
  else if off = 0x2C then 0x00011E57
  else if off = 0x34 then 0x40
  else if off = 0x40 then 0x00FF0011
  else if off = 0x44 then 0x10020000
  else if off = 0x48 then 0x10021000
  else 0

/-- A dword of the header. -/
def HostEngine.readConfig (h : HostEngine) (off : Nat) : Nat := configFixed off + ((look off h.config).getD 0).toNat

/-- A completion goes to the host. -/
def State.complete (s : State) (status data : Nat) : State :=
  { s with host := { s.host with completions := s.host.completions ++ [(status, data)] } }

/-- Messages of pending vectors that nothing masks any more are sent (R431). -/
def State.flushMsi (s : State) : State :=
  let h := s.host
  let go := h.msixPending.filter fun v => !h.masked v
  { s with host := { h with
    msixPending := h.msixPending.filter fun v => h.masked v, messages := if h.linkUp then h.messages ++ go else h.messages } }

/-- CONFIG_REQUEST: a read or a write of a dword of the header (R425). Inputs: the offset, 1 for a write, the value. -/
def execConfigRequest (s : State) :=
  let off := s.inp.getD 0 0 / 4 * 4 % 4096
  let h := s.host
  answer (if !h.linkUp then s
    else if s.inp.getD 1 0 = 1 then
      let v := BitVec.ofNat 32 (s.inp.getD 2 0 &&& configBits off)
      ({ s with host := { h with config := if v = 0 then unput off h.config else put off v h.config } }.flushMsi).complete 0 0
    else s.complete 0 (h.readConfig off))

/-! ## Registers (R430-R433, R446) -/

/-- A user queue. -/
def State.uq (s : State) (u : Nat) : UserQueue := (look u s.host.uqs).getD default
def State.setUq (s : State) (u : Nat) (q : UserQueue) : State := { s with host := { s.host with uqs := put u q s.host.uqs } }

/-- UQCTL fields and the slots of a queue (R432). -/
def UserQueue.enabled (q : UserQueue) : Bool := bitsOf q.ctl 63 63 = 1
def UserQueue.halted (q : UserQueue) : Bool := bitsOf q.ctl 62 62 = 1
def UserQueue.slots (q : UserQueue) : Nat := 2 ^ (bitsOf q.ctl 59 56 + 4)
def UserQueue.context (q : UserQueue) : Nat := bitsOf q.ctl 53 48
def UserQueue.die (q : UserQueue) : Nat := bitsOf q.ctl 35 32
def UserQueue.hwq (q : UserQueue) : Nat := bitsOf q.ctl 28 24

/-- The address, in the fabric's host memory, of the slot at the read index (R432, R434). -/
def UserQueue.slot (q : UserQueue) : Nat :=
  8 * 2 ^ 48 + bitsOf q.base 47 12 * 4096 / (64 * q.slots) * (64 * q.slots) + 64 * (q.rptr % q.slots)

/-- Read a host engine register; none where no register lies (R430-R432). -/
def State.readHost (s : State) (off : Nat) : Option Nat :=
  let h := s.host
  if off = 0 then some h.hectl.toNat
  else if off = 8 then some h.hestat.toNat
  else if off = 0x10 then some h.launches.length
  else if 0x800 ≤ off && off < 0xA00 then some ((look ((off - 0x800) / 8) h.introute).getD 0).toNat
  else if 0x1000 ≤ off && off < 0x3000 then
    let q := s.uq ((off - 0x1000) / 32)
    let r := off / 8 % 4
    some (if r = 0 then q.base.toNat else if r = 1 then q.ctl.toNat else if r = 2 then q.rptr % 2 ^ 32 else q.err.toNat)
  else none

/-- Write UQCTL: fields other than ENABLE and HALTED only while ENABLE is 0; setting ENABLE, or clearing HALTED, notifies the
queue (R432, R437). -/
def State.writeUqctl (s : State) (u : Nat) (v cover : Word) : State :=
  let q := s.uq u
  let n := fieldWrite q.ctl v cover 0x8F3F000F1F000000 0x4000000000000000
  let kept := if q.enabled then (q.ctl &&& 0x0F3F000F1F000000) ||| (n &&& 0xC000000000000000) else n
  let sized := setBits kept 59 56 (min 12 (bitsOf kept 59 56))
  let on := bitsOf sized 63 63 = 1
  let rings := (on && !q.enabled) || (q.halted && bitsOf sized 62 62 = 0)
  s.setUq u { q with ctl := sized, notify := q.notify || rings, busy := q.busy && (on || q.packet.isSome) }

/-- Write a host engine register (R430-R432). -/
def State.writeHost (s : State) (off : Nat) (v cover : Word) : State :=
  let h := s.host
  let f (cur rw w1c : Word) : Word := fieldWrite cur v cover rw w1c
  if off = 0 then { s with host := { h with hectl := f h.hectl 3 0 } }
  else if off = 8 then { s with host := { h with hestat := f h.hestat 0 (BitVec.allOnes 64) } }
  else if 0x800 ≤ off && off < 0xA00 then
    let k := (off - 0x800) / 8
    if k % 4 = 3 && 4 ≤ k then s
    else { s with host := { h with introute := put k (f ((look k h.introute).getD 0) 0x80000000000000FF 0) h.introute } }
  else if 0x1000 ≤ off && off < 0x3000 then
    let u := (off - 0x1000) / 32
    let q := s.uq u
    let r := off / 8 % 4
    if r = 1 then s.writeUqctl u v cover
    else if q.enabled then s
    else if r = 0 then s.setUq u { q with base := f q.base 0x0000FFFFFFFFF000 0 }
    else if r = 2 then s.setUq u { q with rptr := (f (BitVec.ofNat 64 q.rptr) 0xFFFFFFFF 0).toNat }
    else s
  else s

/-- The MSI-X table: an address and then the data with the mask bit, 16 bytes a vector (R427, R431; log 7). -/
def HostEngine.readMsix (h : HostEngine) (off : Nat) : Nat :=
  let v := off / 16
  let w := ((look (off / 8) h.msix).getD 0).toNat
  if off / 8 % 2 = 0 then w else w % 2 ^ 32 + (if h.msixMasked.contains v then 2 ^ 32 else 0)
def State.writeMsix (s : State) (off : Nat) (v cover : Word) : State :=
  let h := s.host
  let k := off / 8
  let old : Word := BitVec.ofNat 64 (h.readMsix off)
  let n := fieldWrite old v cover (if k % 2 = 0 then 0xFFFFFFFFFFFFFFFC else 0x1FFFFFFFF) 0
  let stored := if k % 2 = 0 then n else setBits n 63 32 0
  let rest := h.msixMasked.filter (· ≠ off / 16)
  let masks := if k % 2 = 0 then h.msixMasked else if bitsOf n 32 32 = 1 then rest ++ [off / 16] else rest
  { s with host := { h with msix := put k stored h.msix, msixMasked := masks } }.flushMsi

/-- The MSI-X pending bits. -/
def HostEngine.pendingWord (h : HostEngine) (i : Nat) : Nat :=
  h.msixPending.foldl (fun acc v => if v / 64 = i then acc + 2 ^ (v % 64) else acc) 0

/-- The management controller's mailbox as it reads (R446). -/
def Mgmt.read (m : Mgmt) (off : Nat) : Option Nat :=
  if off = 0 then some m.cmd.toNat
  else if off = 8 then some m.stat.toNat
  else if off = 0x10 then some (m.tag % 2 ^ 32)
  else if 0x100 ≤ off && off < 0x8000 then some (Memory.readN m.req (off - 0x100) 8)
  else if 0x8000 ≤ off && off < 0x10000 then some (Memory.readN m.resp (off - 0x8000) 8)
  else none

/-- Write the mailbox: MBCMD starts a command unless one runs, and MBREQ takes the request's bytes (R446). -/
def State.writeMailbox (s : State) (off : Nat) (v cover : Word) : State :=
  let m := s.mgmt
  if off = 0 then
    if bitsOf m.stat 63 63 = 1 then s
    else
      let c := (v &&& cover) ||| (m.cmd &&& ~~~cover)
      let code := bitsOf c 63 56
      -- a code of no command is answered at once: status 1
      if code = 0 || 0x0C < code then
        { s with mgmt := { m with cmd := c, resp := [], tag := bitsOf c 31 0, stat := BitVec.ofNat 64 (2 ^ 48) } }.raise 0 3
      else { s with mgmt := { m with cmd := c, stat := setBits m.stat 63 63 1 } }
  else if 0x100 ≤ off && off < 0x8000 then
    let old : Word := BitVec.ofNat 64 (Memory.readN m.req (off - 0x100) 8)
    { s with mgmt := { m with req := Memory.writeN (off - 0x100) ((v &&& cover) ||| (old &&& ~~~cover)).toNat 8 m.req } }
  else s

/-! ## BARs (R427-R429, R433, R460) -/

/-- Count an inbound request to a reserved offset (R428). -/
def State.unrequested (s : State) : State := { s with host := { s.host with hestat := satAdd s.host.hestat 63 48 1 } }

/-- The aligned word of BAR 0 at an offset; none where the offset is reserved (R427). -/
def State.readBar0 (s : State) (off : Nat) : Option Nat :=
  if off < 0x10000000 then some (s.dieReg (off / 0x1000000) (off % 0x1000000))
  else if off < 0x10010000 then s.readHost (off - 0x10000000)
  else if off < 0x10011000 then s.readSluice (off - 0x10010000)
  else if off < 0x10020000 then none
  else if off < 0x10021000 then some (s.host.readMsix (off - 0x10020000))
  else if off < 0x10021020 then some (s.host.pendingWord ((off - 0x10021000) / 8))
  else if off < 0x10030000 then none
  else if off < 0x10040000 then s.mgmt.read (off - 0x10030000)
  else none

/-- Write the aligned word of BAR 0 at an offset (R427, R460). -/
def State.writeBar0 (s : State) (off : Nat) (v cover : Word) : State :=
  if off < 0x10000000 then s.writeDieReg (off / 0x1000000) (off % 0x1000000) v cover (some hostOwner)
  else if (s.readBar0 off).isNone then s.unrequested
  else if off < 0x10010000 then s.writeHost (off - 0x10000000) v cover
  else if off < 0x10020000 then s.writeSluice (off - 0x10010000) v cover
  else if off < 0x10021000 then s.writeMsix (off - 0x10020000) v cover
  else if 0x10030000 ≤ off then s.writeMailbox (off - 0x10030000) v cover
  else s

/-- The aligned word of a notify page (R433). -/
def State.readBar2 (s : State) (off : Nat) : Option Nat :=
  let q := s.uq (off / 4096 % 256)
  if off % 4096 = 0 then some 0
  else if off % 4096 = 8 then some (q.rptr % 2 ^ 32)
  else if off % 4096 = 0x10 then some (bitsOf q.ctl 63 62 * 2 ^ 62 + bitsOf q.err 63 56)
  else none

/-- Set a queue's notify flag (R437). -/
def State.notifyQueue (s : State) (u : Nat) : State := s.setUq u { s.uq u with notify := true }

/-- The fabric physical address that a byte of BAR 4 reaches; none where it is reserved (R429). -/
def bar4Address (off : Nat) : Option Nat :=
  let w := off % 2 ^ 30
  let d := off / 2 ^ 30 % 16
  if w < 0x1BC00000 then some (dieAddr d (0x400000000 + w))
  else if 0x20000000 ≤ w && w < 0x20400000 then some (dieAddr d (0x600000000 + (w - 0x20000000)))
  else none

/-- Whether an access to BAR 0 or BAR 2 is at most 8 bytes wide and naturally aligned (R428). -/
def barAligned (off len : Nat) : Bool := (len = 1 || len = 2 || len = 4 || len = 8) && off % len = 0

/-- Whether a write of the host that clears a translation is still being performed: the host's later requests wait (R393,
R445). -/
def State.hostWaits (s : State) : Bool := (List.range 16).any fun d => s.clearingOf d hostOwner

/-- INBOUND_BAR_READ: one access for each aligned 8-byte unit; it follows the host's writes, one that clears a
translation among them (R393, R427-R429, R433, R445). Inputs: the BAR, the offset, the bytes. -/
def execInboundBarRead (s : State) :=
  let bar := s.inp.getD 0 0
  let off := s.inp.getD 1 0
  let len := min 4096 (s.inp.getD 2 0)
  let word (r : Option Nat) : State := match r with
    | some w => s.complete 0 (w / 256 ^ (off % 8) % 256 ^ len)
    | none => s.unrequested.complete 0 0
  answer (if !s.host.linkUp || s.hostWaits then s
    else if bar = 4 then
      let bytes := (List.range len).map fun i => bar4Address (off + i)
      let v := bytes.foldr (fun a acc => (match a with
        | some a => (s.byteAt a).toNat
        | none => 0) + 256 * acc) 0
      let bad := bytes.any fun a => match a with
        | some a => s.poison.contains (a / 8)
        | none => false
      (if bytes.any Option.isNone then s.unrequested else s).complete (if bad then 2 else 0) v
    else if !barAligned off len then s.complete 4 0
    else if bar = 2 then word (s.readBar2 (off / 8 * 8))
    else word (s.readBar0 (off / 8 * 8)))

/-- INBOUND_BAR_WRITE: the host's writes are performed in the order in which they come, so one that clears a translation holds
back the next (R393, R427-R429, R433, R437, R445). Inputs: the BAR, the offset, 1 for EP, and the bytes. -/
def execInboundBarWrite (s : State) :=
  let bar := s.inp.getD 0 0
  let off := s.inp.getD 1 0
  let ep := s.inp.getD 2 0 = 1
  let bytes := (s.inp.drop 3).take 512
  let len := bytes.length
  let v : Word := BitVec.ofNat 64 ((bytes.foldr (fun b acc => b % 256 + 256 * acc) 0) * 256 ^ (off % 8))
  let cover := coverOf (fullMask len * 2 ^ (off % 8))
  answer (if !s.host.linkUp || s.hostWaits then s
    else if bar = 4 then
      let s1 := bytes.zipIdx.foldl (fun (s : State) b => match bar4Address (off + b.2) with
        | some a =>
          let s1 := s.writeN a (b.1 % 256) 1
          if ep then { s1 with poison := addPoison a 1 s1.poison } else s1
        | none => s) s
      -- a whole unit of good data replaces its poison (R55)
      let whole := if ep then s1.poison else s1.poison.filter fun w => !((List.range 8).all fun i =>
        (List.range len).any fun j => bar4Address (off + j) = some (8 * w + i))
      let s2 := { s1 with poison := whole }
      if (List.range len).any fun i => (bar4Address (off + i)).isNone then s2.unrequested else s2
    else if !barAligned off len then s.complete 4 0
    else if bar = 2 then
      if off % 4096 / 8 = 0 then s.notifyQueue (off / 4096 % 256)
      else if (s.readBar2 (off / 8 * 8)).isSome then s else s.unrequested
    else s.writeBar0 (off / 8 * 8) v cover)

/-- INBOUND_ATOMICOP: Unsupported Request (R428). Inputs: the BAR, the offset. -/
def execInboundAtomicop (s : State) := answer (if s.host.linkUp then s.complete 1 0 else s)

/-- REGISTER_WRITE: a write of a whole aligned word of a register (R460), behind the host's earlier writes (R445). Inputs: 0 to 15 for a die's register block, 16 for the
host engine's registers, 17 for the sluice's, 18 for the MSI-X table, 19 for the mailbox; the offset there; the value. -/
def execRegisterWrite (s : State) :=
  let space := s.inp.getD 0 0
  let off := s.inp.getD 1 0 / 8 * 8
  let base := if space < 16 then space * 0x1000000
    else if space = 16 then 0x10000000 else if space = 17 then 0x10010000 else if space = 18 then 0x10020000 else 0x10030000
  let size := if space < 16 then 0x1000000 else if space = 17 || space = 18 then 0x1000 else 0x10000
  answer (if 20 ≤ space || size ≤ off || s.hostWaits then s else s.writeBar0 (base + off) (BitVec.ofNat 64 (s.inp.getD 2 0)) (BitVec.allOnes 64))

/-- UQNOTIFY, behind the host's earlier writes (R433, R437, R445). Input: the queue. -/
def execUqnotify (s : State) := answer (if s.hostWaits then s else s.notifyQueue (s.inp.getD 0 0 % 256))

/-- UQCTL_WRITE, behind the host's earlier writes (R432, R437, R445). Inputs: the queue, the value. -/
def execUqctlWrite (s : State) :=
  answer (if s.hostWaits then s else s.writeUqctl (s.inp.getD 0 0 % 256) (BitVec.ofNat 64 (s.inp.getD 1 0)) (BitVec.allOnes 64))

/-! ## Packets (R434-R439, R444) -/

/-- Whether a queue is ready for a fetch: served, or notified, with no packet waiting (R437). -/
def UserQueue.ready (q : UserQueue) : Bool := q.enabled && !q.halted && q.packet.isNone && (q.notify || q.busy)

/-- The queue whose turn it is: the next ready one after the queue served last (R439). -/
def State.nextQueue (s : State) : Option Nat :=
  ((List.range 256).map fun i => (s.host.served + 1 + i) % 256).find? fun u => (s.uq u).ready

/-- PACKET_FETCH: word 0 of the next slot is read, and the rest of a valid packet; a failed read halts the queue (R437, R439,
R444). Inputs: the queue; 1 when the read fails. -/
def execPacketFetch (s : State) :=
  let u := s.inp.getD 0 0 % 256
  let q := s.uq u
  let h := s.host
  let a := q.slot
  answer (if !h.linkUp || bitsOf h.hectl 0 0 = 0 || s.nextQueue ≠ some u then s
    else
      let q1 : UserQueue := { q with notify := if q.busy then q.notify else false, busy := true }
      let s1 := { s with host := { h with served := u } }
      if s.inp.getD 1 0 = 1 || (s.poisonIn a 64).isSome then
        let s2 := { s1 with host := { s1.host with hestat := satAdd s1.host.hestat 15 0 1 } }
        s2.setUq u { q1 with
          busy := false, ctl := setBits q1.ctl 62 62 1, err := BitVec.ofNat 64 (0xFF * 2 ^ 56 + q1.rptr % 2 ^ 32) }
      else if s.readN a 8 % 2 = 0 then s1.setUq u { q1 with busy := false }
      else s1.setUq u { q1 with packet := some (wordsAt (s.readN a 64) 8) })

/-- End a packet: the read index moves on, word 0 goes back with the status, and a status other than 0 is recorded (R437); over
a link that is down the write-back is lost (R444). -/
def State.endPacket (s : State) (u status : Nat) : State :=
  let q := s.uq u
  let w0 := (q.packet.getD []).getD 0 0
  let back := setBits (setBits w0 63 56 status) 0 0 0
  let q1 : UserQueue := { q with
    packet := none, sent := none, rptr := (q.rptr + 1) % 2 ^ 32, busy := q.enabled
    err := if status = 0 then q.err else BitVec.ofNat 64 (status * 2 ^ 56 + q.rptr % 2 ^ 32) }
  let s1 := s.setUq u q1
  if s.host.linkUp then s1.writeN q.slot back.toNat 8
  else
    { s1 with host := { s1.host with hestat := satAdd s1.host.hestat 31 16 1 } }.errorEvent q.die 3 7 0 q.slot 0

/-- Whether a packet breaks a rule of R435 or R436. -/
def badPacket (ws : List Word) : Bool :=
  let w (i : Nat) : Word := ws.getD i 0
  let kind := bitsOf (w 0) 7 4
  let zero (i : Nat) : Bool := w i ≠ 0
  let irq := bitsOf (w 2) 62 56 ≠ 0 || bitsOf (w 2) 47 0 ≠ 0
  bitsOf (w 0) 55 8 ≠ 0 || bitsOf (w 0) 3 1 ≠ 0 || kind = 0 || 4 ≤ kind
    || (if kind = 2 then bitsOf (w 1) 63 32 ≠ 0 || zero 2 else bitsOf (w 1) 63 52 ≠ 0 || irq)
    || zero 3 || zero 4 || zero 5 || zero 6 || zero 7

/-- The interrupt a packet asks for. -/
def packetIrq (ws : List Word) : Option Nat :=
  let w := ws.getD 2 0
  if bitsOf w 63 63 = 1 then some (bitsOf w 55 48) else none

/-- The packet of a queue, if it is of a kind; one of a reserved kind counts as a launch packet. -/
def State.packetOfKind (s : State) (u kind : Nat) : Option (List Word) :=
  match (s.uq u).packet with
  | none => none
  | some ws =>
    let k := bitsOf (ws.getD 0 0) 7 4
    if (if k = 2 || k = 3 then k else 1) = kind then some ws else none

/-- LAUNCH_PACKET: the record goes to the tail of the hardware queue and into the outstanding-launch table, once both have room
(R438). Input: the queue. -/
def execLaunchPacket (s : State) :=
  let u := s.inp.getD 0 0 % 256
  let q := s.uq u
  answer (match s.packetOfKind u 1 with
    | none => s
    | some ws =>
      let a := bitsOf (ws.getD 1 0) 51 0
      let hw := (s.te q.die).queue q.hwq
      if badPacket ws then s.endPacket u 1
      else if a % 256 ≠ 0 || !inBerm q.die a 256 then s.endPacket u 2
      else if bitsOf hw.cfg 63 63 = 0 then s.endPacket u 3
      else match (List.range 4096).find? fun e => (look e s.host.launches).isNone with
        | none => s
        | some e =>
          if 64 ≤ hw.pending.length then s
          else
            let (_, s1) := s.enqueue q.die q.hwq a (some e)
            let x : HostLaunch := { user := u, irq := packetIrq ws, retired := false, after := none }
            { s1 with host := { s1.host with launches := put e x s1.host.launches } }.endPacket u 0)

/-- CANCEL_PACKET: the job is cancelled on every die of the module (R330, R438). Input: the queue. -/
def execCancelPacket (s : State) :=
  let u := s.inp.getD 0 0 % 256
  let q := s.uq u
  answer (match s.packetOfKind u 2 with
    | none => s
    | some ws =>
      if badPacket ws then s.endPacket u 1
      else
        let job := bitsOf (ws.getD 1 0) 31 0
        let (full, s1) := (List.range 16).foldl (fun (acc : Bool × State) d =>
          if !(acc.2.die d).live then acc
          else
            let (f, s1) := acc.2.cancelPoint d q.context job
            (acc.1 || f, s1)) (false, s)
        s1.endPacket u (if full then 4 else 0))

/-- BARRIER_PACKET: once every launch of the queue's earlier packets has retired, the signal is decremented and the interrupt
sent, for a signal at another module after the reply of its home (R438, R440, R441). Input: the queue. -/
def execBarrierPacket (s : State) :=
  let u := s.inp.getD 0 0 % 256
  let q := s.uq u
  answer (match s.packetOfKind u 3 with
    | none => s
    | some ws =>
      let a := bitsOf (ws.getD 1 0) 51 0
      if badPacket ws then s.endPacket u 1
      else if a ≠ 0 && (a % 16 ≠ 0 || reservedAddr a) then s.endPacket u 2
      else if s.host.launches.any fun e => e.2.user = u && !e.2.retired then s
      else
        let die := if paModule a = 0 then paDie a else q.die
        match packetIrq ws, q.sent with
        | none, _ => (s.decrement die a).endPacket u 0
        | some v, none =>
          let s1 := s.decrement die a
          match s.signalSent die a with
          | some id => s1.setUq u { q with sent := some id }
          | none => (if s.signalLost die a then s1 else s1.sendMsi v).endPacket u 0
        | some v, some id => if (look id s.reqs).isSome then s else (s.sendMsi v).endPacket u 0)

/-- LAUNCH_INTERRUPT: the vector of a launch that has retired is sent, after the reply to a decrement at another module, and its
table entry frees (R441). Input: the entry. -/
def execLaunchInterrupt (s : State) :=
  let e := s.inp.getD 0 0
  answer (match look e s.host.launches with
    | none => s
    | some x =>
      if !x.retired || (x.after.any fun id => (look id s.reqs).isSome) then s
      else
        let s1 := { s with host := { s.host with launches := unput e s.host.launches } }
        match x.irq with
        | some v => s1.sendMsi v
        | none => s1)

/-! ## Accesses of dies to host memory (R442-R444, R453) -/

/-- The plain bytes of a 128-byte sector of host memory for a key, by its fabric address (R46, R442). -/
def State.openSector (s : State) (key : Option Nat) (idx : Nat) : Nat :=
  let raw := s.readN (128 * idx) 128
  match key with
  | none => raw
  | some k => ((Config.xts k (128 * idx % 2 ^ 48)).symm (BitVec.ofNat 1024 raw)).toNat

/-- Write bytes of one sector of host memory for a key, with poison marks: in clear, or as a read, a merge and a write of the
whole sector (R442). -/
def State.hostWrite (s : State) (key : Option Nat) (a n data mask poison : Nat) : State :=
  match key with
  | none => (s.writeMasked a data mask n).markWords a n mask poison
  | some k =>
    let idx := a / 128
    let sh := a % 128
    let whole := mask % 2 ^ n * 2 ^ sh
    let plain := mergeBytes (s.openSector key idx) (data * 2 ^ (8 * sh)) whole 128
    let stays := (List.range 16).filter fun i => s.poison.contains (16 * idx + i) && whole / 2 ^ (8 * i) % 256 ≠ 255
    let s1 := s.writeN (128 * idx) ((Config.xts k (128 * idx % 2 ^ 48)) (BitVec.ofNat 1024 plain)).toNat 128
    { s1 with poison := stays.foldl (fun ps i => addPoison (8 * (16 * idx + i)) 8 ps) s1.poison }.markWords a n mask poison

/-- A request that a die has made of this module's host memory, still without its reply. -/
def State.hostReq (s : State) (id : Nat) : Option Req :=
  match look id s.reqs with
  | none => none
  | some r =>
    if r.tag.isSome && r.reply.isNone && s.place r.die r.addr = Place.host && !s.host.lost.contains id then some r else none

/-- The die that a request for host memory comes from, with its module: a proxied one's is the source of its packet (R391). -/
def Req.source (r : Req) : Nat × Nat :=
  match r.purpose with
  | .proxied p => (p.srcMod, p.srcDie)
  | _ => (0, r.die)

/-- Whether an earlier request of the same die, by the order in which they left, must reach the host engine, or be performed in
host memory, before this one: one that has not been taken up, or one to the same sector (R49, R383, R391). -/
def State.hostBehind (s : State) (r : Req) : Bool :=
  s.reqs.any fun e => e.2.order < r.order && e.2.source = r.source && (s.hostReq e.1).isSome && !s.expired e.2
    && (!e.2.mark || e.2.addr / 128 = r.addr / 128)

/-- The requests on the host link that a completion is due for, at most 1,024 (R424). -/
def State.hostTags (s : State) : Nat := (s.reqs.filter fun e => e.2.mark && (s.hostReq e.1).isSome).length + s.host.late.length

/-- DEVICE_HOST_ACCESS: a write is made and acknowledged; a read or an AtomicOp goes on the link and waits for its completion; a
context that is not bound gets an address error, and on a link that is down the request is lost. The requests of a die are taken
up in the order in which they left it (R383, R391, R442-R444, R453). Input: the request. -/
def execDeviceHostAccess (s : State) :=
  let id := s.inp.getD 0 0
  answer (match s.hostReq id with
    | none => s
    | some r =>
      if r.mark || s.expired r || s.hostBehind r then s
      else if !s.host.linkUp then { s with host := { s.host with lost := s.host.lost ++ [id] } }
      else match s.mgmt.binding r.context with
        | none => s.deliver id ⟨4, 0, 0⟩
        | some key =>
          if r.kind = 1 then
            let mask := if 128 ≤ r.op then r.mask else fullMask r.len
            (s.hostWrite key r.addr r.len r.data mask r.poison).deliver id ⟨0, 0, 0⟩
          else if 1024 ≤ s.hostTags then s
          else { s with reqs := put id { r with mark := true } s.reqs })

/-- What a completion brings: the data of a read, or the old value of an AtomicOp, which is performed unless its read half meets
poison (R261, R442, R443). -/
def State.hostPerform (s : State) (r : Req) : Reply × State :=
  if r.kind = 2 then
    let n := syncSize r.op
    let old := s.readN r.addr n
    let v1 := r.data % 2 ^ 64
    let v2 := r.data / 2 ^ 64
    let new := if r.op % 16 = 9 then (if old = v1 % 2 ^ (8 * n) then v2 else old) else syncOp (r.op % 16) (8 * n) old v1
    if (s.poisonIn r.addr n).isSome then (⟨5, r.addr, 0⟩, s) else (⟨0, old, 0⟩, s.writeN r.addr new n)
  else
    let key := (s.mgmt.binding r.context).getD none
    let v := s.openSector key (r.addr / 128) / 2 ^ (8 * (r.addr % 128)) % 2 ^ (8 * r.len)
    (⟨0, v, s.poisonBits r.addr r.len⟩, s)

/-- The reply of a completion sent with EP: poisoned data, and for an AtomicOp a read half that met an error (R261, R442). -/
def Req.poisoned (r : Req) (rep : Reply) : Reply :=
  if r.kind = 2 then ⟨5, r.addr, 0⟩ else { rep with poison := 65535 }

/-- Count a completion that came after its requester's timeout (R444). -/
def State.lateCompletion (s : State) : State := { s with host := { s.host with hestat := satAdd s.host.hestat 47 32 1 } }

/-- HOST_COMPLETION: a completion of a request on the link reaches its requester, or is dropped and counted in or after the cycle
of the requester's timeout (R152, R444). Inputs: the request; its fate: 0 success, 1 Unsupported Request or Completer Abort, 2
EP. -/
def execHostCompletion (s : State) :=
  let id := s.inp.getD 0 0
  let fate := s.inp.getD 1 0
  let performed (r : Req) : State := if fate = 1 then s else (s.hostPerform r).2
  answer (if !s.host.linkUp then s
    else match look id s.host.late with
    | some r =>
      let s1 := performed r
      { s1 with host := { s1.host with late := unput id s1.host.late } }.lateCompletion
    | none =>
      match s.hostReq id with
      | none => s
      | some r =>
        if !r.mark || s.hostBehind r then s
        else if s.expired r then
          let s1 := performed r
          { s1 with host := { s1.host with lost := s1.host.lost ++ [id] } }.lateCompletion
        else if fate = 1 then s.deliver id ⟨4, 0, 0⟩
        else
          let (rep, s1) := s.hostPerform r
          let rep1 := if fate = 2 then r.poisoned rep else rep
          -- an AtomicOp whose read half met poison has written nothing, and the machine-check record says so (R261)
          (if rep1.status = 5 then s.errorEvent r.die 1 3 0 r.addr 5 else s1).deliver id rep1)

/-- PCIE_COMPLETION_TIMEOUT: status 2 at the requester (R444). Input: the request. -/
def execPcieCompletionTimeout (s : State) :=
  let id := s.inp.getD 0 0
  answer (match s.hostReq id with
    | none => s
    | some r => if r.mark && !s.expired r then s.deliver id ⟨2, 0, 0⟩ else s)

/-- Requests of dies to host memory that have no reply: they end at their requesters' timeouts (R439, R444). -/
def State.loseHost (s : State) : State :=
  let ids := (s.reqs.filter fun e => (s.hostReq e.1).isSome).map (·.1)
  { s with host := { s.host with
    lost := s.host.lost.filter (fun i => (s.replyOf i).isNone && (look i s.reqs).isSome) ++ ids, late := [] } }

/-- HOST_LINK_DOWN (R444). -/
def execHostLinkDown (s : State) :=
  let s1 := s.loseHost
  answer (if s.host.linkUp then { s1 with host := { s1.host with linkUp := false } } else s)

/-- HOST_LINK_UP: the link trains again (R444, R447), once the module start has reached it, or in recovery (R450). -/
def execHostLinkUp (s : State) :=
  answer (if s.mgmt.boot ≠ 0 && !s.mgmt.recovery then s else { s with host := { s.host with linkUp := true } })

/-- HOST_ENGINE_RESET: read indexes and the table of launches survive, a packet that has been read is read again unless its
queue fetches no more or its decrement is out, and requests in flight end at their requesters' timeouts (R61, R439, R455;
log 12). -/
def execHostEngineReset (s : State) :=
  let s1 := s.loseHost
  let again (q : UserQueue) : UserQueue := if q.enabled && q.sent.isNone then { q with packet := none } else q
  let uqs := s1.host.uqs.map fun e => (e.1, again e.2)
  answer ({ s1 with host := { s1.host with uqs := uqs } }.errorEvent 0 2 7 0 (2 ^ 64 - 1) 0)

end Sys2Proof.Machine
end

