-- ==== Sys2Proof/Machine/Mgmt.lean ====
section
/-! DEFINITION. The management controller: the commands of the mailbox and of the management port, boot and its journal, fencing
and the reset domains, power and temperature (R446-R459). The layouts of requests and responses are the model's (log 21). -/

namespace Sys2Proof.Machine

/-! ## Bytes -/

/-- The number that bytes spell, byte 0 lowest. -/
def bytesNat (bs : List Nat) : Nat := bs.foldr (fun b acc => b % 256 + 256 * acc) 0

/-- A number as `n` bytes, byte 0 lowest. -/
def natBytes (v : Nat) : Nat → List Nat
  | 0 => []
  | n + 1 => v % 256 :: natBytes (v / 256) n

/-- Bytes as one number that tells their count too: the text of a digest or of a signature (log 11). -/
def textOf (bs : List Nat) : Nat := bytesNat (bs ++ [1])

/-- The SHA3-256 of bytes (R449, R452). -/
def sha3 (bs : List Nat) : Nat := sha3Bytes (bytesNat bs) bs.length

/-- A signature with the device key, the check of an image's signature against the vendor key, and an image's security version
(R449, R451, R452; log 11). -/
def signed (text : Nat) : Nat := Config.cipher 1 (Config.deviceFact 5) text
def vendorSigned (text : Nat) : Bool := Config.cipher 2 (Config.deviceFact 4) text ≠ 0
def imageVersion (text : Nat) : Nat := Config.cipher 3 0 text % 2 ^ 32

/-- The text of an image. -/
def imageText (x : Nat × List Host.Cell) : Nat := Memory.readN x.2 0 x.1 + 256 ^ x.1

/-- Whether an image may run: signed for the vendor, and no older than the fused minimum (R449). -/
def Mgmt.imageOk (m : Mgmt) (x : Nat × List Host.Cell) : Bool :=
  vendorSigned (imageText x) && m.fused ≤ imageVersion (imageText x)

/-! ## Commands (R446, R450) -/

/-- Run a command: in recovery only IDENTITY, JOURNAL and FWSTAGE are accepted. -/
def State.runCommand (s : State) (code : Nat) (bytes : List Nat) (run : List Nat → State → Nat × List Nat × State) :
    Nat × List Nat × State :=
  if s.mgmt.recovery && !(code = 1 || code = 7 || code = 8) then (3, [], s) else run bytes s

/-- The request of the mailbox's command. -/
def Mgmt.request (m : Mgmt) : List Nat :=
  natBytes (Memory.readN m.req 0 (min 0x7F00 (bitsOf m.cmd 55 32))) (min 0x7F00 (bitsOf m.cmd 55 32))

/-- End the mailbox's command: MBRESP, then MBTAG, then MBSTAT with BUSY 0, and the interrupt. -/
def State.endCommand (s : State) (status : Nat) (resp : List Nat) : State :=
  let m := s.mgmt
  let stat := BitVec.ofNat 64 (status % 256 * 2 ^ 48 + resp.length % 2 ^ 24 * 2 ^ 24)
  { s with mgmt := { m with
    resp := Memory.writeN 0 (bytesNat resp) resp.length [], tag := bitsOf m.cmd 31 0, stat := stat } }.raise 0 3

/-- Complete a command, of the mailbox, or of the management port when the first input is 1, where `port` are its request bytes;
the port's commands queue behind the mailbox's. It waits until it is ready. -/
def State.command (s : State) (code : Nat) (port : List Nat) (mine ready : List Nat → Bool)
    (run : List Nat → State → Nat × List Nat × State) : State :=
  let m := s.mgmt
  let busy := bitsOf m.stat 63 63 = 1
  if s.inp.headD 0 = 1 then
    if busy || !mine port || !ready port then s
    else
      let (st, resp, s1) := s.runCommand code port run
      { s1 with mgmt := { s1.mgmt with port := s1.mgmt.port ++ [(st, resp)] } }
  else if !busy || bitsOf m.cmd 63 56 ≠ code || !mine m.request || !ready m.request then s
  else if 0x7F00 < bitsOf m.cmd 55 32 then s.endCommand 2 []
  else
    let (st, resp, s1) := s.runCommand code m.request run
    s1.endCommand st resp

/-- The request bytes of a management port's command: the inputs after the first. -/
def State.portBytes (s : State) : List Nat := s.inp.tail.map (· % 256)

/-- A command that is ready at once. -/
def atOnce : List Nat → Bool := fun _ => true

/-- IDENTITY: vendor, device, serial number, public key, certificate (R451). -/
def execIdentity (s : State) :=
  answer (s.command 1 s.portBytes atOnce atOnce fun bs s =>
    if !bs.isEmpty then (2, [], s)
    else (0, natBytes 0x1E57 2 ++ natBytes 0x4C16 2 ++ natBytes (Config.deviceFact 1) 8 ++ natBytes (Config.deviceFact 2) 1312
      ++ natBytes (Config.deviceFact 3) 2420, s))

/-- The journal as bytes: step, target, flags, failed starts (R448). -/
def Mgmt.journalBytes (m : Mgmt) : List Nat := m.journal.flatMap fun e =>
  natBytes e.step 1 ++ natBytes e.target 2
    ++ natBytes ((if e.begun then 1 else 0) + (if e.ended then 2 else 0) + (if e.ok then 4 else 0)) 1 ++ natBytes e.fails 4

/-- The binding table as bytes: 64 unbound or clear, 65 and 64, or the slot (R452, R453). -/
def Mgmt.bindingCode (m : Mgmt) (c : Nat) : Nat :=
  match look c m.binds with
  | none => 65
  | some 1 => 64
  | some b => b - 2
def Mgmt.bindingBytes (m : Mgmt) : List Nat := (List.range 64).map m.bindingCode

/-- The fenced dies as bits. -/
def Mgmt.fencedBits (m : Mgmt) : Nat := m.fenced.foldl (fun acc d => acc + 2 ^ d) 0

/-- ATTEST: a signed report on the state at this moment (R452). -/
def execAttest (s : State) :=
  answer (s.command 2 s.portBytes atOnce atOnce fun bs s =>
    if bs.length ≠ 32 then (2, [], s)
    else
      let m := s.mgmt
      let body := bs ++ natBytes m.meas0 32 ++ natBytes m.version 4 ++ natBytes (sha3 m.journalBytes) 32
        ++ natBytes m.fencedBits 2 ++ natBytes (sha3 m.bindingBytes) 32
      (0, body ++ natBytes (signed (textOf body)) 2420, s))

/-! ## Keys (R453, R454) -/

/-- Whether no access to host memory and none to another module is under way for a context (R453). -/
def State.contextQuiet (s : State) (which : Nat → Bool) : Bool :=
  !(s.reqs.any fun e => which e.2.context && ((e.2.mark && (s.hostReq e.1).isSome)
    || (e.2.tag.isSome && e.2.reply.isNone && paModule e.2.addr % 8 ≠ 0)))

/-- Whether a context is bound to a slot. -/
def Mgmt.boundTo (m : Mgmt) (slot c : Nat) : Bool := look c m.binds = some (slot + 2)

/-- KEYSET: a slot takes a key, once accesses begun under the old one have completed (R453). -/
def execKeyset (s : State) :=
  answer (s.command 3 s.portBytes atOnce (fun bs => s.contextQuiet (s.mgmt.boundTo (bs.headD 0))) fun bs s =>
    if bs.length ≠ 65 || 64 ≤ bs.headD 0 then (2, [], s)
    else (0, [], { s with mgmt := { s.mgmt with keys := put (bs.headD 0) (bytesNat bs.tail) s.mgmt.keys } }))

/-- KEYCLR: a slot is zeroed (R453). -/
def execKeyclr (s : State) :=
  answer (s.command 4 s.portBytes atOnce (fun bs => s.contextQuiet (s.mgmt.boundTo (bs.headD 0))) fun bs s =>
    if bs.length ≠ 1 || 64 ≤ bs.headD 0 then (2, [], s)
    else (0, [], { s with mgmt := { s.mgmt with keys := unput (bs.headD 0) s.mgmt.keys } }))

/-- CTXBIND: a context is bound to a slot, in clear, or not at all (R453). -/
def execCtxbind (s : State) :=
  answer (s.command 5 s.portBytes atOnce (fun bs => s.contextQuiet (· = bs.headD 0)) fun bs s =>
    let c := bs.headD 0
    let b := bs.getD 1 0
    if bs.length ≠ 2 || 64 ≤ c || 66 ≤ b then (2, [], s)
    else
      let binds := if b = 65 then unput c s.mgmt.binds else put c (if b = 64 then 1 else b + 2) s.mgmt.binds
      (0, [], { s with mgmt := { s.mgmt with binds := binds } }))

/-- Relock the fabric links of the map in force under a domain secret: those with light at both ends that are down, and every one
of them where the secret is new (R454). -/
def State.relockAll (s : State) (all : Bool) : State :=
  (List.range 64).foldl (fun (s : State) i =>
    let d := i / 4
    let l := i % 4
    let k := s.link d l
    match k.peer with
    | none => s
    | some p =>
      let mine := l % 2 = 0 || 16 ≤ p
      let lit := k.lit && (16 ≤ p || (s.link p (farLink l)).lit)
      if mine && lit && (all || !k.up) then s.relockLink d l true else s) s

/-- DOMKEY: the domain secret is installed, and links relock (R454). -/
def execDomkey (s : State) :=
  answer (s.command 6 s.portBytes atOnce atOnce fun bs s =>
    if bs.length ≠ 32 then (2, [], s)
    else
      let v := bytesNat bs
      (0, [], { s with mgmt := { s.mgmt with secret := some v } }.relockAll (s.mgmt.secret ≠ some v)))

/-! ## The journal and firmware (R448, R449) -/

/-- JOURNAL 0: the journal is read (R448). A request that is neither 0 nor 1 ends here. -/
def execJournalRead (s : State) :=
  answer (s.command 7 s.portBytes (fun bs => bs ≠ [1]) atOnce fun bs s => if bs = [0] then (0, s.mgmt.journalBytes, s) else (2, [], s))

/-- JOURNAL 1: the journal is cleared, but for the step in progress (R448). -/
def execJournalClear (s : State) :=
  answer (s.command 7 s.portBytes (fun bs => bs = [1]) atOnce fun _ s =>
    let m := s.mgmt
    let kept := m.journal.filter fun e => m.boot ≠ 0 && e.step = m.boot && e.target = m.target
    (0, [], { s with mgmt := { m with journal := kept.map fun (e : JournalEntry) => { e with fails := 0 } } }))

/-- FWSTAGE: a piece of an image at its offset; the piece that reaches the image's length has the image verified (R449). -/
def execFwstage (s : State) :=
  answer (s.command 8 s.portBytes atOnce atOnce fun bs s =>
    let off := bytesNat (bs.take 4)
    let total := bytesNat ((bs.drop 4).take 4)
    let piece := bs.drop 8
    let m := s.mgmt
    if bs.length ≤ 8 || 32512 < piece.length || total < off + piece.length then (2, [], s)
    else
      let cells := if off = 0 then [] else m.staged.2
      let staged : Nat × List Host.Cell := (total, Memory.writeN off (bytesNat piece) piece.length cells)
      let m1 : Mgmt := { m with staged := staged, verified := false }
      if off + piece.length < total then (0, [], { s with mgmt := m1 })
      else if m.imageOk staged then
        (0, [], { s with mgmt := { m1 with
          verified := true, journal := m.journal.map fun (e : JournalEntry) => { e with fails := 0 } } })
      else (4, [], { s with mgmt := m1 }))

/-! ## Fencing and the reset of a die (R458) -/

/-- Fence a die: it has failed. Its engines stop, its ring goes on without it, a reconfiguration in progress notes it, and as a
holder of translations it counts as having acknowledged (R366, R393, R419, R458). -/
def State.fence (s : State) (d : Nat) : State :=
  let m := s.mgmt
  if m.fenced.contains d then s
  else
    let x := s.sluice
    let s1 := { s with
      mgmt := { m with fenced := m.fenced.filter (· < d) ++ d :: m.fenced.filter (d < ·) }
      sluice := { x with fenced := x.fenced || (x.step ≠ 0 && x.dies.contains d) } }
    let s2 := match s1.downstream d with
      | some w => if w = d || (s1.die d).bypassed then s1 else s1.ringFails w false
      | none => s1
    let s3 := s2.setDie d { s2.die d with live := false }
    (List.range 16).foldl (fun (s : State) e => s.dropInvals e fun v => v.holder = d) s3

/-- The die a request names. -/
def dieOfRequest (bs : List Nat) : Nat := bs.headD 0

/-- FENCE with 0 (R458). A request that is neither fence nor unfence ends here. -/
def execFenceDie (s : State) :=
  answer (s.command 9 s.portBytes (fun bs => bs.getD 1 0 ≠ 1) atOnce fun bs s =>
    if bs.length ≠ 2 || 16 ≤ dieOfRequest bs || bs.getD 1 0 ≠ 0 then (2, [], s) else (0, [], s.fence (dieOfRequest bs)))

/-- FENCE with 1: the die may be named by a later map (R458). -/
def execUnfenceDie (s : State) :=
  answer (s.command 9 s.portBytes (fun bs => bs.getD 1 0 = 1) atOnce fun bs s =>
    if bs.length ≠ 2 || 16 ≤ dieOfRequest bs then (2, [], s)
    else (0, [], { s with mgmt := { s.mgmt with fenced := s.mgmt.fenced.filter (· ≠ dieOfRequest bs) } }))

/-- A die is as after its steps 3 and 4: registers reset, memory zero, its crews and requests gone, links to it down (R447, R458).
-/
def State.resetDie (s : State) (d : Nat) : State :=
  let mine (a : Nat) : Bool := paModule a = 0 && paDie a = d
  let cut (s : State) (e l : Nat) : State :=
    let k := s.link e l
    if k.peer = some d then s.setLink e l { Link.reset with ctl := k.ctl, err := k.err } else s
  let s1 := (List.range 16).foldl (fun (s : State) e => (List.range 4).foldl (fun (s : State) l => cut s e l) s) s
  { s1 with
    mem := s1.mem.filter fun c => !mine c.1
    poison := s1.poison.filter fun w => !mine (8 * w)
    crews := s1.crews.filter fun e => e.1 / 64 ≠ d
    strands := s1.strands.filter fun e => e.1 / 256 ≠ d
    reqs := s1.reqs.filter fun e => e.2.die ≠ d }.setDie d { Die.reset with cycle0 := s.cycle }

/-- DIERESET: a fenced die is reinitialised, and may be named by a later map; of another die, status 3 (R458). -/
def execDiereset (s : State) :=
  answer (s.command 10 s.portBytes atOnce atOnce fun bs s =>
    let d := dieOfRequest bs
    if bs.length ≠ 1 || 16 ≤ d then (2, [], s)
    else if !s.mgmt.fenced.contains d then (3, [], s)
    else (0, [], { s with mgmt := { s.mgmt with fenced := s.mgmt.fenced.filter (· ≠ d) } }.resetDie d))

/-! ## Boot (R447-R450) -/

/-- The step instances of a module start in order: steps 3 and 4 for each die, 5 for each die's sixteen fabric ports and then for
each die's ring ingress, 6 for each external port. -/
def bootList : List (Nat × Nat) :=
  [(1, 0), (2, 0)] ++ (List.range 16).map (fun d => (3, d)) ++ (List.range 16).map (fun d => (4, d))
    ++ (List.range 272).map (fun p => (5, p)) ++ (List.range 64).map (fun e => (6, e)) ++ [(7, 0), (8, 0)]

/-- The journal with an entry written. -/
def putEntry (e : JournalEntry) : List JournalEntry → List JournalEntry
  | [] => [e]
  | f :: r => if f.step = e.step && f.target = e.target then e :: r else f :: putEntry e r

/-- The journal's entry of a step instance. -/
def Mgmt.entry (m : Mgmt) (k t : Nat) : JournalEntry :=
  (m.journal.find? fun e => e.step = k && e.target = t).getD
    { step := k, target := t, begun := false, ended := false, ok := false, fails := 0 }

/-- The default map: the dies that are not fenced on a torus of one row and in ring 0, in ascending order (R448). -/
def Mgmt.defaultMap (m : Mgmt) (d : Nat) : Word :=
  let dies := (List.range 16).filter fun e => !m.fenced.contains e
  let i := (dies.filter (· < d)).length
  let n := dies.length
  if m.fenced.contains d then 0
  else
    BitVec.ofNat 64 ((if 2 ≤ n then 2 ^ 47 + i * 2 ^ 39 + (n - 1) * 2 ^ 35 else 0) + 2 ^ 33 + i * 2 ^ 24 + (n - 1) * 2 ^ 18)

/-- The work of a step that has gone well; `far` is what step 6 finds at its port: the far link, module and die (R413, R447). -/
def State.bootWork (s : State) (k far : Nat) : State :=
  if k = 6 then { s with sluice := { s.sluice with ext := put s.mgmt.target (BitVec.ofNat 64 (2 ^ 63 + far % 128)) s.sluice.ext } }
  else if k = 7 then s.publishMaps (List.range 16) s.mgmt.defaultMap (bitsOf s.sluice.ctl 15 0) true []
  else if k = 8 then { s with host := { s.host with linkUp := true } }
  else s

/-- The way taken instead of a step that fails (R447). Of steps 7 and 8 the work is done, by a host link of lowest rate. -/
def State.bootAside (s : State) (k t : Nat) : State :=
  let m := s.mgmt
  if k ≤ 2 then
    { s with mgmt := { m with recovery := true, boot := 0 }, host := { s.host with linkUp := true } }
  else if k ≤ 4 then s.fence t
  else if k = 5 then { s with mgmt := { m with dark := m.dark ++ [t] } }
  else if k = 6 then s
  else s.bootWork k 0

/-- Go on with a module start: the next step that is tried begins, steps that failed on the last start are taken the other way,
and after the last the fused minimum rises (R447-R449). -/
def State.bootFrom (s : State) : List (Nat × Nat) → State
  | [] =>
    let m := s.mgmt
    { s with mgmt := { m with boot := 0, target := 0, fused := max m.fused m.version } }
  | (k, t) :: r =>
    let m := s.mgmt
    let e := m.entry k t
    if (k = 3 || k = 4) && m.fenced.contains t then s.bootFrom r
    else if e.fails = 0 then
      { s with mgmt := { m with
        boot := k, target := t, since := s.cycle, journal := putEntry { e with begun := true, ended := false } m.journal } }
    else if k ≤ 2 then s.bootAside k t
    else (s.bootAside k t).bootFrom r

/-- The instances after one. -/
def after (x : Nat × Nat) : List (Nat × Nat) → List (Nat × Nat)
  | [] => []
  | y :: r => if y = x then r else after x r

/-- BOOT_STEP: the step in progress ends, and the start goes on (R447-R449). Inputs: 1 if it went well, and what
step 6 finds at its port; step 2 also measures and verifies the image. -/
def execBootStep (s : State) :=
  let m := s.mgmt
  let k := m.boot
  let text := imageText m.image
  let ok := s.inp.headD 0 = 1 && (k ≠ 2 || m.imageOk m.image)
  let e := m.entry k m.target
  let m1 : Mgmt := { m with
    journal := putEntry { e with ended := true, ok := ok, fails := if ok then 0 else e.fails + 1 } m.journal
    meas0 := if k = 2 then sha3Bytes (Memory.readN m.image.2 0 m.image.1) m.image.1 else m.meas0
    version := if k = 2 then imageVersion text else m.version }
  let s1 := { s with mgmt := m1 }
  answer (if k = 0 then s
    else if ok then (s1.bootWork k (s.inp.getD 1 0)).bootFrom (after (k, m.target) bootList)
    else if k ≤ 2 then s1.bootAside k m.target
    else (s1.bootAside k m.target).bootFrom (after (k, m.target) bootList))

/-- A module start: everything is as after reset but the outside world and its records, the journal, where a step begun and not
ended counts as failed, and the images; a verified staged image takes over (R448, R449, R458). -/
def State.restart (s : State) : State :=
  let m := s.mgmt
  let keep (e : JournalEntry) : JournalEntry :=
    if e.begun && !e.ended then { e with ended := true, ok := false, fails := e.fails + 1 } else e
  let z := State.reset
  { z with
    cycle := s.cycle, turns := s.turns, turnNo := s.turnNo, fresh := s.fresh, cur := s.cur, inp := s.inp
    mem := s.mem.filter fun c => 8 ≤ paModule c.1
    poison := s.poison.filter fun w => 8 ≤ paModule (8 * w)
    dies := Vector.replicate 16 { Die.reset with cycle0 := s.cycle }
    host := { z.host with messages := s.host.messages, completions := s.host.completions }
    ringOut := s.ringOut
    fabricOut := s.fabricOut
    mgmt := { z.mgmt with
      port := m.port, journal := m.journal.map keep, staged := m.staged, verified := m.verified
      image := if m.verified then m.staged else m.image, fused := m.fused } }.bootFrom bootList

/-- MODULE_RESET: PCI Express conventional reset, or power (R458). -/
def execModuleReset (s : State) := answer s.restart

/-- BOOT_WATCHDOG: a step has not ended within 2 s, and the module restarts (R448). -/
def execBootWatchdog (s : State) :=
  answer (if s.mgmt.boot ≠ 0 && s.mgmt.since + microseconds 2000000 ≤ s.cycle then s.restart else s)

/-! ## Power, temperature and errors (R455-R459) -/

/-- PWRCAP (R446, R457). -/
def execPwrcap (s : State) :=
  answer (s.command 11 s.portBytes atOnce atOnce fun bs s =>
    if bs.length ≠ 4 then (2, [], s) else (0, [], { s with mgmt := { s.mgmt with pwrcap := bytesNat bs } }))

/-- The largest number of slab-steps a die may run in a window: its cap, or the peak (R334, R456). -/
def Die.cap (d : Die) : Nat := if bitsOf d.mxcap 63 63 = 1 then bitsOf d.mxcap 11 0 else 2400

/-- Set MXCAP (R456). -/
def State.setCap (s : State) (d n : Nat) : State := s.setDie d { s.die d with mxcap := BitVec.ofNat 64 (2 ^ 63 + n % 4096) }

/-- A kind 6 record on a die (R455, R457). -/
def State.powerRecord (s : State) (d : Nat) : State := s.errorEvent d 6 0 0 (2 ^ 64 - 1) 0

/-- What a millisecond does at one die: with the module over its power cap, the die's cap is lowered by a share that is a free
choice; a hot die's is halved, and a die too hot or hot for too long is fenced; otherwise the cap rises (R457; log 3). -/
def State.tickDie (s : State) (hungry : Bool) (d tenths : Nat) : State :=
  let x := s.die d
  if !x.live then s
  else
    let cur := x.cap
    let s1 := if hungry then ({ s with fresh := s.fresh + 1 }.setCap d ((Config.freeWord s.fresh).toNat % max 1 cur)).powerRecord d else s
    let c1 := (s1.die d).cap
    let m := s1.mgmt
    let held := look d m.hot
    if 950 < tenths || (held.isSome && 900 ≤ tenths) then
      let c2 := if 300 < c1 then max 300 (c1 / 2) else c1
      let since := if tenths ≤ 950 || 300 < cur then 0 else if held.getD 0 = 0 then s.cycle + 1 else held.getD 0
      let s2 := ({ s1 with mgmt := { m with hot := put d since m.hot } }.setCap d c2).powerRecord d
      if 1100 < tenths || (since ≠ 0 && since + microseconds 1000000 ≤ s.cycle + 1) then s2.fence d else s2
    else
      let s2 := { s1 with mgmt := { m with hot := unput d m.hot } }
      if hungry || bitsOf x.mxcap 63 63 = 0 then s2 else s2.setCap d (min 2400 (cur + 300))

/-- POWER_THERMAL_TICK: the controller's millisecond (R457). Inputs: the dies' powers in W, then their hottest sensors in tenths
of a degree. -/
def execPowerThermalTick (s : State) :=
  let power := (List.range 16).foldl (fun acc i => acc + s.inp.getD i 0) 0
  let hungry : Bool := s.mgmt.pwrcap < power
  answer ((List.range 16).foldl (fun (s' : State) d => s'.tickDie hungry d (s.inp.getD (16 + d) 0)) s)

/-- The classes of arrays whose corrected errors are counted apart (R459; log 69). -/
def arrayClasses : Nat := 8

/-- Corrected errors of a class of a die's arrays so far (R55). -/
def Die.correctedOf (d : Die) (k : Nat) : Nat := ((look k d.corrected).getD default).total

/-- TELEM: for each die its power in mW, its hottest sensor, MXCAP, and the corrected errors of each array class (R459). Inputs,
after the first: power and sensor for die after die. -/
def execTelem (s : State) :=
  let xs := s.inp.tail
  answer (s.command 12 [] atOnce atOnce fun bs s =>
    if !bs.isEmpty then (2, [], s)
    else
      let one (d : Nat) : List Nat :=
        natBytes (xs.getD (2 * d) 0) 4 ++ natBytes (xs.getD (2 * d + 1) 0) 2 ++ natBytes (s.die d).mxcap.toNat 8
          ++ (List.range arrayClasses).flatMap fun k => natBytes ((s.die d).correctedOf k) 4
      (0, (List.range 16).flatMap one, s))

/-- The corrected errors of a class of arrays after `n` more at cycle `now`, and whether they pass 1,024 in 1 s; the second begins
with the first error after the last one ended, and again with a record (R455; log 69). -/
def ArrayErrors.more (e : ArrayErrors) (n now : Nat) : ArrayErrors × Bool :=
  let fresh := e.count = 0 || e.since + microseconds 1000000 ≤ now
  let count := (if fresh then 0 else e.count) + n
  let since := if fresh then now else e.since
  if 1024 < count then ({ total := e.total + n, count := 0, since := since }, true)
  else ({ total := e.total + n, count := count, since := since }, false)

/-- CORRECTED_ERROR_THRESHOLD: soft errors of the die's SRAM arrays. Single-bit errors are corrected and counted, and a record
tells of more than 1,024 of one class in 1 s; a double-bit error makes its word poisoned, with a machine-check record (R55, R455).
Inputs: the class of arrays, the single-bit errors, and the address of each word with a double-bit error. -/
def execCorrectedErrorThreshold (s : State) :=
  let die := s.cur.die
  let k := s.inp.getD 0 0
  let d := s.die die
  let (e, passed) := ((look k d.corrected).getD default).more (s.inp.getD 1 0) s.cycle
  let s1 := s.setDie die { d with corrected := put k e d.corrected }
  let s2 := if passed then s1.errorEvent die 5 k 0 (2 ^ 64 - 1) 0 else s1
  answer ((s.inp.drop 2).foldl (fun (s : State) a =>
    ({ s with poison := addPoison a 1 s.poison }).errorEvent die 1 k 0 (a / 8 * 8) 0) s2)

/-- TASK_ENGINE_RESUME_TIMEOUT: an engine that has not resumed within 100 µs of its reset has its die fenced (R337). -/
def execTaskEngineResumeTimeout (s : State) :=
  let d := s.cur.die
  answer (match (s.te d).down with
    | none => s
    | some t => if t + microseconds 100 ≤ s.cycle then s.fence d else s)

end Sys2Proof.Machine
end

