-- ==== Sys2Proof/Machine/Drain.lean ====
section
/-! DEFINITION. The drain engine: stores through a handle and into the scratchpad, drain streams, the emptying of tiles, and
claims through the combining tree (09 R275-R305). -/

namespace Sys2Proof.Machine

/-! ## Checks and paths of a store (R278, R285, R286) -/

/-- StoreCheck on the exact offset; `info` is TRAPINFO of cause 0x59 (R278, R288). -/
def storeCheck (s : State) (h : Handle) (n : Nat) (off : Int) (len : Nat) (info : Word) : Res Nat :=
  let pa := h.base.toNat + off.toNat
  let m := paModule pa
  if !h.valid then trap 0x58 (BitVec.ofNat 64 n)
  else if off < 0 || (pageBytes h.size : Int) < off + len then trap 0x59 info
  else if !h.wr || h.seg then trap 0x5A (BitVec.ofNat 64 n)
  else if reservedAddr pa || (m < 4 && paOffset pa < 0x400000000) then trap 0x5D (BitVec.ofNat 64 (pa + 2 * 2 ^ 56))
  else if s.place s.cur.die pa = .unreach then trap 0x5D (BitVec.ofNat 64 (pa + 2 ^ 56))
  else pure pa

/-- StoreCheck, and the fault of a store whose bytes cover two banks with different format registers (R37, R278). -/
def storeAt (s : State) (h : Handle) (n : Nat) (off : Int) (len : Nat) (info : Word) : Res Nat := do
  let pa ← storeCheck s h n off len info
  if let some u := s.bankSplit s.cur.die pa len then trap 0x5C (BitVec.ofNat 64 u)
  pure pa

/-- Bytes of a store: a fabric physical address, a count, and the bytes as a number. -/
abbrev Bytes := Nat × Nat × Nat

/-- The key of the executing strand. -/
def State.myKey (s : State) : Nat := strandKey s.cur.die s.cur.polder s.cur.strand

/-- The groups of a strand's stores that are still to be performed: a store's requests share a group (R286). -/
def State.storesOut (s : State) (key : Nat) : List (Option Nat) :=
  (s.reqs.filterMap fun e => match e.2.purpose with
    | .store k _ => if k = key then some e.2.owner else none
    | _ => none).eraseDups

/-- What a store waits for at issue: the acquires before it, copies in flight over its bytes, accesses to SO pages, an entry among
the 32, and an earlier store to the same bytes, a release that has retired among them (R39, R49, R286, R300, R301). -/
def storeReady (kind : BitVec 2) (ranges : List (Nat × Nat)) (s : State) : Res Unit := do
  let key := s.myKey
  untilTrue s.acquired
  untilTrue (!s.scoreboardHolds ranges)
  if kind = 0 then untilTrue (!s.soHeld) else pure ()
  let rels := (s.strand s.cur).rels
  untilTrue ((s.storesOut key).length + rels.length < 32)
  untilTrue (!rels.any fun x => ranges.any fun r => overlap x.addr x.len r.1 r.2)
  untilTrue (!s.reqs.any fun e => match e.2.purpose with
    | .store k _ => k = key && ranges.any fun r => overlap e.2.addr e.2.len r.1 r.2
    | _ => false)

/-- Hand the bytes of one sector to their path: written at once on this die, into the remote cache on an off-die RC or UO page,
and otherwise sent to the home; the status of a failure that is known at once (R285, R286). -/
def State.handPiece (s : State) (kind : BitVec 2) (through : Bool) (group first : Nat) (b : Bytes) : Nat × State :=
  let (a, n, v) := b
  let c := s.cur
  let context := s.myCrew.context
  match s.place c.die a with
  | .mem => (0, s.writeN a v n)
  | .dreg =>
    (0, (wordsOf a n).foldl (fun (s : State) w =>
      let mask := (List.range 8).foldl (fun m i => if a ≤ 8 * w + i && 8 * w + i < a + n then m + 2 ^ i else m) 0
      let v64 := if 8 * w < a then v * 256 ^ (a - 8 * w) else v / 256 ^ (8 * w - a)
      s.writeDieReg c.die (8 * w % 2 ^ 24) (BitVec.ofNat 64 v64) (coverOf mask) (some s.myKey)) s)
  | .window => (4, s)
  | .bad => (4, s)
  | .unreach => (3, s)
  | _ =>
    if kind ≠ 0 && !through then (0, s.cacheStore c.die a n v context)
    else
      -- a sector held for another context is written back and given up; one held for this context takes the bytes of a store
      -- that is written through, and no dirty byte of it stays (R44, R53)
      let (old, s1) := s.sectorFor c.die (a / 128) context
      let bytes := fullMask n * 2 ^ (a % 128)
      let s2 := if kind = 0 || old.isNone then s1
        else
          let s2 := s1.cacheStore c.die a n v context
          let d2 := s2.die c.die
          match look (a / 128) d2.cache with
          | some y => s2.setDie c.die { d2 with cache := put (a / 128) { y with dirty := y.dirty &&& (fullMask 128 ^^^ bytes) } d2.cache }
          | none => s2
      (0, (s2.request { Req.blank c.die c.polder 1 1 a n context with
        data := v, mask := fullMask n, op := n - 1, arg := 1, owner := some group, purpose := .store s.myKey first }).2)

/-- Hand a store to its path, sector by sector; its failure counts once (R277, R285-R287). -/
def State.handOn (s : State) (kind : BitVec 2) (through : Bool) (bs : List Bytes) : State :=
  let first := (bs.headD (0, 0, 0)).1
  let group := s.reqNo
  let pieces := bs.flatMap fun b => cutPieces (b.2.1 / 128 + 2) b.1 b.2.1 b.2.2
  let (bad, s1) := pieces.foldl (fun (acc : Nat × State) b =>
    let (st, s1) := acc.2.handPiece kind through group first b
    (if acc.1 = 0 then st else acc.1, s1)) (0, s)
  if bad = 0 then s1 else (s1.quietStore s.myKey (some group)).storeFailed s.myKey bad first

/-- The ranges of a store. -/
def rangesOf (bs : List Bytes) : List (Nat × Nat) := bs.map fun b => (b.1, b.2.1)

/-- A store word of the D stream: `plan` finds its bytes and the state after its pops; the word hands them on and retires. -/
def storeWord (tk : BitVec 4) (kind : State → BitVec 2) (plan : State → State → Res (List Bytes × State)) (s : State) : State :=
  runWordM markStore 1 (· = .d) tk (fun s0 s => do
    let (bs, s1) ← plan s0 s
    storeReady (kind s0) (rangesOf bs) s0
    pure (.next (s1.handOn (kind s0) false bs))) s

/-- The handle that a 3-bit field of a D word names (R276). -/
def dHandle (h : BitVec 3) (s : State) : Handle := s.handle (8 + h.toNat)

/-! ## Scalar stores (R277) -/

/-- The bytes of ST: its value and its offset are popped in that order. -/
def scalarStore (rs : BitVec 5) (h : BitVec 3) (ra : BitVec 5) (size : BitVec 2) (s : State) : Res (Bytes × State) := do
  let b := 2 ^ size.toNat
  let (v, s1) ← readReg rs s
  let (off, s2) ← readReg ra s1
  let pa ← storeAt s (dHandle h s) (8 + h.toNat) off.toNat b off
  pure ((pa, b, v.toNat % 2 ^ (8 * b)), s2)

/-- ST (R277). -/
def execSt (tk : BitVec 4) (rs : BitVec 5) (h : BitVec 3) (ra : BitVec 5) (size : BitVec 2) (s : State) :=
  answer (storeWord tk (fun s => (dHandle h s).kind) (fun _ s => do
    let (b, s1) ← scalarStore rs h ra size s
    pure ([b], s1)) s)

/-- A release of the executing D word that has retired and waits to be performed. -/
def State.addRelease (s : State) (amax : Bool) (kind : BitVec 2) (b : Bytes) (wide : Bool) (k : Stream) : State :=
  let st := s.strand s.cur
  let r : Release :=
    { amax := amax, kind := kind, addr := b.1, len := b.2.1, value := b.2.2, wide := wide, seq := k.seq, marks := k.marks
      upTo := s.reqNo, wb := none }
  s.setStrand s.cur { st with rels := st.rels ++ [r] }

/-- ST.REL: a release at SCOPE, written through to a home off the die. It is performed at once if nothing is left that it must
follow; otherwise it retires, and is performed later (R301). -/
def execStRel (tk : BitVec 4) (rs : BitVec 5) (h : BitVec 3) (ra : BitVec 5) (size : BitVec 2) (scope : BitVec 3) (s : State) :=
  answer (runWordM markStore 1 (· = .d) tk (fun s0 s => do
    let c := s0.cur
    let k := s0.stream c
    let kind := (dHandle h s0).kind
    let (b, s1) ← scalarStore rs h ra size s
    storeReady kind [(b.1, b.2.1)] s0
    let wide := dieScope scope
    let clear := s0.releaseReady c.die c.polder c.strand .d k.seq k.marks && (!wide || (s0.writeBackContext c).1.isEmpty)
    pure (.next (if clear then s1.handOn kind true [b] else s1.addRelease false kind b wide k))) s)

/-! ## Vector stores through a handle (R279, R280) -/

/-- The drain stream of a queue, and the entries of an X-to-D vector queue. -/
def Strand.drainStream (st : Strand) (q : Nat) : Option AffineStream := if q = 0 then st.ds0 else st.ds1
def Strand.setDrainStream (st : Strand) (q : Nat) (x : Option AffineStream) : Strand :=
  if q = 0 then { st with ds0 := x } else { st with ds1 := x }
def Strand.written (st : Strand) (q : Nat) : Nat := if q = 0 then st.written0 else st.written1
def Strand.setWritten (st : Strand) (q n : Nat) : Strand :=
  if q = 0 then { st with written0 := n } else { st with written1 := n }
def Strand.vXD (st : Strand) (q : Nat) : List Vec := if q = 0 then st.vXD0 else st.vXD1
def Strand.setVXD (st : Strand) (q : Nat) (vs : List Vec) : Strand :=
  if q = 0 then { st with vXD0 := vs } else { st with vXD1 := vs }

/-- Pop an entry of an X-to-D vector queue; a word on a bound queue traps (R276, R283). -/
def popVXD (q : Nat) (s : State) : Res (Vec × State) :=
  let st := s.strand s.cur
  if (st.drainStream q).isSome then trap 0x5E 32
  else match st.vXD q with
    | [] => hold .dataQueue
    | v :: r => pure (v, s.setStrand s.cur (st.setVXD q r))

/-- The bytes of an element of a vector. -/
def elementBytes (v : Vec) (w i : Nat) : Nat := v.toNat / 2 ^ (8 * w * i) % 2 ^ (8 * w)

/-- STV (R279). -/
def execStv (tk : BitVec 4) (q : BitVec 1) (h : BitVec 3) (ra : BitVec 5) (s : State) :=
  answer (storeWord tk (fun s => (dHandle h s).kind) (fun _ s => do
    let (v, s1) ← popVXD q.toNat s
    let (off, s2) ← readReg ra s1
    let pa ← storeAt s (dHandle h s) (8 + h.toNat) off.toNat 512 off
    pure ([(pa, 512, v.toNat)], s2)) s)

/-- STVS (R279). -/
def execStvs (tk : BitVec 4) (q : BitVec 1) (width : BitVec 2) (h : BitVec 3) (ra rb : BitVec 5) (s : State) :=
  answer (storeWord tk (fun s => (dHandle h s).kind) (fun _ s => do
    let w := laneBytes width
    let (v, s1) ← popVXD q.toNat s
    let (off, s2) ← readReg ra s1
    let (stride, s3) ← readReg rb s2
    let pas ← (List.range (laneCount width)).mapM fun (i : Nat) =>
      storeAt s (dHandle h s) (8 + h.toNat) ((off.toNat : Int) + (i : Int) * stride.toInt) w (BitVec.ofNat 64 i)
    pure (pas.zipIdx.map fun e => (e.1, w, elementBytes v w e.2), s3)) s)

/-- The index list of STVX: cause 0x5B unless aligned, within one bank and within the scratchpad (R280). -/
def storeList (u n : Nat) (s : State) : Res (List Nat) := do
  if u % 4 ≠ 0 || u / 65536 ≠ (u + 4 * n - 1) / 65536 || s.myCrew.scratchBytes < u + 4 * n then trap 0x5B (BitVec.ofNat 64 u)
  untilTrue (!s.scoreboardHolds [(s.scratchPa u, 4 * n)])
  let v ← scratchRead s u (4 * n)
  pure (elems 32 n v)

/-- STVX (R279, R280). -/
def execStvx (tk : BitVec 4) (q : BitVec 1) (width : BitVec 2) (h : BitVec 3) (ra rb : BitVec 5) (s : State) :=
  answer (storeWord tk (fun s => (dHandle h s).kind) (fun _ s => do
    let w := laneBytes width
    let (v, s1) ← popVXD q.toNat s
    let (off, s2) ← readReg ra s1
    let (u, s3) ← readReg rb s2
    let idx ← storeList u.toNat (laneCount width) s
    let stored := idx.zipIdx.filter fun e => e.1 ≠ 2 ^ 32 - 1
    let bs ← stored.mapM fun e => do
      let pa ← storeAt s (dHandle h s) (8 + h.toNat) ((off.toNat + e.1 * w : Nat) : Int) w (BitVec.ofNat 64 e.2)
      pure ((pa, w, elementBytes v w e.2) : Bytes)
    pure (bs, s3)) s)

/-! ## Scratchpad stores (R281, R282) -/

/-- The bytes of a scratchpad store of a vector at u (R281, R282). -/
def scratchStore (width : BitVec 2) (col : Bool) (u : Nat) (v : Vec) (s : State) : Res (List Bytes) := do
  let c := s.myCrew
  let w := max 1 (laneBytes width)
  let n := if col then 1 else 512
  if c.scratchBytes < u + n then trap 0x5B (BitVec.ofNat 64 u)
  if (if col then u / 64 % 64 ≠ 0 || u % 64 % w ≠ 0 || 64 < u % 64 + 8 else u % w ≠ 0) then trap 0x5B (BitVec.ofNat 64 u)
  if c.fmtCode (u / 65536) ≠ c.fmtCode ((u + n - 1) / 65536) || (c.fmtOf (u / 65536)).sixBit then trap 0x5C (BitVec.ofNat 64 u)
  if col then pure ((List.range (512 / w)).map fun i => (s.scratchPa (columnByte u w i 0), w, elementBytes v w i))
  else pure [(s.scratchPa u, 512, v.toNat)]

/-- STP (R281). -/
def execStp (tk : BitVec 4) (ra rs : BitVec 5) (size : BitVec 2) (s : State) :=
  answer (storeWord tk (fun _ => 1) (fun _ s => do
    let b := 2 ^ size.toNat
    let (u, s1) ← readReg ra s
    let (v, s2) ← readReg rs s1
    if s.myCrew.scratchBytes < u.toNat + b || u.toNat % b ≠ 0 then trap 0x5B u
    pure ([(s.scratchPa u.toNat, b, v.toNat % 2 ^ (8 * b))], s2)) s)

/-- STPV (R281, R282). -/
def execStpv (tk : BitVec 4) (q : BitVec 1) (width : BitVec 2) (orient : BitVec 1) (ra : BitVec 5) (s : State) :=
  answer (storeWord tk (fun _ => 1) (fun _ s => do
    let (v, s1) ← popVXD q.toNat s
    let (u, s2) ← readReg ra s1
    let bs ← scratchStore width (orient = 1) u.toNat v s
    pure (bs, s2)) s)

/-! ## Drain streams (R283, R284) -/

/-- The first check a drain stream's descriptor fails, by reason (R283). -/
def drainFault (s : State) (d : Descr) : Option Nat :=
  let c := s.myCrew
  let space := bitsOf d.ctrl 8 8
  let width : BitVec 2 := BitVec.ofNat 2 (bitsOf d.ctrl 7 6)
  let col := bitsOf d.ctrl 9 9 = 1
  let hd := s.handle (8 + bitsOf d.ctrl 2 0)
  let (lo, hi) := d.extremes
  let some1 := d.total ≠ 0
  let last : Int := if col then 1 else 512
  if bitsOf d.ctrl 63 16 ≠ 0 || bitsOf d.ctrl 5 3 ≠ 0 || bitsOf d.ctrl 15 12 ≠ 15 then some 1
  else if space = 0 && !hd.valid then some 2
  else if some1 && space = 0 && (lo < 0 || (pageBytes hd.size : Int) < hi + 512) then some 3
  else if some1 && space = 1 && (lo < 0 || (c.scratchBytes : Int) < hi + last) then some 3
  else if some1 && space = 1 && (d.addrs 0x800000).any (fun a => scratchRuleBroken c width col a.toNat) then some 4
  else if 2 ^ 32 ≤ d.total then some 5
  else if space = 0 && (!hd.wr || hd.seg) then some 6
  else if some1 && space = 0 && s.place s.cur.die (hd.base.toNat + lo.toNat) = .unreach then some 7
  else none

/-- DBIND (R283, R284). -/
def execDbind (tk : BitVec 4) (q : BitVec 1) (ra : BitVec 5) (s : State) :=
  answer (runWordM markStore 1 (· = .d) tk (fun s0 s => do
    let (a, s1) ← readReg ra s
    if a.toNat % 64 ≠ 0 then trap 0x5B a
    if ((s.strand s.cur).drainStream q.toNat).isSome then trap 0x5E 32
    untilTrue s0.acquired
    let desc ← readDescr a.toNat 0x5B 0x5B s
    let d := descrOf desc
    match drainFault s d with
    | some r => trap 0x5E (BitVec.ofNat 64 (16 + r))
    | none =>
      let st := s1.strand s.cur
      let x : AffineStream :=
        { desc := desc, handle := s.handle (8 + bitsOf d.ctrl 2 0), word := s.pc, next := 0, count := d.total, pushed := 0
          flight := none, place := 0, began := 0, reqs := [], stopped := none }
      pure (.next (s1.setStrand s.cur
        ((st.setDrainStream q.toNat (if d.total = 0 then none else some x)).setWritten q.toNat 0)))) s)

/-- DUNBIND: it waits until the stream has ended or stopped, and traps with the fault of one that stopped (R284). -/
def execDunbind (tk : BitVec 4) (q : BitVec 1) (s : State) :=
  answer (runWordM markStore 1 (· = .d) tk (fun _ s =>
    match (s.strand s.cur).drainStream q.toNat with
    | none => pure (.next s)
    | some x => match x.stopped with
      | some (cause, info) => trap cause info
      | none => hold .dataQueue) s)

/-- The bytes of vector k of a bound drain stream, with the kind of its page. -/
def streamBytes (x : AffineStream) (v : Vec) (s : State) : Res (BitVec 2 × List Bytes) := do
  let d := descrOf x.desc
  let a := d.addr x.next
  if bitsOf d.ctrl 8 8 = 1 then do
    let bs ← scratchStore (BitVec.ofNat 2 (bitsOf d.ctrl 7 6)) (bitsOf d.ctrl 9 9 = 1) a.toNat v s
    pure (1, bs)
  else do
    let pa ← storeAt s x.handle (8 + bitsOf d.ctrl 2 0) a 512 (BitVec.ofInt 64 a)
    pure (x.handle.kind, [(pa, 512, v.toNat)])

/-- DRAIN_STREAM_WRITE: a bound stream writes its next vector from the head of its queue, and ends with the last; a write that
fails its check is not sent and stops it (R284, R302). Input: the queue. -/
def execDrainStreamWrite (s : State) :=
  let c : Ctx := { s.cur with str := .d, rot := false }
  let q := s.inp.getD 0 0 % 2
  let t := { s with cur := c }
  answer (match s.strand? c with
    | none => s
    | some st => match st.drainStream q, st.vXD q with
      | some x, v :: rest =>
        if x.stopped.isSome || (s.crew c.die c.polder).halted then s
        else
          let res : Res State := do
            let (kind, bs) ← streamBytes x v t
            storeReady kind (rangesOf bs) t
            let y := { x with next := x.next + 1, pushed := x.pushed + 1 }
            let st1 := ((st.setVXD q rest).setDrainStream q (if y.count ≤ y.next then none else some y)).setWritten q
              (st.written q + 1)
            pure ((t.setStrand c st1).handOn kind false bs)
          match res with
          | .ok s1 => s1
          | .error (.wait _) => s
          | .error (.trap cause info) =>
            -- a target that has left the group is also a failed store (R286)
            let s1 := if cause = 0x5D && bitsOf info 63 56 = 1 then s.storeFailed t.myKey 3 (bitsOf info 51 0) else s
            s1.setStrand c ((s1.strand c).setDrainStream q (some { x with stopped := some (cause, info) }))
      | _, _ => s)

/-! ## DRAIN (R289-R295) -/

/-- Act: the FP32 value of an activation (R293). -/
def activate (act bits : Nat) : XVal :=
  let x := decodeElt .fp32 bits
  let sig := decodeElt .fp32 (SpecialFn.sigm.apply .fp32 3 bits)
  if act = 0 then x
  else if act = 1 then (if x.isNaN then .nan else if XVal.lt (.fin false 0 1) x then x else .fin false 0 1)
  else if act = 2 then sig
  else if act = 3 then decodeElt .fp32 (SpecialFn.tanh.apply .fp32 3 bits)
  else decodeElt .fp32 (fp32Rne (x.mul sig))

/-- AbsMax: the largest magnitude of the activated elements, in FP32 (R294). -/
def absMax (xs : List XVal) : Nat :=
  if xs.any XVal.isNaN then Fmt.nan .fp32 else xs.foldl (fun m x => max m (fp32Rne x % 2 ^ 31)) 0

/-- What a DRAIN is to do, from its operands (R289, R290). -/
structure DrainOps where
  code : Nat
  rm : Nat
  sat : Bool
  act : Nat
  amax : Bool
  ascope : BitVec 3
  scale : Nat
  dst : Word
  stride : Word
  /-- the scale address, where it is read -/
  sdst : Option Word
  rx : Word
  deriving DecidableEq, Repr, Inhabited

/-- The format of the destination. -/
def DrainOps.fmt (d : DrainOps) : Fmt := (bankFmt d.code).getD .raw
def DrainOps.isDX (d : DrainOps) : Bool := 0xC1 ≤ d.code && (bankFmt d.code).isSome

/-- Bytes of a row, and the unit of the destination and of the stride (R291). -/
def DrainOps.rowBytes (d : DrainOps) : Nat := if d.fmt.bits = 6 then 32 else 8 * d.fmt.bits
def DrainOps.unit (d : DrainOps) : Nat :=
  let w := d.fmt.bits
  if d.isDX then (if w = 8 then 32 else 16) else if w = 6 then 2 else if w = 4 then 1 else w / 8

/-- Read the operands of a DRAIN. -/
def drainOps (rc ra rx : BitVec 5) (s : State) : DrainOps :=
  let r (i : BitVec 5) : Word := if i = 0 then 0 else (s.stream s.cur).regs.get i.toFin
  let w := r rc
  let code := bitsOf w 63 56
  let dx := 0xC1 ≤ code && (bankFmt code).isSome
  { code := code, rm := bitsOf w 55 53, sat := bitsOf w 52 52 = 1, act := bitsOf w 51 48, amax := bitsOf w 47 47 = 1
    ascope := BitVec.ofNat 3 (bitsOf w 46 44), scale := bitsOf w 31 0, dst := r ra, stride := r (ra + 1)
    sdst := if dx && bitsOf (r ra) 63 63 = 1 && ra ≠ 29 then some (r (ra + 2)) else none
    rx := r rx }

/-- The side that a copy address of the D stream names (R196, R291). -/
def drainSide (w : Word) (s : State) : Side :=
  let g := bitsOf w 63 63 = 1
  let hn := 8 + bitsOf w 62 60
  { global := g, hn := hn, off := if g then bitsOf w 33 0 else bitsOf w 31 0, h := s.handle hn }

/-- Where the absolute-maximum word lies. -/
def DrainOps.amaxPa (d : DrainOps) (s : State) : Nat := (s.handle (bitsOf d.rx 63 60)).base.toNat + bitsOf d.rx 33 0

/-- Whether a check of the table of R291 fails. -/
def DrainOps.fails (d : DrainOps) (rsvd : Nat) (s : State) (reason : Nat) : Bool :=
  let known := d.code ≠ 0 && d.code ≠ 7 && (bankFmt d.code).isSome
  let dst := drainSide d.dst s
  let six := d.fmt.bits = 6
  if reason = 1 then
    rsvd ≠ 0 || bitsOf d.stride 63 32 ≠ 0 || copyAddrBad d.dst || (match d.sdst with
      | some w => copyAddrBad w
      | none => false)
  else if reason = 2 then !known
  else if reason = 3 then 5 ≤ d.rm || (d.rm = 4 && (d.code = 0x10 || d.code = 0x06))
  else if reason = 4 then 5 ≤ d.act
  else if reason = 5 then
    let h := s.handle (bitsOf d.rx 63 60)
    let off := bitsOf d.rx 33 0
    let pa := d.amaxPa s
    let m := paModule pa
    d.amax && (6 ≤ d.ascope.toNat || bitsOf d.rx 63 60 < 8 || bitsOf d.rx 59 34 ≠ 0 || off % 4 ≠ 0 || !h.valid || !h.wr
      || pageBytes h.size < off + 4
      || !((8 ≤ m && m < 12) || (m < 4 && (isBerm (paOffset pa) || isSyncSram (paOffset pa)))))
  else if reason = 6 then
    known && (bitsOf d.stride 31 0 < d.rowBytes || dst.off % d.unit ≠ 0 || bitsOf d.stride 31 0 % d.unit ≠ 0)
  else if reason = 7 then known && dst.global && six
  else if reason = 8 then dst.global && (match d.sdst with
    | some w => bitsOf w 63 63 = 0
    | none => false)
  else dst.global && d.isDX && d.sdst.isNone

/-- The scratchpad address of row r. -/
def DrainOps.row (d : DrainOps) (s : State) (r : Nat) : Nat := (drainSide d.dst s).off + r * bitsOf d.stride 31 0

/-- The checks of a DRAIN's destination and of its absolute-maximum word, after the table's (R288, R291, R443). -/
def DrainOps.check (d : DrainOps) (s : State) : Res Unit := do
  let dst := drainSide d.dst s
  let c := s.myCrew
  let n := d.rowBytes
  if dst.global then do
    let pa ← storeCheck s dst.h dst.hn dst.off (63 * bitsOf d.stride 31 0 + n) (BitVec.ofNat 64 dst.off)
    if let some u := (List.range 64).findSome? (fun r => s.bankSplit s.cur.die (pa + r * bitsOf d.stride 31 0) n) then
      trap 0x5C (BitVec.ofNat 64 u)
    match d.sdst with
    | some w => do
      let x := drainSide w s
      let _ ← storeCheck s x.h x.hn x.off 256 (BitVec.ofNat 64 x.off)
      pure ()
    | none => pure ()
  else do
    let rows := (List.range 64).map (d.row s)
    if let some u := rows.find? (fun u => u / 65536 ≠ (u + n - 1) / 65536 || c.scratchBytes < u + n
        || (d.fmt.bits = 6 && 32768 < u % 65536 + n)) then trap 0x5B (BitVec.ofNat 64 u)
    let ok (u : Nat) : Bool := c.fmtCode (u / 65536) = d.code || (c.fmtCode (u / 65536) = 0 && !d.isDX && d.fmt.bits ≠ 6)
    if let some u := rows.find? (fun u => !ok u) then trap 0x5C (BitVec.ofNat 64 u)
  if d.amax then
    let pa := d.amaxPa s
    if s.place s.cur.die pa = .unreach then trap 0x5D (BitVec.ofNat 64 (pa + 2 ^ 56))
    else if 8 ≤ paModule pa then trap 0x53 (BitVec.ofNat 64 (pa + 5 * 2 ^ 56))
    else pure ()

/-- A finished tile: the codes of its rows, the scale words of its blocks, row after row, and the generator (R292). -/
def DrainOps.quantise (d : DrainOps) (as : List XVal) (sr : Word) : List (List Nat) × List (List Nat) × Word :=
  let sc := decodeElt .fp32 d.scale
  let rm := Rm.ofCode d.rm
  let (sr1, ds) := if rm = .sr then draws 4096 sr else (sr, [])
  let ys := as.map fun a => a.mul sc
  let f := d.fmt
  let w := f.bits
  let row (r : Nat) : List Nat × List Nat :=
    let yr := (ys.drop (64 * r)).take 64
    let dr := (ds.drop (64 * r)).take 64
    if d.isDX then
      let block (j : Nat) : Nat × Nat × List Nat := quantDX ((yr.drop (32 * j)).take 32) w rm ((dr.drop (32 * j)).take 32)
      ((block 0).2.2 ++ (block 1).2.2, [scaleWord (block 0).1 (block 0).2.1, scaleWord (block 1).1 (block 1).2.1])
    else (yr.zipIdx.map fun e => encode f e.1 rm d.sat (dr.getD e.2 0), [])
  let rows := (List.range 64).map row
  (rows.map (·.1), rows.map (·.2), sr1)

/-- The scale addresses of a row's two blocks, as fabric physical addresses. -/
def DrainOps.scalePas (d : DrainOps) (s : State) (r : Nat) : List Nat :=
  if !d.isDX then []
  else match d.sdst with
    | some w => (List.range 2).map fun j => (drainSide w s).pa s + 2 * (2 * r + j)
    | none => (List.range 2).map fun j => s.scratchPa (scaleAddr d.code (rowElt d.fmt.bits (d.row s r) (32 * j)))

/-- The bytes that a DRAIN stores, row after row with its scale words; of a 6-bit row, none of its planes. -/
def DrainOps.bytes (d : DrainOps) (s : State) (codes scales : List (List Nat)) : List Bytes :=
  (List.range 64).flatMap fun r =>
    let main : List Bytes := if d.fmt.bits = 6 then []
      else [((drainSide d.dst s).pa s + r * bitsOf d.stride 31 0, d.rowBytes, packElems d.fmt.bits (codes.getD r []))]
    main ++ (d.scalePas s r).zipIdx.map fun e => ((e.1, 2, (scales.getD r []).getD e.2 0) : Bytes)

/-- The scratchpad ranges of 6-bit rows: nibble plane and high plane (R113). -/
def DrainOps.sixRanges (d : DrainOps) (s : State) : List (Nat × Nat) :=
  if d.fmt.bits ≠ 6 then []
  else (List.range 64).flatMap fun r => (planeRanges d.code 6 (d.row s r) 64).map fun x => (s.scratchPa x.1, x.2)

/-- Write 6-bit rows into their two planes (R113). -/
def DrainOps.writeSix (d : DrainOps) (s : State) (codes : List (List Nat)) : State :=
  if d.fmt.bits ≠ 6 then s
  else (List.range 64).foldl (fun (s : State) r =>
    let u := d.row s r
    (codes.getD r []).zipIdx.foldl (fun (s : State) e =>
      s.setSixBit (s.scratchPa (u / 65536 * 65536)) (2 * (u % 65536) + e.2) e.1) s) s

/-- The place in the order of waiting of a stream that waits at a DRAIN for a tile (R295). -/
def Stream.waitsTile (st : Stream) (t : Nat) : Option Nat :=
  match st.pend with
  | some p => (match p.data with
    | [900, order, tile] => if tile = t then some order else none
    | _ => none)
  | none => none

/-- Whether another D stream of the crew has waited longer for a tile. -/
def State.tileTaken (s : State) (t : Nat) : Bool :=
  let c := s.cur
  let mine := (s.stream c).waitsTile t
  (List.range 4).any fun k => k ≠ c.strand && (match look (strandKey c.die c.polder k) s.strands with
    | none => false
    | some st => match st.d.waitsTile t, mine with
      | some n, some m => n < m
      | some _, none => true
      | none, _ => false)

/-- The absolute-maximum atomic: once it may be performed as a release, it goes to the sync path, and the DRAIN retires (R294). -/
def drainAtomic (d : DrainOps) (m : Nat) (ids : Option (List Nat)) (s0 s : State) : Res Eff := do
  let c := s0.cur
  let k := s0.stream c
  let send (s : State) : State :=
    (s.sendSync c.die c.polder s0.myCrew.context 11 (d.amaxPa s0) m 0 (.amax s0.myKey)).2
  match ids with
  | none =>
    -- a stop does not wait for words that it holds back: the atomic is handed on, and performed in its order (R305)
    if s0.myCrew.halted then pure (.next (s.addRelease true 1 (d.amaxPa s0, 4, m) (dieScope d.ascope) k))
    else if !s0.releaseReady c.die c.polder c.strand .d k.seq k.marks then pure (.stay s0)
    else
      let (wb, t) := if dieScope d.ascope then s0.writeBackContext c else ([], s0)
      if wb.isEmpty then pure (.next (send s)) else pure (.stay (t.setPending { ids := wb, data := [1101, m] }))
  | some ids => if s0.allReplied ids then pure (.next (send (s.forgetAll ids))) else pure (.stay s0)

/-- DRAIN (R289-R295). -/
def execDrain (tk tile : BitVec 4) (rc ra rx : BitVec 5) (s : State) :=
  answer (runWordM markStore 1 (· = .d) tk (fun s0 s => do
    let c := s0.cur
    let t := tile.toNat
    let d := drainOps rc ra rx s0
    let begun := (s0.pending.filter fun p => p.data.headD 0 ≠ 900)
    match begun with
    | some p => drainAtomic d (p.data.getD 1 0) (if p.data.headD 0 = 1100 then none else some p.ids) s0 s
    | none => do
      let w := if rc = 0 then (0 : Word) else (s0.stream c).regs.get rc.toFin
      if let some r := ([1, 2, 3, 4, 5, 6, 7, 8, 9].find? fun r => d.fails (bitsOf w 43 32) s0 r) then
        trap 0x5E (BitVec.ofNat 64 r)
      d.check s0
      let crew := s0.myCrew
      if !crew.tileFull t || crew.tileOwned t || s0.tileTaken t then
        -- it takes its place among those that wait for the tile
        if s0.pending.isSome then pure (.stay s0)
        else
          let k := s0.stream c
          let s1 := { s0 with reqNo := s0.reqNo + 1 }
          pure (.stay (s1.setStream c { k with pend := some { ids := [], data := [900, s0.reqNo, t] }, wait := some .tileBit }))
      else do
        let a := s0.tileAddr c.die c.polder t
        if (s0.poisonIn a 16384).isSome then trap 0x08 (BitVec.allOnes 64)
        let kind := if bitsOf d.dst 63 63 = 1 then (drainSide d.dst s0).h.kind else 1
        let as := (elems 32 4096 (s0.readN a 16384)).map (activate d.act)
        let (codes, scales, sr) := d.quantise as (s0.strand c).srD
        let bs := d.bytes s0 codes scales
        storeReady kind (rangesOf bs ++ d.sixRanges s0) s0
        let fill (s : State) : State :=
          let s1 := s.setCrew c.die c.polder (s.myCrew.setTile t false)
          let s2 := s1.setStrand c { s1.strand c with srD := sr }
          d.writeSix (s2.handOn kind false bs) codes
        if d.amax then
          pure (.stay ((fill s0).setPending { ids := [], data := [1100, absMax as] }))
        else pure (.next (fill s))) s)

/-! ## Releases that have retired (R301, R305) -/

/-- Perform a release of the executing D stream: its bytes go through to their home, or its atomic to the sync path. -/
def State.performRelease (s : State) (r : Release) : State :=
  if r.amax then
    let c := s.cur
    (s.sendSync c.die c.polder s.myCrew.context 11 r.addr r.value 0 (.amax s.myKey)).2
  else s.handOn r.kind true [(r.addr, r.len, r.value)]

/-- The oldest retired release of a strand goes on: once what it must follow has been performed it sends its write-backs, and
once they have ended it is performed. -/
def State.advanceRelease (s : State) (key : Nat) : State :=
  let c : Ctx := { die := key / 256, polder := key / 4 % 64, strand := key % 4, str := .d, rot := false }
  let st := (look key s.strands).getD default
  match st.rels with
  | [] => s
  | r :: rest =>
    let perform (s : State) : State :=
      let t := ({ s with cur := c }.setStrand c { (look key s.strands).getD default with rels := rest }).performRelease r
      { t with cur := s.cur }
    match r.wb with
    | some ids => if s.allReplied ids then perform (s.forgetAll ids) else s
    | none =>
      if !s.releaseClear c.die c.polder c.strand .d r.seq r.marks r.upTo then s
      else
        let (ids, s1) := if r.wide then s.writeBackContext c else ([], s)
        if ids.isEmpty then perform s
        else s1.setStrand c { (look key s1.strands).getD default with rels := { r with wb := some ids } :: rest }

/-- The releases that a discarded launch has left to a die are performed once their write-backs have ended (R305, R341). -/
def State.advanceOrphans (s : State) (die : Nat) : State :=
  (s.die die).orphans.foldl (fun (s : State) e =>
    let ids := e.2.wb.getD []
    if !s.allReplied ids then s
    else
      let c : Ctx := { die := die, polder := e.1 / 4 % 64, strand := e.1 % 4, str := .d, rot := false }
      let d := s.die die
      let s1 := (s.forgetAll ids).setDie die { d with orphans := d.orphans.erase e }
      { { s1 with cur := c }.performRelease e.2 with cur := s.cur }) s

/-- Every strand's oldest retired release goes on, and those of discarded strands. -/
def State.advanceReleases (s : State) : State :=
  let s1 := (s.strands.filter fun e => !e.2.rels.isEmpty).foldl (fun (s : State) e => s.advanceRelease e.1) s
  ((List.range 16).filter fun k => !(s1.die k).orphans.isEmpty).foldl (fun (s : State) k => s.advanceOrphans k) s1

/-! ## CLAIM (R296-R299) -/

/-- The address of a claim object, checked in the order of R296. -/
def claimCheck (sa want : Word) (s : State) : Res Nat := do
  let hn := bitsOf sa 63 60
  let h := s.handle hn
  let off := bitsOf sa 33 0
  let pa := h.base.toNat + off
  if bitsOf want 63 16 ≠ 0 then trap 0x5F 1
  if hn < 8 || bitsOf sa 59 34 ≠ 0 then trap 0x5F 2
  if !h.valid then trap 0x58 (BitVec.ofNat 64 hn)
  if pageBytes h.size < off + 16 then trap 0x5F 2
  if !(paModule pa = 0 && paDie pa = s.cur.die && isSyncSram (paOffset pa)) then trap 0x5F 3
  if pa % 16 ≠ 0 then trap 0x5F 4
  pure pa

/-- A claim enters the combining tree, in the window of the cycle after (R298). -/
def State.enterTree (s : State) (object want : Nat) : Nat × State :=
  let c := s.cur
  let id := s.reqNo
  let r : Req := { Req.blank c.die c.polder 2 2 object 16 s.myCrew.context with op := 40, data := want, owner := some 0, asked := true }
  let d := s.die c.die
  let x : Claim :=
    { object := object, window := (s.cycleOf c.die + 1) / 64, polder := c.polder, strand := c.strand, want := want, req := id }
  (id, { s with reqNo := id + 1, reqs := put id r s.reqs }.setDie c.die { d with claims := d.claims ++ [x] })

/-- The status of a failed claim: a rule the object breaks, an engine reset 4, poison 5 (R261, R297). -/
def claimStatus (r : Reply) : Nat := if r.status = 7 then r.data else if r.status = 5 then 5 else 4

/-- CLAIM: it orders its strand as an object word does, enters the tree, and waits for its reply (R296-R299). -/
def execClaim (tk : BitVec 4) (rd ra rb : BitVec 5) (s : State) :=
  answer (runWordM markStoreAcq 1 (· = .d) tk (fun s0 s => do
    let c := s0.cur
    let k := s0.stream c
    let (sa, s1) ← readReg ra s
    let (want, s2) ← readReg rb s1
    let enter (pa : Nat) (s : State) : Res Eff :=
      let (id, t) := s.enterTree pa want.toNat
      pure (.stay (t.setPending { ids := [id], data := [1] }))
    match s0.pending with
    | none => do
      let pa ← claimCheck sa want s
      untilTrue s0.acquired
      untilTrue (s0.releaseReady c.die c.polder c.strand .d k.seq k.marks)
      if (s0.handle (bitsOf sa 63 60)).kind = 0 then untilTrue (!s0.soHeld) else pure ()
      let (wb, t) := s0.writeBackContext c
      if wb.isEmpty then enter pa s0 else pure (.stay (t.setPending { ids := wb, data := [0] }))
    | some p =>
      if p.data.headD 0 = 0 then do
        let pa ← claimCheck sa want s
        if s0.allReplied p.ids then enter pa (s0.forgetAll p.ids) else pure (.stay s0)
      else match s0.replyOf (p.ids.headD 0) with
        | none => pure (.stay s0)
        | some r => do
          let s3 := s2.forgetAll p.ids
          let s4 ← (if r.status = 0 then writeResult rd (BitVec.ofNat 64 r.data) s3
            else if (s3.crew c.die c.polder).halted then
              pure (s3.setStrand c { s3.strand c with replyD := some (rd.toNat, r.data, claimStatus r) })
            else claimTrap (claimStatus r) r.data : Res State)
          pure (.next (s4.invalidateContext c))) s)

/-- Claims of a window in ascending polder, then strand (R298). -/
def insertClaim (x : Claim) : List Claim → List Claim
  | [] => [x]
  | y :: r => if (x.polder, x.strand) = (y.polder, y.strand) || x.polder < y.polder || (x.polder = y.polder && x.strand < y.strand)
      then x :: y :: r else y :: insertClaim x r

/-- CLAIM_WINDOW_CLOSE: the claims of the oldest window that has closed on an object are performed at the home in one step (R297,
R298). Input: the object. -/
def execClaimWindowClose (s : State) :=
  let die := s.cur.die
  let a := s.inp.getD 0 0
  let d := s.die die
  let on := d.claims.filter fun c => c.object = a
  let w := on.foldl (fun (m : Nat) c => min m c.window) (s.cycleOf die / 64)
  let now := (on.filter fun c => c.window = w).foldl (fun cs c => insertClaim c cs) []
  answer (if now.isEmpty || s.cycleOf die / 64 ≤ w then s
    else
      let s1 := s.setDie die { d with claims := d.claims.filter fun c => !(c.object = a && c.window = w) }
      let all (s : State) (r : Reply) : State := now.foldl (fun (s : State) c => s.deliver c.req r) s
      let w0 := s.readN a 8
      let w1 := s.readN (a + 8) 8
      match s.poisonIn a 16 with
      | some p => all (s1.errorEvent die 1 3 0 p 5) ⟨5, a, 0⟩
      | none =>
        if w0 / 2 ^ 32 ≠ 0 || w1 / 2 ^ 35 ≠ 0 then all s1 ⟨7, 1, 0⟩
        else if 6 ≤ w1 / 2 ^ 32 % 8 then all s1 ⟨7, 2, 0⟩
        else
          let capacity := w1 % 2 ^ 32
          let (next, s2) := now.foldl (fun (acc : Nat × State) c =>
            let g := min c.want (capacity - acc.1)
            (acc.1 + g, acc.2.deliver c.req ⟨0, acc.1 * 2 ^ 32 + (c.want - g) * 2 ^ 16 + g, 0⟩)) (w0, s1)
          s2.writeN a next 8)

end Sys2Proof.Machine
end

