-- ==== Sys2Proof/Machine/System.lean ====
section
/-! DEFINITION. System registers, fences and the stall watchdog (R64, R65, R79-R82, R93, R98). -/

namespace Sys2Proof.Machine

/-! ## System registers (R79-R82, R98) -/

/-- STRANDID of the executing strand (R80). -/
def State.strandIdOf (s : State) : Word :=
  let c := s.cur
  let k := s.myCrew
  BitVec.ofNat 64 (c.polder * 2 ^ 26 + c.strand * 2 ^ 24 + k.crewX * 2 ^ 22 + k.crewY * 2 ^ 20 + k.stage * 2 ^ 17
    + (if k.system then 2 ^ 16 else 0))

/-- TOKCNT and QCOUNT (R81). -/
def Strand.tokCount (st : Strand) : Nat := st.tokAX * 2 ^ 12 + st.tokXA * 2 ^ 8 + st.tokXD * 2 ^ 4 + st.tokDX
def Strand.queueCount (st : Strand) : Nat :=
  st.qAX.length * 2 ^ 34 + st.qXA.length * 2 ^ 29 + st.qXD.length * 2 ^ 24 + st.vAX0.length * 2 ^ 20 + st.vAX1.length * 2 ^ 16
    + st.vXD0.length * 2 ^ 12 + st.vXD1.length * 2 ^ 8

/-- The iterations left at loop level i, level 0 outermost; 0 where the level is not active. -/
def Stream.loopCount (st : Stream) (i : Nat) : Nat :=
  match st.loops.reverse[i]? with
  | none => 0
  | some l => l.lc.toNat

/-- DBPOS of a drain stream and of the vectors written since its DBIND (R287). -/
def drainPos (x : Option AffineStream) (written : Nat) : Nat :=
  (match x with
    | none => 0
    | some x => 2 ^ 63 + (if x.stopped.isSome then 2 ^ 62 else 0)) + written % 2 ^ 32

/-- The shared system registers (R79). -/
def sharedRegister (n : Nat) (s : State) : Option Word :=
  let c := s.cur
  let st := s.strand c
  let k := s.stream c
  let w (v : Nat) : Option Word := some (BitVec.ofNat 64 v)
  match n with
  | 0x000 => some k.pc
  | 0x001 => some s.strandIdOf
  | 0x002 => w (k.loopCount 0)
  | 0x003 => w (k.loopCount 1)
  | 0x004 => w (k.loopCount 2)
  | 0x005 => w k.loops.length
  | 0x008 => w st.tokCount
  | 0x009 => w st.queueCount
  | 0x00A => w (st.cqBase + st.cq.length - k.cqPos)
  | 0x010 => w k.spillSp
  | 0x011 => w s.myCrew.spillSize
  | 0x012 => some k.ovBase
  | 0x013 => some k.ovPtr
  | 0x014 => some k.ovLimit
  | 0x018 => some st.trapEntry
  | 0x019 => some st.trapCause
  | 0x01A => some k.trapPc
  | 0x01B => some st.trapInfo
  | 0x01C => some k.trapResume
  | 0x01D => w (if st.trapMode then 1 else 0)
  | 0x020 => w (s.cycleOf c.die)
  | _ => none

/-- The system registers of the A stream (R129, R219). -/
def registerA (n : Nat) (s : State) : Option Word :=
  let st := s.strand s.cur
  let k := s.myCrew
  if n = 0x100 then some st.ldstat
  else if n = 0x101 then some st.ldstatpc
  else if n = 0x120 then some (st.cplast.setWidth 64)
  else if n = 0x121 then some k.cpstat
  else if 0x128 ≤ n && n < 0x130 then some (BitVec.ofNat 64 (k.ring (n - 0x128)).posWord)
  else if 0x130 ≤ n && n < 0x138 then some (BitVec.ofNat 64 (k.ring (n - 0x130)).fillWord)
  else if 0x138 ≤ n && n < 0x140 then some (BitVec.ofNat 64 (k.ring (n - 0x138)).cfgWord)
  else none

/-- The system registers of the X stream (R163, R248, R271). -/
def registerX (n : Nat) (s : State) : Option Word :=
  let st := s.strand s.cur
  let k := s.myCrew
  if n = 0x100 then some st.xctl
  else if n = 0x101 then some st.srX
  else if n = 0x140 then some k.mxstat
  else if 0x148 ≤ n && n < 0x150 then some (BitVec.ofNat 64 (k.ring (n - 0x148)).consWord)
  else if 0x150 ≤ n && n < 0x158 then
    let m := k.modes.get (Fin.ofNat 4 ((n - 0x150) / 2))
    some (if n % 2 = 0 then m.1 else m.2)
  else if n = 0x160 then some st.syncstat
  else none

/-- The system registers of the D stream (R287). -/
def registerD (n : Nat) (s : State) : Option Word :=
  let st := s.strand s.cur
  if n = 0x100 then some st.ststat
  else if n = 0x101 then some st.ststatAddr
  else if n = 0x102 then some st.srD
  else if n = 0x108 then some (BitVec.ofNat 64 (drainPos st.ds0 st.written0))
  else if n = 0x109 then some (BitVec.ofNat 64 (drainPos st.ds1 st.written1))
  else none

/-- A system register of the executing stream; none where no register has the number (R79). -/
def systemRegister (n : Nat) (s : State) : Option Word :=
  if n < 0x100 then sharedRegister n s
  else match s.cur.str with
    | .a => registerA n s
    | .x => registerX n s
    | .d => registerD n s

/-- SYSR (R98). -/
def execSysr (sf : BitVec 2) (rd : BitVec 5) (num : BitVec 13) (s : State) :=
  answer (runLower sf (fun s =>
    match systemRegister num.toNat s with
    | none => trap 0x07 (BitVec.ofNat 64 num.toNat)
    | some v => do
      let s1 ← writeReg rd v s
      pure (.next s1)) s)

/-- A write of the generator's state (R119). -/
def seeded (v : Word) : Word := if v = 0 then srSeed else v

/-- Write a system register of the executing stream; none where it cannot be written (R79). -/
def writeSystem (n : Nat) (v : Word) (s : State) : Option State :=
  let c := s.cur
  let st := s.strand c
  let k := s.stream c
  let crew := s.myCrew
  let strand (x : Strand) : Option State := some (s.setStrand c x)
  let stream (x : Stream) : Option State := some (s.setStream c x)
  let status : Word := v &&& 0xFFFFFFFF000000FF
  match n, c.str with
  | 0x012, _ => stream { k with ovBase := v }
  | 0x013, _ => stream { k with ovPtr := v }
  | 0x014, _ => stream { k with ovLimit := v }
  | 0x018, _ => strand { st with trapEntry := v }
  | 0x01C, _ => stream { k with trapResume := v }
  | 0x100, .a => strand { st with ldstat := v &&& 0xFFFFFFFF0000000F }
  | 0x121, .a => some (s.setCrew c.die c.polder { crew with cpstat := v &&& 0xFFFFFFFF00000FFF })
  | 0x100, .x => strand { st with xctl := if 5 ≤ bitsOf v 2 0 then v &&& 0x18 else v &&& 0x1F }
  | 0x101, .x => strand { st with srX := seeded v }
  | 0x140, .x => some (s.setCrew c.die c.polder { crew with mxstat := v &&& 0xFFFFFFFF0001F0FF })
  | 0x160, .x => strand { st with syncstat := status }
  | 0x100, .d => strand { st with ststat := status }
  | 0x102, .d => strand { st with srD := seeded v }
  | _, _ => none

/-- SYSW: causes 0x07 for a number that names no register or one that is only read, 0x09 for one that only a system strand writes
(R79, R98). -/
def execSysw (sf : BitVec 2) (ra : BitVec 5) (num : BitVec 13) (s : State) :=
  answer (runLower sf (fun s => do
    let (v, s1) ← readReg ra s
    let n := num.toNat
    if (0x012 ≤ n && n ≤ 0x014) && !s.myCrew.system then trap 0x09 (BitVec.ofNat 64 n)
    else match writeSystem n v s1 with
    | none => trap 0x07 (BitVec.ofNat 64 (n + 2 ^ 13))
    | some s2 => pure (.next s2)) s)

/-! ## Fences (R93) -/

/-- Whether a fetch of a load stream that had begun when the fence was reached is still in flight (R156). -/
def Strand.fenceFetches (st : Strand) : Bool :=
  match st.a.fencePaths with
  | some (_, _, fs) => st.loadStreams.any fun x => x.flight.isSome && fs.contains (x.began + 1)
  | none => false

/-- Whether every access of the executing strand on a path of P1 that precedes the fence has been performed. -/
def State.fenceReady (s : State) (p1 : BitVec 8) : Bool :=
  let c := s.cur
  let st := s.strand c
  let seq := st.a.seq
  let crew := s.myCrew
  let key := s.myKey
  let on (i : Nat) : Bool := p1.toNat / 2 ^ i % 2 = 1
  let all := on 6 || on 7
  let stores := !(s.storesOut key).isEmpty || !st.rels.isEmpty
    || s.clearingOf c.die key
  let mine (e : CopyCmd) : Bool := e.state ≠ .free && e.strand = c.strand && e.seq < seq
  let copies := crew.copies.toList.any fun e => mine e && e.op ≠ .gather
  let gathers := crew.copies.toList.any fun e => mine e && e.op = .gather
  let syncs := !st.syncQ.isEmpty || s.reqs.any fun e => match e.2.purpose with
    | .sync k => k = key
    | .amax k => k = key
    | _ => false
  let backs := s.reqs.any fun e => e.2.reply.isNone && (match e.2.purpose with
    | .writeBack _ (some k) => k = key
    | _ => false)
  !((on 0 || all) && st.fenceFetches) && !((on 1 || all) && stores) && !((on 2 || all) && copies)
    && !(on 3 && crew.matLive c.strand crew.matOrder)
    && !((on 4 || all) && gathers) && !((on 5 || all) && syncs) && !(all && backs)

/-- What a stream holds in progress at a FENCE.X that it has reached: A the paths and the fetches begun by then. -/
def Strand.fenceData (st : Strand) (k : Str) (p1 p2 : BitVec 8) : List Nat :=
  let begun (x : Option AffineStream) : Nat := match x with
    | some x => if x.flight.isSome then x.began + 1 else 0
    | none => 0
  if k = .a then [p1.toNat, p2.toNat, begun st.ls0, begun st.ls1] else [1003]

/-- FENCE.X: once all three streams have reached it and what it orders has been performed, with the write-backs and the
invalidation of a fence at die scope or wider, all three go on. Writes of drain streams that begin while its write-backs are out
come before it too, so it then looks again (R93, R302). -/
def execFenceX (scope : BitVec 3) (p1 p2 : BitVec 8) (s : State) :=
  answer (runWord 1 (fun _ => true) 0 (fun s0 _ =>
    let c := s0.cur
    let st := s0.strand c
    let k := st.get c.str
    let release (s : State) : Res Eff :=
      let s1 := if dieScope scope then s.invalidateContext c else s
      let st1 := s1.strand c
      pure (.done (s1.setStrand c { st1 with a := st1.a.advance 1, x := st1.x.advance 1, d := st1.d.advance 1 }))
    let look (s : State) : Res Eff :=
      if !s.fenceReady p1 then pure (.stay s)
      else
        let (wb, s1) := if dieScope scope then s.writeBackContext c else ([], s)
        if wb.isEmpty then release s
        else
          let st1 := s1.strand c
          let p : Pend := { ids := wb, data := [1003, 1, st1.written0, st1.written1] }
          pure (.stay (s1.setStrand c { st1 with x := { st1.x with pend := some p } }))
    if !k.arrived then
      let s1 := match k.pend with
        | some p => s0.forgetAll p.ids
        | none => s0
      let p : Pend := { ids := [], data := st.fenceData c.str p1 p2 }
      pure (.stay (s1.setStream c { k with arrived := true, wait := some .uncounted, pend := some p }))
    else if !(st.a.arrived && st.x.arrived && st.d.arrived) then pure (.stay s0)
    else match st.x.pend with
    | some ⟨ids, [1003, 1, w0, w1]⟩ =>
      if !s0.allReplied ids then pure (.stay s0)
      else
        let s1 := s0.forgetAll ids
        if st.written0 = w0 && st.written1 = w1 then release s1
        else look (s1.setStrand c { s1.strand c with x := { st.x with pend := some { ids := [], data := [1003] } } })
    | _ => look s0) s)

/-! ## The stall watchdog (R64, R65) -/

/-- The kind of a wait in the watchdog's TRAPINFO (R102); 0 for one that it does not count. -/
def Wait.kind : Wait → Nat
  | .dataQueue => 1
  | .token => 2
  | .branchQueue => 3
  | .countQueue => 4
  | .tileBit => 5
  | .commandQueue => 6
  | .uncounted => 0

/-- STALL_WATCHDOG_TRAP: a stream whose count has reached the interval traps at the word it waits on (R65). Input: the stream,
0 A, 1 X, 2 D. -/
def execStallWatchdogTrap (s : State) :=
  let k := s.inp.getD 0 0
  let c : Ctx := { s.cur with str := if k = 0 then .a else if k = 1 then .x else .d, rot := false }
  let w := (s.die c.die).stallwd
  answer (match s.strand? c, s.crew? c.die c.polder with
    | some st, some crew =>
      let x := st.get c.str
      (match x.wait with
        | none => s
        | some v =>
          if bitsOf w 31 31 = 0 || v.kind = 0 || x.ended || crew.halted || x.waited < microseconds (max 1 (bitsOf w 23 0)) then s
          else { s with cur := c }.takeTrap 0x7C (BitVec.ofNat 64 v.kind))
    | _, _ => s)

end Sys2Proof.Machine
end

