-- ==== Sys2Proof/Machine/Dispatch.lean ====
section
/-! DEFINITION. The meaning of every instruction: one arm per constructor. -/

namespace Sys2Proof.Machine

/-- The effect of an instruction. -/
def exec (i : Instr) (s : State) : Host.Outcome State Fault Refusal :=
  match i with
  | .add sf rd ra rb => Sys2Proof.Machine.execAdd sf rd ra rb s
  | .sub sf rd ra rb => Sys2Proof.Machine.execSub sf rd ra rb s
  | .and sf rd ra rb => Sys2Proof.Machine.execAnd sf rd ra rb s
  | .or sf rd ra rb => Sys2Proof.Machine.execOr sf rd ra rb s
  | .xor sf rd ra rb => Sys2Proof.Machine.execXor sf rd ra rb s
  | .sll sf rd ra rb => Sys2Proof.Machine.execSll sf rd ra rb s
  | .srl sf rd ra rb => Sys2Proof.Machine.execSrl sf rd ra rb s
  | .sra sf rd ra rb => Sys2Proof.Machine.execSra sf rd ra rb s
  | .mul sf rd ra rb => Sys2Proof.Machine.execMul sf rd ra rb s
  | .mulhu sf rd ra rb => Sys2Proof.Machine.execMulhu sf rd ra rb s
  | .mulh sf rd ra rb => Sys2Proof.Machine.execMulh sf rd ra rb s
  | .slt sf rd ra rb => Sys2Proof.Machine.execSlt sf rd ra rb s
  | .sltu sf rd ra rb => Sys2Proof.Machine.execSltu sf rd ra rb s
  | .min sf rd ra rb => Sys2Proof.Machine.execMin sf rd ra rb s
  | .max sf rd ra rb => Sys2Proof.Machine.execMax sf rd ra rb s
  | .minu sf rd ra rb => Sys2Proof.Machine.execMinu sf rd ra rb s
  | .maxu sf rd ra rb => Sys2Proof.Machine.execMaxu sf rd ra rb s
  | .addi sf rd ra imm => Sys2Proof.Machine.execAddi sf rd ra imm s
  | .slti sf rd ra imm => Sys2Proof.Machine.execSlti sf rd ra imm s
  | .andi sf rd ra imm => Sys2Proof.Machine.execAndi sf rd ra imm s
  | .ori sf rd ra imm => Sys2Proof.Machine.execOri sf rd ra imm s
  | .xori sf rd ra imm => Sys2Proof.Machine.execXori sf rd ra imm s
  | .slli sf rd ra sh => Sys2Proof.Machine.execSlli sf rd ra sh s
  | .srli sf rd ra sh => Sys2Proof.Machine.execSrli sf rd ra sh s
  | .srai sf rd ra sh => Sys2Proof.Machine.execSrai sf rd ra sh s
  | .lui sf rd imm => Sys2Proof.Machine.execLui sf rd imm s
  | .beq ev offHi ra rb offLo => Sys2Proof.Machine.execBeq ev offHi ra rb offLo s
  | .bne ev offHi ra rb offLo => Sys2Proof.Machine.execBne ev offHi ra rb offLo s
  | .blt ev offHi ra rb offLo => Sys2Proof.Machine.execBlt ev offHi ra rb offLo s
  | .bge ev offHi ra rb offLo => Sys2Proof.Machine.execBge ev offHi ra rb offLo s
  | .bltu ev offHi ra rb offLo => Sys2Proof.Machine.execBltu ev offHi ra rb offLo s
  | .bgeu ev offHi ra rb offLo => Sys2Proof.Machine.execBgeu ev offHi ra rb offLo s
  | .bpany offHi pn offLo => Sys2Proof.Machine.execBpany offHi pn offLo s
  | .bpnone offHi pn offLo => Sys2Proof.Machine.execBpnone offHi pn offLo s
  | .j off => Sys2Proof.Machine.execJ off s
  | .jal rd off => Sys2Proof.Machine.execJal rd off s
  | .jr ev ra => Sys2Proof.Machine.execJr ev ra s
  | .jalr ev rd ra => Sys2Proof.Machine.execJalr ev rd ra s
  | .loopi count body => Sys2Proof.Machine.execLoopi count body s
  | .loopr ev ra body => Sys2Proof.Machine.execLoopr ev ra body s
  | .loopq body => Sys2Proof.Machine.execLoopq body s
  | .tagw sf rd ra => Sys2Proof.Machine.execTagw sf rd ra s
  | .tok sf tk => Sys2Proof.Machine.execTok sf tk s
  | .fenceX scope p1 p2 => Sys2Proof.Machine.execFenceX scope p1 p2 s
  | .push sf reg cls => Sys2Proof.Machine.execPush sf reg cls s
  | .pop sf reg cls => Sys2Proof.Machine.execPop sf reg cls s
  | .trap sf imm => Sys2Proof.Machine.execTrap sf imm s
  | .eret => Sys2Proof.Machine.execEret s
  | .sysr sf rd num => Sys2Proof.Machine.execSysr sf rd num s
  | .sysw sf ra num => Sys2Proof.Machine.execSysw sf ra num s
  | .exit => Sys2Proof.Machine.execExit s
  | .ld tk rd h ra size u stf => Sys2Proof.Machine.execLd tk rd h ra size u stf s
  | .ldAcq tk rd h ra size u stf scope => Sys2Proof.Machine.execLdAcq tk rd h ra size u stf scope s
  | .ldv tk q width h ra statp => Sys2Proof.Machine.execLdv tk q width h ra statp s
  | .ldvAcq tk q width h ra scope statp => Sys2Proof.Machine.execLdvAcq tk q width h ra scope statp s
  | .ldvs tk q width h ra rb statp => Sys2Proof.Machine.execLdvs tk q width h ra rb statp s
  | .ldvg tk q width h ra rb statp => Sys2Proof.Machine.execLdvg tk q width h ra rb statp s
  | .ldp tk rd ra size u => Sys2Proof.Machine.execLdp tk rd ra size u s
  | .ldpv tk q width orient ra => Sys2Proof.Machine.execLdpv tk q width orient ra s
  | .ldpvg tk q width ra rb => Sys2Proof.Machine.execLdpvg tk q width ra rb s
  | .xlate tk rd hn ra => Sys2Proof.Machine.execXlate tk rd hn ra s
  | .htest tk rd hn => Sys2Proof.Machine.execHtest tk rd hn s
  | .hrel tk hn => Sys2Proof.Machine.execHrel tk hn s
  | .hmov tk hn hm => Sys2Proof.Machine.execHmov tk hn hm s
  | .preq tk rd ra => Sys2Proof.Machine.execPreq tk rd ra s
  | .pref tk h ra len => Sys2Proof.Machine.execPref tk h ra len s
  | .scbq tk rd ra rb space => Sys2Proof.Machine.execScbq tk rd ra rb space s
  | .scbwait tk ra => Sys2Proof.Machine.execScbwait tk ra s
  | .sbind tk q ra => Sys2Proof.Machine.execSbind tk q ra s
  | .sunbind tk q => Sys2Proof.Machine.execSunbind tk q s
  | .sbget tk q rd => Sys2Proof.Machine.execSbget tk q rd s
  | .sbadv tk q ra => Sys2Proof.Machine.execSbadv tk q ra s
  | .sbwait tk q => Sys2Proof.Machine.execSbwait tk q s
  | .cpy tk scol sc rd ra rb => Sys2Proof.Machine.execCpy tk scol sc rd ra rb s
  | .cpym tk scol sc rd ra rb follow => Sys2Proof.Machine.execCpym tk scol sc rd ra rb follow s
  | .cpyr tk scol ring ra rb => Sys2Proof.Machine.execCpyr tk scol ring ra rb s
  | .cpyrAt tk scol ring rp ra rb => Sys2Proof.Machine.execCpyrAt tk scol ring rp ra rb s
  | .cpyg tk rd ra rb => Sys2Proof.Machine.execCpyg tk rd ra rb s
  | .cpymeta tk rd ra rb => Sys2Proof.Machine.execCpymeta tk rd ra rb s
  | .cpyq tk ra rb => Sys2Proof.Machine.execCpyq tk ra rb s
  | .cmerge tk op rd ra rb => Sys2Proof.Machine.execCmerge tk op rd ra rb s
  | .bfmt tk bank code => Sys2Proof.Machine.execBfmt tk bank code s
  | .ccancel tk rd ra => Sys2Proof.Machine.execCcancel tk rd ra s
  | .cstat tk rd ra => Sys2Proof.Machine.execCstat tk rd ra s
  | .mma tk u fill td ringA ringB oa ob ms ks => Sys2Proof.Machine.execMma tk u fill td ringA ringB oa ob ms ks s
  | .mmas tk u fill td ringA ringB oa ob ms ks => Sys2Proof.Machine.execMmas tk u fill td ringA ringB oa ob ms ks s
  | .mmag tk u fill td ringB ob ms ks => Sys2Proof.Machine.execMmag tk u fill td ringB ob ms ks s
  | .mctlZero tk u tile fill => Sys2Proof.Machine.execMctlZero tk u tile fill s
  | .mctlMode tk u ms sa sb => Sys2Proof.Machine.execMctlMode tk u ms sa sb s
  | .mctlRing tk u ring sa => Sys2Proof.Machine.execMctlRing tk u ring sa s
  | .mctlPop tk u ring sa => Sys2Proof.Machine.execMctlPop tk u ring sa s
  | .mctlWait tk rd => Sys2Proof.Machine.execMctlWait tk rd s
  | .vadd tk width vd va vb pred => Sys2Proof.Machine.execVadd tk width vd va vb pred s
  | .vsub tk width vd va vb pred => Sys2Proof.Machine.execVsub tk width vd va vb pred s
  | .vmul tk width vd va vb pred => Sys2Proof.Machine.execVmul tk width vd va vb pred s
  | .vand tk width vd va vb pred => Sys2Proof.Machine.execVand tk width vd va vb pred s
  | .vor tk width vd va vb pred => Sys2Proof.Machine.execVor tk width vd va vb pred s
  | .vxor tk width vd va vb pred => Sys2Proof.Machine.execVxor tk width vd va vb pred s
  | .vfnsb tk width vd va vb pred => Sys2Proof.Machine.execVfnsb tk width vd va vb pred s
  | .vslli tk width vd va sh => Sys2Proof.Machine.execVslli tk width vd va sh s
  | .vsrli tk width vd va sh => Sys2Proof.Machine.execVsrli tk width vd va sh s
  | .vsrai tk width vd va sh => Sys2Proof.Machine.execVsrai tk width vd va sh s
  | .vfadd tk ftype vd va vb pred => Sys2Proof.Machine.execVfadd tk ftype vd va vb pred s
  | .vfsub tk ftype vd va vb pred => Sys2Proof.Machine.execVfsub tk ftype vd va vb pred s
  | .vfmul tk ftype vd va vb pred => Sys2Proof.Machine.execVfmul tk ftype vd va vb pred s
  | .vfma tk ftype vd va vb pred => Sys2Proof.Machine.execVfma tk ftype vd va vb pred s
  | .vcmp tk width fl pd va vb cond => Sys2Proof.Machine.execVcmp tk width fl pd va vb cond s
  | .vsel tk width vd va vb pred => Sys2Proof.Machine.execVsel tk width vd va vb pred s
  | .vmov tk width vd va pred => Sys2Proof.Machine.execVmov tk width vd va pred s
  | .vnot tk width vd va pred => Sys2Proof.Machine.execVnot tk width vd va pred s
  | .vneg tk width vd va pred => Sys2Proof.Machine.execVneg tk width vd va pred s
  | .vpopc tk width vd va pred => Sys2Proof.Machine.execVpopc tk width vd va pred s
  | .vclz tk width vd va pred => Sys2Proof.Machine.execVclz tk width vd va pred s
  | .vbrev tk width vd va pred => Sys2Proof.Machine.execVbrev tk width vd va pred s
  | .vfabs tk ftype vd va pred => Sys2Proof.Machine.execVfabs tk ftype vd va pred s
  | .vexp2 tk ftype vd va pred => Sys2Proof.Machine.execVexp2 tk ftype vd va pred s
  | .vlog2 tk ftype vd va pred => Sys2Proof.Machine.execVlog2 tk ftype vd va pred s
  | .vrcp tk ftype vd va pred => Sys2Proof.Machine.execVrcp tk ftype vd va pred s
  | .vrsqrt tk ftype vd va pred => Sys2Proof.Machine.execVrsqrt tk ftype vd va pred s
  | .vtanh tk ftype vd va pred => Sys2Proof.Machine.execVtanh tk ftype vd va pred s
  | .vsigm tk ftype vd va pred => Sys2Proof.Machine.execVsigm tk ftype vd va pred s
  | .vcvt tk vd va srcf dstf rm => Sys2Proof.Machine.execVcvt tk vd va srcf dstf rm s
  | .vbcast tk width vd sa => Sys2Proof.Machine.execVbcast tk width vd sa s
  | .vext tk width sd va sb => Sys2Proof.Machine.execVext tk width sd va sb s
  | .vperm tk width vd va vb => Sys2Proof.Machine.execVperm tk width vd va vb s
  | .vrsum tk width sd va pn => Sys2Proof.Machine.execVrsum tk width sd va pn s
  | .vrmax tk width sd va pn => Sys2Proof.Machine.execVrmax tk width sd va pn s
  | .vfrsum tk sd va pn => Sys2Proof.Machine.execVfrsum tk sd va pn s
  | .vfrmax tk sd va pn => Sys2Proof.Machine.execVfrmax tk sd va pn s
  | .vqdx tk dx8 vd va vb => Sys2Proof.Machine.execVqdx tk dx8 vd va vb s
  | .vdqdx tk dx8 vd va vb => Sys2Proof.Machine.execVdqdx tk dx8 vd va vb s
  | .fadd tk sd sa sb => Sys2Proof.Machine.execFadd tk sd sa sb s
  | .fsub tk sd sa sb => Sys2Proof.Machine.execFsub tk sd sa sb s
  | .fmul tk sd sa sb => Sys2Proof.Machine.execFmul tk sd sa sb s
  | .fmin tk sd sa sb => Sys2Proof.Machine.execFmin tk sd sa sb s
  | .fmax tk sd sa sb => Sys2Proof.Machine.execFmax tk sd sa sb s
  | .fcmp tk cond sd sa sb => Sys2Proof.Machine.execFcmp tk cond sd sa sb s
  | .fcvtif tk sd sa => Sys2Proof.Machine.execFcvtif tk sd sa s
  | .fcvtfi tk sd sa => Sys2Proof.Machine.execFcvtfi tk sd sa s
  | .vthr tk vd va vb pd => Sys2Proof.Machine.execVthr tk vd va vb pd s
  | .vhist tk vd va vb pn => Sys2Proof.Machine.execVhist tk vd va vb pn s
  | .vxrep tk vd va vb pn => Sys2Proof.Machine.execVxrep tk vd va vb pn s
  | .vgatew tk vd va pn => Sys2Proof.Machine.execVgatew tk vd va pn s
  | .cqpush tk va pn => Sys2Proof.Machine.execCqpush tk va pn s
  | .vtileRd tk vd tile rs clr => Sys2Proof.Machine.execVtileRd tk vd tile rs clr s
  | .vtileWr tk va tile rs fill => Sys2Proof.Machine.execVtileWr tk va tile rs fill s
  | .plog tk pd pa pb op => Sys2Proof.Machine.execPlog tk pd pa pb op s
  | .pcnt tk sd pa => Sys2Proof.Machine.execPcnt tk sd pa s
  | .vtop tk pd va => Sys2Proof.Machine.execVtop tk pd va s
  | .ptov tk vd pa => Sys2Proof.Machine.execPtov tk vd pa s
  | .atom tk rd ra op w64 ord scope => Sys2Proof.Machine.execAtom tk rd ra op w64 ord scope s
  | .red tk rd ra op w64 ord scope => Sys2Proof.Machine.execRed tk rd ra op w64 ord scope s
  | .acas tk rd ra w64 ord scope => Sys2Proof.Machine.execAcas tk rd ra w64 ord scope s
  | .bara tk rd ra => Sys2Proof.Machine.execBara tk rd ra s
  | .barw tk rd ra rb => Sys2Proof.Machine.execBarw tk rd ra rb s
  | .carm tk ra rb rc => Sys2Proof.Machine.execCarm tk ra rb rc s
  | .carr tk ra rb => Sys2Proof.Machine.execCarr tk ra rb s
  | .cwait tk rd ra rb => Sys2Proof.Machine.execCwait tk rd ra rb s
  | .semp tk rd ra => Sys2Proof.Machine.execSemp tk rd ra s
  | .semv tk ra rb => Sys2Proof.Machine.execSemv tk ra rb s
  | .waitc tk ra rb rc => Sys2Proof.Machine.execWaitc tk ra rb rc s
  | .signal tk ra rb => Sys2Proof.Machine.execSignal tk ra rb s
  | .st tk rs h ra size => Sys2Proof.Machine.execSt tk rs h ra size s
  | .stRel tk rs h ra size scope => Sys2Proof.Machine.execStRel tk rs h ra size scope s
  | .stv tk q h ra => Sys2Proof.Machine.execStv tk q h ra s
  | .stvs tk q width h ra rb => Sys2Proof.Machine.execStvs tk q width h ra rb s
  | .stvx tk q width h ra rb => Sys2Proof.Machine.execStvx tk q width h ra rb s
  | .stp tk ra rs size => Sys2Proof.Machine.execStp tk ra rs size s
  | .stpv tk q width orient ra => Sys2Proof.Machine.execStpv tk q width orient ra s
  | .dbind tk q ra => Sys2Proof.Machine.execDbind tk q ra s
  | .dunbind tk q => Sys2Proof.Machine.execDunbind tk q s
  | .drain tk tile rc ra rx => Sys2Proof.Machine.execDrain tk tile rc ra rx s
  | .claim tk rd ra rb => Sys2Proof.Machine.execClaim tk rd ra rb s
  | .spawn tk rd ra rb => Sys2Proof.Machine.execSpawn tk rd ra rb s
  | .endt tk => Sys2Proof.Machine.execEndt tk s
  | .join tk rd => Sys2Proof.Machine.execJoin tk rd s
  | .check tk rd => Sys2Proof.Machine.execCheck tk rd s
  | .launch tk rd ra rb => Sys2Proof.Machine.execLaunch tk rd ra rb s
  | .jcancel tk rd ra => Sys2Proof.Machine.execJcancel tk rd ra s
  | .tinfo tk rd ra => Sys2Proof.Machine.execTinfo tk rd ra s
  | .rqset tk rd ra rb => Sys2Proof.Machine.execRqset tk rd ra rb s
  | .rinj rd ra rb => Sys2Proof.Machine.execRinj rd ra rb s
  | .rdrop rd ra => Sys2Proof.Machine.execRdrop rd ra s
  | .rkeep rd ra rb => Sys2Proof.Machine.execRkeep rd ra rb s
  | .rfwd rd ra => Sys2Proof.Machine.execRfwd rd ra s
  | .rhold rd ra => Sys2Proof.Machine.execRhold rd ra s
  | .rtag rd ra rb => Sys2Proof.Machine.execRtag rd ra rb s
  | .rpar rd ra rb => Sys2Proof.Machine.execRpar rd ra rb s
  | .rbyp rd ra => Sys2Proof.Machine.execRbyp rd ra s
  | .rstat rd ra => Sys2Proof.Machine.execRstat rd ra s
  | .fxfill tk rd ra rb => Sys2Proof.Machine.execFxfill tk rd ra rb s
  | .fkey tk rd ra => Sys2Proof.Machine.execFkey tk rd ra s
  | .flane tk rd ra rb => Sys2Proof.Machine.execFlane tk rd ra rb s
  | .strandEnd => Sys2Proof.Machine.execStrandEnd s
  | .stallWatchdogTrap => Sys2Proof.Machine.execStallWatchdogTrap s
  | .vectorLoadComplete => Sys2Proof.Machine.execVectorLoadComplete s
  | .loadStreamFetch => Sys2Proof.Machine.execLoadStreamFetch s
  | .requesterTimeout => Sys2Proof.Machine.execRequesterTimeout s
  | .tagRestEnd => Sys2Proof.Machine.execTagRestEnd s
  | .xentWrite => Sys2Proof.Machine.execXentWrite s
  | .frclose => Sys2Proof.Machine.execFrclose s
  | .bfmtPerform => Sys2Proof.Machine.execBfmtPerform s
  | .copyCommandStart => Sys2Proof.Machine.execCopyCommandStart s
  | .copyUnitLand => Sys2Proof.Machine.execCopyUnitLand s
  | .followOnHandoff => Sys2Proof.Machine.execFollowOnHandoff s
  | .copySuspend => Sys2Proof.Machine.execCopySuspend s
  | .copyEngineReset => Sys2Proof.Machine.execCopyEngineReset s
  | .matrixCommandStart => Sys2Proof.Machine.execMatrixCommandStart s
  | .tileAcquire => Sys2Proof.Machine.execTileAcquire s
  | .slabStepIssue => Sys2Proof.Machine.execSlabStepIssue s
  | .mmagLengthReread => Sys2Proof.Machine.execMmagLengthReread s
  | .matrixCommandRetire => Sys2Proof.Machine.execMatrixCommandRetire s
  | .ringConfigEffect => Sys2Proof.Machine.execRingConfigEffect s
  | .matrixEngineReset => Sys2Proof.Machine.execMatrixEngineReset s
  | .syncCommandSend => Sys2Proof.Machine.execSyncCommandSend s
  | .syncWaitLimit => Sys2Proof.Machine.execSyncWaitLimit s
  | .triggerTake => Sys2Proof.Machine.execTriggerTake s
  | .syncEngineReset => Sys2Proof.Machine.execSyncEngineReset s
  | .drainStreamWrite => Sys2Proof.Machine.execDrainStreamWrite s
  | .claimWindowClose => Sys2Proof.Machine.execClaimWindowClose s
  | .recordAdmission => Sys2Proof.Machine.execRecordAdmission s
  | .overlapWordRead => Sys2Proof.Machine.execOverlapWordRead s
  | .taskDispatch => Sys2Proof.Machine.execTaskDispatch s
  | .gangStart => Sys2Proof.Machine.execGangStart s
  | .taskEnd => Sys2Proof.Machine.execTaskEnd s
  | .launchRetire => Sys2Proof.Machine.execLaunchRetire s
  | .graphNodeFire => Sys2Proof.Machine.execGraphNodeFire s
  | .rampWindowEnd => Sys2Proof.Machine.execRampWindowEnd s
  | .taskEngineReset => Sys2Proof.Machine.execTaskEngineReset s
  | .taskEngineResumeTimeout => Sys2Proof.Machine.execTaskEngineResumeTimeout s
  | .preemptGo => Sys2Proof.Machine.execPreemptGo s
  | .preemptHold => Sys2Proof.Machine.execPreemptHold s
  | .preemptResume => Sys2Proof.Machine.execPreemptResume s
  | .preemptDiscard => Sys2Proof.Machine.execPreemptDiscard s
  | .preemptStopComplete => Sys2Proof.Machine.execPreemptStopComplete s
  | .jobclr => Sys2Proof.Machine.execJobclr s
  | .qpush => Sys2Proof.Machine.execQpush s
  | .snapdataWrite => Sys2Proof.Machine.execSnapdataWrite s
  | .rpctlStart => Sys2Proof.Machine.execRpctlStart s
  | .rpctlStop => Sys2Proof.Machine.execRpctlStop s
  | .segmentArrival => Sys2Proof.Machine.execSegmentArrival s
  | .segmentForwardComplete => Sys2Proof.Machine.execSegmentForwardComplete s
  | .dropRecord => Sys2Proof.Machine.execDropRecord s
  | .lostRecord => Sys2Proof.Machine.execLostRecord s
  | .mirrorUpdate => Sys2Proof.Machine.execMirrorUpdate s
  | .ringFailureDetect => Sys2Proof.Machine.execRingFailureDetect s
  | .ringResume => Sys2Proof.Machine.execRingResume s
  | .ringEngineReset => Sys2Proof.Machine.execRingEngineReset s
  | .ringEngineRestartTimeout => Sys2Proof.Machine.execRingEngineRestartTimeout s
  | .flitSend => Sys2Proof.Machine.execFlitSend s
  | .flitReceive => Sys2Proof.Machine.execFlitReceive s
  | .congestionDetect => Sys2Proof.Machine.execCongestionDetect s
  | .setAsideNotice => Sys2Proof.Machine.execSetAsideNotice s
  | .setAsideRelease => Sys2Proof.Machine.execSetAsideRelease s
  | .autoKeyRotation => Sys2Proof.Machine.execAutoKeyRotation s
  | .laneThresholdCross => Sys2Proof.Machine.execLaneThresholdCross s
  | .laneWindowEnd => Sys2Proof.Machine.execLaneWindowEnd s
  | .laneNotice => Sys2Proof.Machine.execLaneNotice s
  | .trainingAttemptEnd => Sys2Proof.Machine.execTrainingAttemptEnd s
  | .readRequest => Sys2Proof.Machine.execReadRequest s
  | .writeRequest => Sys2Proof.Machine.execWriteRequest s
  | .syncCommandRequest => Sys2Proof.Machine.execSyncCommandRequest s
  | .translationRequest => Sys2Proof.Machine.execTranslationRequest s
  | .invalidationRequest => Sys2Proof.Machine.execInvalidationRequest s
  | .engineNotice => Sys2Proof.Machine.execEngineNotice s
  | .readData => Sys2Proof.Machine.execReadData s
  | .writeAcknowledgement => Sys2Proof.Machine.execWriteAcknowledgement s
  | .syncReply => Sys2Proof.Machine.execSyncReply s
  | .translationReply => Sys2Proof.Machine.execTranslationReply s
  | .invalidationAcknowledgement => Sys2Proof.Machine.execInvalidationAcknowledgement s
  | .noticeAcknowledgement => Sys2Proof.Machine.execNoticeAcknowledgement s
  | .invalidationResend => Sys2Proof.Machine.execInvalidationResend s
  | .fabricEngineReset => Sys2Proof.Machine.execFabricEngineReset s
  | .slctlGo => Sys2Proof.Machine.execSlctlGo s
  | .drainMarker => Sys2Proof.Machine.execDrainMarker s
  | .sluiceDrainComplete => Sys2Proof.Machine.execSluiceDrainComplete s
  | .sluiceDrainTimeout => Sys2Proof.Machine.execSluiceDrainTimeout s
  | .sluiceDarkEnd => Sys2Proof.Machine.execSluiceDarkEnd s
  | .pathRelockComplete => Sys2Proof.Machine.execPathRelockComplete s
  | .pathRelockTimeout => Sys2Proof.Machine.execPathRelockTimeout s
  | .configRequest => Sys2Proof.Machine.execConfigRequest s
  | .inboundBarRead => Sys2Proof.Machine.execInboundBarRead s
  | .inboundBarWrite => Sys2Proof.Machine.execInboundBarWrite s
  | .inboundAtomicop => Sys2Proof.Machine.execInboundAtomicop s
  | .uqnotify => Sys2Proof.Machine.execUqnotify s
  | .uqctlWrite => Sys2Proof.Machine.execUqctlWrite s
  | .packetFetch => Sys2Proof.Machine.execPacketFetch s
  | .launchPacket => Sys2Proof.Machine.execLaunchPacket s
  | .cancelPacket => Sys2Proof.Machine.execCancelPacket s
  | .barrierPacket => Sys2Proof.Machine.execBarrierPacket s
  | .launchInterrupt => Sys2Proof.Machine.execLaunchInterrupt s
  | .deviceHostAccess => Sys2Proof.Machine.execDeviceHostAccess s
  | .hostCompletion => Sys2Proof.Machine.execHostCompletion s
  | .pcieCompletionTimeout => Sys2Proof.Machine.execPcieCompletionTimeout s
  | .hostLinkDown => Sys2Proof.Machine.execHostLinkDown s
  | .hostEngineReset => Sys2Proof.Machine.execHostEngineReset s
  | .identity => Sys2Proof.Machine.execIdentity s
  | .attest => Sys2Proof.Machine.execAttest s
  | .keyset => Sys2Proof.Machine.execKeyset s
  | .keyclr => Sys2Proof.Machine.execKeyclr s
  | .ctxbind => Sys2Proof.Machine.execCtxbind s
  | .domkey => Sys2Proof.Machine.execDomkey s
  | .journalRead => Sys2Proof.Machine.execJournalRead s
  | .journalClear => Sys2Proof.Machine.execJournalClear s
  | .fwstage => Sys2Proof.Machine.execFwstage s
  | .fenceDie => Sys2Proof.Machine.execFenceDie s
  | .unfenceDie => Sys2Proof.Machine.execUnfenceDie s
  | .diereset => Sys2Proof.Machine.execDiereset s
  | .pwrcap => Sys2Proof.Machine.execPwrcap s
  | .telem => Sys2Proof.Machine.execTelem s
  | .moduleReset => Sys2Proof.Machine.execModuleReset s
  | .bootStep => Sys2Proof.Machine.execBootStep s
  | .bootWatchdog => Sys2Proof.Machine.execBootWatchdog s
  | .powerThermalTick => Sys2Proof.Machine.execPowerThermalTick s
  | .correctedErrorThreshold => Sys2Proof.Machine.execCorrectedErrorThreshold s
  | .registerWrite => Sys2Proof.Machine.execRegisterWrite s
  | .illegalInstruction => Sys2Proof.Machine.execIllegalInstruction s
  | .instructionFetchFault => Sys2Proof.Machine.execInstructionFetchFault s
  | .rampFillerIssue => Sys2Proof.Machine.execRampFillerIssue s
  | .linkRelockComplete => Sys2Proof.Machine.execLinkRelockComplete s
  | .hostLinkUp => Sys2Proof.Machine.execHostLinkUp s

end Sys2Proof.Machine
end

