-- ==== Sys2Proof/Machine/Turn.lean ====
section
/-! DEFINITION. Whose turn it is and what it is given: the passing of time with the stall watchdog's counts, who may act, and
the fetch of a word (R25, R65, R70, R73, R87, R189, R307, R353, R447, R458; log 1, log 14). -/

namespace Sys2Proof.Machine

/-- The next turn: the first that is listed, or else a free one (log 1). -/
def State.nextTurn (s : State) : Turn × State :=
  match s.turns with
  | t :: r => (t, { s with turns := r })
  | [] => (Config.freeTurn s.turnNo, { s with turnNo := s.turnNo + 1 })

/-- A stream's stall count after `dt` cycles: it counts while the stream waits on what the watchdog counts (R65). -/
def Stream.stall (st : Stream) (dt : Nat) : Stream :=
  match st.wait with
  | none => st
  | some .uncounted => st
  | some _ => { st with waited := st.waited + dt }

/-- Whether the stall counts of a crew stand still: it is held, or a copy of it is suspended (R65). -/
def Crew.stallsPaused (c : Crew) : Bool := c.halted || c.copies.toList.any fun e => e.state = .suspended

/-- Let cycles pass (R65, R79). -/
def State.pass (s : State) (dt : Nat) : State :=
  let strands : List (Nat × Strand) := s.strands.map fun e =>
    match look (e.1 / 4) s.crews with
    | none => e
    | some c =>
      if c.stallsPaused then e
      else (e.1, { e.2 with a := e.2.a.stall dt, x := e.2.x.stall dt, d := e.2.d.stall dt })
  { s with cycle := s.cycle + dt, strands := strands }

/-- Take a turn: time passes, releases that have retired go on (R301), and the agent and its inputs are set. -/
def State.take (s : State) (t : Turn) : State :=
  let k : Str := match t.act with
    | .stream k => k
    | _ => .x
  let rot : Bool := match t.act with
    | .rotation => true
    | _ => false
  let c : Ctx := { die := t.die % 16, polder := t.polder % 64, strand := t.strand % 4, str := k, rot := rot }
  { (s.pass t.dt).advanceReleases with cur := c, inp := t.inp }

/-- Whether an event is the module's and not an engine's of a die: it does not need its die in service (R447, R458). -/
def moduleWide (i : Instr) : Bool :=
  match i with
  | .slctlGo | .sluiceDrainComplete | .sluiceDrainTimeout | .sluiceDarkEnd | .pathRelockComplete | .pathRelockTimeout => true
  | .configRequest | .inboundBarRead | .inboundBarWrite | .inboundAtomicop | .uqnotify | .uqctlWrite | .packetFetch => true
  | .launchPacket | .cancelPacket | .barrierPacket | .launchInterrupt | .deviceHostAccess | .hostCompletion => true
  | .pcieCompletionTimeout | .hostLinkDown | .hostEngineReset | .hostLinkUp | .registerWrite => true
  | .identity | .attest | .keyset | .keyclr | .ctxbind | .domkey | .journalRead | .journalClear | .fwstage => true
  | .fenceDie | .unfenceDie | .diereset | .pwrcap | .telem | .moduleReset | .bootStep | .bootWatchdog => true
  | .powerThermalTick => true
  | _ => false

/-- Whether a turn may perform an event: it is no word, it is not one that decode or fetch alone brings about, and its die is
in service if it is a die's. -/
def State.mayAct (s : State) (i : Instr) : Bool :=
  (Sys2Proof.encode i).isEmpty && i ≠ .illegalInstruction && i ≠ .instructionFetchFault && (moduleWide i || (s.die s.cur.die).live)

/-- The words of an outermost body that its first iteration passed by: they are fetched before the second begins (R189). -/
def State.restOfBody (s : State) (l : Loop) (buf : List (Nat × BitVec 32)) : List (Nat × BitVec 32) :=
  ((List.range 256).map fun k => l.start.toNat + 4 * k).foldl (fun (b : List (Nat × BitVec 32)) a =>
    if l.stop.toNat < a || (look a b).isSome then b
    else match s.fetch32 a with
      | some w => put a w b
      | none => b) buf

/-- Hold a fetched word in the loop buffer, if it lies in the body of the outermost active level; when the level comes back to
its first word the buffer is filled up (R189). -/
def State.buffer (s : State) (a : Nat) (w : BitVec 32) : State :=
  let st := s.stream s.cur
  match st.loops.getLast? with
  | none => s
  | some l =>
    if a = l.start.toNat && (look a st.loopBuf).isSome then
      s.setStream s.cur { st with loopBuf := s.restOfBody l st.loopBuf }
    else if l.start.toNat ≤ a && a ≤ l.stop.toNat + 4 && st.loopBuf.length < 256 then
      s.setStream s.cur { st with loopBuf := put a w st.loopBuf }
    else s

/-- What an agent's fetch brings. -/
inductive Fetched where
  /-- the agent runs no word now -/
  | idle
  | word (i : Instr) (s : State)
  /-- the culprit word, the reason, the word at the pc and the number of words to pass by (R73) -/
  | illegal (inp : List Nat)
  /-- the address outside the text, and 1 where it is the follow-on of a CPYM copy word (R70) -/
  | fault (inp : List Nat)
  deriving Repr

/-- Fetch and decode the word at the executing agent's pc. -/
def State.fetch (s : State) : Fetched :=
  let c := s.cur
  if !s.runs || !(s.die c.die).live then .idle
  else
    let a := s.pc.toNat
    match s.fetch32 a with
    | none => .fault [a]
    | some w =>
      let follow := s.fetch32 (a + 4)
      let x : Executor := if c.rot then .rotation else .polder (s.crew c.die c.polder).system
      match decode x w follow with
      | .ok i n =>
        let s1 := s.buffer a w
        .word i (if n = 2 then s1.buffer (a + 4) (follow.getD 0) else s1)
      | .illegal culprit reason n => .illegal [culprit.toNat, reason, w.toNat, n]
      | .noFollow => .fault [a + 4, 1]

/-! ## Faults of one cycle (R60) -/

/-- The streams of the executing strand that have the turns listed next, with no cycle between: they act in the same cycle. -/
def State.rivals (s : State) : List Str :=
  (s.turns.takeWhile fun t => t.dt = 0).filterMap fun t =>
    match t.act with
    | .stream k => if t.die % 16 = s.cur.die && t.polder % 64 = s.cur.polder && t.strand % 4 = s.cur.strand then some k else none
    | _ => none

/-- Whether the executing strand has faulted in the step to `t`: it has entered its trap handler, or has ended by a strand fault.
-/
def State.faultsIn (s t : State) : Bool :=
  let a := s.strand s.cur
  let b := t.strand s.cur
  !s.cur.rot && ((!a.trapMode && b.trapMode) || (a.fault.isNone && b.fault.isSome))

/-- Whether a fault of stream j is reported before one of stream k: its word comes earlier in program order, or is the same word
and X goes before A and A before D (R60). -/
def Strand.before (st : Strand) (j k : Str) : Bool :=
  let rank (k : Str) : Nat := match k with
    | .x => 0
    | .a => 1
    | .d => 2
  (st.get j).seq < (st.get k).seq || ((st.get j).seq = (st.get k).seq && rank j < rank k)

/-- Of two streams that have come to a step, the one whose fault is reported: `o` is what the first does, `p` what the second
would do in the same cycle (R60). -/
def State.firstFault (s : State) (k : Str) (o : Host.Outcome State Fault Refusal) (j : Str)
    (p : Host.Outcome State Fault Refusal) : Bool :=
  match o, p with
  | .next t, .next u => s.faultsIn t && s.faultsIn u && (s.strand s.cur).before j k
  | _, _ => false

/-! ## A word placed from outside (log 14) -/

/-- Where a program placed from outside lies: the first 64 KiB of the berm of die 0. -/
def placedText : Nat := dieAddr 0 0x400000000

/-- The agent that executes the instruction of a word: the rotation program of die 0 for a word of the ring block, else the
stream of a strand of polder 0 that the word names (R19, R20, R73). -/
def agentOf (i : Instr) (w : Nat) : Str × Bool :=
  let ringOnly := !(i.reasonsIn (.polder true)).isEmpty
  let m := w / 2 ^ 25 % 128
  let sf := BitVec.ofNat 2 (w / 2 ^ 23)
  (if m < 0x40 then (if sf = 0 then .x else strOf sf) else illegalStream w, ringOnly)

/-- A crew of one system strand on polder 0 of die 0, if there is none, and its strand at the start of the text. -/
def State.placeStrand (s : State) (c : Ctx) : State :=
  match s.strand? c with
  | some _ => s
  | none =>
    let k : Crew := { crewStart { (default : LaunchRec) with words := List.replicate 32 0 } 1 0 0 0 false with
      partition := 0x0270040A, textBase := placedText, textSize := 65536, system := true }
    let entry := BitVec.ofNat 64 placedText
    (s.setCrew 0 0 k).setStrand c (strandStart k default 0 0 entry [] [] [] [])

/-- Place a word where the next step fetches: die 0 is in service, the agent that executes the word stands at it, and the next
turn is that agent's. -/
def State.placeWord (s : State) (i : Instr) (w : Nat) : State :=
  let (k, rot) := agentOf i w
  let d := s.die 0
  let c : Ctx := { die := 0, polder := 0, strand := 0, str := k, rot := rot }
  let s1 := s.setDie 0 { d with live := true }
  let s2 :=
    if rot then
      if d.rprunning then s1
      else s1.setDie 0 { d with
        live := true, rprunning := true, rptext := BitVec.ofNat 64 (placedText + 2 ^ 52)
        rotStream := { Stream.reset with pc := BitVec.ofNat 64 placedText } }
    else s1.placeStrand c
  let pc := (s2.stream c).pc.toNat
  let turn : Turn := { dt := 0, die := 0, polder := 0, strand := 0, act := if rot then .rotation else .stream k, inp := [] }
  { s2 with mem := Memory.writeN pc w 8 s2.mem, turns := turn :: s2.turns }

end Sys2Proof.Machine
end

