-- ==== Sys2Proof/Machine/Step.lean ====
section
/-! DEFINITION. One step of the module: the next turn is taken, and its agent runs the word at its pc or performs the event
the turn names (log 1). -/

namespace Sys2Proof.Machine

/-- What the agent that has the turn does. -/
def State.act (s : State) (a : Act) : Host.Outcome State Fault Refusal :=
  match a with
  | .event i => if s.mayAct i then exec i s else .next s
  | _ =>
    match s.fetch with
    | .idle => .next s
    | .word i t => exec i t
    | .illegal inp => exec .illegalInstruction { s with inp := inp }
    | .fault inp => exec .instructionFetchFault { s with inp := inp }

/-- What a stream that has the turn does, where streams of its strand that act in the same cycle may fault as well: of the faults
the one that R60 names is taken, and the other words count as not executed. -/
def State.actFirst (s : State) (a : Act) : Host.Outcome State Fault Refusal :=
  match a with
  | .stream k =>
    (s.rivals.foldl (fun (best : Str × Host.Outcome State Fault Refusal) j =>
      let o := ({ s with cur := { s.cur with str := j } } : State).act (.stream j)
      if s.firstFault best.1 best.2 j o then (j, o) else best) (k, s.act a)).2
  | _ => s.act a

/-- One step. -/
def step (s : State) : Host.Outcome State Fault Refusal :=
  let (t, s1) := s.nextTurn
  (s1.take t).actFirst t.act

/-- The state with an instruction placed where the next step fetches it: the program is loaded from outside (log 14). -/
def State.withFetchWord (s : State) (nbits w : Nat) : State :=
  match decodeTableWord nbits w with
  | none => s
  | some i => s.placeWord i w

end Sys2Proof.Machine
end

