-- ==== Sys2Proof/Safety.lean ====
section
/-! DEFINITION. The terms that statements are made in: what every state of a run keeps, when an agent can run a word, what it
is for a word to retire, and the elements of a vector. -/

namespace Sys2Proof.Machine

/-- The memory of a state is in its canonical form. -/
def State.MemoryCanonical (s : State) : Prop := Memory.wf s.mem = true

/-- The executing agent can run the word at its pc: its stream goes on, no reply has to be taken first, and the word is one
that it executes itself (R18-R20). -/
def State.Ready (s : State) (mine : Str → Bool) : Prop :=
  s.runs = true ∧ s.replyDue = none ∧ (s.cur.rot = true ∨ mine s.cur.str = true)

/-- The executing agent is a stream of a strand that can run the word at its pc. -/
def State.InStrand (s : State) (mine : Str → Bool) : Prop :=
  s.runs = true ∧ s.replyDue = none ∧ s.cur.rot = false ∧ mine s.cur.str = true

/-- The instruction retires and the stream goes on, with whatever state `r` comes to where it comes to one (R24, R89). -/
def Retires (i : Instr) (s : State) (r : Res State) : Prop :=
  ∀ t, r = .ok t → exec i s = .next (t.retire 1)

/-- Whether the executing stream is the one that computes a branch word's value: the stream EVAL names, or the one stream of a
rotation program (R86, R353). -/
def State.Evaluates (s : State) (ev : BitVec 2) : Prop := s.cur.rot = true ∨ s.cur.str = strOf ev

/-- The evaluator's push of its value into its two branch queues; a rotation program has none (R86, R353). -/
def shareBranch (v : Word) (s : State) : Res State := if s.cur.rot then .ok s else pushBranch v s

/-- The branch retires with whatever state `r` comes to, at the target if it is taken and else at the next word (R86). -/
def Branches (i : Instr) (s : State) (target : Word) (taken : Bool) (r : Res State) : Prop :=
  ∀ t, r = .ok t → exec i s = .next (if taken then t.retireTo target else t.retire 1)

/-- The address `n` words after the word that the executing agent runs. -/
def State.wordsOn (s : State) (n : Int) : Word := s.pc + BitVec.ofInt 64 (4 * n)

/-- The loop word opens a level of `count` iterations over `body` + 1 words, or skips them where the count is 0; `s1` is the
state with its trip count taken (R89). -/
def OpensLoop (i : Instr) (s s1 : State) (body : BitVec 8) (count : BitVec 32) : Prop :=
  let last := s.wordsOn (body.toNat + 1)
  let st := s1.stream s1.cur
  (count = 0 → (∀ l r, st.loops = l :: r → last.toNat ≤ l.stop.toNat) →
    exec i s = .next ((s1.setStream s1.cur { st with pc := last }).retire 1)) ∧
  (∀ l r, count = 0 → st.loops = l :: r → l.stop.toNat < last.toNat → exec i s = .next (s1.retireTo (last + 4))) ∧
  (count ≠ 0 → st.loops.length < 3 → (∀ l r, st.loops = l :: r → last.toNat ≤ l.stop.toNat) →
    exec i s = .next
      ((s1.setStream s1.cur
        { st with loops := { start := s.wordsOn 1, stop := last, lc := count } :: st.loops }).retireTo (s.wordsOn 1)))

/-- Element `k` of `b` bits of a vector (R111). -/
def lane (b k : Nat) (v : Vec) : Nat := v.toNat / 2 ^ (b * k) % 2 ^ b

/-- `r` holds `f k`, cut to the element's bits, in every element that the predicate selects and what `old` holds in every
other (R162). -/
def Lanewise (b : Nat) (p : Pred) (old r : Vec) (f : Nat → Nat) : Prop :=
  ∀ k, k < 4096 / b → lane b k r = if p.getLsbD k then f k % 2 ^ b else lane b k old

/-- `r` holds `f k`, cut to the element's bits, in every element. -/
def EveryLane (b : Nat) (r : Vec) (f : Nat → Nat) : Prop := ∀ k, k < 4096 / b → lane b k r = f k % 2 ^ b

/-- The step of the executing agent is its own: no other stream of its strand acts in the same cycle, or it does not fault in
`o` (R60). -/
def State.Alone (s : State) (o : Host.Outcome State Fault Refusal) : Prop :=
  s.rivals = [] ∨ ∀ t, o = .next t → s.faultsIn t = false

/-- The agent is the X stream of a strand, ready to run, and `s0` is its state with the word's takes done (R19, R24). -/
def XWord (s : State) (tk : BitVec 4) (s0 : State) : Prop := s.InStrand (· = .x) ∧ takeTokens tk s = .ok s0

/-- The agent is the A stream of a strand, ready to run, and `s0` is its state with the word's takes done (R19, R24). -/
def AWord (s : State) (tk : BitVec 4) (s0 : State) : Prop := s.InStrand (· = .a) ∧ takeTokens tk s = .ok s0

/-- The agent is the D stream of a strand, ready to run, and `s0` is its state with the word's takes done (R19, R24). -/
def DWord (s : State) (tk : BitVec 4) (s0 : State) : Prop := s.InStrand (· = .d) ∧ takeTokens tk s = .ok s0

/-- The agent is the X stream of a strand at a task word that the task engine can answer: what it must follow has been acquired,
and the engine is not down (R321, R337). -/
def TaskWord (s : State) (tk : BitVec 4) (s0 : State) : Prop :=
  XWord s tk s0 ∧ s.acquired = true ∧ (s.te s.cur.die).down = none

/-- The agent is the rotation program of a die, which is running (R353). -/
def RotWord (s : State) : Prop := s.cur.rot = true ∧ s.runs = true

/-- The word writes a vector register or port, gives its tokens and retires (R24, R75). -/
def WritesVec (i : Instr) (s : State) (tk : BitVec 4) (vd : BitVec 5) (r : Vec) (s2 : State) : Prop :=
  Retires i s ((writeVec vd r s2).bind (giveTokens tk))

/-- The word writes a scalar register or port, gives its tokens and retires (R24, R75). -/
def WritesReg (i : Instr) (s : State) (tk : BitVec 4) (rd : BitVec 5) (v : Word) (s2 : State) : Prop :=
  Retires i s ((writeReg rd v s2).bind (giveTokens tk))

/-- The word writes a predicate register, gives its tokens and retires (R24). -/
def WritesPred (i : Instr) (s : State) (tk : BitVec 4) (pd : Nat) (p : Pred) (s2 : State) : Prop :=
  Retires i s (giveTokens tk (writePred pd p s2))

/-- The streams that an instruction's word is sent to, by its major (R19-R22); a word of the ring block is the rotation
program's (R355). -/
def sentTo (i : Instr) (k : Str) : Bool :=
  match i.major with
  | none => false
  | some m =>
    if m < 0x08 || m = 0x24 || m = 0x25 || (0x28 ≤ m && m < 0x31) || m = 0x32 || m = 0x33 then
      i.streamField = 0 || strOf i.streamField = k
    else if m < 0x40 then true
    else if m < 0x4C then k = .a
    else if m < 0x68 then k = .x
    else if m < 0x6C then k = .d
    else if 0x6E ≤ m && m < 0x72 then false
    else k = .x

/-- The management controller has command `code` with the request `bytes` before it: from the management port, whose command
is the first input, or from the mailbox (R446). -/
def State.Commanded (s : State) (code : Nat) (bytes : List Nat) : Prop :=
  (s.inp.headD 0 = 1 ∧ bitsOf s.mgmt.stat 63 63 = 0 ∧ bytes = s.portBytes) ∨
    (s.inp.headD 0 ≠ 1 ∧ bitsOf s.mgmt.stat 63 63 = 1 ∧ bitsOf s.mgmt.cmd 63 56 = code ∧ bitsOf s.mgmt.cmd 55 32 ≤ 0x7F00 ∧
      bytes = s.mgmt.request)

/-- The management controller answers the command of `s` with a status and response bytes, where `u` is the state that the
command leaves (R446). -/
def State.answered (s u : State) (status : Nat) (resp : List Nat) : State :=
  if s.inp.headD 0 = 1 then { u with mgmt := { u.mgmt with port := u.mgmt.port ++ [(status, resp)] } }
  else u.endCommand status resp

/-- What memory, the other agents and the engines hold is the same in both states: only the strand that is executing may
differ. -/
def OnlyStrand (s t : State) : Prop :=
  (∀ a, t.byteAt a = s.byteAt a) ∧ t.poison = s.poison ∧ t.dies = s.dies ∧ t.crews = s.crews ∧ t.cur = s.cur ∧
    ∀ k, k ≠ strandKey s.cur.die s.cur.polder s.cur.strand → look k t.strands = look k s.strands

/-- Whether an instruction works on its strand alone: the integer, branch, loop, token, stack-pop, trap and system-read words, and
the vector, predicate, conversion, data-movement and scalar floating-point words (R83-R98, R160-R184). -/
def strandOnly (i : Instr) : Bool :=
  match i.major with
  | none => false
  | some m => m < 0x26 || m = 0x29 || m = 0x30 || m = 0x32 || (0x50 ≤ m && m < 0x65)

end Sys2Proof.Machine
end

