-- ==== Sys2Proof/Certificates/Slice0/Obligations.lean ====
section
/-! DEFINITION. The statements for the provers. -/

open Sys2Proof Sys2Proof.Machine

/-! ## Encoding -/

/-- Decoding the bytes of an instruction's words gives the instruction and what follows it, for every word that its executor
may run, with every operand at every value its encoding admits; the follow-on of a CPYM pair is a legal matrix word (R66-R73,
R195). -/
def Claims.DecodeOfEncode : Prop :=
  ∀ (x : Executor) (i : Instr) (rest : List (BitVec 8)), encode i ≠ [] → i.reasonsIn x = [] →
    (∀ tk scol sc rd ra rb f, i = .cpym tk scol sc rd ra rb f → followReason f = none) →
    decodeBytes x ((encode i).flatMap bytes32 ++ rest) = some (.ok i (encode i).length, rest)

/-- Words written out from the encodings of the spec, one for each block of majors, decode to the instructions they stand
for (R66-R73). -/
def Claims.EncodedWords : Prop :=
  decode (.polder false) 0x00852300 none = .ok (.add 1 1 9 3) 1 ∧
  decode (.polder false) 0x030BFFFF none = .ok (.addi 2 2 31 0x1FFF) 1 ∧
  decode (.polder false) 0x20888403 none = .ok (.beq 1 2 4 4 3) 1 ∧
  decode (.polder false) 0x307FFFFE none = .ok (.j 0x7FFFFE) 1 ∧
  decode (.polder false) 0x40000A07 none = .ok (.loopi 10 7) 1 ∧
  decode (.polder false) 0x80A769A0 none = .ok (.ld 5 7 3 9 2 1 0) 1 ∧
  decode (.polder false) 0x90883214 none = .ok (.cpy 4 1 0 3 4 5) 1 ∧
  decode (.polder false) 0x981116C7 none = .ok (.mma 0 1 0 2 1 3 0 1 2 7) 1 ∧
  decode (.polder false) 0xA14FB85F none = .ok (.vadd 10 1 30 28 5 15) 1 ∧
  decode (.polder false) 0xC40045F0 none = .ok (.fadd 0 1 2 31) 1 ∧
  decode (.polder false) 0xCC0111EB none = .ok (.atom 0 1 2 3 1 1 3) 1 ∧
  decode (.polder false) 0xD11F23C0 none = .ok (.st 8 31 1 3 3) 1 ∧
  decode (.polder false) 0xD8004430 none = .ok (.spawn 0 1 2 3) 1 ∧
  decode (.polder true) 0xE4004430 none = .ok (.fxfill 0 1 2 3) 1 ∧
  decode .rotation 0xDC042300 none = .ok (.rdrop 1 3) 1

/-- The majors that R71 and R72 leave unallocated are illegal with reason 1 wherever they stand (R73). -/
def Claims.ReservedMajorsAreIllegal : Prop :=
  ∀ (x : Executor) (w : BitVec 32) (follow : Option (BitVec 32)),
    (let m := w.toNat / 2 ^ 25
     (0x08 ≤ m ∧ m ≤ 0x0F) ∨ (0x1C ≤ m ∧ m ≤ 0x1F) ∨ m = 0x23 ∨ m = 0x27 ∨ (0x2A ≤ m ∧ m ≤ 0x2F) ∨ (0x35 ≤ m ∧ m ≤ 0x3F) ∨
       0x73 ≤ m) →
    decode x w follow = .illegal w 1 1

/-- A ring-block word in a polder program is illegal with reason 6 where no lower reason applies, a fabric-block word outside a
system strand with reason 7; a word that only the rotation program's subset leaves out has reason 12 there (R73, R353). -/
def Claims.BlocksOfTheirExecutors : Prop :=
  ∀ (i : Instr) (m : Nat), i.major = some m →
    (0x6E ≤ m ∧ m ≤ 0x71 → ∀ sys, 6 ∈ i.reasonsIn (.polder sys)) ∧
    (m = 0x72 → 7 ∈ i.reasonsIn (.polder false)) ∧
    (0x40 ≤ m ∧ m ≤ 0x6D → 12 ∈ i.reasonsIn .rotation) ∧
    ¬ (∃ x, i.reasonsIn x = [] ∧ 0x6E ≤ m ∧ m ≤ 0x71 ∧ x ≠ .rotation)

/-! ## Steps -/

/-- A turn of a stream or of a rotation program runs the instruction that the word at its pc decodes to: the step is the
execution of it in the state after the turn is taken, with the word held in the loop buffer where a loop is open (R189). Where
another stream of the strand acts in the same cycle and this word faults, SameCycleFaults says which fault is taken (R60). -/
def Claims.StepRunsTheDecodedWord : Prop :=
  ∀ (s : State) (w : BitVec 32) (i : Instr) (n : Nat),
    let t := (s.nextTurn).1
    let u := (s.nextTurn).2.take t
    let x : Executor := if u.cur.rot then .rotation else .polder (u.crew u.cur.die u.cur.polder).system
    let buffered := if n = 2 then (u.buffer u.pc.toNat w).buffer (u.pc.toNat + 4) ((u.fetch32 (u.pc.toNat + 4)).getD 0)
      else u.buffer u.pc.toNat w
    (t.act = .rotation ∨ ∃ k, t.act = .stream k) → u.runs = true → (u.die u.cur.die).live = true →
    u.fetch32 u.pc.toNat = some w → decode x w (u.fetch32 (u.pc.toNat + 4)) = .ok i n → u.Alone (exec i buffered) →
    step s = exec i buffered ∧ ((u.stream u.cur).loops = [] → step s = exec i u)

/-- A word that decode refuses, and a fetch outside the text, run the two events of decode and fetch with the word, its reason
and the address as their inputs (R70, R73, R307). -/
def Claims.StepTakesIllegalWords : Prop :=
  ∀ (s : State),
    let t := (s.nextTurn).1
    let u := (s.nextTurn).2.take t
    let x : Executor := if u.cur.rot then .rotation else .polder (u.crew u.cur.die u.cur.polder).system
    (t.act = .rotation ∨ ∃ k, t.act = .stream k) → u.runs = true → (u.die u.cur.die).live = true →
    u.Alone (u.act t.act) →
    (∀ w v r n, u.fetch32 u.pc.toNat = some w → decode x w (u.fetch32 (u.pc.toNat + 4)) = .illegal v r n →
      step s = exec .illegalInstruction { u with inp := [v.toNat, r, w.toNat, n] }) ∧
    (∀ w, u.fetch32 u.pc.toNat = some w → decode x w (u.fetch32 (u.pc.toNat + 4)) = .noFollow →
      step s = exec .instructionFetchFault { u with inp := [u.pc.toNat + 4, 1] }) ∧
    (u.fetch32 u.pc.toNat = none → step s = exec .instructionFetchFault { u with inp := [u.pc.toNat] })

/-- Where two streams of one strand fault in the same cycle, the fault of the word that is earlier in program order is taken; of
one word, that of X before A before D. The other counts as not executed (R60). Which turns fall in one cycle is the model's own
(log 1). -/
def Claims.SameCycleFaults : Prop :=
  ∀ (s a b : State) (k j : Str),
    let t := (s.nextTurn).1
    let u := (s.nextTurn).2.take t
    let st := u.strand u.cur
    t.act = .stream k → u.rivals = [j] →
    u.act (.stream k) = .next a → ({ u with cur := { u.cur with str := j } } : State).act (.stream j) = .next b →
    u.faultsIn a = true → u.faultsIn b = true →
    ((st.get j).seq < (st.get k).seq → step s = .next b) ∧
    ((st.get k).seq < (st.get j).seq → step s = .next a) ∧
    ((st.get j).seq = (st.get k).seq → (j = .x ∧ k ≠ .x ∨ j = .a ∧ k = .d) → step s = .next b) ∧
    ((st.get j).seq = (st.get k).seq → (k = .x ∨ k = .a ∧ j = .d) → step s = .next a)

/-- A turn of an event performs it if its agent may, and else only lets time pass. -/
def Claims.StepPerformsTheEvent : Prop :=
  ∀ (s : State) (i : Instr),
    let t := (s.nextTurn).1
    let u := (s.nextTurn).2.take t
    t.act = .event i →
    (u.mayAct i = true → step s = exec i u) ∧ (u.mayAct i = false → step s = .next u)

/-- Every form of the table that is an event of an engine and has no word of its own is performed in every state: the step is a
next state, and memory keeps its canonical form (R65, R149, R213, R228, R240, R270, R286, R335, R366, R378, R412, R443). What each
event does is stated with its engine. -/
def Claims.EventsComplete : Prop :=
  ∀ (s : State) (i : Instr), encode i = [] →
    ∃ t, exec i s = .next t ∧ (s.MemoryCanonical → t.MemoryCanonical)

/-- The word at an address of a text comes from the loop buffer, and else from the four bytes there, lowest address lowest
(R4, R87, R189); a fetch outside the text brings none (R307). -/
def Claims.FetchReadsTheText : Prop :=
  ∀ (s : State) (a : Nat), s.MemoryCanonical →
    (∀ w, look a (s.stream s.cur).loopBuf = some w → s.fetch32 a = some w) ∧
    (look a (s.stream s.cur).loopBuf = none →
      ((a < s.text.1 ∨ s.text.1 + s.text.2 < a + 4) → s.fetch32 a = none) ∧
      (s.text.1 ≤ a → a + 4 ≤ s.text.1 + s.text.2 → (s.engineRead s.cur.die a 4).isSome = true →
        s.fetch32 a = some (s.byteAt (a + 3) ++ s.byteAt (a + 2) ++ s.byteAt (a + 1) ++ s.byteAt a)))

/-! ## Integer arithmetic, branches and loops (R83-R90) -/

/-- The register operations: each writes the value its rule gives for the two registers read (R83). -/
def Claims.RegisterArithmetic : Prop :=
  ∀ (s s1 s2 : State) (sf : BitVec 2) (rd ra rb : BitVec 5) (a b : Word), s.Ready (namedBy sf) →
    readReg ra s = .ok (a, s1) → readReg rb s1 = .ok (b, s2) →
    Retires (.add sf rd ra rb) s (writeReg rd (BitVec.ofNat 64 (a.toNat + b.toNat)) s2) ∧
    Retires (.sub sf rd ra rb) s (writeReg rd (BitVec.ofInt 64 (a.toInt - b.toInt)) s2) ∧
    Retires (.and sf rd ra rb) s (writeReg rd (a &&& b) s2) ∧
    Retires (.or sf rd ra rb) s (writeReg rd (a ||| b) s2) ∧
    Retires (.xor sf rd ra rb) s (writeReg rd (a ^^^ b) s2) ∧
    Retires (.sll sf rd ra rb) s (writeReg rd (BitVec.ofNat 64 (a.toNat * 2 ^ (b.toNat % 64))) s2) ∧
    Retires (.srl sf rd ra rb) s (writeReg rd (BitVec.ofNat 64 (a.toNat / 2 ^ (b.toNat % 64))) s2) ∧
    Retires (.sra sf rd ra rb) s (writeReg rd (BitVec.ofInt 64 (a.toInt / 2 ^ (b.toNat % 64))) s2) ∧
    Retires (.mul sf rd ra rb) s (writeReg rd (BitVec.ofNat 64 (a.toNat * b.toNat)) s2) ∧
    Retires (.mulhu sf rd ra rb) s (writeReg rd (BitVec.ofNat 64 (a.toNat * b.toNat / 2 ^ 64)) s2) ∧
    Retires (.mulh sf rd ra rb) s (writeReg rd (BitVec.ofInt 64 (a.toInt * b.toInt / 2 ^ 64)) s2) ∧
    Retires (.slt sf rd ra rb) s (writeReg rd (if a.toInt < b.toInt then 1 else 0) s2) ∧
    Retires (.sltu sf rd ra rb) s (writeReg rd (if a.toNat < b.toNat then 1 else 0) s2) ∧
    Retires (.min sf rd ra rb) s (writeReg rd (BitVec.ofInt 64 (min a.toInt b.toInt)) s2) ∧
    Retires (.max sf rd ra rb) s (writeReg rd (BitVec.ofInt 64 (max a.toInt b.toInt)) s2) ∧
    Retires (.minu sf rd ra rb) s (writeReg rd (BitVec.ofNat 64 (min a.toNat b.toNat)) s2) ∧
    Retires (.maxu sf rd ra rb) s (writeReg rd (BitVec.ofNat 64 (max a.toNat b.toNat)) s2)

/-- The immediate operations and LUI (R84). -/
def Claims.ImmediateArithmetic : Prop :=
  ∀ (s : State) (sf : BitVec 2) (rd : BitVec 5), s.Ready (namedBy sf) →
    (∀ imm : BitVec 18, Retires (.lui sf rd imm) s (writeReg rd (BitVec.ofInt 64 (imm.toInt * 2 ^ 13)) s)) ∧
    ∀ (ra : BitVec 5) (a : Word) (s1 : State) (imm : BitVec 13) (sh : BitVec 6), readReg ra s = .ok (a, s1) →
      Retires (.addi sf rd ra imm) s (writeReg rd (BitVec.ofInt 64 (a.toInt + imm.toInt)) s1) ∧
      Retires (.slti sf rd ra imm) s (writeReg rd (if a.toInt < imm.toInt then 1 else 0) s1) ∧
      Retires (.andi sf rd ra imm) s (writeReg rd (a &&& BitVec.ofNat 64 imm.toNat) s1) ∧
      Retires (.ori sf rd ra imm) s (writeReg rd (a ||| BitVec.ofNat 64 imm.toNat) s1) ∧
      Retires (.xori sf rd ra imm) s (writeReg rd (a ^^^ BitVec.ofNat 64 imm.toNat) s1) ∧
      Retires (.slli sf rd ra sh) s (writeReg rd (BitVec.ofNat 64 (a.toNat * 2 ^ sh.toNat)) s1) ∧
      Retires (.srli sf rd ra sh) s (writeReg rd (BitVec.ofNat 64 (a.toNat / 2 ^ sh.toNat)) s1) ∧
      Retires (.srai sf rd ra sh) s (writeReg rd (BitVec.ofInt 64 (a.toInt / 2 ^ sh.toNat)) s1)

/-- Reading a scalar register: register 0 reads zero, a popping port takes the oldest entry of its queue or waits while there is
none, any other register reads its value and changes nothing (R74, R75). -/
def Claims.RegisterReads : Prop :=
  ∀ (s : State) (r : BitVec 5),
    let st := s.strand s.cur
    readReg 0 s = .ok (0, s) ∧
    (s.cur.rot = true → r ≠ 0 → readReg r s = .ok ((s.die s.cur.die).rotStream.regs[r.toNat], s)) ∧
    (s.cur.rot = false → r ≠ 0 → r ≠ 31 → readReg r s = .ok ((st.get s.cur.str).regs[r.toNat], s)) ∧
    (s.cur.rot = false →
      (s.cur.str = .a → ∀ w q, st.qXA = w :: q → readReg 31 s = .ok (w, s.setStrand s.cur { st with qXA := q })) ∧
      (s.cur.str = .x → ∀ w q, st.qAX = w :: q → readReg 31 s = .ok (w, s.setStrand s.cur { st with qAX := q })) ∧
      (s.cur.str = .d → ∀ w q, st.qXD = w :: q → readReg 31 s = .ok (w, s.setStrand s.cur { st with qXD := q })) ∧
      ((s.cur.str = .a ∧ st.qXA = [] ∨ s.cur.str = .x ∧ st.qAX = [] ∨ s.cur.str = .d ∧ st.qXD = []) →
        readReg 31 s = .error (.wait .dataQueue)))

/-- Writing a scalar register: a write to register 0 is discarded, a pushing port adds an entry at the end of its queue or waits
while 16 are held, any other register takes the value and every other register keeps its own (R74, R75, R78). The hazard detector
is off. -/
def Claims.RegisterWrites : Prop :=
  ∀ (s : State) (r : BitVec 5) (v : Word), s.cur.rot = false → (s.crew s.cur.die s.cur.polder).debug = false →
    let st := s.strand s.cur
    writeReg 0 v s = .ok s ∧
    (r ≠ 0 → (s.cur.str = .d ∨ r ≠ 31) → (s.cur.str = .x → r ≠ 30) →
      writeReg r v s = .ok (s.setStrand s.cur (st.set s.cur.str
        { st.get s.cur.str with regs := (st.get s.cur.str).regs.set r.toNat v r.isLt }))) ∧
    (s.cur.str = .a → st.qAX.length < 16 → writeReg 31 v s = .ok (s.setStrand s.cur { st with qAX := st.qAX ++ [v] })) ∧
    (s.cur.str = .x → st.qXA.length < 16 → writeReg 30 v s = .ok (s.setStrand s.cur { st with qXA := st.qXA ++ [v] })) ∧
    (s.cur.str = .x → st.qXD.length < 16 → writeReg 31 v s = .ok (s.setStrand s.cur { st with qXD := st.qXD ++ [v] })) ∧
    (s.cur.str = .a → 16 ≤ st.qAX.length → writeReg 31 v s = .error (.wait .dataQueue)) ∧
    (s.cur.str = .x → 16 ≤ st.qXA.length → writeReg 30 v s = .error (.wait .dataQueue)) ∧
    (s.cur.str = .x → 16 ≤ st.qXD.length → writeReg 31 v s = .error (.wait .dataQueue))

/-- The compare branches in their evaluator, and the predicate branches in X: the outcome is pushed into both branch queues and
decides the next pc (R86). -/
def Claims.ConditionalBranches : Prop :=
  ∀ (s : State) (ev : BitVec 2) (offHi : BitVec 5) (offLo : BitVec 8), s.Ready (fun _ => true) →
    let target := s.wordsOn (offHi ++ offLo : BitVec 13).toInt
    let outcome (c : Bool) (s2 : State) : Res State := shareBranch (if c then 1 else 0) s2
    (∀ (ra rb : BitVec 5) (a b : Word) (s1 s2 : State), s.Evaluates ev →
      readReg ra s = .ok (a, s1) → readReg rb s1 = .ok (b, s2) →
      Branches (.beq ev offHi ra rb offLo) s target (a = b) (outcome (a = b) s2) ∧
      Branches (.bne ev offHi ra rb offLo) s target (a ≠ b) (outcome (a ≠ b) s2) ∧
      Branches (.blt ev offHi ra rb offLo) s target (a.toInt < b.toInt) (outcome (a.toInt < b.toInt) s2) ∧
      Branches (.bge ev offHi ra rb offLo) s target (b.toInt ≤ a.toInt) (outcome (b.toInt ≤ a.toInt) s2) ∧
      Branches (.bltu ev offHi ra rb offLo) s target (a.toNat < b.toNat) (outcome (a.toNat < b.toNat) s2) ∧
      Branches (.bgeu ev offHi ra rb offLo) s target (b.toNat ≤ a.toNat) (outcome (b.toNat ≤ a.toNat) s2)) ∧
    (∀ (pn : BitVec 4) (h : pn.toNat < 12), s.cur.rot = false → s.cur.str = .x →
      let p := (s.strand s.cur).p[pn.toNat]
      Branches (.bpany offHi pn offLo) s target (p ≠ 0) (outcome (p ≠ 0) s) ∧
      Branches (.bpnone offHi pn offLo) s target (p = 0) (outcome (p = 0) s))

/-- A conditional branch in a stream that follows: it pops the outcome from the evaluator's branch queue towards it (R86). -/
def Claims.FollowedBranches : Prop :=
  ∀ (s s1 : State) (ev : BitVec 2) (offHi ra rb : BitVec 5) (offLo : BitVec 8) (pn : BitVec 4) (v : Word),
    s.InStrand (fun _ => true) →
    let target := s.wordsOn (offHi ++ offLo : BitVec 13).toInt
    let follows (i : Instr) : Prop := exec i s = .next (if v ≠ 0 then s1.retireTo target else s1.retire 1)
    (s.cur.str ≠ strOf ev → popBranch (strOf ev) s = .ok (v, s1) →
      follows (.beq ev offHi ra rb offLo) ∧ follows (.bne ev offHi ra rb offLo) ∧ follows (.blt ev offHi ra rb offLo) ∧
      follows (.bge ev offHi ra rb offLo) ∧ follows (.bltu ev offHi ra rb offLo) ∧ follows (.bgeu ev offHi ra rb offLo)) ∧
    (s.cur.str ≠ .x → popBranch .x s = .ok (v, s1) →
      follows (.bpany offHi pn offLo) ∧ follows (.bpnone offHi pn offLo))

/-- The branch queues: a push adds the value at the end of the evaluator's two queues once each has a free entry of its eight, a
pop takes the oldest entry of the queue from the evaluator to the popping stream and waits while it is empty (R78, R86, R88). -/
def Claims.BranchQueues : Prop :=
  ∀ (s : State) (v : Word) (ev : Str), s.cur.rot = false →
    let st := s.strand s.cur
    let f := (otherStreams s.cur.str).1
    let g := (otherStreams s.cur.str).2
    (((st.bq.get (bqIndex s.cur.str f)).length < 8 ∧ (st.bq.get (bqIndex s.cur.str g)).length < 8) →
      ∃ t, pushBranch v s = .ok t ∧ OnlyStrand s t ∧
        (∃ bq, t.strand s.cur = { st with bq := bq } ∧
          ∀ e k : Str, e ≠ k → bq.get (bqIndex e k) =
            if e = s.cur.str then st.bq.get (bqIndex e k) ++ [v] else st.bq.get (bqIndex e k))) ∧
    ((8 ≤ (st.bq.get (bqIndex s.cur.str f)).length ∨ 8 ≤ (st.bq.get (bqIndex s.cur.str g)).length) →
      pushBranch v s = .error (.wait .branchQueue)) ∧
    (ev ≠ s.cur.str → st.bq.get (bqIndex ev s.cur.str) = [] → popBranch ev s = .error (.wait .branchQueue)) ∧
    (∀ q, ev ≠ s.cur.str → st.bq.get (bqIndex ev s.cur.str) = v :: q →
      ∃ t, popBranch ev s = .ok (v, t) ∧ OnlyStrand s t ∧
        (∃ bq, t.strand s.cur = { st with bq := bq } ∧
          ∀ e k : Str, e ≠ k → bq.get (bqIndex e k) = if e = ev ∧ k = s.cur.str then q else st.bq.get (bqIndex e k)))

/-- The unconditional transfers: J and JAL go to the word's address plus four times the offset, JR and JALR to the evaluator's
register, through its branch queues; JAL and JALR link (R87). -/
def Claims.UnconditionalTransfers : Prop :=
  ∀ (s : State) (ev : BitVec 2) (rd ra : BitVec 5), s.Ready (fun _ => true) →
    (∀ off : BitVec 23, exec (.j off) s = .next (s.retireTo (s.wordsOn off.toInt))) ∧
    (∀ (off : BitVec 18) (t : State), writeReg rd (s.pc + 4) s = .ok t →
      exec (.jal rd off) s = .next (t.retireTo (s.wordsOn off.toInt))) ∧
    (∀ (a : Word) (s1 s2 t : State), s.Evaluates ev → readReg ra s = .ok (a, s1) → a.toNat % 4 = 0 →
      shareBranch a s1 = .ok s2 →
      exec (.jr ev ra) s = .next (s2.retireTo a) ∧
      (writeReg rd (s.pc + 4) s2 = .ok t → exec (.jalr ev rd ra) s = .next (t.retireTo a))) ∧
    (∀ (a : Word) (s1 t : State), ¬ s.Evaluates ev → popBranch (strOf ev) s = .ok (a, s1) →
      exec (.jr ev ra) s = .next (s1.retireTo a) ∧
      (writeReg rd (s.pc + 4) s1 = .ok t → exec (.jalr ev rd ra) s = .next (t.retireTo a)))

/-- A jump register whose bits [1:0] are not zero raises 0x0B in the evaluator, with nothing pushed (R87). -/
def Claims.MisalignedJumpTargets : Prop :=
  ∀ (s s1 : State) (ev : BitVec 2) (rd ra : BitVec 5) (a : Word), s.Ready (fun _ => true) → s.Evaluates ev →
    readReg ra s = .ok (a, s1) → a.toNat % 4 ≠ 0 →
    exec (.jr ev ra) s = .next (s.takeTrap 0x0B a) ∧ exec (.jalr ev rd ra) s = .next (s.takeTrap 0x0B a)

/-- The loop words with the trip counts they take: an immediate, a register of the evaluator below 2^32 that it shares through
its branch queues, and an entry of cq (R22, R89). -/
def Claims.LoopWords : Prop :=
  ∀ (s s1 : State) (body : BitVec 8),
    (∀ count : BitVec 15, s.Ready (fun _ => true) → OpensLoop (.loopi count body) s s body (count.setWidth 32)) ∧
    (∀ (ev : BitVec 2) (ra : BitVec 5) (n : Word) (s2 : State), s.Ready (fun _ => true) → s.Evaluates ev →
      readReg ra s = .ok (n, s1) → n.toNat < 2 ^ 32 → shareBranch n s1 = .ok s2 →
      OpensLoop (.loopr ev ra body) s s2 body (n.setWidth 32)) ∧
    (∀ (ev : BitVec 2) (ra : BitVec 5) (n : Word), s.InStrand (fun _ => true) → s.cur.str ≠ strOf ev →
      popBranch (strOf ev) s = .ok (n, s1) → OpensLoop (.loopr ev ra body) s s1 body (n.setWidth 32)) ∧
    (∀ n : BitVec 32, s.InStrand (fun _ => true) → popCount s = .ok (n, s1) → OpensLoop (.loopq body) s s1 body n)

/-- A LOOPR count of 2^32 or more raises 0x04 in the evaluator, and a fourth level or a body that ends beyond the enclosing one
raises 0x03 in X, or in the evaluator for LOOPR (R89). -/
def Claims.LoopTraps : Prop :=
  ∀ (s s1 : State) (body : BitVec 8), s.Ready (fun _ => true) →
    let last := s.wordsOn (body.toNat + 1)
    let deep (ls : List Loop) : Prop := 3 ≤ ls.length ∨ ∃ l r, ls = l :: r ∧ l.stop.toNat < last.toNat
    (∀ (ev : BitVec 2) (ra : BitVec 5) (n : Word), s.Evaluates ev → readReg ra s = .ok (n, s1) →
      (2 ^ 32 ≤ n.toNat → exec (.loopr ev ra body) s = .next (s.takeTrap 0x04 n)) ∧
      (n.toNat < 2 ^ 32 → n ≠ 0 → deep (s.stream s.cur).loops →
        exec (.loopr ev ra body) s = .next (s.takeTrap 0x03 last))) ∧
    (∀ count : BitVec 15, (s.cur.rot = true ∨ s.cur.str = .x) → count ≠ 0 → deep (s.stream s.cur).loops →
      exec (.loopi count body) s = .next (s.takeTrap 0x03 last)) ∧
    (∀ n : BitVec 32, s.cur.rot = false → s.cur.str = .x → popCount s = .ok (n, s1) → n ≠ 0 →
      deep (s.stream s.cur).loops → exec (.loopq body) s = .next (s.takeTrap 0x03 last))

/-- The count queue: each stream reads it through its own pointer, and an entry leaves it once every pointer has passed it (R22).
-/
def Claims.CountQueue : Prop :=
  ∀ (s : State), s.cur.rot = false →
    let st := s.strand s.cur
    let k := st.get s.cur.str
    (st.cq[k.cqPos - st.cqBase]? = none → popCount s = .error (.wait .countQueue)) ∧
    (∀ n, st.setAside = none → (∀ j, st.cqBase ≤ (st.get j).cqPos ∧ (st.get j).cqPos ≤ st.cqBase + st.cq.length) →
      st.cq[k.cqPos - st.cqBase]? = some n →
      ∃ t, popCount s = .ok (n, t) ∧ OnlyStrand s t ∧
        let u := t.strand s.cur
        u.get s.cur.str = { k with cqPos := k.cqPos + 1 } ∧
        (∀ j, j ≠ s.cur.str → u.get j = st.get j) ∧
        u.cqBase = min u.a.cqPos (min u.x.cqPos u.d.cqPos) ∧ u.cqBase + u.cq.length = st.cqBase + st.cq.length ∧
        ∀ j, u.cqBase ≤ j → u.cq[j - u.cqBase]? = st.cq[j - st.cqBase]?)

/-- The step after a word that did not transfer control: at the end of the innermost level it goes back to the start while more
than one iteration is left, or ends the level, and then the enclosing level's step applies to the same word (R89). -/
def Claims.LoopEndStep : Prop :=
  ∀ (s : State) (st : Stream) (l : Loop) (r : List Loop), (s.cur.rot = true → s.cur.die < 16) →
    ((s.retire 1).stream s.cur = (s.stream s.cur).advance 1 ∧
      ∀ t, (s.retireTo t).stream s.cur = (s.stream s.cur).transfer t) ∧
    (st.loops = [] → (st.advance 1).pc = st.pc + 4 ∧ (st.advance 1).loops = []) ∧
    (st.loops = l :: r → l.stop ≠ st.pc → (st.advance 1).pc = st.pc + 4 ∧ (st.advance 1).loops = l :: r) ∧
    (st.loops = l :: r → l.stop = st.pc → 1 < l.lc.toNat →
      (st.advance 1).pc = l.start ∧ (st.advance 1).loops = { l with lc := l.lc - 1 } :: r) ∧
    (st.loops = l :: r → l.stop = st.pc → l.lc.toNat ≤ 1 →
      (st.advance 1).pc = ({ st with loops := r }.advance 1).pc ∧
      (st.advance 1).loops = ({ st with loops := r }.advance 1).loops)

/-- A taken transfer ends the innermost level if its target lies outside its body, and is then tested against the next level
out (R90). -/
def Claims.TransfersLeaveLoops : Prop :=
  ∀ (st : Stream) (t : Word) (l : Loop) (r : List Loop), st.loops = l :: r →
    (st.transfer t).pc = t ∧ (st.transfer t).regs = st.regs ∧
    (l.start.toNat ≤ t.toNat ∧ t.toNat ≤ l.stop.toNat → (st.transfer t).loops = l :: r) ∧
    (t.toNat < l.start.toNat ∨ l.stop.toNat < t.toNat → (st.transfer t).loops = ({ st with loops := r }.transfer t).loops)

/-! ## Streams, tokens, traps and strand end (R18-R25, R92-R99) -/

/-- A stream passes by a word that is not sent to it: its pc goes on with the loop-end step, and but for what it notes of the
word's place in program order nothing else changes (R18-R20, R89). -/
def Claims.PassedByWords : Prop :=
  ∀ (s : State) (i : Instr), encode i ≠ [] → s.runs = true → s.replyDue = none → s.cur.rot = false →
    sentTo i s.cur.str = false →
    ∃ t m, exec i s = .next t ∧ OnlyStrand s t ∧
      t.strand s.cur = (s.strand s.cur).set s.cur.str
        { (s.stream s.cur).advance (encode i).length with marks := m }

/-- The token bits of a word that has no other effect: a take lowers the count of the FIFO from that neighbour, a give raises
the count of the FIFO to it; nothing else changes but the pc (R24, R92). -/
def Claims.ExplicitTokens : Prop :=
  ∀ (s : State) (sf : BitVec 2) (tk : BitVec 4), s.InStrand (namedBy sf) →
    let st := s.strand s.cur
    let n (i : Nat) : Nat := if tk.getLsbD i then 1 else 0
    (s.cur.str = .a → tk.getLsbD 3 = false → tk.getLsbD 1 = false → n 2 ≤ st.tokXA → st.tokAX + n 0 ≤ 15 →
      ∃ t, exec (.tok sf tk) s = .next (t.retire 1) ∧ OnlyStrand s t ∧
        t.strand s.cur = { st with tokXA := st.tokXA - n 2, tokAX := st.tokAX + n 0 }) ∧
    (s.cur.str = .x → n 3 ≤ st.tokAX → n 2 ≤ st.tokDX → st.tokXA + n 1 ≤ 15 → st.tokXD + n 0 ≤ 15 →
      ∃ t, exec (.tok sf tk) s = .next (t.retire 1) ∧ OnlyStrand s t ∧
        t.strand s.cur = { st with
          tokAX := st.tokAX - n 3, tokDX := st.tokDX - n 2, tokXA := st.tokXA + n 1, tokXD := st.tokXD + n 0 }) ∧
    (s.cur.str = .d → tk.getLsbD 2 = false → tk.getLsbD 0 = false → n 3 ≤ st.tokXD → st.tokDX + n 1 ≤ 15 →
      ∃ t, exec (.tok sf tk) s = .next (t.retire 1) ∧ OnlyStrand s t ∧
        t.strand s.cur = { st with tokXD := st.tokXD - n 3, tokDX := st.tokDX + n 1 })

/-- A word whose take finds its FIFO empty, or whose give finds it at 15, waits in its stream: only that stream's wait changes,
and no take or give of it has happened (R24, R25). -/
def Claims.TokensHold : Prop :=
  ∀ (s : State) (sf : BitVec 2) (tk : BitVec 4), s.InStrand (namedBy sf) →
    (s.crew s.cur.die s.cur.polder).debug = false →
    let st := s.strand s.cur
    let n (i : Nat) : Nat := if tk.getLsbD i then 1 else 0
    let held : State := s.setStream s.cur { s.stream s.cur with wait := some .token }
    (s.cur.str = .x → (st.tokAX < n 3 ∨ st.tokDX < n 2 ∨ 15 < st.tokXA + n 1 ∨ 15 < st.tokXD + n 0) →
      (st.tokXA ≤ 15 ∧ st.tokXD ≤ 15) → exec (.tok sf tk) s = .next held) ∧
    (s.cur.str = .a → tk.getLsbD 3 = false → tk.getLsbD 1 = false → st.tokAX ≤ 15 →
      (st.tokXA < n 2 ∨ 15 < st.tokAX + n 0) → exec (.tok sf tk) s = .next held) ∧
    (s.cur.str = .d → tk.getLsbD 2 = false → tk.getLsbD 0 = false → st.tokDX ≤ 15 →
      (st.tokXD < n 3 ∨ 15 < st.tokDX + n 1) → exec (.tok sf tk) s = .next held)

/-- PUSH reads its register, or pops its port, and pushes it with its class's size; POP pops that size and writes the register,
a handle with everything but its entry and generation read again from the translation entry (R94, R140). -/
def Claims.PushAndPop : Prop :=
  ∀ (s s1 : State) (sf : BitVec 2) (reg : BitVec 5), s.InStrand (namedBy sf) →
    let st := s.strand s.cur
    (∀ v, readReg reg s = .ok (v, s1) → Retires (.push sf reg 0) s (spillPush v.toNat 8 s1)) ∧
    (∀ v, readVec reg s = .ok (v, s1) → Retires (.push sf reg 1) s (spillPush v.toNat 512 s1)) ∧
    (∀ h : reg.toNat < 12, Retires (.push sf reg 2) s (spillPush st.p[reg.toNat].toNat 128 s)) ∧
    (∀ h : reg.toNat < 16, Retires (.push sf reg 3) s (spillPush st.h[reg.toNat].toNat 16 s)) ∧
    (∀ v, spillPop 8 s = .ok (v, s1) → Retires (.pop sf reg 0) s (writeReg reg (BitVec.ofNat 64 v) s1)) ∧
    (∀ v, spillPop 512 s = .ok (v, s1) → Retires (.pop sf reg 1) s (writeVec reg (BitVec.ofNat 4096 v) s1)) ∧
    (∀ v, spillPop 128 s = .ok (v, s1) →
      Retires (.pop sf reg 2) s (.ok (writePred reg.toNat (BitVec.ofNat 1024 v) s1))) ∧
    (∀ (v : Nat) (h : reg.toNat < 16), spillPop 16 s = .ok (v, s1) →
      let handle := s.reloadHandle s.cur.die (s.crew s.cur.die s.cur.polder).context (v / 2 ^ 100 % 4096) (v / 2 ^ 112 % 65536)
      Retires (.pop sf reg 3) s
        (.ok (s1.setStrand s.cur { s1.strand s.cur with h := (s1.strand s.cur).h.set reg.toNat handle })))

/-- The spill stack: in the in-pool area while it has room, then in the berm overflow area; a pop takes the top bytes; overflow
traps 0x05 and underflow 0x06, with nothing written (R94). -/
def Claims.SpillStack : Prop :=
  ∀ (s : State) (v n : Nat), s.cur.rot = false →
    let k := s.stream s.cur
    let size := (s.crew s.cur.die s.cur.polder).spillSize
    let roomy := k.ovPtr.toNat + n ≤ k.ovLimit.toNat ∧
      inBerm s.cur.die k.ovBase.toNat (k.ovLimit.toNat - k.ovBase.toNat) = true
    (k.ovPtr.toNat ≤ k.ovBase.toNat → k.spillSp + n ≤ size →
      ∃ t, spillPush v n s = .ok t ∧ (t.stream s.cur).spillSp = k.spillSp + n ∧
        (∀ i, i < n → t.byteAt (spillBase s + k.spillSp + i) = BitVec.ofNat 8 (v / 256 ^ i)) ∧
        ∀ a, a < spillBase s + k.spillSp ∨ spillBase s + k.spillSp + n ≤ a → t.byteAt a = s.byteAt a) ∧
    ((k.ovBase.toNat < k.ovPtr.toNat ∨ size < k.spillSp + n) → roomy →
      ∃ t, spillPush v n s = .ok t ∧ (t.stream s.cur).ovPtr = k.ovPtr + BitVec.ofNat 64 n ∧
        (∀ i, i < n → t.byteAt (k.ovPtr.toNat + i) = BitVec.ofNat 8 (v / 256 ^ i)) ∧
        ∀ a, a < k.ovPtr.toNat ∨ k.ovPtr.toNat + n ≤ a → t.byteAt a = s.byteAt a) ∧
    ((k.ovBase.toNat < k.ovPtr.toNat ∨ size < k.spillSp + n) → ¬ roomy →
      spillPush v n s = .error (.trap 0x05 k.ovPtr)) ∧
    (k.ovBase.toNat < k.ovPtr.toNat → s.poisonIn (k.ovPtr.toNat - n) n = none →
      spillPop n s = .ok (s.readN (k.ovPtr.toNat - n) n,
        s.setStream s.cur { k with ovPtr := k.ovPtr - BitVec.ofNat 64 n })) ∧
    (k.ovPtr.toNat ≤ k.ovBase.toNat → n ≤ k.spillSp → s.poisonIn (spillBase s + k.spillSp - n) n = none →
      spillPop n s = .ok (s.readN (spillBase s + k.spillSp - n) n, s.setStream s.cur { k with spillSp := k.spillSp - n })) ∧
    (k.ovPtr.toNat ≤ k.ovBase.toNat → k.spillSp < n → spillPop n s = .error (.trap 0x06 0))

/-- What a pop takes is what the last push on the same stack wrote (R94). -/
def Claims.PopReturnsThePush : Prop :=
  ∀ (s t : State) (v n : Nat), s.cur.rot = false → s.MemoryCanonical → s.poison = [] → 0 < n →
    (s.stream s.cur).ovPtr.toNat + n < 2 ^ 64 → (s.stream s.cur).ovBase.toNat ≤ (s.stream s.cur).ovPtr.toNat →
    (s.stream s.cur).ovPtr.toNat ≤ (s.stream s.cur).ovLimit.toNat →
    spillPush v n s = .ok t →
    ∃ u, spillPop n t = .ok (v % 256 ^ n, u) ∧ u.stream s.cur = s.stream s.cur

/-- TRAP raises cause 0x02 in its stream with its immediate (R95). -/
def Claims.SoftwareTrap : Prop :=
  ∀ (s : State) (sf : BitVec 2) (imm : BitVec 13), s.Ready (namedBy sf) →
    exec (.trap sf imm) s = .next (s.takeTrap 0x02 (BitVec.ofNat 64 imm.toNat))

/-- Trap entry of a strand that has a handler and is not in trap mode: cause, detail and addresses are written, the branch
queues, the cq pointers and the loops are set aside, all three streams begin at TRAPENTRY, and registers, data queues, tokens and
memory stay as they are. Without a handler, or in trap mode, the strand ends (R82, R96). -/
def Claims.TrapEntry : Prop :=
  ∀ (s : State) (cause : Nat) (info : Word), s.cur.rot = false → s.runs = true → cause < 256 →
    let st := s.strand s.cur
    let t := s.takeTrap cause info
    let u := t.strand s.cur
    OnlyStrand s t ∧
    (st.trapMode = false → st.trapEntry ≠ 0 →
      (u.trapCause.toNat = Str.code s.cur.str * 2 ^ 14 +
        (if cause = 0x78 ∨ cause = 0x79 ∨ cause = 0x7A ∨ cause = 0x7B ∨ cause = 0x7D then 2 ^ 13 else 0) + cause) ∧
      u.trapInfo = info ∧ u.trapMode = true ∧ (∀ i, u.bq.get i = []) ∧
      (∀ k, (u.get k).pc = st.trapEntry ∧ (u.get k).trapPc = (st.get k).pc ∧ (u.get k).trapResume = (st.get k).pc ∧
        (u.get k).loops = [] ∧ (u.get k).ended = false ∧ (u.get k).cqPos = st.cqBase + st.cq.length ∧
        (u.get k).regs = (st.get k).regs ∧ (u.get k).spillSp = (st.get k).spillSp) ∧
      (∃ a x d, u.setAside = some (a, x, d, st.bq) ∧ a.loops = st.a.loops ∧ x.loops = st.x.loops ∧ d.loops = st.d.loops ∧
        a.cqPos = st.a.cqPos ∧ x.cqPos = st.x.cqPos ∧ d.cqPos = st.d.cqPos ∧
        a.ended = st.a.ended ∧ x.ended = st.x.ended ∧ d.ended = st.d.ended) ∧
      u.v = st.v ∧ u.p = st.p ∧ u.h = st.h ∧ u.qAX = st.qAX ∧ u.qXA = st.qXA ∧ u.qXD = st.qXD ∧ u.vAX0 = st.vAX0 ∧
      u.vAX1 = st.vAX1 ∧ u.vXD0 = st.vXD0 ∧ u.vXD1 = st.vXD1 ∧ u.cq = st.cq ∧ u.tokAX = st.tokAX ∧ u.tokXA = st.tokXA ∧
      u.tokXD = st.tokXD ∧ u.tokDX = st.tokDX) ∧
    ((st.trapMode = true ∨ st.trapEntry = 0) →
      u.a.ended = true ∧ u.x.ended = true ∧ u.d.ended = true ∧ u.fault = some (BitVec.ofNat 8 cause))

/-- ERET, once the other two streams wait at it: what was set aside returns, trap mode is cleared, and each stream goes on at its
TRAPRESUME unless it had ended. Outside trap mode it raises 0x0C in X (R97). -/
def Claims.ReturnFromTrap : Prop :=
  ∀ (s : State), s.InStrand (fun _ => true) →
    let st := s.strand s.cur
    (∀ a x d bq, st.trapMode = true → st.setAside = some (a, x, d, bq) →
      (∀ k, k ≠ s.cur.str → (st.get k).arrived = true) →
      ∃ t, exec .eret s = .next t ∧ (∀ b, t.byteAt b = s.byteAt b) ∧ t.dies = s.dies ∧
        let u := t.strand s.cur
        let back (v : Stream) (w : Stream) (z : SetAside) : Prop :=
          v.pc = (if z.ended then w.trapPc else w.trapResume) ∧ v.loops = z.loops ∧ v.cqPos = z.cqPos ∧ v.ended = z.ended ∧
            v.regs = w.regs
        u.trapMode = false ∧ u.setAside = none ∧ u.bq = bq ∧ back u.a st.a a ∧ back u.x st.x x ∧ back u.d st.d d ∧
          u.v = st.v ∧ u.p = st.p ∧ u.h = st.h) ∧
    (st.trapMode = false → s.cur.str = .x → exec .eret s = .next (s.takeTrap 0x0C 0))

/-- EXIT ends the stream that reaches it, with the hazard detector off, and the rotation program with cause 0 (R99, R353). -/
def Claims.ExitEndsTheStream : Prop :=
  ∀ (s : State),
    (s.InStrand (fun _ => true) → (s.crew s.cur.die s.cur.polder).debug = false →
      ∃ t, exec .exit s = .next t ∧ OnlyStrand s t ∧ (t.stream s.cur).ended = true ∧
        (t.stream s.cur).pc = (s.stream s.cur).pc ∧ (t.stream s.cur).regs = (s.stream s.cur).regs ∧
        ∀ k, k ≠ s.cur.str → (t.strand s.cur).get k = (s.strand s.cur).get k) ∧
    (s.Ready (fun _ => true) → s.cur.rot = true → s.cur.die < 16 →
      ∃ t, exec .exit s = .next t ∧ (t.die s.cur.die).rprunning = false ∧ (t.die s.cur.die).rpcause = 0 ∧
        (t.die s.cur.die).rppc = s.pc ∧ (∀ a, t.byteAt a = s.byteAt a) ∧ t.strands = s.strands)

/-- A fence whose three streams have reached it, and what it orders has been performed: all three go on, after the context's
remote-cache sectors are invalidated if its scope is die or wider (R53, R93). -/
def Claims.FenceReleases : Prop :=
  ∀ (s : State) (scope : BitVec 3) (p1 p2 : BitVec 8), s.InStrand (fun _ => true) →
    let st := s.strand s.cur
    st.a.arrived = true → st.x.arrived = true → st.d.arrived = true → st.x.pend = some { ids := [], data := [1003] } →
    s.fenceReady p1 = true → (3 ≤ scope.toNat → (s.writeBackContext s.cur).1 = []) →
    let u := if 3 ≤ scope.toNat then s.invalidateContext s.cur else s
    let v := u.strand s.cur
    exec (.fenceX scope p1 p2) s =
      .next (u.setStrand s.cur { v with a := v.a.advance 1, x := v.x.advance 1, d := v.d.advance 1 })

/-- A stream that reaches a fence waits there, marked as arrived, until the others have (R93). -/
def Claims.FenceHolds : Prop :=
  ∀ (s : State) (scope : BitVec 3) (p1 p2 : BitVec 8), s.InStrand (fun _ => true) →
    let st := s.strand s.cur
    ((s.stream s.cur).arrived = false → (s.stream s.cur).pend = none →
      ∃ t, exec (.fenceX scope p1 p2) s = .next t ∧ OnlyStrand s t ∧ (t.stream s.cur).arrived = true ∧
        (t.stream s.cur).pc = (s.stream s.cur).pc ∧ (t.stream s.cur).regs = (s.stream s.cur).regs ∧
        ∀ k, k ≠ s.cur.str → (t.strand s.cur).get k = st.get k) ∧
    ((s.stream s.cur).arrived = true → (st.a.arrived = false ∨ st.x.arrived = false ∨ st.d.arrived = false) →
      exec (.fenceX scope p1 p2) s = .next s)

/-- SYSR writes the system register its number names for its stream, and traps 0x07 where none does (R79, R98). -/
def Claims.SystemRegisterReads : Prop :=
  ∀ (s : State) (sf : BitVec 2) (rd : BitVec 5) (num : BitVec 13), s.InStrand (namedBy sf) →
    let st := s.strand s.cur
    let k := st.get s.cur.str
    (∀ v, systemRegister num.toNat s = some v → Retires (.sysr sf rd num) s (writeReg rd v s)) ∧
    (systemRegister num.toNat s = none → exec (.sysr sf rd num) s = .next (s.takeTrap 0x07 (BitVec.ofNat 64 num.toNat))) ∧
    systemRegister 0x000 s = some k.pc ∧
    systemRegister 0x005 s = some (BitVec.ofNat 64 k.loops.length) ∧
    systemRegister 0x008 s =
      some (BitVec.ofNat 64 (st.tokAX * 4096 + st.tokXA * 256 + st.tokXD * 16 + st.tokDX)) ∧
    systemRegister 0x010 s = some (BitVec.ofNat 64 k.spillSp) ∧
    systemRegister 0x012 s = some k.ovBase ∧ systemRegister 0x013 s = some k.ovPtr ∧ systemRegister 0x014 s = some k.ovLimit ∧
    systemRegister 0x018 s = some st.trapEntry ∧ systemRegister 0x019 s = some st.trapCause ∧
    systemRegister 0x01A s = some k.trapPc ∧ systemRegister 0x01B s = some st.trapInfo ∧
    systemRegister 0x01C s = some k.trapResume ∧ systemRegister 0x01D s = some (if st.trapMode then 1 else 0) ∧
    (s.cur.str = .x → systemRegister 0x100 s = some st.xctl ∧ systemRegister 0x101 s = some st.srX ∧
      systemRegister 0x160 s = some st.syncstat) ∧
    (s.cur.str = .d → systemRegister 0x100 s = some st.ststat ∧ systemRegister 0x102 s = some st.srD) ∧
    (s.cur.str = .a → systemRegister 0x100 s = some st.ldstat ∧ systemRegister 0x101 s = some st.ldstatpc) ∧
    (∀ n, 0x1000 ≤ n → systemRegister n s = none)

/-- SYSW writes a system register that its stream may write, traps 0x09 for the overflow registers outside a system strand, and
0x07 for a register that is only read or that does not exist (R79, R98). -/
def Claims.SystemRegisterWrites : Prop :=
  ∀ (s s1 : State) (sf : BitVec 2) (ra : BitVec 5) (num : BitVec 13) (v : Word), s.InStrand (namedBy sf) →
    readReg ra s = .ok (v, s1) →
    let n := num.toNat
    let st := s1.strand s1.cur
    let k := s1.stream s1.cur
    let sys := (s.crew s.cur.die s.cur.polder).system
    (∀ t, (0x012 ≤ n ∧ n ≤ 0x014 → sys = true) → writeSystem n v s1 = some t → exec (.sysw sf ra num) s = .next (t.retire 1)) ∧
    (0x012 ≤ n → n ≤ 0x014 → sys = false → exec (.sysw sf ra num) s = .next (s.takeTrap 0x09 (BitVec.ofNat 64 n))) ∧
    ((n < 0x012 ∨ 0x015 ≤ n ∧ n < 0x018 ∨ 0x019 ≤ n ∧ n < 0x01C ∨ 0x01D ≤ n ∧ n < 0x100 ∨ 0x1000 ≤ n) →
      exec (.sysw sf ra num) s = .next (s.takeTrap 0x07 (BitVec.ofNat 64 (n + 2 ^ 13)))) ∧
    writeSystem 0x012 v s1 = some (s1.setStream s1.cur { k with ovBase := v }) ∧
    writeSystem 0x013 v s1 = some (s1.setStream s1.cur { k with ovPtr := v }) ∧
    writeSystem 0x014 v s1 = some (s1.setStream s1.cur { k with ovLimit := v }) ∧
    writeSystem 0x018 v s1 = some (s1.setStrand s1.cur { st with trapEntry := v }) ∧
    writeSystem 0x01C v s1 = some (s1.setStream s1.cur { k with trapResume := v })

/-- An illegal word raises 0x01 with the word and its reason in the stream that executes it; a fetch outside the text raises
0x0A with its address (R70, R73, R307). -/
def Claims.IllegalWordsTrap : Prop :=
  ∀ (s : State) (w r n a : Nat),
    (s.inp = [w, r, w, n] → w < 2 ^ 32 → r < 256 → s.Ready (· = illegalStream w) →
      exec .illegalInstruction s = .next (s.takeTrap 0x01 (BitVec.ofNat 64 (w + r * 2 ^ 32)))) ∧
    (s.inp = [w, r, w, n] → s.runs = true → s.replyDue = none → s.cur.rot = false → s.cur.str ≠ illegalStream w →
      ∃ t, exec .illegalInstruction s = .next t ∧ OnlyStrand s t ∧ (t.stream s.cur).regs = (s.stream s.cur).regs ∧
        t.stream s.cur = (s.stream s.cur).advance n) ∧
    (s.inp = [a] → s.Ready (fun _ => true) →
      exec .instructionFetchFault s = .next (s.takeTrap 0x0A (BitVec.ofNat 64 a))) ∧
    (s.inp = [a, 1] → s.InStrand (· = .a) → exec .instructionFetchFault s = .next (s.takeTrap 0x0A (BitVec.ofNat 64 a)))

/-- A trap in a rotation program stops it: RPCTL holds its cause and RPPC where it stopped, and the ring interrupt of its die is
raised (R352, R353). -/
def Claims.RotationTraps : Prop :=
  ∀ (s : State) (cause : Nat) (info : Word), s.cur.rot = true → s.cur.die < 16 → 0 < cause → cause < 256 →
    let d := s.die s.cur.die
    let e := (s.takeTrap cause info).die s.cur.die
    e.rprunning = false ∧ e.rpcause.toNat = cause ∧ e.rppc = d.rotStream.pc ∧
      (∀ a, (s.takeTrap cause info).byteAt a = s.byteAt a) ∧ (s.takeTrap cause info).strands = s.strands

/-- The stall watchdog traps a stream that has waited its interval on what the watchdog counts, at the word it waits on (R64,
R65). -/
def Claims.WatchdogTraps : Prop :=
  ∀ (s : State) (k : Str) (v : Wait),
    let c : Ctx := { s.cur with str := k, rot := false }
    let w := (s.die c.die).stallwd
    let x := (s.strand c).get k
    s.inp = [Str.num k] → (s.strand? c).isSome = true → (s.crew? c.die c.polder).isSome = true → x.wait = some v →
    v.kind ≠ 0 → x.ended = false → (s.crew c.die c.polder).halted = false →
    ((bitsOf w 31 31 = 1 ∧ microseconds (max 1 (bitsOf w 23 0)) ≤ x.waited →
      exec .stallWatchdogTrap s = .next ({ s with cur := c }.takeTrap 0x7C (BitVec.ofNat 64 v.kind))) ∧
     (bitsOf w 31 31 = 0 ∨ x.waited < microseconds (max 1 (bitsOf w 23 0)) → exec .stallWatchdogTrap s = .next s))

/-! ## The execute engine (05 R160-R184) -/

/-- The integer words: every active element takes its wrapped result, an inactive one keeps its value or is pushed as zero; VSEL
takes each element from one source or the other (R162, R164, R168). -/
def Claims.VectorIntegerArithmetic : Prop :=
  ∀ (s s0 s1 s2 : State) (tk : BitVec 4) (width : BitVec 2) (vd va vb : BitVec 5) (pred : BitVec 4) (x y : Vec),
    XWord s tk s0 → readVec va s0 = .ok (x, s1) → readVec vb s1 = .ok (y, s2) →
    let b := 4 * 2 ^ width.toNat
    let p := readPred pred.toNat s0
    let gives (i : Instr) (f : Nat → Nat → Nat) : Prop :=
      ∃ r, Lanewise b p (previous vd s0) r (fun k => f (lane b k x) (lane b k y)) ∧ WritesVec i s tk vd r s2
    gives (.vadd tk width vd va vb pred) (fun x y => x + y) ∧
    gives (.vsub tk width vd va vb pred) (fun x y => x + 2 ^ b - y) ∧
    gives (.vmul tk width vd va vb pred) (fun x y => x * y) ∧
    ∃ r, Lanewise b p y r (fun k => lane b k x) ∧ WritesVec (.vsel tk width vd va vb pred) s tk vd r s2

/-- The bit words on elements of 8 to 64 bits, with the position of the nth set bit (R165). -/
def Claims.VectorBitOperations : Prop :=
  ∀ (s s0 s1 s2 : State) (tk : BitVec 4) (width : BitVec 2) (vd va vb : BitVec 5) (pred : BitVec 4) (x y : Vec),
    XWord s tk s0 → readVec va s0 = .ok (x, s1) → readVec vb s1 = .ok (y, s2) →
    let b := 8 * 2 ^ width.toNat
    let gives (i : Instr) (f : Nat → Nat → Nat) : Prop :=
      ∃ r, Lanewise b (readPred pred.toNat s0) (previous vd s0) r (fun k => f (lane b k x) (lane b k y)) ∧
        WritesVec i s tk vd r s2
    gives (.vand tk width vd va vb pred) (fun x y => x &&& y) ∧
    gives (.vor tk width vd va vb pred) (fun x y => x ||| y) ∧
    gives (.vxor tk width vd va vb pred) (fun x y => x ^^^ y) ∧
    gives (.vfnsb tk width vd va vb pred) (fun x n => ((List.range b).filter x.testBit)[n]?.getD b)

/-- The shifts, which write every element, and the unary bit words (R166, R167). -/
def Claims.VectorShiftsAndUnary : Prop :=
  ∀ (s s0 s1 : State) (tk : BitVec 4) (width : BitVec 2) (vd va : BitVec 5) (pred : BitVec 4) (sh : BitVec 6) (x : Vec),
    XWord s tk s0 → readVec va s0 = .ok (x, s1) →
    let b := 8 * 2 ^ width.toNat
    let p := readPred pred.toNat s0
    let shifts (i : Instr) (f : Nat → Nat) : Prop := ∃ r, EveryLane b r (fun k => f (lane b k x)) ∧ WritesVec i s tk vd r s1
    let gives (i : Instr) (f : Nat → Nat) : Prop :=
      ∃ r, Lanewise b p (previous vd s0) r (fun k => f (lane b k x)) ∧ WritesVec i s tk vd r s1
    shifts (.vslli tk width vd va sh) (fun x => x * 2 ^ sh.toNat) ∧
    shifts (.vsrli tk width vd va sh) (fun x => x / 2 ^ sh.toNat) ∧
    shifts (.vsrai tk width vd va sh) (fun x => ((BitVec.ofNat b x).sshiftRight sh.toNat).toNat) ∧
    gives (.vmov tk width vd va pred) id ∧
    gives (.vnot tk width vd va pred) (fun x => x ^^^ (2 ^ b - 1)) ∧
    gives (.vneg tk width vd va pred) (fun x => 2 ^ b - x) ∧
    gives (.vpopc tk width vd va pred) (fun x => ((List.range b).filter x.testBit).length) ∧
    gives (.vclz tk width vd va pred) (fun x => if x = 0 then b else b - 1 - x.log2) ∧
    ∃ r, WritesVec (.vbrev tk width vd va pred) s tk vd r s1 ∧
      ∀ k, k < 4096 / b →
        (p.getLsbD k = false → lane b k r = lane b k (previous vd s0)) ∧
        (p.getLsbD k = true → ∀ j, j < b → (lane b k r).testBit j = (lane b k x).testBit (b - 1 - j))

/-- The floating-point words: each active element is the exact result, rounded once in mode XCTL.RM; the stochastic mode draws
for each element of a 16-bit result and rounds an FP32 result to nearest (R162, R163, R169). -/
def Claims.VectorFloatingPoint : Prop :=
  ∀ (s s0 s1 s2 : State) (tk : BitVec 4) (ftype : BitVec 2) (vd va vb : BitVec 5) (pred : BitVec 4) (x y : Vec),
    XWord s tk s0 → readVec va s0 = .ok (x, s1) → readVec vb s1 = .ok (y, s2) → ftype ≠ 0 →
    let f : Fmt := if ftype = 1 then .bf16 else if ftype = 2 then .fp16 else .fp32
    let b := if ftype = 3 then 32 else 16
    let code := ((s0.strand s0.cur).xctl.toNat) % 8
    let rm : Rm := if code = 1 then .rtz else if code = 2 then .rdn else if code = 3 then .rup
      else if code = 4 ∧ b = 16 then .sr else .rne
    let drawn := if rm = .sr then draws 256 (s2.strand s2.cur).srX else ((s2.strand s2.cur).srX, [])
    let s3 := if rm = .sr then s2.setStrand s2.cur { s2.strand s2.cur with srX := drawn.1 } else s2
    let old := previous vd s0
    let gives (i : Instr) (g : XVal → XVal → XVal → XVal) : Prop :=
      ∃ r, Lanewise b (readPred pred.toNat s0) old r (fun k =>
          encode f (g (decodeElt f (lane b k x)) (decodeElt f (lane b k y)) (decodeElt f (lane b k old))) rm false
            (drawn.2.getD k 0)) ∧
        WritesVec i s tk vd r s3
    gives (.vfadd tk ftype vd va vb pred) (fun x y _ => x.add y) ∧
    gives (.vfsub tk ftype vd va vb pred) (fun x y _ => x.sub y) ∧
    gives (.vfmul tk ftype vd va vb pred) (fun x y _ => x.mul y) ∧
    gives (.vfma tk ftype vd va vb pred) (fun x y d => (x.mul y).add d)

/-- The compare and the predicate words (R170, R171). -/
def Claims.PredicateWords : Prop :=
  ∀ (s s0 : State) (tk pd pa pb : BitVec 4) (rd va vb : BitVec 5), XWord s tk s0 →
    (∀ (s1 s2 : State) (width : BitVec 2) (cond : BitVec 3) (x y : Vec), readVec va s0 = .ok (x, s1) →
      readVec vb s1 = .ok (y, s2) → width ≠ 0 →
      (∃ p, WritesPred (.vcmp tk width 0 pd va vb cond) s tk pd.toNat p s2 ∧
        let b := 4 * 2 ^ width.toNat
        ∀ k, k < 1024 → p.getLsbD k = (decide (k < 4096 / b) &&
          (let u := BitVec.ofNat b (lane b k x)
           let v := BitVec.ofNat b (lane b k y)
           match cond.toNat with
           | 0 => u == v
           | 1 => u != v
           | 2 => u.slt v
           | 3 => !u.slt v
           | 4 => u.ult v
           | 5 => !u.ult v
           | 6 => !v.slt u
           | _ => v.slt u))) ∧
      (cond ≠ 4 → cond ≠ 5 → ∃ p, WritesPred (.vcmp tk width 1 pd va vb cond) s tk pd.toNat p s2 ∧
        let f : Fmt := if width = 1 then .bf16 else if width = 2 then .fp16 else .fp32
        let b := if width = 3 then 32 else 16
        ∀ k, k < 1024 → p.getLsbD k = (decide (k < 4096 / b) &&
          (let u := decodeElt f (lane b k x)
           let v := decodeElt f (lane b k y)
           if u.isNaN || v.isNaN then cond == 1
           else match cond.toNat with
           | 0 => u.eq v
           | 1 => !u.eq v
           | 2 => u.lt v
           | 3 => !u.lt v
           | 6 => !v.lt u
           | _ => v.lt u)))) ∧
    (let a := readPred pa.toNat s0
     let b := readPred pb.toNat s0
     WritesPred (.plog tk pd pa pb 0) s tk pd.toNat (a &&& b) s0 ∧ WritesPred (.plog tk pd pa pb 1) s tk pd.toNat (a ||| b) s0 ∧
     WritesPred (.plog tk pd pa pb 2) s tk pd.toNat (a ^^^ b) s0 ∧ WritesPred (.plog tk pd pa pb 3) s tk pd.toNat (a &&& ~~~b) s0 ∧
     WritesReg (.pcnt tk rd pa) s tk rd (BitVec.ofNat 64 ((List.range 1024).filter a.getLsbD).length) s0 ∧
     ∃ r : Vec, WritesVec (.ptov tk rd pa) s tk rd r s0 ∧ ∀ k, k < 4096 → r.getLsbD k = (decide (k < 1024) && a.getLsbD k)) ∧
    (∀ (s1 : State) (x : Vec), readVec va s0 = .ok (x, s1) →
      ∃ p : Pred, WritesPred (.vtop tk pd va) s tk pd.toNat p s1 ∧ ∀ k, k < 1024 → p.getLsbD k = x.getLsbD k)

/-- The special functions act on every active element; VFABS clears the sign, and a NaN input gives the canonical NaN (R172,
R173). The value within the bound is the design's and no
statement names it; what a NaN, an infinity and a zero give is stated. -/
def Claims.SpecialFunctions : Prop :=
  ∀ (s s0 s1 : State) (tk : BitVec 4) (ftype : BitVec 2) (vd va : BitVec 5) (pred : BitVec 4) (x : Vec),
    XWord s tk s0 → readVec va s0 = .ok (x, s1) → ftype ≠ 0 →
    let f : Fmt := if ftype = 1 then .bf16 else if ftype = 2 then .fp16 else .fp32
    let b := if ftype = 3 then 32 else 16
    let p := readPred pred.toNat s0
    let one := encode f (.fin false 1 1) .rne false 0
    let half := encode f (.fin false 1 2) .rne false 0
    let infinity (neg : Bool) := encode f (.inf neg) .rne false 0
    let zero (neg : Bool) := encode f (.fin neg 0 1) .rne false 0
    let gives (i : Instr) (nan posInf negInf posZero negZero : Nat) : Prop :=
      ∃ (r : Vec) (g : Nat → Nat), Lanewise b p (previous vd s0) r (fun k => g (lane b k x)) ∧ WritesVec i s tk vd r s1 ∧
        ∀ n, n < 2 ^ b → (decodeElt f n = .nan → g n = nan) ∧ (decodeElt f n = .inf false → g n = posInf) ∧
          (decodeElt f n = .inf true → g n = negInf) ∧ (n = zero false → g n = posZero) ∧ (n = zero true → g n = negZero)
    (∃ r, WritesVec (.vfabs tk ftype vd va pred) s tk vd r s1 ∧
      Lanewise b p (previous vd s0) r (fun k =>
        if (decodeElt f (lane b k x)).isNaN then f.nan else lane b k x % 2 ^ (b - 1))) ∧
    gives (.vexp2 tk ftype vd va pred) f.nan (infinity false) (zero false) one one ∧
    gives (.vlog2 tk ftype vd va pred) f.nan (infinity false) f.nan (infinity true) (infinity true) ∧
    gives (.vrcp tk ftype vd va pred) f.nan (zero false) (zero true) (infinity false) (infinity true) ∧
    gives (.vrsqrt tk ftype vd va pred) f.nan (zero false) f.nan (infinity false) (infinity true) ∧
    gives (.vtanh tk ftype vd va pred) f.nan one (encode f (.fin true 1 1) .rne false 0) (zero false) (zero true) ∧
    gives (.vsigm tk ftype vd va pred) f.nan one (zero false) half half

/-- Conversions: element by element with one encoding each, over groups of registers that are interleaved where the widths
differ (R174). -/
def Claims.Conversions : Prop :=
  ∀ (s s0 : State) (tk : BitVec 4) (vd va : BitVec 5) (srcf dstf : BitVec 4) (rm : BitVec 3), XWord s tk s0 →
    (∃ x, (Instr.vcvt tk vd va srcf dstf rm).reasonsIn x = []) →
    let fs := (cvtFmt srcf.toNat).1
    let fd := (cvtFmt dstf.toNat).1
    let sat := (cvtFmt dstf.toNat).2
    let bs := fs.bits
    let bd := fd.bits
    let value (ds : List Nat) (i e : Nat) : Nat := encode fd (decodeElt fs e) (Rm.ofCode rm.toNat) sat (ds.getD i 0)
    (∀ (x : Vec) (s1 : State), bs < bd → readVec va s0 = .ok (x, s1) →
      let drawn := drawX (Rm.ofCode rm.toNat) (4096 / bs) s1
      ∃ rs : List Vec, rs.length = bd / bs ∧
        (∀ i, i < 4096 / bs → lane bd (i / (bd / bs)) (rs.getD (i % (bd / bs)) 0) = value drawn.1 i (lane bs i x) % 2 ^ bd) ∧
        Retires (.vcvt tk vd va srcf dstf rm) s ((writeGroup vd rs drawn.2).bind (giveTokens tk))) ∧
    (∀ (xs : List Vec) (s1 : State), bd ≤ bs → readGroup va (bs / bd) s0 = .ok (xs, s1) →
      let drawn := drawX (Rm.ofCode rm.toNat) (4096 / bd) s1
      ∃ r, EveryLane bd r (fun i => value drawn.1 i (lane bs (i / (bs / bd)) (xs.getD (i % (bs / bd)) 0))) ∧
        WritesVec (.vcvt tk vd va srcf dstf rm) s tk vd r drawn.2)

/-- Broadcast, extraction and permutation (R175). -/
def Claims.DataMovement : Prop :=
  ∀ (s s0 : State) (tk : BitVec 4) (width : BitVec 2) (d a b : BitVec 5), XWord s tk s0 →
    let w := 4 * 2 ^ width.toNat
    (∀ (v : Word) (s1 : State), readReg a s0 = .ok (v, s1) →
      ∃ r, EveryLane w r (fun _ => v.toNat) ∧ WritesVec (.vbcast tk width d a) s tk d r s1) ∧
    (∀ (x : Vec) (v : Word) (s1 s2 : State), readVec a s0 = .ok (x, s1) → readReg b s1 = .ok (v, s2) →
      WritesReg (.vext tk width d a b) s tk d (BitVec.ofNat 64 (lane w (v.toNat % (4096 / w)) x)) s2) ∧
    (∀ (x y : Vec) (s1 s2 : State), readVec a s0 = .ok (x, s1) → readVec b s1 = .ok (y, s2) →
      ∃ r, EveryLane w r (fun k => lane w (lane w k y % (4096 / w)) x) ∧ WritesVec (.vperm tk width d a b) s tk d r s2)

/-- The reductions: the exact integer sum and maximum of the active elements, and the FP32 sum in a fixed tree with its maximum
(R175, R176). -/
def Claims.Reductions : Prop :=
  ∀ (s s0 s1 : State) (tk : BitVec 4) (width : BitVec 2) (d a pn : BitVec 5) (x : Vec), XWord s tk s0 →
    readVec a s0 = .ok (x, s1) →
    let w := 4 * 2 ^ width.toNat
    let p := readPred pn.toNat s0
    let active := (List.range (4096 / w)).filter p.getLsbD
    let value (k : Nat) : Int := (BitVec.ofNat w (lane w k x)).toInt
    let tree : Nat → Nat → Nat := fun n => n.rec (fun k => if p.getLsbD k then lane 32 k x else 0x80000000)
      (fun _ f k => fadd32 (f (2 * k)) (f (2 * k + 1)))
    WritesReg (.vrsum tk width d a pn) s tk d (BitVec.ofInt 64 (active.map value).sum) s1 ∧
    (∃ m : Int, WritesReg (.vrmax tk width d a pn) s tk d (BitVec.ofInt 64 m) s1 ∧ (∀ k ∈ active, value k ≤ m) ∧
      (m = -2 ^ (w - 1) ∨ ∃ k ∈ active, value k = m)) ∧
    WritesReg (.vfrsum tk d a pn) s tk d (BitVec.ofNat 64 (tree 7 0)) s1 ∧
    WritesReg (.vfrmax tk d a pn) s tk d
      (BitVec.ofNat 64 ((((List.range 128).filter p.getLsbD).map (lane 32 · x)).foldl fmax32 0xFF800000)) s1

/-- DX quantisation of 512 FP32 values into a block vector and its scales, and the decoding of one (R177). -/
def Claims.BlockVectors : Prop :=
  ∀ (s s0 s1 s2 : State) (tk : BitVec 4) (dx8 : BitVec 1) (vd va vb : BitVec 5), XWord s tk s0 →
    let w := if dx8 = 1 then 8 else 4
    (∀ xs : List Vec, readGroup va 4 s0 = .ok (xs, s1) →
      let drawn := drawX (roundMode s0 w) 512 s1
      let value (e : Nat) : XVal := decodeElt .fp32 (lane 32 (e / 4) (xs.getD (e % 4) 0))
      let block (j : Nat) := quantDX ((List.range 32).map fun m => value (32 * j + m)) w (roundMode s0 w)
        ((drawn.1.drop (32 * j)).take 32)
      ∃ codes scales : Vec,
        (∀ e, e < 4096 / w → lane w e codes = if e < 512 then (block (e / 32)).2.2.getD (e % 32) 0 % 2 ^ w else 0) ∧
        (∀ j, j < 256 → lane 16 j scales = if j < 16 then ((block j).1 + 256 * (block j).2.1) % 2 ^ 16 else 0) ∧
        Retires (.vqdx tk dx8 vd va vb) s
          (((writeVec vd codes drawn.2).bind (writeVec vb scales)).bind (giveTokens tk))) ∧
    (∀ codes scales : Vec, readVec va s0 = .ok (codes, s1) → readVec vb s1 = .ok (scales, s2) →
      ∃ xs : List Vec, xs.length = 4 ∧
        (∀ e, e < 512 → lane 32 (e / 4) (xs.getD (e % 4) 0) =
          fp32Rne (decodeDX (lane 16 (e / 32) scales % 256) (lane 16 (e / 32) scales / 256) (lane w e codes) w) % 2 ^ 32) ∧
        Retires (.vdqdx tk dx8 vd va vb) s ((writeGroup vd xs s2).bind (giveTokens tk)))

/-- Scalar floating point on the FP32 bits of scalar registers (R178). -/
def Claims.ScalarFloatingPoint : Prop :=
  ∀ (s s0 s1 : State) (tk : BitVec 4) (d a : BitVec 5) (u : Word), XWord s tk s0 → readReg a s0 = .ok (u, s1) →
    let code := ((s0.strand s0.cur).xctl.toNat) % 8
    let rm : Rm := if code = 1 then .rtz else if code = 2 then .rdn else if code = 3 then .rup else .rne
    let x := decodeElt .fp32 (u.toNat % 2 ^ 32)
    (∀ (b : BitVec 5) (v : Word) (s2 : State), readReg b s1 = .ok (v, s2) →
      let y := decodeElt .fp32 (v.toNat % 2 ^ 32)
      let gives (i : Instr) (n : Nat) : Prop := WritesReg i s tk d (BitVec.ofNat 64 n) s2
      gives (.fadd tk d a b) (encode .fp32 (x.add y) rm false 0) ∧
      gives (.fsub tk d a b) (encode .fp32 (x.sub y) rm false 0) ∧
      gives (.fmul tk d a b) (encode .fp32 (x.mul y) rm false 0) ∧
      gives (.fmin tk d a b) (fmin32 (u.toNat % 2 ^ 32) (v.toNat % 2 ^ 32)) ∧
      gives (.fmax tk d a b) (fmax32 (u.toNat % 2 ^ 32) (v.toNat % 2 ^ 32)) ∧
      gives (.fcmp tk 0 d a b) (if !x.isNaN && !y.isNaN && x.eq y then 1 else 0) ∧
      gives (.fcmp tk 1 d a b) (if !x.isNaN && !y.isNaN && x.lt y then 1 else 0) ∧
      gives (.fcmp tk 2 d a b) (if !x.isNaN && !y.isNaN && !y.lt x then 1 else 0) ∧
      gives (.fcmp tk 3 d a b) (if x.isNaN || y.isNaN then 1 else 0)) ∧
    WritesReg (.fcvtif tk d a) s tk d (BitVec.ofNat 64 (encode .fp32 (XVal.ofInt u.toInt) rm false 0)) s1 ∧
    WritesReg (.fcvtfi tk d a) s tk d (BitVec.ofNat 64 (encode (.int 64 true) x .rtz false 0)) s1

/-- The threshold, gate-weight, replica and histogram words of the post-processing stage, row by row (R179, R181-R183). -/
def Claims.PostProcessing : Prop :=
  ∀ (s s0 s1 : State) (tk pn : BitVec 4) (vd va vb : BitVec 5) (x : Vec), XWord s tk s0 → readVec va s0 = .ok (x, s1) →
    let l := 16 * 2 ^ ((s0.strand s0.cur).xctl.toNat / 8 % 4)
    let p := readPred pn.toNat s0
    let e (k : Nat) : XVal := decodeElt .fp32 (lane 32 k x)
    let row (k : Nat) : List Nat := (List.range l).map (k / l * l + ·)
    (∀ (y : Vec) (s2 : State), readVec vb s1 = .ok (y, s2) →
      (∃ r q, Retires (.vthr tk vd va vb pn) s (((writeVec vd r s2).map (writePred pn.toNat q)).bind (giveTokens tk)) ∧
        (∀ k, k < 128 → q.getLsbD k =
          (let thr := decodeElt .fp32 (lane 32 (k / l) y)
           !(e k).isNaN && (e k == .inf false || (e k != .inf true && !thr.isNaN && !(e k).lt thr)))) ∧
        (∀ k, 128 ≤ k → q.getLsbD k = false) ∧
        EveryLane 32 r (fun k =>
          if k < 128 / l then ((row (k * l)).filter q.getLsbD).length
          else if 64 ≤ k ∧ k - 64 < 128 / l then
            (if (row ((k - 64) * l)).any fun i => (e i).isNaN then 1 else 0) +
              (if (row ((k - 64) * l)).any fun i => e i == .inf false then 2 else 0)
          else 0)) ∧
      (∃ r, WritesVec (.vhist tk vd va vb pn) s tk vd r s2 ∧
        EveryLane 32 r (fun k =>
          lane 32 k y + ((List.range 128).filter fun i => p.getLsbD i && lane 32 i x == k).length)) ∧
      (∃ r q, Retires (.vxrep tk vd va vb pn) s (((writeVec vd r s2).map (writePred pn.toNat q)).bind (giveTokens tk)) ∧
        let same (k i : Nat) : Bool := p.getLsbD i && lane 32 i x == lane 32 k x
        (∀ k, k < 128 → q.getLsbD k = (p.getLsbD k && !(row k).any fun i => decide (i < k) && same k i)) ∧
        (∀ k, 128 ≤ k → q.getLsbD k = p.getLsbD k) ∧
        EveryLane 32 r (fun k =>
          if q.getLsbD k then
            ((row k).filter fun i => decide (k < i) && same k i).foldl (fun acc i => fadd32 acc (lane 32 i y))
              (fp32Rne (decodeElt .fp32 (lane 32 k y)))
          else 0))) ∧
    (∃ r q, Retires (.vgatew tk vd va pn) s (((writeVec vd r s1).map (writePred pn.toNat q)).bind (giveTokens tk)) ∧
      let chosen (k : Nat) : List Nat := (row k).filter fun i => p.getLsbD i && !(e i).isNaN
      let infs (k : Nat) : List Nat := (chosen k).filter fun i => e i == .inf false
      let top (k : Nat) : XVal := decodeElt .fp32 ((chosen k).foldl (fun m i => fmax32 m (lane 32 i x)) 0xFF800000)
      let weight (k i : Nat) : Nat := SpecialFn.exp2.apply .fp32 3
        (fp32Rne ((decodeElt .fp32 (fp32Rne ((e i).sub (top k)))).mul (decodeElt .fp32 0x3FB8AA3B)))
      let total (k : Nat) : Nat := (chosen k).foldl (fun t i => fadd32 t (weight k i)) 0
      (∀ k, 128 ≤ k → q.getLsbD k = p.getLsbD k) ∧
      ∀ k, k < 128 →
        (k ∉ chosen k → q.getLsbD k = false ∧ lane 32 k r = 0) ∧
        (k ∈ chosen k → infs k ≠ [] →
          (e k = .inf false → q.getLsbD k = true ∧ lane 32 k r = fp32Rne (.fin false 1 (infs k).length) % 2 ^ 32) ∧
          (e k ≠ .inf false → q.getLsbD k = false ∧ lane 32 k r = 0)) ∧
        (k ∈ chosen k → infs k = [] → top k = .inf true → q.getLsbD k = true ∧ lane 32 k r = 0) ∧
        (k ∈ chosen k → infs k = [] → top k ≠ .inf true → q.getLsbD k = true ∧
          lane 32 k r = fp32Rne (XVal.quot (decodeElt .fp32 (weight k k)) (decodeElt .fp32 (total k))) % 2 ^ 32))

/-- CQPUSH adds the active elements to the count queue, oldest element first; more than 64 trap 0x31, and while they do not fit
it waits (R184). -/
def Claims.CountPushes : Prop :=
  ∀ (s s0 s1 : State) (tk pn : BitVec 4) (va : BitVec 5) (x : Vec), XWord s tk s0 → readVec va s0 = .ok (x, s1) →
    let p := readPred pn.toNat s0
    let active := (List.range 128).filter p.getLsbD
    let st := s1.strand s1.cur
    (active.length ≤ 64 → (active = [] ∨ st.cq.length + active.length ≤ 64) →
      Retires (.cqpush tk va pn) s
        (giveTokens tk (s1.setStrand s1.cur { st with cq := st.cq ++ active.map fun k => BitVec.ofNat 32 (lane 32 k x) }))) ∧
    (64 < active.length → exec (.cqpush tk va pn) s = .next (s.takeTrap 0x31 (BitVec.ofNat 64 active.length))) ∧
    (active.length ≤ 64 → active ≠ [] → 64 < st.cq.length + active.length →
      exec (.cqpush tk va pn) s = .next (s.waitOn .countQueue))

/-! ## The access engine (04 R125-R156) -/

/-- Bytes of this die's memory are read as they stand: no request is made, and a range that is not poisoned comes to its bytes,
lowest address lowest (R4, R44, R130). -/
def Claims.LocalReads : Prop :=
  ∀ (s0 s1 : State) (kind : BitVec 2) (acq room : Bool) (pa n : Nat) (data : List Nat), s0.InStrand (· = .a) →
    OnlyStrand s0 s1 →
    s1.MemoryCanonical → s0.pending = none → s1.scoreboardHolds [(pa, n)] = false → (kind = 0 → s0.soHeld = false) →
    (kind = 0 ∨ acq = true → room = true) → 0 < n → (∀ i, i < n → s0.place s0.cur.die ((pa + i) / 128 * 128) = .mem) → s1.poisonIn pa n = none →
    ∃ rs, fetchRanges readDieReg (s0.reader kind acq) false room [(pa, n)] data s0 s1 = .ok (.got rs [] s1) ∧
      collectRange rs pa n = ⟨0, 0, s1.readN pa n, none⟩

/-- A scalar load: the bytes that its sectors came to, extended as its form says, are written and the load retires; a failing
home traps, or in the status form writes zero and is recorded; poison traps (R57, R127, R130). An acquire at die scope or wider
invalidates the context's sectors (R53). -/
def Claims.ScalarLoads : Prop :=
  ∀ (s s0 s1 t : State) (tk : BitVec 4) (rd : BitVec 5) (h : BitVec 3) (ra : BitVec 5) (size : BitVec 2) (u stf : BitVec 1)
    (scope : BitVec 3) (off : Word) (rs : List (Nat × Reply)) (ids : List Nat), AWord s tk s0 → s.acquired = true →
    readReg ra s0 = .ok (off, s1) →
    let hd := s0.handle h.toNat
    let b := 2 ^ size.toNat
    let pa := hd.base.toNat + off.toNat
    let g := collectRange rs pa b
    let v : Word := if u = 1 then BitVec.ofNat 64 g.data else (BitVec.ofNat (8 * b) g.data).signExtend 64
    let loads (i : Instr) (acq wide : Bool) : Prop :=
      fetchRanges readDieReg (s0.reader hd.kind acq) wide (s0.loadRoom rd) [(pa, b)] [] s s1 = .ok (.got rs ids t) →
      let after (x : State) : State := if wide then (x.forgetAll ids).invalidateContext s.cur else x.forgetAll ids
      (∀ p, g.poisonAt = some p → exec i s = .next (s.takeTrap 0x08 (BitVec.ofNat 64 p))) ∧
      (g.poisonAt = none → g.status = 0 → Retires i s (((writeReg rd v t).map after).bind (giveTokens tk))) ∧
      (g.poisonAt = none → g.status ≠ 0 → stf = 0 →
        exec i s = .next (s.takeTrap (loadCause g.status) (BitVec.ofNat 64 g.failAt))) ∧
      (g.poisonAt = none → g.status ≠ 0 → stf = 1 →
        Retires i s (((writeReg rd 0 (t.loadFailed s.cur g.status s.pc)).map after).bind (giveTokens tk)))
    hd.valid = true → off.toNat + b ≤ pageBytes hd.size → s0.bankSplit s0.cur.die pa b = none →
    loads (.ld tk rd h ra size u stf) false false ∧
    loads (.ldAcq tk rd h ra size u stf scope) true (decide (3 ≤ scope.toNat))

/-- The handle check of a load: an invalid handle traps 0x20, an access outside its page 0x21 (R131). -/
def Claims.HandleChecks : Prop :=
  ∀ (s s0 s1 : State) (tk : BitVec 4) (rd : BitVec 5) (h : BitVec 3) (ra : BitVec 5) (size : BitVec 2) (u stf : BitVec 1)
    (off : Word), AWord s tk s0 → s.acquired = true → readReg ra s0 = .ok (off, s1) →
    let hd := s0.handle h.toNat
    (hd.valid = false → exec (.ld tk rd h ra size u stf) s = .next (s.takeTrap 0x20 (BitVec.ofNat 64 h.toNat))) ∧
    (hd.valid = true → pageBytes hd.size < off.toNat + 2 ^ size.toNat →
      exec (.ld tk rd h ra size u stf) s = .next (s.takeTrap 0x21 off))

/-- The addresses of the units of a vector load: 512 bytes up from the offset, a stride from one element to the next, or an
index each from a list in the scratchpad, where all ones is a null lane and an index past the page a failing one (R132, R133). -/
def Claims.VectorAddresses : Prop :=
  ∀ (s s1 s2 : State) (v : VLoad) (off b : Word), s.cur.rot = false → readReg v.ra s = .ok (off, s1) →
    let hd := s.handle v.h.toNat
    let w := 2 ^ v.width.toNat / 2
    let n := 4096 / (4 * 2 ^ v.width.toNat)
    let page := pageBytes hd.size
    (v.form = 1 → hd.valid = true → off.toNat + 512 ≤ page →
      ∃ us, vloadSources v s = .ok (us, max w 1, s1) ∧ us.length * max w 1 = 512 ∧
        ∀ i, i < us.length → us[i]? = some (.at (hd.base.toNat + off.toNat + i * max w 1))) ∧
    (v.form = 2 → readReg v.rb s1 = .ok (b, s2) → hd.valid = true →
      (∀ i : Nat, i < n → 0 ≤ (off.toNat : Int) + i * b.toInt ∧ (off.toNat : Int) + i * b.toInt + w ≤ page) →
      ∃ us, vloadSources v s = .ok (us, w, s2) ∧ us.length = n ∧
        ∀ i, i < n → us[i]? = some (.at (hd.base.toNat + ((off.toNat : Int) + i * b.toInt).toNat))) ∧
    (v.form = 3 → readReg v.rb s1 = .ok (b, s2) → hd.valid = true → ∀ idx, indexList b.toNat n s = .ok idx →
      vloadSources v s = .ok (idx.map (fun i =>
        if i = 2 ^ 32 - 1 then Source.null
        else if page < off.toNat + i * w + w then .past else .at (hd.base.toNat + off.toNat + i * w)), w, s2))

/-- A vector load word checks its operands and sends for the sectors it needs; it then stays in progress until
VECTOR_LOAD_COMPLETE (R128, R132-R134). -/
def Claims.VectorLoadsIssue : Prop :=
  ∀ (s s0 s1 : State) (tk : BitVec 4) (q : BitVec 1) (width : BitVec 2) (h : BitVec 3) (ra rb : BitVec 5) (scope : BitVec 3)
    (statp : BitVec 4) (us : List Source) (w : Nat), AWord s tk s0 → s.acquired = true → s.pending = none →
    ((s0.strand s0.cur).loadStream q.toNat) = none →
    let issues (i : Instr) (v : VLoad) : Prop :=
      let ranges := sourceRanges us w
      vloadSources v s0 = .ok (us, w, s1) →
      (v.form = 1 → ∀ r ∈ ranges.head?, s0.bankSplit s0.cur.die r.1 512 = none) →
      (v.form ≠ 1 → ∀ r ∈ ranges, s0.bankSplit s0.cur.die r.1 r.2 = none) →
      let fetched := fetchRanges readDieReg (s0.reader (s0.handle h.toNat).kind v.acq.isSome)
        (decide (v.acq.isSome ∧ 3 ≤ scope.toNat)) (decide (((s0.strand s0.cur).vAX q.toNat).length < 8)) ranges v.toList s s1
      (∀ t, fetched = .ok (.stay t) → exec i s = .next t) ∧
      (∀ rs ids t, fetched = .ok (.got rs ids t) → exec i s = .next (s.setPending { ids := [], data := v.toList }))
    issues (.ldv tk q width h ra statp) ⟨1, tk, q, width, h, ra, 0, none, statp⟩ ∧
    issues (.ldvAcq tk q width h ra scope statp) ⟨1, tk, q, width, h, ra, 0, some scope, statp⟩ ∧
    issues (.ldvs tk q width h ra rb statp) ⟨2, tk, q, width, h, ra, rb, none, statp⟩ ∧
    issues (.ldvg tk q width h ra rb statp) ⟨3, tk, q, width, h, ra, rb, none, statp⟩

/-- VECTOR_LOAD_COMPLETE: the vector load in progress pushes one entry with its units and their status mask, and retires
(R128). -/
def Claims.VectorLoadsComplete : Prop :=
  ∀ (s s0 s1 t : State) (v : VLoad) (us : List Source) (w : Nat) (rs : List (Nat × Reply)) (ids : List Nat) (lanes : List Lane),
    let c : Ctx := { s.cur with str := .a, rot := false }
    let a : State := { s with cur := c }
    AWord a v.tk s0 → (∃ p, (s.strand c).a.pend = some p ∧ p.data = v.toList) →
    ((s0.strand c).loadStream v.q.toNat) = none → vloadSources v s0 = .ok (us, w, s1) →
    (v.form = 1 → ∀ r ∈ (sourceRanges us w).head?, s0.bankSplit c.die r.1 512 = none) →
    (v.form ≠ 1 → ∀ r ∈ sourceRanges us w, s0.bankSplit c.die r.1 r.2 = none) →
    let wide : Bool := match v.acq with
      | none => false
      | some sc => decide (3 ≤ sc.toNat)
    fetchRanges readDieReg (s0.reader (s0.handle v.h.toNat).kind v.acq.isSome) wide
      (decide (((s0.strand c).vAX v.q.toNat).length < 8)) (sourceRanges us w) v.toList a s1 = .ok (.got rs ids t) →
    lanesOf us w rs = .ok lanes →
    (∀ t1 t2, deliverVector lanes v.width w v.q.toNat v.statp t = .ok t1 →
      giveTokens v.tk (if wide then (t1.forgetAll ids).invalidateContext (t1.forgetAll ids).cur else t1.forgetAll ids) = .ok t2 →
      exec .vectorLoadComplete s = .next (t2.retire 1)) ∧
    ((∀ l ∈ lanes, ∃ x, l = .ok x) → ((t.strand c).vAX v.q.toNat).length < 8 → (t.crew c.die c.polder).debug = false → t.cur = c →
      ∃ e : VEntry, deliverVector lanes v.width w v.q.toNat v.statp t =
          .ok (t.setStrand c ((t.strand c).pushVAX v.q.toNat e)) ∧
        e.statp = v.statp ∧ e.fail = none ∧ e.poison = false ∧ e.mask = 0 ∧
        (∀ k x, lanes[k]? = some (.ok x) → (k + 1) * (8 * w) ≤ 4096 → lane (8 * w) k e.data = x % 2 ^ (8 * w)))

/-- Scratchpad loads: LDP one aligned value, LDPV a vector by rows or columns, LDPVG an element for each index (R135-R137). -/
def Claims.ScratchpadLoads : Prop :=
  ∀ (s s0 s1 : State) (tk : BitVec 4) (rd ra rb : BitVec 5) (size width : BitVec 2) (u q orient : BitVec 1) (a : Word),
    AWord s tk s0 → s.acquired = true → readReg ra s0 = .ok (a, s1) →
    let b := 2 ^ size.toNat
    let n := s0.readN (s0.scratchPa a.toNat) b
    let v : Word := if u = 1 then BitVec.ofNat 64 n else (BitVec.ofNat (8 * b) n).signExtend 64
    (a.toNat < s0.myCrew.scratchBytes → a.toNat % b = 0 → s0.scoreboardHolds [(s0.scratchPa a.toNat, b)] = false →
      s0.poisonIn (s0.scratchPa a.toNat) b = none → WritesReg (.ldp tk rd ra size u) s tk rd v s1) ∧
    (a.toNat < s0.myCrew.scratchBytes → a.toNat % b ≠ 0 → exec (.ldp tk rd ra size u) s = .next (s.takeTrap 0x23 a)) ∧
    (s0.myCrew.scratchBytes ≤ a.toNat → exec (.ldp tk rd ra size u) s = .next (s.takeTrap 0x28 a)) ∧
    ((s0.strand s0.cur).loadStream q.toNat = none →
      (∀ x, scratchVector width (orient = 1) a.toNat s0 = .ok x →
        Retires (.ldpv tk q width orient ra) s ((pushVector q.toNat (plainEntry x) s1).bind (giveTokens tk))) ∧
      (∀ (i : Word) (s2 : State) (idx : List Nat) (x : Nat), readReg rb s1 = .ok (i, s2) → a.toNat < s0.myCrew.scratchBytes →
        indexList i.toNat (4096 / (4 * 2 ^ width.toNat)) s0 = .ok idx →
        scratchGather a.toNat (2 ^ width.toNat / 2) idx s0 = .ok x →
        Retires (.ldpvg tk q width ra rb) s ((pushVector q.toNat (plainEntry x) s2).bind (giveTokens tk)))) ∧
    ((s0.myCrew.fmtOf (a.toNat / 65536)).sixBit = false → a.toNat + 512 ≤ s0.myCrew.scratchBytes →
      a.toNat % max 1 (2 ^ width.toNat / 2) = 0 →
      s0.myCrew.fmtCode (a.toNat / 65536) = s0.myCrew.fmtCode ((a.toNat + 511) / 65536) →
      s0.scoreboardHolds [(s0.scratchPa a.toNat, 512)] = false → s0.poisonIn (s0.scratchPa a.toNat) 512 = none →
      scratchVector width false a.toNat s0 = .ok (s0.readN (s0.scratchPa a.toNat) 512))

/-- Translation and the handle words: XLATE makes a handle of the matching entry of lowest index or leaves it invalid, HTEST reads
a handle, HREL invalidates one, HMOV copies one (R139-R141). -/
def Claims.HandleWords : Prop :=
  ∀ (s s0 : State) (tk : BitVec 4) (rd : BitVec 5) (hn hm : BitVec 4) (ra : BitVec 5), AWord s tk s0 →
    let old := s0.handle hn.toNat
    (∀ (va : Word) (s1 : State), readReg ra s0 = .ok (va, s1) →
      let found := (s0.die s0.cur.die).search s0.cur.die s0.myCrew.context va.toNat false
      (2 ^ 56 ≤ va.toNat →
        WritesReg (.xlate tk rd hn ra) s tk rd 2 (s1.setHandle hn.toNat { old with valid := false })) ∧
      (va.toNat < 2 ^ 56 → found = none →
        WritesReg (.xlate tk rd hn ra) s tk rd 1 (s1.setHandle hn.toNat { old with valid := false })) ∧
      (∀ k w0, va.toNat < 2 ^ 56 → found = some (k, w0) →
        let h := handleOf k w0 true
        WritesReg (.xlate tk rd hn ra) s tk rd
          (BitVec.ofNat 64 ((if h.seg then 2 ^ 9 else 0) + (if h.wr then 2 ^ 8 else 0) + h.kind.toNat * 2 ^ 6 + h.size.toNat * 2 ^ 4))
          (s1.setHandle hn.toNat h))) ∧
    WritesReg (.htest tk rd hn) s tk rd (BitVec.ofNat 64 old.toNat) s0 ∧
    Retires (.hrel tk hn) s (giveTokens tk (s0.setHandle hn.toNat { old with valid := false })) ∧
    Retires (.hmov tk hn hm) s (giveTokens tk (s0.setHandle hn.toNat (s0.handle hm.toNat)))

/-- Page requests, prefetch, scoreboard queries and the wait on copies (R142-R146). -/
def Claims.RequestsAndQueries : Prop :=
  ∀ (s s0 s1 : State) (tk : BitVec 4) (rd ra rb : BitVec 5) (h : BitVec 3) (len : BitVec 2) (space : BitVec 1) (a : Word),
    AWord s tk s0 → readReg ra s0 = .ok (a, s1) →
    let found := (s0.die s0.cur.die).search s0.cur.die s0.myCrew.context a.toNat false
    let hd := s0.handle h.toNat
    (2 ^ 56 ≤ a.toNat → WritesReg (.preq tk rd ra) s tk rd 3 s1) ∧
    (a.toNat < 2 ^ 56 → found.isSome = true → WritesReg (.preq tk rd ra) s tk rd 1 s1) ∧
    (a.toNat < 2 ^ 56 → found = none →
      let r := s1.faultRecord s0.cur s0.myCrew.context a.toNat
      WritesReg (.preq tk rd ra) s tk rd (BitVec.ofNat 64 r.1) r.2) ∧
    ((hd.valid = false ∨ hd.kind = 0 ∨ pageBytes hd.size ≤ a.toNat) → Retires (.pref tk h ra len) s (giveTokens tk s1)) ∧
    (hd.valid = true → hd.kind ≠ 0 → a.toNat < pageBytes hd.size →
      let n := min (if len = 0 then 128 else if len = 1 then 1024 else if len = 2 then 4096 else 65536) (pageBytes hd.size - a.toNat)
      let first := (hd.base.toNat + a.toNat) / 128
      let last := (hd.base.toNat + a.toNat + n - 1) / 128
      Retires (.pref tk h ra len) s
        (giveTokens tk (((List.range (last - first + 1)).map (first + ·)).foldl (fun x i => x.prefetch (s0.reader hd.kind false) i) s1))) ∧
    (∀ (n : Word) (s2 : State), readReg rb s1 = .ok (n, s2) →
      let pa := if space = 1 then a.toNat else s0.scratchPa a.toNat
      let bytes := if space = 1 then n.toNat else min n.toNat (0x800000 - a.toNat)
      ∃ hits valid : Nat, WritesReg (.scbq tk rd ra rb space) s tk rd (BitVec.ofNat 64 (hits + valid * 2 ^ 16)) s2 ∧ hits < 2 ^ 16 ∧
        (∀ i : Fin 16, hits.testBit i = (s0.myCrew.copies.get i).overlaps pa bytes) ∧
        valid = (s0.myCrew.copies.toList.filter fun e => e.state ≠ .free).length) ∧
    (s.pending = none →
      (∀ i : Fin 16, (a.toNat % 2 ^ 16 = 0 ∨ a.toNat.testBit i = true) → (s0.myCrew.copies.get i).state = .free) →
      Retires (.scbwait tk ra) s (giveTokens tk s1))

/-- Load streams: binding checks the descriptor and starts the stream at its first vector, and the stream words read, advance,
await and end it (R147-R150). -/
def Claims.LoadStreams : Prop :=
  ∀ (s s0 s1 : State) (tk : BitVec 4) (q : BitVec 1) (rd ra : BitVec 5), AWord s tk s0 →
    let st := s0.strand s0.cur
    (∀ (a : Word) (desc : Vector Word 8), s.acquired = true → readReg ra s0 = .ok (a, s1) → a.toNat % 64 = 0 →
      st.loadStream q.toNat = none → readDescr a.toNat 0x23 0x28 s0 = .ok desc →
      (∀ r, streamFault s0.myCrew s0.handle (descrOf desc) = some r →
        exec (.sbind tk q ra) s = .next (s.takeTrap 0x29 (a + BitVec.ofNat 64 (2 ^ 32 * r)))) ∧
      (streamFault s0.myCrew s0.handle (descrOf desc) = none →
        Retires (.sbind tk q ra) s (giveTokens tk (s1.setStrand s.cur ((s1.strand s.cur).setLoadStream q.toNat (some
          { desc := desc, handle := s0.handle ((desc[1]).toNat % 8), word := s0.pc, next := 0, count := (descrOf desc).total
            pushed := 0, flight := none, place := 0, began := 0, reqs := [], stopped := none }))))) ) ∧
    (st.loadStream q.toNat = none → Retires (.sunbind tk q) s (giveTokens tk s0) ∧ Retires (.sbwait tk q) s (giveTokens tk s0) ∧
      WritesReg (.sbget tk q rd) s tk rd 0 s0) ∧
    (∀ x, st.loadStream q.toNat = some x →
      WritesReg (.sbget tk q rd) s tk rd (BitVec.ofNat 64 (2 ^ 63 + x.pushed % 2 ^ 32)) s0 ∧
      (x.flight = none → Retires (.sunbind tk q) s (giveTokens tk (s0.setStrand s0.cur (st.setLoadStream q.toNat none)))) ∧
      (x.count ≤ x.next → x.flight = none → Retires (.sbwait tk q) s (giveTokens tk s0)) ∧
      ((x.next < x.count ∨ x.flight ≠ none) → exec (.sbwait tk q) s = .next (s.waitOn .dataQueue)) ∧
      (∀ n : Word, readReg ra s0 = .ok (n, s1) → (s1.strand s.cur).loadStream q.toNat = some x →
        Retires (.sbadv tk q ra) s (giveTokens tk (s1.setStrand s.cur ((s1.strand s.cur).setLoadStream q.toNat (some
          { x with next := x.next + min n.toNat (x.count - x.next) }))))))

/-- LOAD_STREAM_FETCH: a stream of the scratchpad delivers its next vector into its queue and goes on by one vector; a stream that
is at its end, held or whose queue is full stays as it is (R149). -/
def Claims.LoadStreamFetch : Prop :=
  ∀ (s : State) (q : Nat) (x : AffineStream),
    let c : Ctx := { s.cur with str := .a, rot := false }
    let st := s.strand c
    let a : State := { s with cur := c }
    let d := descrOf x.desc
    let begun : AffineStream :=
      { x with flight := some x.next, next := x.next + 1, place := st.a.seq, began := s.reqNo }
    s.inp = [q] → q < 2 → s.strand? c = some st → st.loadStream q = some x → x.flight = none → x.reqs = [] →
    (x.next < x.count → (st.vAX q).length < 8 → st.a.fencePaths = none → (s.crew c.die c.polder).halted = false →
      a.acquired = true → bitsOf d.ctrl 8 8 = 1 →
      ∀ v, scratchVector (BitVec.ofNat 2 (bitsOf d.ctrl 7 6)) (decide (bitsOf d.ctrl 9 9 = 1)) (d.addr x.next).toNat
          (({ a with reqNo := s.reqNo + 1 } : State).setStrand c (st.setLoadStream q (some begun))) = .ok v →
        ∃ t, exec .loadStreamFetch s = .next t ∧
          t.strand c =
            (st.setLoadStream q (some { begun with flight := none, pushed := x.pushed + 1 })).pushVAX q (plainEntry v) ∧
          ∀ b, t.byteAt b = s.byteAt b) ∧
    ((x.count ≤ x.next ∨ 8 ≤ (st.vAX q).length ∨ (s.crew c.die c.polder).halted = true) → exec .loadStreamFetch s = .next s)

/-- The requester timers: a request without a reply at the end of its interval completes with status 2, its tag's generation goes
on by one and the tag rests for an interval, after which it may be issued again (R152). -/
def Claims.RequesterTimers : Prop :=
  ∀ (s : State),
    (∀ (id t : Nat) (r : Req), s.inp = [id] → look id s.reqs = some r → r.tag = some t → r.reply = none →
      ¬ (r.kind = 2 ∧ (r.op = 33 ∨ r.op = 36 ∨ r.op = 37)) → r.purpose = .plain → r.mark = false →
      (s.cycle < r.sent + (s.die r.die).interval → exec .requesterTimeout s = .next s) ∧
      (r.sent + (s.die r.die).interval ≤ s.cycle →
        exec .requesterTimeout s = .next ({ s with
          tagGen := put (tagKey r.die r.unit r.cls t) ((r.gen + 1) % 16) s.tagGen
          tagRest := put (tagKey r.die r.unit r.cls t) (s.cycle + (s.die r.die).interval) s.tagRest
          reqs := put id { r with reply := some ⟨2, 0, 0⟩, tag := none } s.reqs }.pump))) ∧
    (∀ key t, s.inp = [key] → look key s.tagRest = some t →
      (t ≤ s.cycle → exec .tagRestEnd s = .next ({ s with tagRest := unput key s.tagRest }.pump)) ∧
      (s.cycle < t → exec .tagRestEnd s = .next s))

/-! ## The copy engine (06 R193-R220) -/

/-- A checked command takes the free entry of lowest index, with its strand, its place in program order and its place in the
order of issue; CPLAST holds the entry; while every entry is taken the stream waits (R39, R198, R219). -/
def Claims.CopyEntries : Prop :=
  ∀ (s : State) (e : CopyCmd), s.cur.rot = false →
    let c := s.cur
    let crew := s.crew c.die c.polder
    ((∀ i, i < 16 → (crew.copyAt i).state ≠ .free) → issueCopy e s = .error (.wait .commandQueue)) ∧
    (∀ i, i < 16 → (crew.copyAt i).state = .free → (∀ j, j < i → (crew.copyAt j).state ≠ .free) →
      ∃ t, issueCopy e s = .ok t ∧ (∀ a, t.byteAt a = s.byteAt a) ∧ t.dies = s.dies ∧
        (t.crew c.die c.polder).copyAt i =
          { e with strand := c.strand, seq := (s.stream c).seq, order := crew.copyOrder, marks := (s.stream c).marks } ∧
        (∀ j, j ≠ i → (t.crew c.die c.polder).copyAt j = crew.copyAt j) ∧
        t.strand c = { s.strand c with cplast := BitVec.ofNat 4 i })

/-- The checks of a copy in their order: the first that fails traps, with its cause and information (R198). -/
def Claims.CopyChecks : Prop :=
  ∀ (l : List (Bool × Nat × Nat)),
    (firstTrap l = .ok () ↔ ∀ x ∈ l, x.1 = false) ∧
    (∀ pre cause info post, l = pre ++ (true, cause, info) :: post → (∀ x ∈ pre, x.1 = false) →
      firstTrap l = .error (.trap cause (BitVec.ofNat 64 info)))

/-- CPY and the ring copies: with the plan of their registers checked, the command enters the scoreboard; a CPYR moves the fill
point of its ring on by what it will write, a CPYR.AT leaves it (R194-R198, R205). -/
def Claims.CopyWords : Prop :=
  ∀ (s s0 s1 : State) (tk : BitVec 4) (scol sc : BitVec 1) (ring : BitVec 3) (rd rp ra rb : BitVec 5), AWord s tk s0 →
    (∀ p bad, planCpy scol sc rd ra rb s0 = .ok (p, bad, s1) → p.check s0 bad [] = .ok () →
      Retires (.cpy tk scol sc rd ra rb) s
        ((issueCopy { p.cmd with word := (encode (.cpy tk scol sc rd ra rb)).headD 0 } s1).bind (giveTokens tk))) ∧
    (∀ (s2 : State) (a b : Word), readReg ra s1 = .ok (a, s2) → ∀ s3, readReg rb s2 = .ok (b, s3) →
      s0.myCrew.ringPending ring.toNat = false →
      let r := s0.myCrew.ring ring.toNat
      let fill (k off : Nat) (i : Instr) (atOff : Bool) : Prop :=
        let stage : Side := { global := false, hn := 0, h := default, off := r.bank * 65536 + k % r.stages * r.stageSize + off }
        let plan := planCopy s0 (sideOf a s0) stage b (scol = 1) false none none true
        let l := plan.ringLen
        r.stages ≠ 0 → 128 ≤ l → l % 128 = 0 → off % 128 = 0 → off + l ≤ r.stageSize → plan.convBad = false →
        (atOff = true → r.tail ≤ k ∧ k * r.stageSize + off + l ≤ r.fillStage * r.stageSize + r.fillOff) →
        plan.check s0 (copyAddrBad a) [] = .ok () →
        let e := { plan.cmd with
          src := a, dst := 0, aux := BitVec.ofNat 64 (k * 2 ^ 32 + off), ring := ring.toNat, stage := k, word := (encode i).headD 0 }
        let moved (t : State) : State := t.setCrew s0.cur.die s0.cur.polder (t.myCrew.setRing ring.toNat
          (if atOff then r
           else if off + l = r.stageSize then { r with fillStage := k + 1, fillOff := 0 }
           else { r with fillStage := k, fillOff := off + l }))
        Retires i s (((issueCopy e s3).map moved).bind (giveTokens tk))
      (s1 = s0 → fill r.fillStage r.fillOff (.cpyr tk scol ring ra rb) false) ∧
      (∀ p : Word, readReg rp s0 = .ok (p, s1) →
        fill (p.toNat / 2 ^ 32) (p.toNat % 2 ^ 32) (.cpyrAt tk scol ring rp ra rb) true))

/-- The gather, metadata, queue, merge and format words: with their checks passed, each enters the scoreboard as its command
(R207-R212). -/
def Claims.OtherCopyWords : Prop :=
  ∀ (s s0 s1 : State) (tk op : BitVec 4) (rd ra rb : BitVec 5) (d a b : Word), AWord s tk s0 →
    let src := sideOf a s0
    let dst := sideOf d s0
    let issues (i : Instr) (t : State) (e : CopyCmd) : Prop :=
      Retires i s ((issueCopy { e with word := (encode i).headD 0 } t).bind (giveTokens tk))
    (copyRegs rd ra rb s0 = .ok (d, a, b, s1) →
      -- the gather of M rows of the list at b
      (let m := b.toNat / 2 ^ 32 % 2 ^ 20
       let list := b.toNat % 2 ^ 32
       let n := (b.toNat / 2 ^ 52 % 256 + 1) * 128 * m
       let limit := if src.global then pageBytes src.h.size else s0.myCrew.scratchBytes
       let srcR := if m = 0 then [] else [(src.off, limit - src.off)]
       copyChecks s0 src dst [] (copyAddrBad a || copyAddrBad d || bitsOf b 63 60 ≠ 0)
          (if src.global then [] else [(src.off, min 1 n)]) [(dst.off, n)] 0 n
          [src.off % 128 ≠ 0 || dst.off % 128 ≠ 0 ||
              (m ≠ 0 && (list % 4 ≠ 0 || list / 65536 ≠ (list + 4 * m - 1) / 65536 || s0.myCrew.scratchBytes < list + 4 * m)),
            false, false, dst.global && !dst.h.wr, anyOverlap (src.ranges s0 srcR) (dst.ranges s0 [(dst.off, n)])] true [] = .ok () →
        issues (.cpyg tk rd ra rb) s1 { CopyCmd.blank .gather with
          src := a, dst := d, len := b, srcH := src.copy, dstH := dst.copy, srcPa := src.pa s0, dstPa := dst.pa s0, dstLen := n
          units := unitCount (dst.pa s0) n, srcR := src.ranges s0 srcR ++ [(s0.scratchPa list, 4 * m)]
          dstR := dst.ranges s0 [(dst.off, n)] }) ∧
      -- metadata into the side memory
      (let n := b.toNat
       let side := s0.myCrew.sideMemory s0.cur.die s0.cur.polder
       copyChecks s0 src default [] (copyAddrBad a) [(src.off, n)] [] n 0
          [d.toNat % 8 ≠ 0 || n % 8 ≠ 0, false, false, false, false] false [(side.2 < d.toNat + n, 0x43, d.toNat)] = .ok () →
        issues (.cpymeta tk rd ra rb) s1 { CopyCmd.blank .sidecar with
          src := a, dst := d, len := b, srcH := src.copy, srcPa := src.pa s0, dstPa := side.1 + d.toNat, dstLen := n
          units := unitCount (side.1 + d.toNat) n, srcR := src.ranges s0 [(src.off, n)], dstR := [(side.1 + d.toNat, n)] }) ∧
      -- a merge of FP32 or INT32 elements
      (let n := b.toNat
       copyChecks s0 src dst [] (copyAddrBad a || copyAddrBad d) [(src.off, n)] [(dst.off, n)] n n
          [src.off % 128 ≠ 0 || dst.off % 128 ≠ 0 || n % 128 ≠ 0 || n < 128 || 65536 < n, false, false, dst.global && !dst.h.wr,
            anyOverlap (src.ranges s0 [(src.off, n)]) (dst.ranges s0 [(dst.off, n)])] true [] = .ok () →
        issues (.cmerge tk op rd ra rb) s1 { CopyCmd.blank (.merge op.toNat) with
          src := a, dst := d, len := b, srcH := src.copy, dstH := dst.copy, srcPa := src.pa s0, dstPa := dst.pa s0, dstLen := n
          units := unitCount (dst.pa s0) n, srcR := src.ranges s0 [(src.off, n)], dstR := dst.ranges s0 [(dst.off, n)] })) ∧
    -- entries of the metadata queue
    (∀ s2, readReg ra s0 = .ok (a, s1) → readReg rb s1 = .ok (b, s2) →
      copyChecks s0 src default [] (copyAddrBad a) [(src.off, 512 * b.toNat)] [] (512 * b.toNat) 0
        [src.off % 128 ≠ 0, false, false, false, false] false [(65535 < b.toNat, 0x43, b.toNat)] = .ok () →
      issues (.cpyq tk ra rb) s2 { CopyCmd.blank .queue with
        src := a, len := b, srcH := src.copy, srcPa := src.pa s0, units := b.toNat
        srcR := src.ranges s0 [(src.off, 512 * b.toNat)] }) ∧
    -- a bank's format
    (∀ (bank : BitVec 7) (code : BitVec 8), bank.toNat < s0.myCrew.scratchBytes / 65536 → (bankFmt code.toNat).isSome = true →
      (0xC1 ≤ code.toNat → bank.toNat + code.toNat % 16 < s0.myCrew.scratchBytes / 65536) →
      let r := [(s0.scratchPa (bank.toNat * 65536), 65536)]
      issues (.bfmt tk bank code) s0 { CopyCmd.blank (.bfmt bank.toNat code.toNat) with srcR := r, dstR := r })

/-- CCANCEL with no write of a named command begun: each ends with status 6, and the register takes the entries it named. CSTAT
reads an entry's state, strand, place, landed units and status (R218, R219). -/
def Claims.CopyQueries : Prop :=
  ∀ (s s0 s1 : State) (tk : BitVec 4) (rd ra : BitVec 5) (m : Word), AWord s tk s0 → readReg ra s0 = .ok (m, s1) →
    let c := s0.cur
    let crew := s0.myCrew
    let named := (List.range 16).filter fun i =>
      (crew.copyAt i).state ≠ .free && (if m.toNat % 65536 = 0 then (crew.copyAt i).strand = c.strand else m.toNat.testBit i)
    (s.pending = none → (∀ i ∈ named, (crew.copyAt i).flight.all (fun f => !f.writing) = true) →
      WritesReg (.ccancel tk rd ra) s tk rd (BitVec.ofNat 64 ((named.map (2 ^ ·)).sum))
        (named.foldl (fun x i => x.cancelCopy c.die c.polder i) s1) ∧
      ∀ i ∈ named, ((named.foldl (fun x i => x.cancelCopy c.die c.polder i) s1).crew c.die c.polder).copyAt i =
        { crew.copyAt i with state := .free, flight := [], status := 6, cancelled := false }) ∧
    (m.toNat < 16 →
      let e := crew.copyAt m.toNat
      WritesReg (.cstat tk rd ra) s tk rd (BitVec.ofNat 64
        ((match e.state with
          | .free => 0
          | .suspended => 2
          | _ => 1) * 2 ^ 62 + e.strand % 4 * 2 ^ 56 + e.seg % 2 ^ 20 * 2 ^ 32
          + (e.note.getD (e.next + e.landed.length)) % 2 ^ 24 * 2 ^ 8
          + (if e.state = .free then e.status % 256 else 0))) s1) ∧
    (16 ≤ m.toNat → exec (.cstat tk rd ra) s = .next (s.takeTrap 0x40 1))

/-- COPY_COMMAND_START makes the oldest queued command that may start active, while fewer than eight are; BFMT_PERFORM sets its
bank's format and ends with status 0 once it may start (R212, R213). -/
def Claims.CopyStarts : Prop :=
  ∀ (s : State) (crew : Crew) (i : Nat),
    let die := s.cur.die
    let polder := s.cur.polder
    s.crew? die polder = some crew → crew.halted = false → i < 16 →
    let e := crew.copyAt i
    (s.oldestReady die polder = some i →
      (e.state = .queued ∧ s.mayStart die polder e = true ∧
        ∀ j, j < 16 → (crew.copyAt j).state = .queued → (crew.copyAt j).isBfmt = false → s.mayStart die polder (crew.copyAt j) = true →
          e.order ≤ (crew.copyAt j).order) ∧
      ((crew.copies.toList.filter fun e => e.state = .active).length < 8 → (e.units ≠ 0 ∨ e.follow.isSome = true) →
        exec .copyCommandStart s = .next (s.setCopy die polder i { e with state := .active }))) ∧
    (∀ bank code, s.inp = [i] → e.op = .bfmt bank code → e.state = .queued → s.mayStart die polder e = true → e.flight = [] →
      8 ≤ e.ring → bank < 128 →
      ∃ t, exec .bfmtPerform s = .next t ∧ (t.crew die polder).fmtCode bank = code % 256 ∧
        (∀ b, b ≠ bank → (t.crew die polder).fmtCode b = crew.fmtCode b) ∧
        (t.crew die polder).copyAt i = { e with state := .free, flight := [], status := 0, cancelled := false } ∧
        ∀ a, t.byteAt a = s.byteAt a)

/-- COPY_UNIT_LAND of a byte copy within the die: the unit's destination bytes are the source's, no other byte changes, and the
command goes on to the next unit or, with its last, ends (R202, R213). -/
def Claims.CopyUnits : Prop :=
  ∀ (s : State) (crew : Crew) (i : Nat),
    let die := s.cur.die
    let polder := s.cur.polder
    let e := crew.copyAt i
    let o := (e.unitRange e.next).1
    let n := (e.unitRange e.next).2
    s.crew? die polder = some crew → crew.halted = false → i < 16 → s.inp = [i, e.next] → s.MemoryCanonical →
    e.state = .active → e.op = .bytes → e.scol = false → e.sc = false → e.cancelled = false → e.flight = [] → e.landed = [] →
    e.ring = 8 → e.poisoned = false → e.overfill = false → e.merged = none → e.next < e.units → e.follow = none →
    (∀ k, k < n → s.place die ((e.srcPa + o + k) / 128 * 128) = .mem) → s.place die (e.dstPa + o) = .mem →
    s.poisonIn (e.srcPa + o) n = none →
    ∃ t, exec .copyUnitLand s = .next t ∧ (∀ k, k < n → t.byteAt (e.dstPa + o + k) = s.byteAt (e.srcPa + o + k)) ∧
      (∀ a, (a < e.dstPa + o ∨ e.dstPa + o + n ≤ a) → t.byteAt a = s.byteAt a) ∧
      (e.next + 1 < e.units → (t.crew die polder).copyAt i = { e with next := e.next + 1 }) ∧
      (e.next + 1 = e.units → (t.crew die polder).copyAt i = { e with next := e.next + 1, state := .free, status := 0 }) ∧
      (∀ j, j ≠ i → (t.crew die polder).copyAt j = crew.copyAt j) ∧ t.strands = s.strands

/-- COPY_SUSPEND: a unit whose source lies in a segment that the window does not show stops its command until the segment's tag
is raised. COPY_ENGINE_RESET ends every live command with status 11 (R216, R220). -/
def Claims.CopyStops : Prop :=
  ∀ (s : State) (crew : Crew) (i : Nat),
    let die := s.cur.die
    let polder := s.cur.polder
    let e := crew.copyAt i
    let o := (e.unitRange e.next).1
    let n := (e.unitRange e.next).2
    s.crew? die polder = some crew →
    (s.inp = [i, e.next] → crew.halted = false → i < 16 → e.state = .active → e.op = .bytes → e.scol = false → e.sc = false →
      e.cancelled = false → e.flight = [] → e.next < e.units → 0 < n →
      (∀ k, k < n → s.place die ((e.srcPa + o + k) / 128 * 128) = .window) →
      (s.die die).holds (paOffset (e.srcPa + o) / (s.die die).segSize) = false →
      exec .copySuspend s = .next (s.setCopy die polder i
        { e with state := .suspended, seg := paOffset (e.srcPa + o) / (s.die die).segSize })) ∧
    (∃ t, exec .copyEngineReset s = .next t ∧ ∀ j, j < 16 →
      ((crew.copyAt j).state = .free → (t.crew die polder).copyAt j = crew.copyAt j) ∧
      ((crew.copyAt j).state ≠ .free → ((t.crew die polder).copyAt j).state = .free ∧ ((t.crew die polder).copyAt j).status = 11))

/-! ## The matrix engine (07 R224-R252, 06 R195, 05 R185) -/

/-- The product words: the word enters the queue its U bit selects, at the end, while fewer than 16 commands wait there; else its
stream waits (R187, R225, R243). The hazard detector is off. -/
def Claims.ProductWords : Prop :=
  ∀ (s s0 : State) (tk : BitVec 4) (u fill : BitVec 1) (td : BitVec 4) (ringA ringB : BitVec 3) (oa ob : BitVec 1)
    (ms : BitVec 2) (ks : BitVec 5), XWord s tk s0 → s0.myCrew.debug = false →
    let enters (i : Instr) : Prop :=
      let w := (encode i).headD 0
      Retires i s ((enqueueMat w 0 0 s0).bind (giveTokens tk)) ∧
      let crew := s0.myCrew
      let cmd : MatCmd :=
        { word := w, follow := false, strand := s0.cur.strand, val1 := 0, val2 := 0, stamp := crew.matOrder, after := 0 }
      ((crew.mq (u = 1)).length < 16 → ∃ t, enqueueMat w 0 0 s0 = .ok t ∧ (∀ a, t.byteAt a = s0.byteAt a) ∧ t.strands = s0.strands ∧
        t.crew s0.cur.die s0.cur.polder =
          { crew.setMq (u = 1) (crew.mq (u = 1) ++ [cmd]) with matOrder := crew.matOrder + 1 }) ∧
      (16 ≤ (crew.mq (u = 1)).length → exec i s = .next (s.waitOn .commandQueue))
    enters (.mma tk u fill td ringA ringB oa ob ms ks) ∧ enters (.mmas tk u fill td ringA ringB oa ob ms ks) ∧
    enters (.mmag tk u fill td ringB ob ms ks)

/-- The control words: ZERO without a register, MODE with two that are checked, RING with a configuration that is checked and POP
with a count; each enters its queue with what it read (R240, R241). -/
def Claims.MatrixControlWords : Prop :=
  ∀ (s s0 s1 s2 : State) (tk : BitVec 4) (u : BitVec 1) (tile : BitVec 4) (fill : BitVec 1) (ms : BitVec 2) (ring : BitVec 3)
    (sa sb : BitVec 5) (a b : Word), XWord s tk s0 → readReg sa s0 = .ok (a, s1) →
    let enters (i : Instr) (v1 v2 : Word) (t : State) : Prop :=
      Retires i s ((enqueueMat ((encode i).headD 0) v1 v2 t).bind (giveTokens tk))
    enters (.mctlZero tk u tile fill) 0 0 s0 ∧
    (readReg sb s1 = .ok (b, s2) →
      (a.getLsbD 31 = false → b.getLsbD 0 = false → matClass (a.toNat / 2 ^ 56) ≠ 0 →
        matClass (a.toNat / 2 ^ 56) = matClass (a.toNat / 2 ^ 48 % 256) → enters (.mctlMode tk u ms sa sb) a b s2) ∧
      ((a.getLsbD 31 = true ∨ b.getLsbD 0 = true) → exec (.mctlMode tk u ms sa sb) s = .next (s.takeTrap 0x48 1))) ∧
    (ringCheck s0.myCrew ring.toNat a = 0 → enters (.mctlRing tk u ring sa) a 0 s1) ∧
    (ringCheck s0.myCrew ring.toNat a ≠ 0 → exec (.mctlRing tk u ring sa) s =
      .next (s.takeTrap 0x49 (BitVec.ofNat 64 (ring.toNat + 256 * ringCheck s0.myCrew ring.toNat a)))) ∧
    (a.toNat < 2 ^ 32 → enters (.mctlPop tk u ring sa) a 0 s1) ∧
    (2 ^ 32 ≤ a.toNat → exec (.mctlPop tk u ring sa) s = .next (s.takeTrap 0x48 2))

/-- MCTL.WAIT writes the report of the strand's commands once none of those issued before it is live; CPYM issues its copy with
its follow-on and hands out the follow-on's number (R195, R242). -/
def Claims.MatrixWaitsAndPairs : Prop :=
  ∀ (s s0 s1 : State) (tk : BitVec 4) (rd ra rb : BitVec 5) (scol sc : BitVec 1) (follow : BitVec 32),
    (XWord s tk s0 → s.pending = none → s0.myCrew.matLive s0.cur.strand s0.myCrew.matOrder = false →
      WritesReg (.mctlWait tk rd) s tk rd (BitVec.ofNat 64 (s0.myCrew.matReport s0.cur.strand s0.myCrew.matOrder)) s0) ∧
    (AWord s tk s0 → s0.myCrew.debug = false →
      ∀ p bad, planCpy scol sc rd ra rb s0 = .ok (p, bad, s1) → follow.toNat / 2 ^ 25 ≠ 0x4F → p.check s0 bad [] = .ok () →
      ∀ s2 t, issueCopy { p.cmd with
          word := (encode (.cpym tk scol sc rd ra rb follow)).headD 0, follow := some follow, stamp := s0.myCrew.matOrder } s1 = .ok s2 →
        giveTokens tk (s2.setCrew s0.cur.die s0.cur.polder { s2.myCrew with matOrder := s0.myCrew.matOrder + 1 }) = .ok t →
        exec (.cpym tk scol sc rd ra rb follow) s = .next (t.retire 2))

/-- The tile words: RD reads two rows of a full tile, 512 bytes, and clears the tile if asked; WR writes two rows of a tile that
is not full and fills it if asked; each waits for the bit it needs, and a row pair above 31 traps (R185). -/
def Claims.TileWords : Prop :=
  ∀ (s s0 s1 s2 : State) (tk : BitVec 4) (v : BitVec 5) (tile : BitVec 4) (rs : BitVec 5) (flag : BitVec 1) (q : Word),
    XWord s tk s0 →
    let c := s0.cur
    let a := s0.tileAddr c.die c.polder tile.toNat + 512 * q.toNat
    let ordered (write : Bool) : Prop :=
      s0.passed .a ((look tile.toNat (s0.stream c).marks.tiles).getD 0) = true ∧
        s0.myCrew.tileHeld c.strand (s0.stream c).seq tile.toNat write = false
    let marked (set full : Bool) (t : State) : State :=
      if set then t.setCrew c.die c.polder (t.myCrew.setTile tile.toNat full) else t
    (readReg rs s0 = .ok (q, s1) →
      (31 < q.toNat → exec (.vtileRd tk v tile rs flag) s = .next (s.takeTrap 0x30 q)) ∧
      (q.toNat ≤ 31 → ordered false → s0.myCrew.tileFull tile.toNat = true → s0.poisonIn a 512 = none →
        Retires (.vtileRd tk v tile rs flag) s
          (((writeVec v (BitVec.ofNat 4096 (s0.readN a 512)) s1).map (marked (flag = 1) false)).bind (giveTokens tk))) ∧
      (q.toNat ≤ 31 → s0.myCrew.tileFull tile.toNat = false →
        exec (.vtileRd tk v tile rs flag) s = .next (s.waitOn .tileBit))) ∧
    (∀ x : Vec, readVec v s0 = .ok (x, s1) → readReg rs s1 = .ok (q, s2) → q.toNat ≤ 31 →
      (ordered true → s0.myCrew.tileFull tile.toNat = false →
        Retires (.vtileWr tk v tile rs flag) s (giveTokens tk (marked (flag = 1) true (s2.writeN a x.toNat 512)))) ∧
      (s0.myCrew.tileFull tile.toNat = true → exec (.vtileWr tk v tile rs flag) s = .next (s.waitOn .tileBit)))

/-- MATRIX_COMMAND_START and RING_CONFIG_EFFECT: the command at the head of a queue whose predecessor has retired leaves it and
starts: a mode is set, a product captures its slot, ZERO waits for its tile, POP counts down, a ring takes its configuration
(R228, R240-R243). -/
def Claims.MatrixStarts : Prop :=
  ∀ (s : State) (c : Crew) (u : Bool) (cmd : MatCmd) (rest : List MatCmd),
    let die := s.cur.die
    let polder := s.cur.polder
    let m := matWord cmd.word
    s.crew? die polder = some c → c.halted = false → s.inp = [if u then 1 else 0] → c.act u = none → c.mq u = cmd :: rest →
    (m.product = true → ∃ t a, exec .matrixCommandStart s = .next t ∧ (t.crew die polder).mq u = rest ∧
      (t.crew die polder).act u = some a ∧ a.cmd = cmd ∧ (a.mode, a.addr) = (c.modes[m.ms]?).getD default ∧
      (matClass (modeA a.mode) ≠ matClass (modeB a.mode) → a.status = some 1) ∧ ∀ b, t.byteAt b = s.byteAt b) ∧
    (m.product = false → m.fn = 1 → m.ms < 4 → ∃ t, exec .matrixCommandStart s = .next t ∧ (t.crew die polder).mq u = rest ∧
      (t.crew die polder).act u = none ∧ (t.crew die polder).modes[m.ms]? = some (cmd.val1, cmd.val2)) ∧
    (m.product = false → m.fn = 0 → exec .matrixCommandStart s =
      .next (s.setCrew die polder ((c.setMq u rest).want u (MatActive.of cmd 0 0) m.td))) ∧
    (m.product = false → m.fn = 3 → (c.ring m.ra).stages ≠ 0 → ∃ t, exec .matrixCommandStart s = .next t ∧
      (t.crew die polder).act u = some { MatActive.of cmd 0 0 with left := cmd.val1.toNat % 2 ^ 32 }) ∧
    (m.product = false → m.fn = 2 → c.act (!u) = none → m.ra < 8 →
      (∀ e ∈ c.copies.toList, e.state = .free ∨ e.ring ≠ m.ra) →
      ∃ t, exec .ringConfigEffect s = .next t ∧ (t.crew die polder).ring m.ra = ringOf cmd.val1.toNat ∧
        (t.crew die polder).mq u = rest)

/-- TILE_ACQUIRE: a command that waits for a tile obtains it once it is empty and not owned, with zero or with the tile's contents
as its accumulators (R233, R234). -/
def Claims.TileAcquires : Prop :=
  ∀ (s : State) (c : Crew) (u : Bool) (a : MatActive) (t n : Nat),
    let die := s.cur.die
    let polder := s.cur.polder
    s.crew? die polder = some c → c.halted = false → s.inp = [t] → t < 16 → c.act u = some a → a.wants = some (t, n) →
    s.followMay die polder a = true → (∀ b, c.act (!u) = some b → ∀ k, b.wants = some (t, k) → n < k) →
    c.tileFull t = false → c.tileOwned t = false → s.poisonIn (s.tileAddr die polder t) 16384 = none →
    exec .tileAcquire s = .next (s.setCrew die polder (c.setAct u (some { a with
      wants := none, owns := some t
      z := if (matWord a.cmd.word).product ∧ modeAcc a.mode then s.readN (s.tileAddr die polder t) 16384 else 0 })))

/-- SLAB_STEP_ISSUE of a queue alone: the active MMA's next slab-step accumulates its K-steps, in one turn (whose input may cut it
shorter, R251); between the row-tiles of an MMAG the published length decides whether another begins (R233, R238, R244). -/
def Claims.MatrixSteps : Prop :=
  ∀ (s : State) (c : Crew) (u : Bool) (a : MatActive),
    let die := s.cur.die
    let polder := s.cur.polder
    let m := matWord a.cmd.word
    s.crew? die polder = some c → c.halted = false → c.act u = some a →
    (m.major = 0x4C → s.inp = [] → a.part = 0 → s.stepReady die polder a = true → c.act (!u) = none →
      (s.die die).rampAllows = true → die < 16 →
      ∀ z o, stepMma s die polder a m (stepKSteps m a.mode) (rowsOf 64 a.z) = .ok (z, o) →
        ∃ t, exec .slabStepIssue s = .next t ∧ (∀ b, t.byteAt b = s.byteAt b) ∧ t.strands = s.strands ∧
          (t.crew die polder).act u = some { a with
            z := ofRows z, step := a.step + 1, kDone := a.kDone + stepKSteps m a.mode, overflow := a.overflow || o } ∧
          (t.die die).rampSteps = (s.die die).rampSteps + 1) ∧
    (let o := a.addr.toNat / 2 % 2 ^ 21 * 4
     let pa := dieAddr die (poolOffset polder + o)
     let len := min (s.readN pa 4) 65536
     s.inp = [if u then 1 else 0] → m.major = 0x4E → a.status = none → a.looping = false → a.left = 0 →
     o + 4 ≤ c.scratchBytes → s.poisonIn pa 4 = none →
     (len ≤ a.rowsDone → exec .mmagLengthReread s = .next (s.setCrew die polder (c.setAct u (some { a with left := 1 })))) ∧
     (a.rowsDone < len → exec .mmagLengthReread s = .next (s.setCrew die polder
       (c.want u { a with looping := true, rowCount := min 64 (len - a.rowsDone) } (m.td + a.rowTile % modeTiles a.mode)))))

/-- MATRIX_COMMAND_RETIRE: a product whose slab-steps are done writes its tile, sets it full if it fills, and leaves its queue; a
command with a status leaves it with the status in MXSTAT and no byte of memory changed (R233, R247, R248). -/
def Claims.MatrixRetires : Prop :=
  ∀ (s : State) (c : Crew) (u : Bool) (a : MatActive),
    let die := s.cur.die
    let polder := s.cur.polder
    let m := matWord a.cmd.word
    s.crew? die polder = some c → c.halted = false → s.inp = [if u then 1 else 0] → c.act u = some a →
    (∀ t, a.status = none → m.product = true → m.major ≠ 0x4E → a.owns = some t → m.ks < a.step → t < 16 →
      let at_ := s.tileAddr die polder t
      ∃ r, exec .matrixCommandRetire s = .next r ∧ (r.crew die polder).act u = none ∧
        (∀ k, k < 16384 → r.byteAt (at_ + k) = BitVec.ofNat 8 (a.z / 256 ^ k)) ∧
        (∀ b, (b < at_ ∨ at_ + 16384 ≤ b) → r.byteAt b = s.byteAt b) ∧
        (m.fill = true → (r.crew die polder).tileFull t = true) ∧ r.strands = s.strands) ∧
    (∀ st, a.status = some st → 0 < st → st < 256 →
      ∃ r, exec .matrixCommandRetire s = .next r ∧ (r.crew die polder).act u = none ∧ (∀ b, r.byteAt b = s.byteAt b) ∧
        (r.crew die polder).mxstat.toNat % 256 = st ∧ (r.crew die polder).tilesFull = c.tilesFull)

/-- FOLLOW_ON_HANDOFF: with every unit of a CPYM's copy landed its follow-on enters its queue and the copy's entry frees.
MATRIX_ENGINE_RESET empties both queues and the metadata queue (R195, R249). -/
def Claims.MatrixHandoffAndReset : Prop :=
  ∀ (s : State) (c : Crew) (i : Nat) (w : BitVec 32),
    let die := s.cur.die
    let polder := s.cur.polder
    let e := c.copyAt i
    let u := (matWord w).u
    s.crew? die polder = some c →
    (c.halted = false → s.inp = [i] → i < 16 → e.follow = some w → e.state = .active → e.cancelled = false → e.units ≤ e.next →
      e.poisoned = false → (c.mq u).length < 16 →
      ∃ t, exec .followOnHandoff s = .next t ∧ ((t.crew die polder).copyAt i).state = .free ∧
        ((t.crew die polder).copyAt i).status = 0 ∧
        (t.crew die polder).mq u = c.mq u ++ [
          { word := w, follow := true, strand := e.strand, val1 := 0, val2 := 0, stamp := e.stamp
            after := (look (matWord w).td e.marks.tiles).getD 0 }]) ∧
    (∃ t, exec .matrixEngineReset s = .next t ∧ (t.crew die polder).matQ = [] ∧ (t.crew die polder).matU = [] ∧
      (t.crew die polder).actQ = none ∧ (t.crew die polder).actU = none ∧ (t.crew die polder).metaQ = [] ∧
      (t.crew die polder).tilesFull = c.tilesFull)

/-! ## The sync engine (08 R253-R273) -/

/-- TAGW: out of range where its ring or segment is not the die's, or where a change of the ring has ended its wait; it reads the
arrival record of a tag that has passed, and otherwise stays at its word (R91). -/
def Claims.TagWaits : Prop :=
  ∀ (s s1 : State) (sf : BitVec 2) (rd ra : BitVec 5) (a : Word), s.Ready (namedBy sf) → readReg ra s = .ok (a, s1) →
    let d := s.die s.cur.die
    let seg := bitsOf a 27 8
    let mark := { ids := [], data := [900, d.rg.gen] : Pend }
    let inRange := bitsOf a 31 28 = bitsOf d.rgctl 63 60 ∧ seg * d.segSize < 2 ^ 34
    let going := s.pending = none ∨ ∃ p, s.pending = some p ∧ p.data = [900, d.rg.gen]
    (¬ inRange → Retires (.tagw sf rd ra) s (writeReg rd (BitVec.ofNat 64 512) s1)) ∧
    (∀ p, s.pending = some p → p.data ≠ [900, d.rg.gen] →
      Retires (.tagw sf rd ra) s (writeReg rd (BitVec.ofNat 64 512) s1)) ∧
    (∀ r, inRange → going → look seg d.arrivals = some r → (r.rotation - a.setWidth 8).toNat < 128 →
      Retires (.tagw sf rd ra) s (writeReg rd (BitVec.ofNat 64 (r.rotation.toNat + (if d.holds seg then 256 else 0))) s1)) ∧
    (inRange → going → look seg d.arrivals = none → exec (.tagw sf rd ra) s = .next (s.setPending mark)) ∧
    (∀ r, inRange → going → look seg d.arrivals = some r → 128 ≤ (r.rotation - a.setWidth 8).toNat →
      exec (.tagw sf rd ra) s = .next (s.setPending mark))

/-- The checks of a sync address, in their order, with the cause and information of each (R257). -/
def Claims.SyncChecks : Prop :=
  ∀ (s s0 s1 s2 : State) (tk : BitVec 4) (rd ra : BitVec 5) (op : BitVec 4) (w64 : BitVec 1) (ord : BitVec 2) (scope : BitVec 3)
    (v sa : Word), XWord s tk s0 → s.pending = none → readReg rd s0 = .ok (v, s1) → readReg ra s1 = .ok (sa, s2) →
    let h := s0.handle (bitsOf sa 63 60)
    let n := 4 * (1 + w64.toNat)
    let off := bitsOf sa 33 0
    let pa := h.base.toNat + off
    let traps (cause : Nat) (info : Word) : Prop :=
      exec (.atom tk rd ra op w64 ord scope) s = .next (s.takeTrap cause info)
    let onPage := h.valid = true ∧ bitsOf sa 59 34 = 0 ∧ off + n ≤ pageBytes h.size ∧ off % n = 0
    let host := 8 ≤ paModule pa ∧ paModule pa < 12
    let onDie := paModule pa < 4 ∧ (isBerm (paOffset pa) = true ∨ isSyncSram (paOffset pa) = true)
    let hostOp := (op = 0 ∨ op = 8 ∨ op = 9) ∧ bitsOf s0.host.hectl 1 1 = 1
    (h.valid = false → traps 0x50 (BitVec.ofNat 64 (bitsOf sa 63 60))) ∧
    (h.valid = true → (bitsOf sa 59 34 ≠ 0 ∨ pageBytes h.size < off + n) → traps 0x51 sa) ∧
    (h.valid = true → bitsOf sa 59 34 = 0 → off + n ≤ pageBytes h.size → off % n ≠ 0 → traps 0x52 sa) ∧
    (onPage → ¬ host → ¬ onDie → traps 0x53 (BitVec.ofNat 64 (pa + 2 ^ 56))) ∧
    (onPage → host ∨ onDie → h.wr = false → traps 0x53 (BitVec.ofNat 64 (pa + 4 * 2 ^ 56))) ∧
    (onPage → host → h.wr = true → ¬ hostOp → traps 0x53 (BitVec.ofNat 64 (pa + 5 * 2 ^ 56))) ∧
    (onPage → onDie → h.wr = true → s0.place s0.cur.die pa = .unreach → traps 0x54 (BitVec.ofNat 64 pa))

/-- An operation at its home reads and writes in one step: the bytes become what the table of R255 gives, a compare and swap
writes only where it finds what it expects, and the reply is the old value; a range that meets poison changes nothing and is
recorded (R255, R259, R261). -/
def Claims.AtomicsPerform : Prop :=
  ∀ (s : State) (die op a v1 v2 : Nat) (o : Origin), op < 32 → s.MemoryCanonical →
    let n := syncSize op
    let old := s.readN a n
    let t := s.syncPerform die op a v1 v2 o
    (isBerm (paOffset a) = true ∨ isSyncSram (paOffset a) = true) → a % n = 0 →
    (s.poisonIn a n = none →
      let new := if op % 16 = 9 then (if old = v1 % 2 ^ (8 * n) then v2 else old) else syncOp (op % 16) (8 * n) old v1
      t.readN a n = new % 2 ^ (8 * n) ∧ (∀ b, (b < a ∨ a + n ≤ b) → t.byteAt b = s.byteAt b) ∧
      t = (if op % 16 = 9 ∧ old ≠ v1 % 2 ^ (8 * n) then s else s.writeN a new n).syncReplyTo die o ⟨0, old, 0⟩) ∧
    (∀ w, s.poisonIn a n = some w →
      t = (s.errorEvent die 1 3 0 w 5).syncReplyTo die o ⟨5, a, 0⟩)

/-- The reply of an operation goes back to the request that asked for it, or as a sync reply packet to the die that sent it
(R260, R382). -/
def Claims.SyncReplies : Prop :=
  ∀ (s : State) (die id : Nat) (p : Packet) (rep : Reply), die < 16 →
    s.syncReplyTo die (.here id) rep = s.deliver id rep ∧
    ((s.syncReplyTo die (.packet p) rep).die die).router = (s.die die).router ++ [(p.response 10 rep, 4)] ∧
    (s.syncReplyTo die (.packet p) rep).mem = s.mem ∧
    (∀ r, look id s.reqs = some r → r.reply = none → r.purpose = .plain →
      (∀ e ∈ s.reqs, e.2.asked = true ∨ e.2.reply.isSome = true) →
      s.deliver id rep = { s with reqs := put id { r with reply := some rep, tag := none } s.reqs })

/-- Barriers and counters: BARA counts an arrival, and the last one starts the next generation and wakes what waits for this;
BARW and CWAIT complete at once where their condition holds and otherwise register; CARR adds and evaluates; a counter that has
reached its target while armed is disarmed and its trigger handed on (R263, R264). -/
def Claims.BarriersAndCounters : Prop :=
  ∀ (s : State) (die a v1 v2 : Nat) (o : Origin), isSyncSram (paOffset a) = true → s.MemoryCanonical → die < 16 →
    let w0 := s.readN a 8
    let w1 := s.readN (a + 8) 8
    let perform (op : Nat) : State := s.syncPerform die op a v1 v2 o
    let bar := a % 16 = 0 ∧ s.poisonIn a 16 = none ∧ w1 < 2 ^ 35 ∧ bitsOf (BitVec.ofNat 64 w1) 34 32 < 6 ∧ w1 % 2 ^ 32 ≠ 0
    let cnt := a % 16 = 0 ∧ s.poisonIn a 32 = none ∧ w1 / 2 ^ 51 % 2 ^ 10 = 0 ∧ w1 / 2 ^ 48 % 8 < 6 ∧
      s.readN (a + 16) 8 < 2 ^ 52 ∧ s.readN (a + 24) 8 = 0
    (bar → w0 % 2 ^ 32 + 1 < w1 % 2 ^ 32 →
      perform opBara = (s.writeN a (w0 + 1) 8).syncReplyTo die o ⟨0, w0 / 2 ^ 32, 0⟩) ∧
    (bar → w1 % 2 ^ 32 ≤ w0 % 2 ^ 32 + 1 →
      let t := perform opBara
      t.readN a 8 = (w0 / 2 ^ 32 + 1) % 2 ^ 32 * 2 ^ 32 ∧ (∀ b, (b < a ∨ a + 8 ≤ b) → t.byteAt b = s.byteAt b) ∧
      ∀ w ∈ (t.die die).waiters, ¬ (w.object = a ∧ w.kind = 0 ∧ w.value = w0 / 2 ^ 32)) ∧
    (bar → w0 / 2 ^ 32 ≠ v1 % 2 ^ 32 → perform opBarw = s.syncReplyTo die o ⟨0, 0, 0⟩) ∧
    (bar → w0 / 2 ^ 32 = v1 % 2 ^ 32 → perform opBarw = s.registerWaiter die o 0 a (v1 % 2 ^ 32)) ∧
    (cnt → v1 ≤ w0 → perform opCwait = (s.noteCounter die a).syncReplyTo die o ⟨0, 0, 0⟩) ∧
    (cnt → w0 < v1 → perform opCwait = (s.noteCounter die a).registerWaiter die o 1 a v1) ∧
    (cnt →
      let amount := if bitsOf (BitVec.ofNat 64 w1) 62 62 = 0 then 1 else v1 % 2 ^ 32
      let fires := bitsOf (BitVec.ofNat 64 w1) 63 63 = 1 ∧ w1 % 2 ^ 48 ≤ (w0 + amount) % 2 ^ 64
      let trig := s.readN (a + 16) 8
      let t := perform opCarr
      t.readN a 8 = (w0 + amount) % 2 ^ 64 ∧
      (¬ fires → t.readN (a + 8) 8 = w1 ∧ (t.die die).fired = (s.die die).fired) ∧
      (fires → trig = 0 → t.readN (a + 8) 8 = w1 % 2 ^ 63 / 2 ^ 62 * 2 ^ 62 + 2 ^ 61 + w1 % 2 ^ 61 ∧
        (t.die die).fired = (s.die die).fired) ∧
      (fires → trig ≠ 0 → t.readN (a + 8) 8 = w1 % 2 ^ 63 ∧
        (t.die die).fired = (s.die die).fired ++ [⟨a, trig, w1 / 2 ^ 48 % 8⟩])) ∧
    (cnt →
      let t := s.syncPerform die opCarm a v1 0 o
      t.readN (a + 16) 8 = 0 ∧
      (bitsOf (BitVec.ofNat 64 v1) 63 63 = 1 → t.readN a 8 = 0) ∧ (bitsOf (BitVec.ofNat 64 v1) 63 63 = 0 → t.readN a 8 = w0) ∧
      (bitsOf (BitVec.ofNat 64 v1) 63 63 = 0 → w0 < v1 % 2 ^ 48 →
        t.readN (a + 8) 8 = 2 ^ 63 + v1 / 2 ^ 62 % 2 * 2 ^ 62 + v1 / 2 ^ 48 % 8 * 2 ^ 48 + v1 % 2 ^ 48 ∧
        a ∈ (t.die die).armed))

/-- Semaphores and signal objects: SEMP takes a unit where one is free and none waits, and otherwise registers; SEMV gives units
to waiters first; SIGNAL releases the oldest records and keeps what it could not give (R265, R269). -/
def Claims.SemaphoresAndSignals : Prop :=
  ∀ (s : State) (die a v1 v2 : Nat) (o : Origin), isSyncSram (paOffset a) = true → s.MemoryCanonical → die < 16 → a % 16 = 0 →
    s.poisonIn a 16 = none →
    let w0 := s.readN a 8
    let w1 := s.readN (a + 8) 8
    let d := s.die die
    let perform (op : Nat) : State := s.syncPerform die op a v1 v2 o
    let sem := w0 < 2 ^ 32 ∧ w1 < 2 ^ 35 ∧ w1 / 2 ^ 32 < 6
    let sig := w0 % 2 ^ 32 = 0 ∧ w1 < 2 ^ 35 ∧ w1 / 2 ^ 32 < 6 ∧ w1 % 2 ^ 32 = 0
    let idle := ∀ w ∈ d.waiters, ¬ (w.object = a ∧ w.kind = 2)
    (sem → idle → w0 ≠ 0 →
      let t := perform opSemp
      t.readN a 8 = w0 - 1 ∧ t.readN (a + 8) 4 = 0 ∧ (t.die die).waiters = d.waiters) ∧
    (sem → (w0 = 0 ∨ ¬ idle) →
      perform opSemp = (s.registerWaiter die o 2 a 0).writeSemWaiters die a) ∧
    (sem → idle → w0 + v1 % 2 ^ 32 < 2 ^ 32 →
      let t := perform opSemv
      t.readN a 8 = w0 + v1 % 2 ^ 32 ∧ t.readN (a + 8) 4 = 0 ∧ (t.die die).waiters = d.waiters) ∧
    (sem → idle → 2 ^ 32 ≤ w0 + v1 % 2 ^ 32 → 
      perform opSemv = ((s.writeN a (2 ^ 32 - 1) 8).writeSemWaiters die a).syncReplyTo die o ⟨6, 0, 0⟩) ∧
    (sig →
      let mine := d.conts.filter (·.object = a)
      let n := v1 % 65536
      let k := if n = 0 then mine.length else min n mine.length
      let pending := w0 / 2 ^ 48 + (if n = 0 then 0 else n - k)
      let t := perform opSignal
      (t.die die).released = d.released ++ mine.take k ∧
      (t.die die).conts = d.conts.filter (fun c => !(mine.take k).contains c) ∧
      (pending ≤ 65535 → t.readN (a + 6) 2 = pending))

/-- A waiter takes an entry of the table while one is free, then of a spill chunk; with none its word completes with 2 and the
refusal is counted (R258, R266). -/
def Claims.WaiterEntries : Prop :=
  ∀ (s : State) (die : Nat) (o : Origin) (kind object value : Nat), die < 16 →
    let d := s.die die
    let t := s.registerWaiter die o kind object value
    let tableFull := 4096 ≤ (d.waiters.filter (·.chunk.isNone)).length
    let chunksFull := ∀ c ∈ d.chunks, c.2 = 2 → 1024 ≤ (d.waiters.filter (·.chunk = some c.1)).length
    (¬ tableFull → (t.die die).waiters = d.waiters ++ [⟨o, kind, object, value, s.cycle, none⟩] ∧ t.mem = s.mem) ∧
    (tableFull → chunksFull → ∀ a, s.freeChunk die = some a →
      (t.die die).waiters = d.waiters ++ [⟨o, kind, object, value, s.cycle, some a⟩] ∧
      (t.die die).chunks = put a 2 d.chunks) ∧
    (tableFull → chunksFull → s.freeChunk die = none → t = (s.refuse die).syncReplyTo die o ⟨0, 2, 0⟩ ∧
      ((s.refuse die).die die).syncRefused = min (d.syncRefused + 1) (2 ^ 32 - 1))

/-- The sync words that wait for a reply: once what they follow has been performed they send their command to the address checked
then, and with the reply they write their register and retire; without it they stay in progress until it comes, and a reply that
reports a failure traps (R256, R259-R265). -/
def Claims.ReturningSyncWords : Prop :=
  ∀ (s s0 : State) (tk : BitVec 4) (rd ra rb : BitVec 5) (op : BitVec 4) (w64 : BitVec 1) (ord : BitVec 2) (scope : BitVec 3),
    XWord s tk s0 →
    let c := s.cur
    let k := s.stream c
    let context := s.myCrew.context
    let completes (i : Instr) (check : Res SyncAt) (op v1 v2 : Nat) (release acquire wide : Bool) (s2 : State) : Prop :=
      let done (r : Reply) (t : State) : Res State :=
        ((syncResult rd r t).map fun t1 => if acquire && wide then t1.invalidateContext c else t1).bind (giveTokens tk)
      let sends (at_ : SyncAt) (x y : State) : Prop :=
        let kept := x.sendSync c.die c.polder context op at_.pa v1 v2 .plain
        let sent := y.sendSync c.die c.polder context op at_.pa v1 v2 .plain
        (∀ r, sent.2.replyOf sent.1 = some r → r.status = 0 → Retires i s (done r (sent.2.forget sent.1))) ∧
        (sent.2.replyOf sent.1 = none → exec i s = .next (kept.2.setPending { ids := [kept.1], data := at_.held 1 }))
      (∀ at_, s.pending = none → check = .ok at_ → s.acquired = true →
        (release = true → s.releaseReady c.die c.polder c.strand .x k.seq k.marks = true) →
        (∀ q ∈ (s.strand c).syncQ, q.seq < k.seq → overlap q.target (syncSize q.op) at_.pa (syncSize op) = false) →
        (at_.kind = 0 → s.soHeld = false) →
        (wide = true → (s.writeBackContext c).1 = []) → sends at_ s s2) ∧
      (∀ at_ p, s.pending = some p → p.data = at_.held 0 → s.allReplied p.ids = true →
        sends at_ (s.forgetAll p.ids) (s2.forgetAll p.ids)) ∧
      (∀ p r, s.pending = some p → p.data.headD 0 = 1 → s.replyOf (p.ids.headD 0) = some r →
        Retires i s (done r (s2.forgetAll p.ids)) ∧
        (s.myCrew.halted = false → r.status = 5 → exec i s = .next (s.takeTrap 0x08 (BitVec.ofNat 64 r.data))) ∧
        (s.myCrew.halted = false → r.status = 7 → exec i s = .next (s.takeTrap 0x56 (BitVec.ofNat 64 (256 + r.data)))))
    let wide := decide (ord ≠ 0) && dieScope scope
    let n := 4 * (1 + w64.toNat)
    (∀ v sa s1 s2, readReg rd s0 = .ok (v, s1) → readReg ra s1 = .ok (sa, s2) →
      completes (.atom tk rd ra op w64 ord scope) (syncCheck sa n false true false (atomOp op.toNat w64) s0)
        (atomOp op.toNat w64) v.toNat 0 (ordRelease ord) (ordAcquire ord) wide s2) ∧
    (∀ v sa w s1 s2 s3, readReg rd s0 = .ok (v, s1) → readReg ra s1 = .ok (sa, s2) → readReg (rd + 1) s2 = .ok (w, s3) →
      completes (.acas tk rd ra w64 ord scope) (syncCheck sa n false true false (atomOp 9 w64) s0)
        (atomOp 9 w64) v.toNat w.toNat (ordRelease ord) (ordAcquire ord) wide s3) ∧
    (∀ sa s1, readReg ra s0 = .ok (sa, s1) →
      completes (.bara tk rd ra) (syncCheck sa 16 true true false opBara s0) opBara 0 0 true false true s1 ∧
      completes (.semp tk rd ra) (syncCheck sa 16 true true false opSemp s0) opSemp 0 0 true true true s1 ∧
      ∀ v s2, readReg rb s1 = .ok (v, s2) →
        completes (.barw tk rd ra rb) (syncCheck sa 16 true false false opBarw s0) opBarw v.toNat 0 false true true s2 ∧
        completes (.cwait tk rd ra rb) (syncCheck sa 32 true false false opCwait s0) opCwait v.toNat 0 false true true s2)

/-- The sync words that only queue their command retire once it lies in their strand's queue, which holds 8 (R25, R260, R264,
R265, R269). -/
def Claims.QueuedSyncWords : Prop :=
  ∀ (s s0 s1 s2 : State) (tk : BitVec 4) (rd ra rb rc : BitVec 5) (op : BitVec 4) (w64 : BitVec 1) (ord : BitVec 2)
    (scope : BitVec 3) (v sa : Word), XWord s tk s0 →
    let queues (i : Instr) (t : SyncAt) (op v1 v2 : Nat) (release wide : Bool) (s2 : State) : Prop :=
      ((s0.strand s0.cur).syncQ.length < 8 →
        let st := s2.strand s2.cur
        let q : SyncCmd := ⟨(encode i).headD 0, t.pa, t.kind, op, v1, v2, release, wide, (s2.stream s2.cur).seq,
          (s2.stream s2.cur).marks, none⟩
        Retires i s (giveTokens tk (s2.setStrand s2.cur { st with syncQ := st.syncQ ++ [q] }))) ∧
      (8 ≤ (s0.strand s0.cur).syncQ.length → exec i s = .next (s.waitOn .commandQueue))
    let n := 4 * (1 + w64.toNat)
    (readReg rd s0 = .ok (v, s1) → readReg ra s1 = .ok (sa, s2) →
      ∀ t, syncCheck sa n false true false (atomOp op.toNat w64) s0 = .ok t →
        queues (.red tk rd ra op w64 ord scope) t (atomOp op.toNat w64) v.toNat 0 (ordRelease ord)
          (decide (ord ≠ 0) && dieScope scope) s2) ∧
    (readReg ra s0 = .ok (sa, s1) → readReg rb s1 = .ok (v, s2) →
      (∀ t, syncCheck sa 32 true true false opCarr s0 = .ok t → queues (.carr tk ra rb) t opCarr v.toNat 0 true true s2) ∧
      (∀ t, syncCheck sa 16 true true false opSemv s0 = .ok t → queues (.semv tk ra rb) t opSemv v.toNat 0 true true s2) ∧
      (∀ t, syncCheck sa 16 true true false opSignal s0 = .ok t → queues (.signal tk ra rb) t opSignal v.toNat 0 true true s2) ∧
      (∀ t s3 trig, readReg rc s2 = .ok (trig, s3) → syncCheck sa 32 true true false opCarm s0 = .ok t →
        (bitsOf v 61 51 = 0 → bitsOf v 50 48 < 6 →
          (trig = 0 ∨ (trig.toNat < 2 ^ 52 ∧ paModule trig.toNat = paModule t.pa ∧ paDie trig.toNat = paDie t.pa ∧
            isBerm (paOffset trig.toNat) = true)) →
          queues (.carm tk ra rb rc) t opCarm v.toNat trig.toNat false false s3) ∧
        ((s0.strand s0.cur).syncQ.length < 8 → bitsOf v 61 51 ≠ 0 →
          exec (.carm tk ra rb rc) s = .next (s.takeTrap 0x56 4)) ∧
        ((s0.strand s0.cur).syncQ.length < 8 → bitsOf v 61 51 = 0 → 6 ≤ bitsOf v 50 48 →
          exec (.carm tk ra rb rc) s = .next (s.takeTrap 0x56 5))))

/-- WAITC reserves the lowest free chunk, keeps the X registers that its record will hold, and ends the X stream; with no chunk
the refusal is counted and it traps (R267). -/
def Claims.ContinuationWaits : Prop :=
  ∀ (s s0 s1 s2 s3 : State) (tk : BitVec 4) (ra rb rc : BitVec 5) (sa entry mask : Word) (t : SyncAt), XWord s tk s0 →
    readReg ra s0 = .ok (sa, s1) → readReg rb s1 = .ok (entry, s2) → readReg rc s2 = .ok (mask, s3) →
    s0.stopPoint s0.cur = false → syncCheck sa 16 true true true opSignal s0 = .ok t → entry.toNat % 4 = 0 → maskBad mask = false →
    s0.myCrew.viewsUnsaved = false → s.cur.die < 16 →
    let c := s.cur
    (∀ chunk s4, s0.myCrew.debug = false → s0.freeChunk c.die = some chunk → giveTokens tk s3 = .ok s4 →
      ∃ u, exec (.waitc tk ra rb rc) s = .next u ∧ (∀ b, u.byteAt b = s.byteAt b) ∧
        (u.die c.die).chunks = put chunk 0 (s0.die c.die).chunks ∧ (u.strand c).x.ended = true ∧
        (u.strand c).v = (s.strand c).v ∧
        ∃ w, (u.strand c).waitc = some w ∧ w.wb = none ∧ w.chunk = chunk ∧ w.object = t.pa ∧ w.entry = entry ∧ w.mask = mask ∧
          (∀ i, i < 28 → w.s[i]? = (s3.strand c).x.regs[i + 1]?) ∧ (∀ i, i < 28 → w.v[i]? = (s3.strand c).v[i]?)) ∧
    (s0.freeChunk c.die = none → exec (.waitc tk ra rb rc) s = .next ((s.refuse c.die).takeTrap 0x56 9))

/-- SYNC_COMMAND_SEND: the oldest command of the strand's queue is sent once what it must follow has been performed, after the
write-backs that a release at die scope or wider makes (R260, R262, R270). -/
def Claims.SyncCommandsSend : Prop :=
  ∀ (s : State) (st : Strand) (q : SyncCmd) (rest : List SyncCmd),
    let c := s.cur
    let key := strandKey c.die c.polder c.strand
    let crew := s.crew c.die c.polder
    look key s.strands = some st → st.syncQ = q :: rest → crew.halted = false →
    s.passedBy c.die c.polder c.strand .a q.seq q.marks.acqA = true →
    s.passedBy c.die c.polder c.strand .d q.seq q.marks.acqD = true →
    (q.release = true → s.releaseReady c.die c.polder c.strand .x q.seq q.marks = true) → q.pageKind ≠ 0 →
    let send (x : State) : State :=
      ({ x with strands := put key { st with syncQ := rest } x.strands }.sendSync c.die c.polder crew.context q.op q.target q.val1
        q.val2 (.sync key)).2
    (q.wb = none → q.wide = false → exec .syncCommandSend s = .next (send s)) ∧
    (q.wb = none → q.wide = true → (∀ e ∈ (s.die c.die).cache, ¬ (e.2.context = crew.context ∧ e.2.dirty ≠ 0)) →
      s.backsOut c.die (fun _ x => x = crew.context) = [] →
      exec .syncCommandSend s = .next (send s)) ∧
    (∀ ids, q.wb = some ids → s.allReplied ids = true → exec .syncCommandSend s = .next (send (s.forgetAll ids)))

/-- SYNC_WAIT_LIMIT: a waiter that has waited for the limit is removed and its word completes with 1. SYNC_ENGINE_RESET: every
waiter of the die fails and is removed, claims whose window has closed go, and the reset is recorded (R266, R273, R297). -/
def Claims.SyncEngineEvents : Prop :=
  (∀ (s : State) (w : Waiter), s.cur.die < 16 →
    let die := s.cur.die
    let d := s.die die
    d.waiters[s.inp.getD 0 0]? = some w →
    (w.since + microseconds d.waitLimit ≤ s.cycle →
      exec .syncWaitLimit s = .next ((s.setDie die (d.dropWaiter w)).syncReplyTo die w.origin ⟨0, 1, 0⟩)) ∧
    (s.cycle < w.since + microseconds d.waitLimit → exec .syncWaitLimit s = .next s)) ∧
  ∀ s : State, s.cur.die < 16 → ∃ t, exec .syncEngineReset s = .next t ∧ (t.die s.cur.die).waiters = [] ∧
    (∀ c ∈ (t.die s.cur.die).claims, c ∈ (s.die s.cur.die).claims ∧ s.cycleOf s.cur.die / 64 ≤ c.window) ∧
    t.crews = s.crews ∧ t.cur = s.cur

/-- TRIGGER_TAKE: the task engine takes the oldest fired trigger, and the counter's FIRED becomes 1; the record at the trigger's
address is admitted, or rejected (R264, R313). -/
def Claims.TriggersTaken : Prop :=
  ∀ (s : State) (g : Trigger) (rest : List Trigger), s.cur.die < 16 →
    let die := s.cur.die
    let d := s.die die
    d.fired = g :: rest → d.te.down = none →
    let w1 := setBits (BitVec.ofNat 64 (s.readN (g.counter + 8) 8)) 61 61 1
    let s1 := (s.setDie die { d with fired := rest }).writeN (g.counter + 8) w1.toNat 8
    (s1.readRecord die g.record none = none →
      exec .triggerTake s = .next (s1.rejectUnread die g.record none none)) ∧
    ∀ r, s1.readRecord die g.record none = some r →
      (∀ code word, s1.admitLaunch die (s1.gateOf die r.queue r) r = .error (code, word) →
        exec .triggerTake s = .next (s1.reject die r code word none none)) ∧
      (∀ r1, s1.admitLaunch die (s1.gateOf die r.queue r) r = .ok r1 →
        exec .triggerTake s = .next (s1.newLaunch die r1 r1.queue r1.job s.cycle none none).2)

/-! ## The drain engine (09 R275-R305) -/

/-- The checks of a store through a handle, in their order, with the cause and information of each; bytes in two banks of
different format trap too (R37, R278, R288). -/
def Claims.StoreChecks : Prop :=
  ∀ (s s0 s1 s2 : State) (tk : BitVec 4) (rs : BitVec 5) (h : BitVec 3) (ra : BitVec 5) (size : BitVec 2) (v off : Word),
    DWord s tk s0 → readReg rs s0 = .ok (v, s1) → readReg ra s1 = .ok (off, s2) →
    let hd := s0.handle (8 + h.toNat)
    let pa := hd.base.toNat + off.toNat
    let traps (cause : Nat) (info : Word) : Prop := exec (.st tk rs h ra size) s = .next (s.takeTrap cause info)
    let inPage := off.toNat + 2 ^ size.toNat ≤ pageBytes hd.size
    let reserved := reservedAddr pa = true ∨ (paModule pa < 4 ∧ paOffset pa < 0x400000000)
    (hd.valid = false → traps 0x58 (BitVec.ofNat 64 (8 + h.toNat))) ∧
    (hd.valid = true → ¬ inPage → traps 0x59 off) ∧
    (hd.valid = true → inPage → (hd.wr = false ∨ hd.seg = true) → traps 0x5A (BitVec.ofNat 64 (8 + h.toNat))) ∧
    (hd.valid = true → inPage → hd.wr = true → hd.seg = false → reserved → traps 0x5D (BitVec.ofNat 64 (pa + 2 * 2 ^ 56))) ∧
    (hd.valid = true → inPage → hd.wr = true → hd.seg = false → ¬ reserved → s0.place s0.cur.die pa = .unreach →
      traps 0x5D (BitVec.ofNat 64 (pa + 2 ^ 56))) ∧
    (∀ u, storeCheck s0 hd (8 + h.toNat) off.toNat (2 ^ size.toNat) off = .ok pa →
      s0.bankSplit s0.cur.die pa (2 ^ size.toNat) = some u → traps 0x5C (BitVec.ofNat 64 u))

/-- A store into this die's memory is performed at once: its bytes, lowest address lowest, and no others (R4, R277, R285). -/
def Claims.StoresWriteMemory : Prop :=
  ∀ (s : State) (kind : BitVec 2) (through : Bool) (a n v : Nat), s.MemoryCanonical → 0 < n →
    (∀ i, i < n → s.place s.cur.die ((a + i) / 128 * 128) = .mem ∧ s.place s.cur.die (a + i) = .mem) →
    let t := s.handOn kind through [(a, n, v)]
    t.readN a n = v % 2 ^ (8 * n) ∧ (∀ b, (b < a ∨ a + n ≤ b) → t.byteAt b = s.byteAt b) ∧
    t.strands = s.strands ∧ t.dies = s.dies ∧ t.crews = s.crews ∧ t.reqs = s.reqs ∧
    (∀ w ∈ s.poison, a ≤ 8 * w → 8 * w + 8 ≤ a + n → w ∉ t.poison)

/-- The store words: with their address checked and what they must follow performed, each hands its bytes to their path and
retires; ST.REL is a release at its scope: it is performed at once where nothing that it must follow is left, and otherwise
retires and is performed later (R277, R279-R281, R300, R301). -/
def Claims.StoreWords : Prop :=
  ∀ (s s0 : State) (tk : BitVec 4) (q : BitVec 1) (width : BitVec 2) (h : BitVec 3) (ra rb rs : BitVec 5) (size : BitVec 2)
    (scope : BitVec 3), DWord s tk s0 →
    let c := s.cur
    let k := s.stream c
    let hd := s0.handle (8 + h.toNat)
    let kind := (s.handle (8 + h.toNat)).kind
    let w := 2 ^ width.toNat / 2
    let n := 4096 / (4 * 2 ^ width.toNat)
    let b := 2 ^ size.toNat
    let elt (v : Vec) (i : Nat) : Nat := v.toNat / 2 ^ (8 * w * i) % 2 ^ (8 * w)
    let stores (i : Instr) (bs : List Bytes) (t : State) : Prop :=
      storeReady kind (bs.map fun x => (x.1, x.2.1)) s = .ok () → Retires i s (giveTokens tk (t.handOn kind false bs))
    (∀ v s1 off s2, readReg rs s0 = .ok (v, s1) → readReg ra s1 = .ok (off, s2) →
      ∀ pa, storeAt s0 hd (8 + h.toNat) off.toNat b off = .ok pa →
        let bytes : Bytes := (pa, b, v.toNat % 2 ^ (8 * b))
        let clear := s.releaseReady c.die c.polder c.strand .d k.seq k.marks = true ∧
          (dieScope scope = true → (s.writeBackContext c).1 = [])
        pa = hd.base.toNat + off.toNat ∧ stores (.st tk rs h ra size) [bytes] s2 ∧
        (storeReady kind [(pa, b)] s = .ok () → clear →
          Retires (.stRel tk rs h ra size scope) s (giveTokens tk (s2.handOn kind true [bytes]))) ∧
        (storeReady kind [(pa, b)] s = .ok () → ¬ clear →
          Retires (.stRel tk rs h ra size scope) s (giveTokens tk (s2.addRelease false kind bytes (dieScope scope) k)))) ∧
    (∀ v s1 off s2, popVXD q.toNat s0 = .ok (v, s1) → readReg ra s1 = .ok (off, s2) →
      (∀ pa, storeAt s0 hd (8 + h.toNat) off.toNat 512 off = .ok pa → stores (.stv tk q h ra) [(pa, 512, v.toNat)] s2) ∧
      (∀ r s3, readReg rb s2 = .ok (r, s3) →
        (∀ pa : Nat → Nat, (∀ i : Nat, i < n → storeAt s0 hd (8 + h.toNat) ((off.toNat : Int) + (i : Int) * r.toInt) w
            (BitVec.ofNat 64 i) = .ok (pa i)) →
          stores (.stvs tk q width h ra rb) ((List.range n).map fun i => (pa i, w, elt v i)) s3) ∧
        (∀ idx, storeList r.toNat n s0 = .ok idx →
          let stored := idx.zipIdx.filter fun e => e.1 ≠ 2 ^ 32 - 1
          ∀ pa : Nat × Nat → Nat, (∀ e ∈ stored, storeAt s0 hd (8 + h.toNat) ((off.toNat + e.1 * w : Nat) : Int) w
              (BitVec.ofNat 64 e.2) = .ok (pa e)) →
            stores (.stvx tk q width h ra rb) (stored.map fun e => (pa e, w, elt v e.2)) s3)))

/-- The oldest retired release of a strand is performed once every access of the strand before it has been performed, after the
write-backs that its scope asks for; until then it stays as it is (R301, R305). -/
def Claims.RetiredReleases : Prop :=
  ∀ (s : State) (die polder strand : Nat) (st : Strand) (r : Release) (rest : List Release), polder < 64 → strand < 4 →
    let key := strandKey die polder strand
    let c : Ctx := { die := die, polder := polder, strand := strand, str := .d, rot := false }
    let clear := s.releaseClear die polder strand .d r.seq r.marks r.upTo = true
    let performed (x : State) : State := { ({ x with cur := c }.setStrand c { (x.strand c) with rels := rest }).performRelease r with
      cur := s.cur }
    look key s.strands = some st → st.rels = r :: rest →
    (r.wb = none → ¬ clear → s.advanceRelease key = s) ∧
    (r.wb = none → clear → (r.wide = true → (s.writeBackContext c).1 = []) → s.advanceRelease key = performed s) ∧
    (∀ ids, r.wb = some ids → s.allReplied ids = false → s.advanceRelease key = s) ∧
    (∀ ids, r.wb = some ids → s.allReplied ids = true → s.advanceRelease key = performed (s.forgetAll ids)) ∧
    (∀ x : State, x.cur = c → (r.amax = false → x.performRelease r = x.handOn r.kind true [(r.addr, r.len, r.value)]) ∧
      (r.amax = true →
        x.performRelease r = (x.sendSync die polder (x.crew die polder).context 11 r.addr r.value 0 (.amax key)).2))

/-- Scratchpad stores: STP one aligned value, STPV a vector by rows or by columns; an address that is not aligned or lies outside
the scratchpad traps (R281, R282). -/
def Claims.ScratchpadStores : Prop :=
  ∀ (s s0 s1 s2 : State) (tk : BitVec 4) (q : BitVec 1) (width : BitVec 2) (orient : BitVec 1) (ra rs : BitVec 5) (size : BitVec 2)
    (u v : Word) (x : Vec), DWord s tk s0 →
    let b := 2 ^ size.toNat
    let crew := s0.myCrew
    (readReg ra s0 = .ok (u, s1) → readReg rs s1 = .ok (v, s2) →
      (u.toNat + b ≤ crew.scratchBytes → u.toNat % b = 0 → storeReady 1 [(s0.scratchPa u.toNat, b)] s = .ok () →
        Retires (.stp tk ra rs size) s
          (giveTokens tk (s2.handOn 1 false [(s0.scratchPa u.toNat, b, v.toNat % 2 ^ (8 * b))]))) ∧
      (crew.scratchBytes < u.toNat + b ∨ u.toNat % b ≠ 0 → exec (.stp tk ra rs size) s = .next (s.takeTrap 0x5B u))) ∧
    (popVXD q.toNat s0 = .ok (x, s1) → readReg ra s1 = .ok (u, s2) →
      (∀ bs, scratchStore width (orient = 1) u.toNat x s0 = .ok bs → storeReady 1 (rangesOf bs) s = .ok () →
        Retires (.stpv tk q width orient ra) s (giveTokens tk (s2.handOn 1 false bs))) ∧
      (u.toNat + 512 ≤ crew.scratchBytes → u.toNat % max 1 (2 ^ width.toNat / 2) = 0 →
        crew.fmtCode (u.toNat / 65536) = crew.fmtCode ((u.toNat + 511) / 65536) → (crew.fmtOf (u.toNat / 65536)).sixBit = false →
        scratchStore width false u.toNat x s0 = .ok [(s0.scratchPa u.toNat, 512, x.toNat)]) ∧
      (crew.scratchBytes < u.toNat + 512 → orient = 0 →
        exec (.stpv tk q width orient ra) s = .next (s.takeTrap 0x5B u)))

/-- Drain streams: DBIND checks its descriptor and binds the queue, DUNBIND waits for the end of the stream and traps with the
fault of one that has stopped, and DRAIN_STREAM_WRITE writes the head of the queue as the stream's next vector and counts it; a
target that has left the group is a failed store too (R283, R284, R286, R287). -/
def Claims.DrainStreams : Prop :=
  (∀ (s s0 s1 : State) (tk : BitVec 4) (q : BitVec 1) (ra : BitVec 5) (a : Word), DWord s tk s0 →
    let bound := (s0.strand s0.cur).drainStream q.toNat
    (readReg ra s0 = .ok (a, s1) →
      (a.toNat % 64 ≠ 0 → exec (.dbind tk q ra) s = .next (s.takeTrap 0x5B a)) ∧
      (a.toNat % 64 = 0 → bound.isSome = true → exec (.dbind tk q ra) s = .next (s.takeTrap 0x5E 32)) ∧
      (∀ desc, a.toNat % 64 = 0 → bound = none → s.acquired = true → readDescr a.toNat 0x5B 0x5B s0 = .ok desc →
        let d := descrOf desc
        (∀ r, drainFault s0 d = some r → exec (.dbind tk q ra) s = .next (s.takeTrap 0x5E (BitVec.ofNat 64 (16 + r)))) ∧
        let binds (t : State) (x : Option AffineStream) : Prop := Retires (.dbind tk q ra) s
          (giveTokens tk (t.setStrand s0.cur (((t.strand s0.cur).setDrainStream q.toNat x).setWritten q.toNat 0)))
        (drainFault s0 d = none → d.total = 0 → binds s1 none) ∧
        (drainFault s0 d = none → d.total ≠ 0 →
          let x : AffineStream := {
            desc := desc, handle := s0.handle (8 + bitsOf d.ctrl 2 0), word := s0.pc, next := 0, count := d.total, pushed := 0
            flight := none, place := 0, began := 0, reqs := [], stopped := none }
          binds s1 (some x)))) ∧
    (bound = none → Retires (.dunbind tk q) s (giveTokens tk s0)) ∧
    (∀ x cause info, bound = some x → x.stopped = some (cause, info) →
      exec (.dunbind tk q) s = .next (s.takeTrap cause info)) ∧
    (∀ x, bound = some x → x.stopped = none → exec (.dunbind tk q) s = .next (s.waitOn .dataQueue))) ∧
  ∀ (s : State) (st : Strand) (x : AffineStream) (v : Vec) (rest : List Vec),
    let c : Ctx := { s.cur with str := .d, rot := false }
    let q := s.inp.getD 0 0 % 2
    let t := { s with cur := c }
    s.strand? c = some st → st.drainStream q = some x → st.vXD q = v :: rest → x.stopped = none →
    (s.crew c.die c.polder).halted = false →
    (∀ kind bs, streamBytes x v t = .ok (kind, bs) → storeReady kind (rangesOf bs) t = .ok () →
      let y := { x with next := x.next + 1, pushed := x.pushed + 1 }
      exec .drainStreamWrite s = .next ((t.setStrand c
        (((st.setVXD q rest).setDrainStream q (if x.count ≤ x.next + 1 then none else some y)).setWritten q
          (st.written q + 1))).handOn kind false bs)) ∧
    (∀ cause info, streamBytes x v t = .error (.trap cause info) →
      let left := cause = 0x5D ∧ bitsOf info 63 56 = 1
      (¬ left → exec .drainStreamWrite s =
        .next (s.setStrand c (st.setDrainStream q (some { x with stopped := some (cause, info) })))) ∧
      (left →
        let s1 := s.storeFailed (strandKey c.die c.polder c.strand) 3 (bitsOf info 51 0)
        exec .drainStreamWrite s =
          .next (s1.setStrand c ((s1.strand c).setDrainStream q (some { x with stopped := some (cause, info) })))))

/-- DRAIN: the first failing check traps with its reason; it waits in order for a full tile that no matrix command owns, quantises
it, stores it and leaves it empty; with its absolute maximum asked for, it then sends that as a release (R289-R295). -/
def Claims.Drains : Prop :=
  ∀ (s s0 : State) (tk tile : BitVec 4) (rc ra rx : BitVec 5), DWord s tk s0 →
    let c := s.cur
    let t := tile.toNat
    let d := drainOps rc ra rx s
    let rsvd := bitsOf (if rc = 0 then 0 else (s.stream c).regs.get rc.toFin) 43 32
    let crew := s.myCrew
    let i := Instr.drain tk tile rc ra rx
    let fresh := ∀ p, s.pending = some p → p.data.headD 0 = 900
    let checked := fresh ∧ (∀ r, 1 ≤ r → r ≤ 9 → d.fails rsvd s r = false) ∧ d.check s = .ok ()
    let mine := crew.tileFull t = true ∧ crew.tileOwned t = false ∧ s.tileTaken t = false
    (∀ r, fresh → 1 ≤ r → r ≤ 9 → (∀ j, 1 ≤ j → j < r → d.fails rsvd s j = false) → d.fails rsvd s r = true →
      exec i s = .next (s.takeTrap 0x5E (BitVec.ofNat 64 r))) ∧
    (checked → ¬ mine → s.pending = none →
      exec i s = .next (State.setStream { s with reqNo := s.reqNo + 1 } c
        { s.stream c with pend := some { ids := [], data := [900, s.reqNo, t] }, wait := some .tileBit })) ∧
    (checked → mine →
      let a := s.tileAddr c.die c.polder t
      let as := (elems 32 4096 (s.readN a 16384)).map (activate d.act)
      let out := d.quantise as (s.strand c).srD
      let bs := d.bytes s out.1 out.2.1
      let kind := if bitsOf d.dst 63 63 = 1 then (drainSide d.dst s).h.kind else 1
      let fill (x : State) : State :=
        let x1 := x.setCrew c.die c.polder (x.myCrew.setTile t false)
        d.writeSix ((x1.setStrand c { x1.strand c with srD := out.2.2 }).handOn kind false bs) out.1
      ((s.poisonIn a 16384).isSome = true → exec i s = .next (s.takeTrap 0x08 (BitVec.allOnes 64))) ∧
      (s.poisonIn a 16384 = none → storeReady kind (rangesOf bs ++ d.sixRanges s) s = .ok () →
        (d.amax = false → Retires i s (giveTokens tk (fill s0))) ∧
        (d.amax = true → exec i s = .next ((fill s).setPending { ids := [], data := [1100, absMax as] })))) ∧
    (∀ p, s.pending = some p → p.data.headD 0 = 1100 → crew.halted = true →
      Retires i s (giveTokens tk
        (s0.addRelease true 1 (d.amaxPa s, 4, p.data.getD 1 0) (dieScope d.ascope) (s.stream c)))) ∧
    (∀ p, s.pending = some p → p.data.headD 0 = 1100 → crew.halted = false →
      s.releaseReady c.die c.polder c.strand .d (s.stream c).seq (s.stream c).marks = true →
      (dieScope d.ascope = true → (s.writeBackContext c).1 = []) →
      Retires i s (giveTokens tk (s0.sendSync c.die c.polder crew.context 11 (d.amaxPa s) (p.data.getD 1 0) 0 (.amax s.myKey)).2))

/-- A drained element is the accumulator value, activated, times the scale, in the destination format by the rounding mode; no
draw of the stochastic generator is used up by any other mode (R292, R293). -/
def Claims.DrainedElements : Prop :=
  ∀ (d : DrainOps) (as : List XVal) (sr : Word), as.length = 4096 → d.isDX = false → Rm.ofCode d.rm ≠ .sr →
    let out := d.quantise as sr
    out.2.2 = sr ∧ out.1.length = 64 ∧
    ∀ r j, r < 64 → j < 64 → ∀ x, as[64 * r + j]? = some x →
      ((out.1[r]?).getD [])[j]? =
        some (Sys2Proof.Machine.encode d.fmt (x.mul (decodeElt .fp32 d.scale)) (Rm.ofCode d.rm) d.sat 0)

/-- CLAIM: its checks in their order; it enters the combining tree in the window after this cycle's, and completes with the reply
of its window's close (R296-R299). CLAIM_WINDOW_CLOSE performs the claims of the oldest closed window on an object in one step. -/
def Claims.ClaimWords : Prop :=
  (∀ (s s0 s1 s2 : State) (tk : BitVec 4) (rd ra rb : BitVec 5) (sa want : Word), DWord s tk s0 → readReg ra s0 = .ok (sa, s1) →
    readReg rb s1 = .ok (want, s2) →
    let c := s.cur
    let k := s.stream c
    let hn := bitsOf sa 63 60
    let h := s0.handle hn
    let pa := h.base.toNat + bitsOf sa 33 0
    let i := Instr.claim tk rd ra rb
    let traps (cause : Nat) (info : Word) : Prop := s.pending = none → exec i s = .next (s.takeTrap cause info)
    (bitsOf want 63 16 ≠ 0 → traps 0x5F 1) ∧
    (bitsOf want 63 16 = 0 → hn < 8 ∨ bitsOf sa 59 34 ≠ 0 → traps 0x5F 2) ∧
    (bitsOf want 63 16 = 0 → 8 ≤ hn → bitsOf sa 59 34 = 0 →
      (h.valid = false → traps 0x58 (BitVec.ofNat 64 hn)) ∧
      (h.valid = true → pageBytes h.size < bitsOf sa 33 0 + 16 → traps 0x5F 2) ∧
      (h.valid = true → bitsOf sa 33 0 + 16 ≤ pageBytes h.size →
        (¬ (paModule pa = 0 ∧ paDie pa = c.die ∧ isSyncSram (paOffset pa) = true) → traps 0x5F 3) ∧
        (paModule pa = 0 → paDie pa = c.die → isSyncSram (paOffset pa) = true →
          (pa % 16 ≠ 0 → traps 0x5F 4) ∧
          (pa % 16 = 0 → s.pending = none → s.acquired = true →
            s.releaseReady c.die c.polder c.strand .d k.seq k.marks = true →
            ((s.handle hn).kind = 0 → s.soHeld = false) → (s.writeBackContext c).1 = [] → c.die < 16 →
            ∃ t, exec i s = .next t ∧ (∀ b, t.byteAt b = s.byteAt b) ∧
              t.pending = some { ids := [s.reqNo], data := [1] } ∧
              (t.die c.die).claims = (s.die c.die).claims ++
                [⟨pa, (s.cycleOf c.die + 1) / 64, c.polder, c.strand, want.toNat, s.reqNo⟩])))) ∧
    (∀ p r, s.pending = some p → p.data.headD 0 = 1 → s.replyOf (p.ids.headD 0) = some r →
      (r.status = 0 → Retires i s
        (((writeResult rd (BitVec.ofNat 64 r.data) (s2.forgetAll p.ids)).map fun t => t.invalidateContext c).bind (giveTokens tk))) ∧
      (r.status = 5 → s.myCrew.halted = false → exec i s = .next (s.takeTrap 0x08 (BitVec.ofNat 64 r.data))) ∧
      (r.status = 7 → r.data ≠ 5 → s.myCrew.halted = false →
        exec i s = .next (s.takeTrap 0x5F (BitVec.ofNat 64 (256 + r.data)))))) ∧
  ∀ (s : State) (w : Nat), s.MemoryCanonical → s.cur.die < 16 →
    let die := s.cur.die
    let a := s.inp.getD 0 0
    let claims := (s.die die).claims
    let now := claims.filter fun c => c.object = a ∧ c.window = w
    let w0 := s.readN a 8
    let w1 := s.readN (a + 8) 8
    now ≠ [] → w < s.cycleOf die / 64 → (∀ c ∈ claims, c.object = a → w ≤ c.window) → s.poisonIn a 16 = none →
    w0 < 2 ^ 32 → w1 < 2 ^ 35 → w1 / 2 ^ 32 < 6 →
    ∃ t, exec .claimWindowClose s = .next t ∧
      (t.die die).claims = claims.filter (fun c => !(c.object = a && c.window = w)) ∧
      t.readN a 8 = w0 + min (now.map (·.want)).sum (w1 % 2 ^ 32 - w0) ∧
      (∀ b, (b < a ∨ a + 8 ≤ b) → t.byteAt b = s.byteAt b)

/-! ## The task engine (10 R306-R341) -/

/-- SPAWN: the operand checks, then, as a release at die scope, the answer of the task engine; at a stop point of a cancelled
job the gang ends once the word has its result (R322, R323, R327). -/
def Claims.SpawnWords : Prop :=
  ∀ (s s0 s1 s2 s3 : State) (tk : BitVec 4) (rd ra rb : BitVec 5) (job template arg : Word), TaskWord s tk s0 →
    readReg rd s0 = .ok (job, s1) → readReg ra s1 = .ok (template, s2) → readReg rb s2 = .ok (arg, s3) →
    let c := s.cur
    let k := s.stream c
    let i := Instr.spawn tk rd ra rb
    let placed := template.toNat % 256 = 0 ∧ inBerm c.die template.toNat 256 = true
    (¬ placed → exec i s = .next (s.takeTrap 0x60 1)) ∧
    (placed → 2 ^ 32 ≤ job.toNat → exec i s = .next (s.takeTrap 0x60 2)) ∧
    (placed → job.toNat < 2 ^ 32 → s.pending = none →
      s.releaseReady c.die c.polder c.strand c.str k.seq k.marks = true → (s.writeBackContext c).1 = [] →
      let r := s3.spawnNow c job.toNat template.toNat arg.toNat
      (s.stopPoint c = false → Retires i s ((writeResult rd (BitVec.ofNat 64 r.1) r.2).bind (giveTokens tk))) ∧
      (s.stopPoint c = true → ∀ t, writeResult rd (BitVec.ofNat 64 r.1) r.2 = .ok t → exec i s = .next (t.cancelGang c)))

/-- What SPAWN answers: 1 for a cancelled job, 2 for a task of depth 8, 3 for a parent of 64 children, and otherwise, with a
template that passes and a free task, the child's position, with the child ready in its queue (R323). -/
def Claims.SpawnAnswers : Prop :=
  ∀ (s : State) (c : Ctx) (job template arg : Nat), c.die < 16 →
    let te := s.te c.die
    let t := s.taskOf c
    let x := te.task t
    let childJob := if job = 0 then x.job else job
    let cancelled := s.cancelledTask c.die x || s.jobCancelled c.die x.context childJob
    let r := s.spawnNow c job template arg
    (cancelled = true → r = (1, s)) ∧
    (cancelled = false → 8 ≤ x.depth → r = (2, s)) ∧
    (cancelled = false → x.depth < 8 → 64 ≤ x.children.length → r = (3, s)) ∧
    (cancelled = false → x.depth < 8 → x.children.length < 64 →
      ∀ rec rec1, s.readRecord c.die template none = some rec →
        s.admitLaunch c.die { cfg := (te.queue x.queue).cfg, ownJob := false, saveBad := false } rec = .ok rec1 →
        rec1.gridX = 1 → rec1.gridY = 1 → rec1.progress ≠ 2 → rec1.tagKeyed = false → rec1.nviews = x.record.nviews →
        rec1.viewOps = x.record.viewOps → x.record.nviews = 0 → ∀ i, te.freeTask = some i → i ≠ t →
        r.1 = x.children.length * 2 ^ 16 ∧
        ∃ y, look i (r.2.te c.die).tasks = some y ∧ y.parent = some t ∧ y.position = x.children.length ∧ y.depth = x.depth + 1 ∧
          y.job = childJob ∧ y.entry = rec1.entry ∧ y.first = [BitVec.ofNat 64 arg] ∧
          ((r.2.te c.die).task t).children = x.children ++ [⟨i, .unresolved, none⟩] ∧
          (r.2.te c.die).ready = te.ready ++ [⟨.child i, x.queue, x.timestamp, te.order⟩])

/-- ENDT, JOIN, CHECK, LAUNCH and TINFO: their operand checks, and the result the task engine gives them (R322, R326-R329). -/
def Claims.TaskWords : Prop :=
  ∀ (s s0 : State) (tk : BitVec 4) (rd ra rb : BitVec 5), TaskWord s tk s0 →
    let c := s.cur
    let stop := s0.stopPoint c
    (stop = true → exec (.endt tk) s = .next (s0.cancelGang c)) ∧
    (∀ s1 s2, stop = false → giveTokens tk s0 = .ok s1 → endStream s1 = .ok s2 → exec (.endt tk) s = .next s2) ∧
    (∀ s1, stop = true → writeResult rd 1 s0 = .ok s1 → exec (.check tk rd) s = .next (s1.cancelGang c)) ∧
    (stop = false → Retires (.check tk rd) s ((writeResult rd 0 s0).bind (giveTokens tk))) ∧
    (let ready := s.allBefore && ((s.te c.die).task (s.taskOf c)).joinReady
     let joins (x : State) : Prop :=
       let origin := ((x.te c.die).run (x.runOf c)).origin
       let r := x.joinNow c.die (s.taskOf c) origin
       Retires (.join tk rd) s ((writeResult rd (BitVec.ofNat 64 r.1) (r.2.invalidateContext c)).bind (giveTokens tk))
     (s.pending = none → ready = false →
       exec (.join tk rd) s = .next (s.setPending { ids := [], data := [1000] })) ∧
     (s.pending = none → ready = true → (s.writeBackContext c).1 = [] → joins s0) ∧
     (∀ p, s.pending = some p → p.ids = [] → ready = true → (s.writeBackContext c).1 = [] → joins s0) ∧
     (∀ p, s.pending = some p → p.ids ≠ [] → ready = true → s.allReplied p.ids = true → joins (s0.forgetAll p.ids)) ∧
     (∀ p, s.pending = some p → ready = false → exec (.join tk rd) s = .next s)) ∧
    (∀ a q s1 s2, readReg ra s0 = .ok (a, s1) → readReg rb s1 = .ok (q, s2) →
      let placed := a.toNat % 256 = 0 ∧ inBerm c.die a.toNat 256 = true
      let allowed := s0.myCrew.system = true ∨ bitsOf ((s0.te c.die).queue q.toNat).cfg 5 0 = s0.myCrew.context
      let r := s2.enqueue c.die q.toNat a.toNat none
      (¬ placed → exec (.launch tk rd ra rb) s = .next (s.takeTrap 0x60 1)) ∧
      (placed → 31 < q.toNat → exec (.launch tk rd ra rb) s = .next (s.takeTrap 0x60 3)) ∧
      (placed → q.toNat ≤ 31 → ¬ allowed → exec (.launch tk rd ra rb) s = .next (s.takeTrap 0x61 q)) ∧
      (placed → q.toNat ≤ 31 → allowed → 
        Retires (.launch tk rd ra rb) s ((writeResult rd (BitVec.ofNat 64 r.1) r.2).bind (giveTokens tk)))) ∧
    (∀ sel s1, readReg ra s0 = .ok (sel, s1) →
      (8 < sel.toNat → exec (.tinfo tk rd ra) s = .next (s.takeTrap 0x60 5)) ∧
      (sel.toNat ≤ 8 → Retires (.tinfo tk rd ra) s
        ((writeResult rd (BitVec.ofNat 64 (s0.taskInfo c sel.toNat)) s1).bind (giveTokens tk))))

/-- The hardware queues take a record when they are enabled and hold fewer than 64, and answer 0, full 1 or not enabled 2 (R313,
R329). A job that is cancelled enters the table of 256 once; a full table answers so (R330). -/
def Claims.QueuesAndCancelPoints : Prop :=
  ∀ (s : State) (die : Nat), die < 16 →
    (∀ (q addr : Nat) (host : Option Nat), q < 32 →
      let te := s.te die
      let x := te.queue q
      let r := s.enqueue die q addr host
      (bitsOf x.cfg 63 63 = 0 → r = (2, s)) ∧
      (bitsOf x.cfg 63 63 = 1 → 64 ≤ x.pending.length → r = (1, s)) ∧
      (bitsOf x.cfg 63 63 = 1 → x.pending.length < 64 → r.1 = 0 ∧
        ((r.2.te die).queue q).pending = x.pending ++ [⟨addr, host, none, s.cycle⟩] ∧
        (∀ j, j ≠ q → (r.2.te die).queue j = te.queue j) ∧ r.2.mem = s.mem)) ∧
    (∀ context job : Nat,
      let jobs := (s.te die).jobs
      let r := s.cancelPoint die context job
      ((context, job) ∈ jobs → r = (false, s)) ∧
      ((context, job) ∉ jobs → 256 ≤ jobs.length → r = (true, s)) ∧
      ((context, job) ∉ jobs → jobs.length < 256 → r.1 = false ∧ (r.2.te die).jobs = jobs ++ [(context, job)]))

/-- JCANCEL: the cancel point of this die is taken at once; with no other die in the group the word completes at once, and
otherwise it waits for their answers (R330). -/
def Claims.JobCancels : Prop :=
  ∀ (s s0 s1 : State) (tk : BitVec 4) (rd ra : BitVec 5) (j : Word), TaskWord s tk s0 → readReg ra s0 = .ok (j, s1) → s.cur.die < 16 →
    let c := s.cur
    let context := s0.myCrew.context
    let i := Instr.jcancel tk rd ra
    let all (x : State) : Nat × State := (List.range 16).foldl (fun (acc : Nat × State) d =>
      let r := acc.2.cancelPoint d context j.toNat
      (if r.1 then 1 else acc.1, r.2)) (0, x)
    (2 ^ 32 ≤ j.toNat → exec i s = .next (s.takeTrap 0x60 6)) ∧
    (j.toNat < 2 ^ 32 → s.pending = none → (∀ d, d < 16 → d ≠ c.die → (s.die c.die).gmember.toNat.testBit d = false) →
      Retires i s ((writeResult rd (BitVec.ofNat 64 (all s1).1) (all s1).2).bind (giveTokens tk))) ∧
    (∀ p, j.toNat < 2 ^ 32 → s.pending = some p → s.allReplied p.ids = true →
      (p.data.getD 1 0 = 0 → (∀ n ∈ p.ids, ∃ r, s.replyOf n = some r ∧ r.status = 0 ∧ r.data = 0) →
        Retires i s ((writeResult rd 0 (s1.forgetAll p.ids)).bind (giveTokens tk))) ∧
      (p.data.getD 1 0 ≠ 0 → Retires i s ((writeResult rd 1 (s1.forgetAll p.ids)).bind (giveTokens tk)))) ∧
    (∀ p, j.toNat < 2 ^ 32 → s.pending = some p → s.allReplied p.ids = false → exec i s = .next s)

/-- RQSET: its checks, and its operations on the request table: an add takes the lowest free entry, a set and a remove act on an
entry by its state, a read gives its word, and a close ends its slot (R329). -/
def Claims.RequestWords : Prop :=
  (∀ (s s0 s1 s2 : State) (tk : BitVec 4) (rd ra rb : BitVec 5) (a b : Word), TaskWord s tk s0 → readReg ra s0 = .ok (a, s1) →
    readReg rb s1 = .ok (b, s2) →
    let c := s.cur
    let te := s0.te c.die
    let op := bitsOf b 63 60
    let i := Instr.rqset tk rd ra rb
    let fits := op < 5 ∧ b.toNat &&& (rqsetBits op ^^^ (2 ^ 64 - 1)) = 0 ∧ (1 ≤ op → op ≤ 3 → a.toNat ≤ 1023)
    let slot := if op = 0 then some (bitsOf b 58 56) else if op = 4 then some (bitsOf a 2 0)
      else (look a.toNat te.requests).map (·.slot)
    let mine := ∀ k l, slot = some k → look k te.slots = some l →
      (te.launch l).context = s0.myCrew.context ∨ s0.myCrew.system = true
    (s.pending = none → ¬ fits → exec i s = .next (s.takeTrap 0x60 4)) ∧
    (∀ k l, s.pending = none → fits → slot = some k → look k te.slots = some l → (te.launch l).context ≠ s0.myCrew.context →
      s0.myCrew.system = false → exec i s = .next (s.takeTrap 0x61 (BitVec.ofNat 64 k))) ∧
    (s.pending = none → fits → mine → op ≠ 0 → op ≠ 2 →
      let r := s2.rqsetNow c.die a b
      Retires i s ((writeResult rd (BitVec.ofNat 64 r.1) r.2).bind (giveTokens tk))) ∧
    (s.pending = none → fits → mine → op = 0 ∨ op = 2 →
      let kept := s.rqsetNow c.die a b
      let r := s2.rqsetNow c.die a b
      ((kept.2.sendMirror c.die).mirrored c.die = true →
        Retires i s ((writeResult rd (BitVec.ofNat 64 r.1) (r.2.sendMirror c.die)).bind (giveTokens tk))) ∧
      ((kept.2.sendMirror c.die).mirrored c.die = false →
        exec i s = .next ((kept.2.sendMirror c.die).setPending { ids := [], data := [1004, kept.1] }))) ∧
    (∀ p, s.pending = some p → s.mirrored c.die = true →
      Retires i s ((writeResult rd (BitVec.ofNat 64 (p.data.getD 1 0)) s2).bind (giveTokens tk)))) ∧
  ∀ (s : State) (die : Nat) (a b : Word), die < 16 →
    let te := s.te die
    let op := bitsOf b 63 60
    let r := s.rqsetNow die a b
    (op = 0 → (∀ i, i < 1024 → (look i te.requests).isSome = true) → r = (2 ^ 63 + 1, s)) ∧
    (∀ i l, op = 0 → i < 1024 → look i te.requests = none → (∀ j, j < i → (look j te.requests).isSome = true) →
      look (bitsOf b 58 56) te.slots = some l → (te.launch l).closed = false → bitsOf b 43 32 < (te.launch l).record.tkCount →
      r.1 = i ∧ look i (r.2.te die).requests =
        some ⟨bitsOf a 31 0, bitsOf b 43 32, 0, 0, max 1 (bitsOf b 3 0), false, 0, bitsOf b 58 56, s.cycleOf die % 2 ^ 61, 0,
          te.tagSeq⟩) ∧
    (∀ q, op = 2 → look a.toNat te.requests = some q → q.state = 1 → r.1 = 0 ∧
      look a.toNat (r.2.te die).requests = some { q with close := true }) ∧
    (op = 3 → look a.toNat te.requests = none → r = (0, s)) ∧
    (∀ q, op = 3 → look a.toNat te.requests = some q → r = (q.word 0, s)) ∧
    (op = 1 ∨ op = 2 → look a.toNat te.requests = none → r = (2 ^ 63 + 4, s))

/-- RECORD_ADMISSION reads the record at the head of a queue, and launches or rejects it; OVERLAP_WORD_READ reads word 0 of the
record behind a head whose gangs have all started (R310, R313, R314). -/
def Claims.Admissions : Prop :=
  ∀ (s : State) (p : PendingRec) (rest : List PendingRec),
    let die := s.cur.die
    let q := s.inp.getD 0 0 % 32
    let te := s.te die
    let x := te.queue q
    x.pending = p :: rest → te.down = none →
    let s1 := s.setTe die (te.setQueue q { x with pending := rest })
    let first := x.head = none ∨ ∃ l w, x.head = some l ∧ (te.launch l).allStarted = true ∧ p.word0 = some w ∧ bitsOf w 42 42 = 1
    (first → bitsOf x.cfg 61 61 = 0 → bitsOf x.cfg 63 63 = 1 →
      (s1.readRecord die p.addr p.word0 = none → exec .recordAdmission s = .next (s1.rejectUnread die p.addr p.host none)) ∧
      ∀ r, s1.readRecord die p.addr p.word0 = some r →
        (∀ r1, s1.admitLaunch die (s1.gateOf die q r) r = .ok r1 →
          let n := s1.newLaunch die r1 (if r1.kind = 2 then r1.queue else q) r1.job p.since p.host none
          exec .recordAdmission s =
            .next (n.2.setTe die ((n.2.te die).setQueue q { (n.2.te die).queue q with head := some n.1 }))) ∧
        (∀ code word, s1.admitLaunch die (s1.gateOf die q r) r = .error (code, word) → r.f 0 41 41 = 0 →
          exec .recordAdmission s = .next (s1.reject die r code word p.host none))) ∧
    (∀ l w, x.head = some l → (te.launch l).allStarted = true → p.word0 = none → s.engineRead die p.addr 8 = some w →
      exec .overlapWordRead s =
        .next (s.setTe die (te.setQueue q { x with pending := { p with word0 := some (BitVec.ofNat 64 w) } :: rest })))

/-- A record is rejected by the first check that it fails, in the order of the codes; a gang launch record whose fields are all
in order is admitted with its blocks (R310). -/
def Claims.RecordChecks : Prop :=
  ∀ (s : State) (die : Nat) (g : Gate) (r : LaunchRec),
    let b := s.readBlocks die r
    (s.recordFault die g b.1 b.2 = none → s.admitLaunch die g r = .ok b.1) ∧
    (∀ e, s.recordFault die g b.1 b.2 = some e → s.admitLaunch die g r = .error e) ∧
    (∀ w, b.1.badForm = some w → s.recordFault die g b.1 b.2 = some (1, w)) ∧
    (b.1.badForm = none → b.1.kind = 0 →
      (b.1.badPartition = true → s.recordFault die g b.1 b.2 = some (2, 0)) ∧
      (b.1.badPartition = false → (b.1.progress = 3 ∨ b.1.gangs = 0) → s.recordFault die g b.1 b.2 = some (3, 3)) ∧
      (b.1.badPartition = false → b.1.progress = 2 → 64 < b.1.gangs * b.1.crews → s.recordFault die g b.1 b.2 = some (4, 3)))

/-- A launch is entered with its record, queue, timestamp, job and context, and becomes ready in its queue; a graph starts with
its first node due, and a tag-keyed launch waits for its slot (R306, R313, R316, R319). -/
def Claims.LaunchesEnter : Prop :=
  ∀ (s : State) (die : Nat) (r : LaunchRec) (queue job since : Nat) (host : Option Nat) (node : Option (Nat × Nat)), die < 16 →
    let te := s.te die
    let n := s.newLaunch die r queue job since host node
    n.1 = te.launchNo ∧ (n.2.te die).launchNo = te.launchNo + 1 ∧ n.2.mem = s.mem ∧
    (∃ l, look te.launchNo (n.2.te die).launches = some l ∧ l.record = r ∧ l.queue = queue ∧ l.job = job ∧ l.context = r.context ∧
      l.host = host ∧ l.node = node ∧ l.nextGang = 0 ∧ l.ended = 0 ∧ l.timestamp = s.stampOf die r.timestamp since ∧
      (r.kind ≠ 1 → l.graph = none)) ∧
    (r.kind = 0 → r.tagKeyed = false → queue < 32 →
      (n.2.te die).ready = te.ready ++ [⟨.gang te.launchNo, queue, s.stampOf die r.timestamp since, te.order⟩]) ∧
    (r.kind = 1 ∨ (r.kind = 0 ∧ r.tagKeyed = true) → (n.2.te die).ready = te.ready)

/-- TASK_DISPATCH: released continuations and waiting slots are taken up; then the ready work that its queue's level, its pass and
its own timestamp put first is dispatched if it fits, and the pass moves on by its stride for each crew (R311-R315). -/
def Claims.Dispatching : Prop :=
  (∀ s : State,
    let die := s.cur.die
    let s1 := (s.absorbConts die).assignSlots die
    let te := s1.te die
    (∀ t, (s.te die).down = some t → exec .taskDispatch s = .next (s.teResume die)) ∧
    ((s.te die).down = none →
      (bitsOf te.ctl 0 0 = 0 ∨ te.nextReady = none → exec .taskDispatch s = .next s1) ∧
      ∀ r, bitsOf te.ctl 0 0 = 1 → te.nextReady = some r →
        (s1.dispatch die r = none → exec .taskDispatch s = .next s1) ∧
        ∀ crews s2, s1.dispatch die r = some (crews, s2) →
          let q := (s2.te die).queue r.queue
          let pass := (q.pass + q.stride * crews) % 2 ^ 64
          exec .taskDispatch s =
            .next (s2.setTe die { (s2.te die).setQueue r.queue { q with pass := pass } with served := pass }))) ∧
  ∀ (te : TaskEngine) (r : Ready), te.nextReady = some r →
    r ∈ te.ready ∧ te.goes r = true ∧ bitsOf (te.queue r.queue).cfg 63 63 = 1 ∧
    ∀ x ∈ te.ready, te.goes x = true → bitsOf (te.queue x.queue).cfg 63 63 = 1 →
      bitsOf (te.queue x.queue).cfg 57 56 ≤ bitsOf (te.queue r.queue).cfg 57 56 ∧
      (bitsOf (te.queue x.queue).cfg 57 56 = bitsOf (te.queue r.queue).cfg 57 56 →
        (te.queue r.queue).pass ≤ (te.queue x.queue).pass ∧
        ((te.queue x.queue).pass = (te.queue r.queue).pass → r.queue ≤ x.queue ∧
          (x.queue = r.queue → r.timestamp ≤ x.timestamp)))

/-- GANG_START: once its acquire is done a run starts in one step: every stream of every strand at the entry, with the same
registers, empty queues and no tokens; gangs of a grid start in the order of their indices, and a concurrent grid in one step
(R14, R77, R307, R312). -/
def Claims.GangStarts : Prop :=
  ∀ (s : State) (r : Run),
    let die := s.cur.die
    let id := s.inp.getD 0 0
    let te := s.te die
    let t := te.task r.task
    die < 16 → look id te.runs = some r → r.started = false → te.down = none →
    ((te.waitingGangs id).head? ≠ some id → exec .gangStart s = .next s) ∧
    (let all := if te.gridRun r && t.record.progress = 2 then te.waitingGangs id else [id]
     (te.waitingGangs id).head? = some id → r.wb = none →
     (∀ e ∈ (s.die die).cache, ¬ (e.2.context = t.context ∧ e.2.dirty ≠ 0)) →
     s.backsOut die (fun _ x => x = t.context) = [] →
     exec .gangStart s = .next (all.foldl (fun (s : State) i => s.startRun die i) s)) ∧
    (r.cont = none → r.strands ≤ 4 → r.polders.Nodup → t.first.length + t.record.args.length ≤ 28 →
      ∀ p ∈ r.polders, ∀ k, k < r.strands →
        ∃ st, look (strandKey die p k) (s.startRun die id).strands = some st ∧
          (∀ str : Str, (st.get str).pc = BitVec.ofNat 64 t.entry ∧ (st.get str).ended = false ∧ (st.get str).loops = [] ∧
            (∀ i w, (t.first ++ t.record.args)[i]? = some w → (st.get str).regs[i + 1]? = some w) ∧
            (∀ i, (t.first ++ t.record.args).length ≤ i → i < 31 → (st.get str).regs[i + 1]? = some 0)) ∧
          st.tokAX = 0 ∧ st.tokXA = 0 ∧ st.tokXD = 0 ∧ st.tokDX = 0 ∧ st.qAX = [] ∧ st.qXA = [] ∧ st.qXD = [] ∧
          st.vAX0 = [] ∧ st.vAX1 = [] ∧ st.vXD0 = [] ∧ st.vXD1 = [] ∧ st.trapMode = false)

/-- STRAND_END: a strand whose streams have ended and whose commands have completed ends; one that ended by a strand fault takes
its gang with it, and one that leaves a continuation registers it as the release it is (R99, R262, R267, R332). TASK_END: once
every strand of a run has ended and nothing it sent is outstanding the run ends (R332). -/
def Claims.Ends : Prop :=
  (∀ (s : State) (st : Strand),
    let c := s.cur
    let crew := s.crew c.die c.polder
    let r := (s.te c.die).run (s.runOf c)
    look (strandKey c.die c.polder c.strand) s.strands = some st → c.strand ∉ crew.endedStrands → crew.halted = false →
    (st.fault = none → st.a.ended = true → st.x.ended = true → st.d.ended = true →
      s.commandsDone c.die c.polder c.strand = true →
      let s1 := s.setCrew c.die c.polder { crew with endedStrands := crew.endedStrands ++ [c.strand] }
      (st.waitc = none → exec .strandEnd s = .next s1) ∧
      (∀ w, st.waitc = some w → r.cancelled = false → r.fault = none → s.stopPoint c = false → w.wb = none →
        (s.releaseReady c.die c.polder c.strand .x st.x.seq st.x.marks = false → exec .strandEnd s = .next s) ∧
        (s.releaseReady c.die c.polder c.strand .x st.x.seq st.x.marks = true →
          (∀ e ∈ (s.die c.die).cache, ¬ (e.2.context = crew.context ∧ e.2.dirty ≠ 0)) →
          s.backsOut c.die (fun _ x => x = crew.context) = [] →
          exec .strandEnd s = .next (s1.writeCont c.die r.task (strandKey c.die c.polder c.strand) st w)))) ∧
    (∀ f, st.fault = some f → r.fault = none →
      let s1 := (s.setTe c.die ((s.te c.die).setRun (s.runOf c) { r with fault := some f.toNat })).stopGang c.die r
      s1.commandsDone c.die c.polder c.strand = false → exec .strandEnd s = .next s1)) ∧
  ∀ (s : State) (r : Run),
    let die := s.cur.die
    let id := s.inp.getD 0 0
    look id (s.te die).runs = some r → r.started = true → (s.te die).down = none → r.wb = none →
    (∀ p ∈ r.polders, (s.crew die p).task = id ∧ (s.crew die p).halted = false ∧
      ∀ k, k < r.strands → k ∈ (s.crew die p).endedStrands ∧ ((look (strandKey die p k) s.strands).getD default).rels = []) →
    (∀ q ∈ s.reqs, ¬ (q.2.die = die ∧ q.2.unit ∈ r.polders)) →
    (∀ e ∈ (s.die die).cache, ¬ (e.2.context = ((s.te die).task r.task).context ∧ e.2.dirty ≠ 0)) →
    s.backsOut die (fun _ x => x = ((s.te die).task r.task).context) = [] →
    exec .taskEnd s = .next (s.endRun die id)

/-- The end of a run frees its polders, crews and strands, and no others (R332). -/
def Claims.RunsFreeTheirPolders : Prop :=
  ∀ (s : State) (die id : Nat),
    let ps := ((s.te die).run id).polders
    let t := s.freeRun die id
    (∀ p ∈ ps, p < 64 → t.crew? die p = none ∧ ∀ k, k < 4 → look (strandKey die p k) t.strands = none) ∧
    (∀ e ∈ s.crews, (e.1 / 64 ≠ die ∨ e.1 % 64 ∉ ps) → e ∈ t.crews) ∧ t.mem = s.mem

/-- LAUNCH_RETIRE: a launch that is over decrements its signal and leaves its queue and its slot, and what waits for it goes on
(R309, R314, R319). -/
def Claims.LaunchesRetire : Prop :=
  ∀ (s : State) (x : Launch),
    let die := s.cur.die
    let l := s.inp.getD 0 0
    look l (s.te die).launches = some x → s.launchOver die l = true → (s.te die).down = none →
    let signal := if x.record.kind = 2 then 0 else x.record.signal
    let s1 := s.decrement die signal
    let te := s1.te die
    exec .launchRetire s = .next
      (((s1.setTe die { te with
          launches := unput l te.launches
          queues := te.queues.map fun q => if q.head = some l then { q with head := none } else q
          slots := te.slots.filter (·.2 ≠ l) }).hostRetired x.host (s.signalLost die signal)
        (s.signalSent die signal)).nodeDone die x.node)

/-- A completion signal in this die's memory is decremented by one, and its error word keeps the first report and counts them all
(R309, R440). -/
def Claims.Signals : Prop :=
  ∀ (s : State) (die signal code word cause n : Nat), s.MemoryCanonical → signal ≠ 0 → s.place die signal = .mem →
    s.place die (signal + 8) = .mem → s.poisonIn signal 8 = none → s.poisonIn (signal + 8) 8 = none →
    let t := s.decrement die signal
    let u := s.report die signal code word cause n
    let old := s.readN (signal + 8) 8
    t.readN signal 8 = (s.readN signal 8 + 2 ^ 64 - 1) % 2 ^ 64 ∧
    (∀ b, (b < signal ∨ signal + 8 ≤ b) → t.byteAt b = s.byteAt b) ∧
    (∀ b, (b < signal + 8 ∨ signal + 16 ≤ b) → u.byteAt b = s.byteAt b) ∧
    (0 < n → code < 256 → word < 32 → cause < 256 →
      (old / 2 ^ 56 = 0 → u.readN (signal + 8) 8 / 2 ^ 56 = code ∧ u.readN (signal + 8) 8 / 2 ^ 51 % 32 = word ∧
        u.readN (signal + 8) 8 / 2 ^ 40 % 256 = cause) ∧
      (old / 2 ^ 56 ≠ 0 → u.readN (signal + 8) 8 / 2 ^ 32 = old / 2 ^ 32) ∧
      u.readN (signal + 8) 8 % 2 ^ 32 = min (old % 2 ^ 32 + n) (2 ^ 32 - 1))

/-- GRAPH_NODE_FIRE: a node that is due fires and acts by its kind: it launches its record, branches by its snippet, or ends the
graph; a node that cannot be read, a kind that does not exist and a snippet that breaks a rule end it with code 0x42 (R316-R318).
-/
def Claims.GraphNodes : Prop :=
  ∀ (s : State) (g : Graph),
    let die := s.cur.die
    let l := s.inp.getD 0 0
    let n := s.inp.getD 1 0
    let x := (s.te die).launch l
    x.graph = some g → g.done = false → n ∈ g.due → (s.te die).down = none →
    let g1 := { g with due := g.due.erase n }
    let s1 := s.setGraph die l g1
    (s1.graphNode die l n = none → exec .graphNodeFire s = .next (s1.endGraph die l 0x42 (n % 32))) ∧
    ∀ ws, s1.graphNode die l n = some ws →
      let w0 := ws.getD 0 0
      let kind := bitsOf w0 63 60
      let go (y : State) (i : Nat) : State := (y.sendToken die l (w0.toNat / 2 ^ (12 * i) % 4096)).graphIdle die l
      let fires := (look n g.fires).getD 0 + 1
      (4 < kind → exec .graphNodeFire s = .next (s1.endGraph die l 0x42 (n % 32))) ∧
      (kind = 4 → exec .graphNodeFire s = .next (s1.setGraph die l { g1 with done := true, due := [] })) ∧
      (1 ≤ kind → kind ≤ 3 → s1.snippet die ws (if kind = 3 then fires else 0) = none →
        exec .graphNodeFire s = .next (s1.endGraph die l 0x42 (n % 32))) ∧
      (∀ v, kind = 1 → s1.snippet die ws 0 = some v →
        exec .graphNodeFire s = .next (go s1 (if v ≠ 0 then 1 else 0))) ∧
      (∀ v, kind = 2 → s1.snippet die ws 0 = some v →
        exec .graphNodeFire s = .next (go s1 (min v.toNat (bitsOf w0 49 48)))) ∧
      (∀ v, kind = 3 → s1.snippet die ws fires = some v →
        exec .graphNodeFire s = .next (go (s1.setGraph die l { g1 with fires := put n fires g1.fires })
          (if v ≠ 0 ∧ fires ≤ bitsOf (ws.getD 5 0) 31 0 then 0 else 1))) ∧
      (∀ r r1, kind = 0 → s1.readRecord die (bitsOf (ws.getD 1 0) 51 0) none = some r →
        let y := { r with words := r.words.set 5 (setBits (r.words.getD 5 0) 63 32 x.job) }
        s1.admitLaunch die (s1.gateOf die x.record.queue r) y = .ok r1 →
        let m := s1.newLaunch die r1 x.record.queue x.job s.cycle none (some (l, n))
        exec .graphNodeFire s = .next (m.2.setGraph die l { g1 with running := g1.running ++ [(n, m.1)] }))

/-- The issue ramp: a filler counts while the window is short of its floor, which the cap clips, and a window of 1,200 cycles ends
once it has reached it, with its counts in RAMPSTAT (R334, R456). -/
def Claims.IssueRamp : Prop :=
  ∀ s : State,
    let die := s.cur.die
    let d := s.die die
    (d.rampSteps + d.rampFills < d.rampFloor →
      exec .rampFillerIssue s = .next (s.setDie die { d with rampFills := d.rampFills + 1 })) ∧
    (d.rampFloor ≤ d.rampSteps + d.rampFills → exec .rampFillerIssue s = .next s ∧
      (d.rampStart + 1200 ≤ s.cycle → exec .rampWindowEnd s = .next (s.setDie die
        { d with
          rampstat := BitVec.ofNat 64 (d.rampFills % 2 ^ 32 * 2 ^ 32 + d.rampSteps % 2 ^ 32)
          rampSteps := 0, rampFills := 0, rampStart := d.rampStart + 1200 }))) ∧
    (s.cycle < d.rampStart + 1200 → exec .rampWindowEnd s = .next s) ∧
    (bitsOf d.mxcap 63 63 = 1 → d.rampFloor ≤ bitsOf d.mxcap 11 0)

/-- TASK_ENGINE_RESET pauses the engine and leaves its queues, launches and tasks as they stand; with no task word in flight no
strand is touched (R61, R337). An engine that has not resumed within 100 us has its die fenced. -/
def Claims.TaskEngineResets : Prop :=
  ∀ s : State, s.cur.die < 16 →
    let die := s.cur.die
    (∃ t, exec .taskEngineReset s = .next t ∧ t.te die = { s.te die with down := some s.cycle } ∧ t.crews = s.crews ∧
      ((∀ e ∈ s.strands, e.1 / 256 = die → taskPend e.2.x.pend = false) → t.strands = s.strands)) ∧
    (∀ n, (s.te die).down = some n → n + microseconds 100 ≤ s.cycle →
      exec .taskEngineResumeTimeout s = .next (s.fence die)) ∧
    ((s.te die).down = none → exec .taskEngineResumeTimeout s = .next s)

/-- QPUSH enters a record address in a queue or counts a drop; JOBCLR removes a job from the table; SNAPDATA takes the selected
word of a held crew's container (R330, R335, R338). -/
def Claims.TaskRegisterEvents : Prop :=
  ∀ s : State, s.cur.die < 16 →
    let die := s.cur.die
    let te := s.te die
    let v := s.inp.getD 0 0
    (let r := s.enqueue die (v % 32) (s.inp.getD 1 0 % 2 ^ 52) none
     (r.1 = 0 → exec .qpush s = .next r.2) ∧
     (r.1 ≠ 0 → exec .qpush s = .next (s.setTe die { te with drops := min (te.drops + 1) 255 }))) ∧
    exec .jobclr s = .next (s.setTe die { te with jobs := te.jobs.filter (· ≠ (v / 2 ^ 32 % 64, v % 2 ^ 32)) }) ∧
    (let p := bitsOf te.snapSel 37 32
     (look p te.containers = none → exec .snapdataWrite s = .next s) ∧
     (∀ ws, look p te.containers = some ws → exec .snapdataWrite s = .next (s.setTe die
       { te with containers := put p (ws.set (bitsOf te.snapSel 15 0) (BitVec.ofNat 64 v)) te.containers })))

/-- Pre-emption: GO and HOLD find the launch that PREEMPTREC names and stop its family, RESUME lets a held launch go on, DISCARD
frees a saved one, and each ends with its status; a stop in progress refuses another (R335, R338, R341). -/
def Claims.Preemption : Prop :=
  ∀ s : State,
    let die := s.cur.die
    let te := s.te die
    let busy := s.setTe die { te with preempt := setBits te.preempt 55 48 3 }
    let ended (x : State) (status : Nat) : State :=
      x.setTe die { x.te die with preempt := BitVec.ofNat 64 (2 ^ 62 + status * 2 ^ 48) }
    let stopping (l : Nat) (save : Bool) : State :=
      (s.setTe die { te.setLaunch l { te.launch l with hold := .stopping } with
        preempt := BitVec.ofNat 64 (if save then 2 ^ 63 else 2 ^ 61), stopping := some (l, save) }).stopFamily die l
    (te.stopping.isSome = true → exec .preemptGo s = .next busy ∧ exec .preemptHold s = .next busy ∧
      exec .preemptResume s = .next busy ∧ exec .preemptDiscard s = .next busy) ∧
    (te.stopping = none →
      (s.namedLaunch die (fun h => h = .none || h = .held) = none → exec .preemptGo s = .next (ended s 1)) ∧
      (∀ l, s.namedLaunch die (fun h => h = .none || h = .held) = some l →
        (s.saveFits die l = false → exec .preemptGo s = .next (ended s 2)) ∧
        (s.saveFits die l = true → exec .preemptGo s = .next (stopping l true))) ∧
      (s.namedLaunch die (· = .none) = none → exec .preemptHold s = .next (ended s 1)) ∧
      (∀ l, s.namedLaunch die (· = .none) = some l → exec .preemptHold s = .next (stopping l false)) ∧
      (s.namedLaunch die (· = .held) = none → exec .preemptResume s = .next (ended s 1)) ∧
      (∀ l, s.namedLaunch die (· = .held) = some l → die < 16 → ∃ t, exec .preemptResume s = .next t ∧
        ((t.te die).launch l).hold = .none ∧ (t.te die).preempt = BitVec.ofNat 64 (2 ^ 62)) ∧
      (s.namedLaunch die (· = .saved) = none → exec .preemptDiscard s = .next (ended s 1)) ∧
      (∀ l, s.namedLaunch die (· = .saved) = some l → die < 16 → risingFrom 0 te.launches = true → ∃ t, exec .preemptDiscard s = .next t ∧
        look l (t.te die).launches = none ∧ (t.te die).preempt = BitVec.ofNat 64 (2 ^ 62)))

/-- PREEMPT_STOP_COMPLETE: a held launch's containers become readable once its family is at rest, and a launch to be saved is
written to its save area and frees its polders (R338, R340). -/
def Claims.PreemptionStops : Prop :=
  ∀ (s : State) (l : Nat) (save : Bool),
    let die := s.cur.die
    let te := s.te die
    die < 16 → te.stopping = some (l, save) →
    (s.atRest die l = false → exec .preemptStopComplete s = .next (s.withdrawWaiters die l)) ∧
    (s.atRest die l = true → te.down = none →
      (save = false → ∃ t, exec .preemptStopComplete s = .next t ∧ ((t.te die).launch l).hold = .held ∧
        (t.te die).stopping = none ∧ (t.te die).preempt = BitVec.ofNat 64 (2 ^ 62) ∧ t.crews = s.crews ∧ t.mem = s.mem ∧
        ∀ x ∈ s.familyCrews die l,
          look x.2.2 (t.te die).containers = some ((s.container die x.2.2).map fun w => BitVec.ofNat 64 w)) ∧
      (save = true → s.saveFits die l = true → ∃ t, exec .preemptStopComplete s = .next t ∧
        ((t.te die).launch l).hold = .saved ∧ (t.te die).stopping = none ∧
        (t.te die).preempt = BitVec.ofNat 64 (2 ^ 62) ∧
        ∀ x ∈ s.familyCrews die l, x.2.2 < 64 → t.crew? die x.2.2 = none))

/-! ## The ring engine (11 R342-R374) -/

/-- The words that make the segments' movements: RINJ takes a segment into the basin where its operands, its slot, its source and
its data allow it, RFWD lets a withheld one go, RDROP sends a drop round the ring; each writes its status (R355-R358). -/
def Claims.SegmentWords : Prop :=
  ∀ (s s1 s2 : State) (rd ra rb : BitVec 5) (a b : Word), RotWord s → readReg ra s = .ok (a, s1) →
    let die := s.cur.die
    let d := s.die die
    let r := d.rg
    let answers (i : Instr) (v : Nat) (t : State) : Prop := Retires i s (writeReg rd (BitVec.ofNat 64 v) t)
    (readReg rb s1 = .ok (b, s2) →
      let i := bitsOf b 51 32
      let w := Instr.rinj rd ra rb
      (2 ^ 52 ≤ a.toNat → exec w s = .next (s.takeTrap 0x68 (BitVec.ofNat 64 ra.toNat))) ∧
      (a.toNat < 2 ^ 52 → (2 ^ 52 ≤ b.toNat ∨ bitsOf b 11 1 ≠ 0) → exec w s = .next (s.takeTrap 0x68 (BitVec.ofNat 64 rb.toNat))) ∧
      (a.toNat < 2 ^ 52 → b.toNat < 2 ^ 52 → bitsOf b 11 1 = 0 →
        (segValid (d.seg i) = true → answers w 1 s2) ∧
        (segValid (d.seg i) = false → 2 ^ 34 ≤ i * d.segSize → answers w 2 s2) ∧
        (segValid (d.seg i) = false → i * d.segSize < 2 ^ 34 →
          ¬ (a.toNat % 4096 = 0 ∧ inBerm die a.toNat d.segSize = true) → answers w 3 s2) ∧
        (segValid (d.seg i) = false → i * d.segSize < 2 ^ 34 → a.toNat % 4096 = 0 → inBerm die a.toNat d.segSize = true →
          (d.hasRoom = false → answers w 4 s2) ∧
          (d.hasRoom = true → (s2.poisonIn a.toNat d.segSize).isSome = true → answers w 5 s2) ∧
          (d.hasRoom = true → s2.poisonIn a.toNat d.segSize = none → die < 16 →
            let payload := s2.readN a.toNat d.segSize
            let s3 := s2.setRg die { r with past := r.past.filter (· ≠ i), dropped := r.dropped.filter (· ≠ i) }
            let s4 := s3.setSeg die i (setBits 0 61 61 (bitsOf b 0 0))
            answers w 0 (s4.takeFrame die
              { index := i, rot := 0, kind := 0, bad := false, stripe := bitsOf b 31 16, member := bitsOf b 15 12
                crc := crc64 payload d.segSize 0, payload := payload, poison := false } false false))))) ∧
    (a.toNat < 2 ^ 20 →
      let i := a.toNat
      (look i r.kept ≠ some true → answers (.rfwd rd ra) 1 s1) ∧
      (look i r.kept = some true → answers (.rfwd rd ra) 0
        (((s1.setRg die { r with kept := unput i r.kept }).enqueueSeg die i).startNext die)) ∧
      (segValid (d.seg i) = false → answers (.rdrop rd ra) 1 s1) ∧
      (segValid (d.seg i) = true → (look i r.drops).isSome = true → answers (.rdrop rd ra) 2 s1) ∧
      (segValid (d.seg i) = true → look i r.drops = none →
        let s3 := (s1.setRg die { r with drops := put i (false, r.queue.contains i) r.drops }).unqueue die i
        (∀ e, s3.downstream die = some e → e ≠ die → answers (.rdrop rd ra) 0 (s3.sendCtl die (.drop i die))) ∧
        (s3.downstream die = some die → answers (.rdrop rd ra) 0 (s3.takeDrop die i die)))) ∧
    (2 ^ 20 ≤ a.toNat → exec (.rfwd rd ra) s = .next (s.takeTrap 0x68 (BitVec.ofNat 64 ra.toNat)) ∧
      exec (.rdrop rd ra) s = .next (s.takeTrap 0x68 (BitVec.ofNat 64 ra.toNat)))

/-- RKEEP keeps, releases or withholds a segment; RHOLD sets the freeboard asked for and answers what there is; RTAG sets whether
a segment raises its tag, and raises it (R358-R360). -/
def Claims.KeepingWords : Prop :=
  ∀ (s s1 s2 : State) (rd ra rb : BitVec 5) (a b : Word), RotWord s → s.cur.die < 16 → readReg ra s = .ok (a, s1) →
    let die := s.cur.die
    let d := s.die die
    let r := d.rg
    let i := a.toNat
    let answers (w : Instr) (v : Nat) (t : State) : Prop := Retires w s (writeReg rd (BitVec.ofNat 64 v) t)
    (a.toNat < 64 →
      let t := (s1.setRg die { r with request := a.toNat }).trimFreeboard die
      answers (.rhold rd ra) (t.die die).freeboard t ∧ (t.rg die).request = a.toNat ∧
      (t.rg die).retained.length ≤ (t.die die).freeboard) ∧
    (64 ≤ a.toNat → exec (.rhold rd ra) s = .next (s.takeTrap 0x68 (BitVec.ofNat 64 ra.toNat))) ∧
    (readReg rb s1 = .ok (b, s2) → a.toNat < 2 ^ 20 → b.toNat ≤ 3 →
      let w := Instr.rkeep rd ra rb
      let keeps (x : RingEngine) : State := ((s2.setRg die x).showSeg die i).trimFreeboard die
      let withheld := look i r.kept = some true
      (b = 3 → answers w 3 s2) ∧
      (b ≠ 3 → segValid (d.seg i) = false → answers w 1 s2) ∧
      (segValid (d.seg i) = true →
        (b = 0 → withheld → i ∉ r.pins → answers w 5 s2) ∧
        (b = 0 → withheld → i ∈ r.pins → answers w 0 (keeps { r with pins := r.pins.filter (· ≠ i) })) ∧
        (b = 0 → ¬ withheld → answers w 0 (keeps { r with kept := unput i r.kept, pins := r.pins.filter (· ≠ i) })) ∧
        (b = 1 → look i r.kept = some false ∨ i ∈ r.pins → answers w 0 s2) ∧
        (b = 1 → look i r.kept ≠ some false → i ∉ r.pins →
          (d.hasRoom = false → answers w 2 s2) ∧
          (d.hasRoom = true → i ∈ r.retained →
            answers w 0 (keeps { r with retained := r.retained.filter (· ≠ i), kept := put i false r.kept })) ∧
          (d.hasRoom = true → i ∉ r.retained → answers w 0 (s2.setRg die { r with pins := i :: r.pins }))) ∧
        (b = 2 → i ∈ r.queue →
          let s3 := s2.unqueue die i
          let s4 := s3.setRg die { s3.rg die with withholds := i :: (s3.rg die).withholds.filter (· ≠ i) }
          answers w 0 ((s4.queueSeg die i).trimFreeboard die)) ∧
        (b = 2 → i ∉ r.queue →
          (withheld ∨ i ∈ r.withholds → answers w 0 s2) ∧
          (¬ withheld → i ∉ r.withholds → d.hasRoom = false → answers w 2 s2) ∧
          (¬ withheld → i ∉ r.withholds → d.hasRoom = true →
            answers w 0 (s2.setRg die { r with withholds := i :: r.withholds }))))) ∧
    (readReg rb s1 = .ok (b, s2) → a.toNat < 2 ^ 20 → b.toNat ≤ 3 →
      let w := Instr.rtag rd ra rb
      let s3 := s2.setSeg die i (setBits (d.seg i) 61 61 (bitsOf b 0 0))
      let e := s3.die die
      (b.toNat < 2 → answers w (if segValid (e.seg i) then 0 else 1) s3) ∧
      (2 ≤ b.toNat → e.holds i = true → segTag (e.seg i) = true → answers w 0 (s3.raiseTag die i (bitsOf (e.seg i) 31 24))) ∧
      (2 ≤ b.toNat → e.holds i = false ∨ segTag (e.seg i) = false → answers w 2 s3))

/-- RPAR starts a parity build or a rebuild where a slot is free, RBYP has the ring held so that the die leaves or rejoins it, and
RSTAT reads the next event, a descriptor or a register; an event that has not come holds the program (R361-R363). -/
def Claims.RingControlWords : Prop :=
  ∀ (s s1 s2 : State) (rd ra rb : BitVec 5) (a b : Word), RotWord s → s.cur.die < 16 → readReg ra s = .ok (a, s1) →
    let die := s.cur.die
    let d := s.die die
    let r := d.rg
    let answers (w : Instr) (v : Nat) (t : State) : Prop := Retires w s (writeReg rd (BitVec.ofNat 64 v) t)
    (readReg rb s1 = .ok (b, s2) →
      let i := bitsOf a 51 32
      let w := Instr.rpar rd ra rb
      let job (stripe : Nat) : RingJob := ⟨b.toNat, i, stripe, none, [], 0, 0, false, false⟩
      let starts (stripe : Nat) : Prop := answers w 0 ((s2.setRg die { r with jobs := r.jobs ++ [job stripe] }).trimFreeboard die)
      (2 ≤ b.toNat → b.toNat ≤ 3 → answers w 6 s2) ∧
      (b = 0 → a.toNat < 2 ^ 52 → bitsOf a 31 16 = 0 →
        (segValid (d.seg i) = true → answers w 1 s2) ∧
        (segValid (d.seg i) = false → 2 ^ 34 ≤ i * d.segSize → answers w 2 s2) ∧
        (segValid (d.seg i) = false → i * d.segSize < 2 ^ 34 → d.hasRoom = false → answers w 3 s2) ∧
        (segValid (d.seg i) = false → i * d.segSize < 2 ^ 34 → d.hasRoom = true → starts (bitsOf a 15 0))) ∧
      (b = 1 → a.toNat < 2 ^ 52 → bitsOf a 31 0 = 0 →
        (d.hasRoom = false → answers w 3 s2) ∧
        (d.hasRoom = true → segBad (d.seg i) = true → i ∈ r.found → starts (segStripe (d.seg i))) ∧
        (d.hasRoom = true → segBad (d.seg i) = false ∨ i ∉ r.found → answers w 5 s2))) ∧
    (a = 0 →
      (d.bypassed = false → answers (.rbyp rd ra) 1 s1) ∧
      (d.bypassed = true → answers (.rbyp rd ra) 0 (s1.holdRing die ⟨2, die, s.cycle⟩))) ∧
    (a = 1 →
      (d.bypassed = true → answers (.rbyp rd ra) 1 s1) ∧
      (d.bypassed = false → (∃ e ∈ s1.ringDies die, (s1.die e).bypassed = true) → answers (.rbyp rd ra) 2 s1) ∧
      (d.bypassed = false → (∀ e ∈ s1.ringDies die, (s1.die e).bypassed = false) →
        (r.state = 2 ∨ r.state = 3 → answers (.rbyp rd ra) 3 s1) ∧
        (r.state ≠ 2 → r.state ≠ 3 → ∃ t : State, answers (.rbyp rd ra) 0 t ∧ (t.rg die).hold = some ⟨1, die, s.cycle⟩ ∧
          (t.rg die).kept = [] ∧ (t.rg die).pins = [] ∧ (t.rg die).retained = [] ∧ t.mem = s.mem))) ∧
    (∀ e rest, r.events = e :: rest → a.toNat < 2 → answers (.rstat rd ra) e (s1.setRg die { r with events := rest })) ∧
    (r.events = [] → (a = 0 → exec (.rstat rd ra) s = .next (s.waitOn .uncounted)) ∧ (a = 1 → answers (.rstat rd ra) 0 s1)) ∧
    (bitsOf a 7 0 = 2 → bitsOf a 31 8 = 0 → bitsOf a 63 52 = 0 → answers (.rstat rd ra) (d.seg (bitsOf a 51 32)).toNat s1) ∧
    (a = 3 → answers (.rstat rd ra) d.rgctl.toNat s1) ∧ (a = 4 → answers (.rstat rd ra) d.rgstat s1) ∧
    (a = 5 → answers (.rstat rd ra) r.count.toNat s1) ∧ (6 ≤ bitsOf a 7 0 → answers (.rstat rd ra) 0 s1)

/-- A segment that comes in good lies in the basin at its place in the window, the last of the forwarding queue, with a valid
descriptor of its frame's fields; its rotation counts on where RGCTL asks for it (R344-R346). -/
def Claims.SegmentsArrive : Prop :=
  ∀ (s : State) (die : Nat) (f : Frame), die < 16 → s.MemoryCanonical →
    let d := s.die die
    let r := d.rg
    let i := f.index
    let rot := if bitsOf d.rgctl 51 51 = 1 then (f.rot + 1) % 256 else f.rot
    let t := s.takeFrame die f false true
    look i r.drops = none → r.repair = none → i ∉ r.past → i ∉ r.withholds → i < 16384 → i * d.segSize < 2 ^ 34 →
    f.bad = false → f.poison = false →
    crc64 f.payload d.segSize 0 = f.crc → f.payload < 2 ^ (8 * d.segSize) → f.rot < 256 → f.stripe < 65536 → f.member < 16 → f.kind < 2 →
    (t.rg die).queue = r.queue ++ [i] ∧ (t.rg die).lastIn = some i ∧
    t.readN (dieAddr die (i * d.segSize)) d.segSize = f.payload ∧
    segValid ((t.die die).seg i) = true ∧ segBad ((t.die die).seg i) = false ∧ segStripe ((t.die die).seg i) = f.stripe ∧
    bitsOf ((t.die die).seg i) 31 24 = rot ∧ bitsOf ((t.die die).seg i) 53 50 = f.member ∧
    (segTag (d.seg i) = true → ∃ x, look i (t.die die).arrivals = some x ∧ x.rotation = BitVec.ofNat 8 rot)

/-- SEGMENT_ARRIVAL takes the oldest frame of the die's ring ingress; SEGMENT_FORWARD_COMPLETE takes the head of the queue to the
downstream neighbour, or out of the module, and keeps or retains the copy (R344, R347, R349). -/
def Claims.SegmentEvents : Prop :=
  (∀ (s : State) (f : Frame) (rest : List Frame),
    let die := s.cur.die
    (s.rg die).ingress = f :: rest →
    exec .segmentArrival s =
      .next ((s.setRg die { s.rg die with ingress := rest }).takeFrame die f (decide (s.inp.getD 0 0 = 1)) true)) ∧
  ∀ (s : State) (i : Nat) (rest : List Nat), s.cur.die < 16 →
    let die := s.cur.die
    let r := s.rg die
    r.queue = i :: rest → i ∉ rest → r.sending = true → r.jobs = [] →
    (∀ e, s.downstream die = some e → e ≠ die → e < 16 → ∃ t, exec .segmentForwardComplete s = .next t ∧
      (t.rg die).queue = rest ∧ (t.rg e).ingress = (s.rg e).ingress ++ [s.frameOf die i] ∧ t.mem = s.mem ∧
      (segValid ((s.die die).seg i) = true → i ∉ r.pins → look i r.kept = none → r.hold = none →
        (s.die die).freeboard ≠ 0 → r.firm ≤ (s.die die).slots → i ∈ (t.rg die).retained)) ∧
    (s.downstream die = none → (s.die die).inRing = true → ∃ t, exec .segmentForwardComplete s = .next t ∧
      (t.rg die).queue = rest ∧ t.ringOut = s.ringOut ++ [.frame (s.frameOf die i)])

/-- The control records of the ring: a drop clears the segment's descriptor and goes on, a lost segment is marked and goes on, and
a mirror takes up the upstream neighbour's table (R357, R369, R370). -/
def Claims.RingRecords : Prop :=
  ∀ s : State, s.cur.die < 16 →
    let die := s.cur.die
    let r := s.rg die
    (∀ i origin, r.ctl.find? (fun c => match c with | .drop _ _ => true | _ => false) = some (.drop i origin) →
      exec .dropRecord s = .next ((s.setRg die { r with ctl := r.ctl.erase (.drop i origin) }).takeDrop die i origin)) ∧
    (∀ i origin, r.ctl.find? (fun c => match c with | .lost _ _ => true | _ => false) = some (.lost i origin) →
      let s1 := s.setRg die { r with ctl := r.ctl.erase (.lost i origin) }
      (origin = die → exec .lostRecord s = .next s1) ∧
      (origin ≠ die → exec .lostRecord s =
        .next ((s1.setSeg die i (setBits ((s.die die).seg i) 57 57 1)).sendCtl die (.lost i origin)))) ∧
    (∀ table, r.ctl.find? (fun c => match c with | .mirror _ => true | _ => false) = some (.mirror table) →
      exec .mirrorUpdate s = .next (s.setRg die { r with ctl := r.ctl.erase (.mirror table), mirror := table })) ∧
    (∀ i, i < 16384 → let t := s.dropHere die i
      segValid ((t.die die).seg i) = false ∧ i ∉ (t.rg die).retained ∧ i ∉ (t.rg die).pins ∧ i ∈ (t.rg die).dropped)

/-- RING_FAILURE_DETECT has the ring hold for the upstream neighbour or its link; RING_RESUME ends a hold once the ring is quiet;
a reset stops the program and holds the ring, and one that lasts 60 us makes the die a failed one (R362, R366, R372). -/
def Claims.RingHolds : Prop :=
  ∀ s : State, s.cur.die < 16 →
    let die := s.cur.die
    let d := s.die die
    let r := d.rg
    exec .ringFailureDetect s = .next (s.ringFails die (decide (s.inp.getD 0 0 = 1))) ∧
    (d.inRing = false ∨ d.bypassed = true ∨ r.state = 5 → s.ringFails die (decide (s.inp.getD 0 0 = 1)) = s) ∧
    (r.hold = none → r.state ≠ 2 ∨ s.inp.getD 0 0 ≠ 1 ∨ (∃ e ∈ s.ringDies die, (s.rg e).hold ≠ none) →
      exec .ringResume s = .next s) ∧
    (r.hold = none → r.state = 2 → s.inp.getD 0 0 = 1 → (∀ e ∈ s.ringDies die, (s.rg e).hold = none) →
      exec .ringResume s = .next (s.runRing die)) ∧
    (∀ h, r.hold = some h → h.kind = 2 → s.inp.getD 0 0 = 1 →
      (∀ e ∈ s.ringDies die, ((s.rg e).state = 2 ∨ (s.die e).bypassed = true) ∧ (s.rg e).sending = false ∧ (s.rg e).ingress = []) →
      ∃ t, exec .ringResume s = .next t ∧ (t.die die).bypassed = false ∧
        ∀ e ∈ s.ringDies die, e < 16 → (t.rg e).hold = none) ∧
    (∀ h e, r.hold = some h → e ∈ s.ringDies die → h.kind ≠ 3 → s.inp.getD 0 0 = 1 ∨ h.kind = 5 → (s.rg e).sending = true →
      exec .ringResume s = .next s) ∧
    (∀ h, r.hold = some h → h.kind ≠ 5 → s.inp.getD 0 0 ≠ 1 →
      exec .ringResume s = .next (s.failRing die (if h.kind = 3 ∨ h.kind = 4 then [h.target] else []))) ∧
    (∃ t, exec .ringEngineReset s = .next t ∧ (t.die die).rprunning = false ∧
      (d.rprunning = true → (t.die die).rpcause = 0x68) ∧
      (r.state = 0 ∨ r.state = 1 ∨ r.state = 3 → (t.rg die).hold = some ⟨5, die, s.cycle⟩)) ∧
    (∀ h w, r.hold = some h → h.kind = 5 → h.since + microseconds 60 ≤ s.cycle → s.downstream die = some w → w ≠ die →
      exec .ringEngineRestartTimeout s = .next (s.ringFails w false)) ∧
    (∀ h, r.hold = some h → s.cycle < h.since + microseconds 60 → exec .ringEngineRestartTimeout s = .next s)

/-- RPCTL.START clears the registers and begins at RPENTRY; STOP stops the program with cause 0 (R352, R353). -/
def Claims.RotationProgram : Prop :=
  ∀ s : State, s.cur.die < 16 →
    let die := s.cur.die
    let d := s.die die
    (∃ t, exec .rpctlStart s = .next t ∧ (t.die die).rprunning = true ∧
      (t.die die).rotStream.pc = BitVec.ofNat 64 (bitsOf d.rpentry 51 0) ∧ (t.die die).rotStream.ended = false ∧
      (∀ i : Fin 32, (t.die die).rotStream.regs.get i = 0) ∧ t.strands = s.strands ∧ t.mem = s.mem) ∧
    (d.rprunning = true → exec .rpctlStop s = .next (s.setDie die
      { d with rprunning := false, rpcause := 0, rpreason := 0, rppc := d.rotStream.pc })) ∧
    (d.rprunning = false → exec .rpctlStop s = .next s)

/-! ## The fabric engine (12 R375-R407) -/

/-- XENT_WRITE: an entry takes the bits that software writes; word 1 of a valid entry and the V bit of a retired one stay; a
write that clears V revokes the entry's handles and counts its generation, and an entry that becomes valid has no holder (R139,
R392). FRCLOSE closes a record (R143, R144). -/
def Claims.TranslationWrites : Prop :=
  ∀ s : State, s.cur.die < 16 →
    let die := s.cur.die
    let d := s.die die
    let k := s.inp.getD 0 0 % 4096
    let v := BitVec.ofNat 64 (s.inp.getD 2 0)
    let e := (look k d.xent).getD (0, 0)
    let valid := bitsOf e.1 63 63 = 1
    (s.inp.getD 1 0 % 2 = 1 → valid → exec .xentWrite s = .next s) ∧
    (s.inp.getD 1 0 % 2 = 1 → ¬ valid →
      exec .xentWrite s = .next (s.setDie die { d with xent := put k (e.1, v &&& xentBits1) d.xent })) ∧
    (s.inp.getD 1 0 % 2 = 0 → (¬ valid ∨ bitsOf v 63 63 = 1) →
      (bitsOf v 63 63 = 1 → bitsOf e.1 56 56 = 1 → exec .xentWrite s = .next s) ∧
      (bitsOf v 63 63 = 0 ∨ bitsOf e.1 56 56 = 0 → exec .xentWrite s =
        .next (s.setDie die { d with
          xent := put k ((v &&& xentBits0) ||| (e.1 &&& ~~~xentBits0), e.2) d.xent
          holders := if bitsOf v 63 63 = 1 ∧ ¬ valid then unput k d.holders else d.holders }))) ∧
    (s.inp.getD 1 0 % 2 = 0 → valid → bitsOf v 63 63 = 0 → ∃ t w, exec .xentWrite s = .next t ∧
      look k (t.die die).xent = some w ∧ bitsOf w.1 63 63 = 0 ∧ bitsOf w.1 15 0 = (bitsOf e.1 15 0 + 1) % 65536 ∧ w.2 = e.2 ∧
      (∀ x ∈ t.strands, x.1 / 256 = die → ∀ i : Fin 16, (x.2.h.get i).entry.toNat = k → (x.2.h.get i).valid = false)) ∧
    (let area := d.faultArea die
     let r := s.inp.getD 0 0
     (area.1 ≤ r → exec .frclose s = .next s) ∧
     (r < area.1 → exec .frclose s =
       .next (s.writeN (area.2 + 32 * r) (setBits (s.word64 (area.2 + 32 * r)) 62 62 0).toNat 8)))

/-- The route of a packet: the X ring before the Y ring, each by its shorter way, the next direction on a tie; none at its own
position (R384). -/
def Claims.Routes : Prop :=
  ∀ (d : Die) (p : Packet) (g : Word), look p.dest d.gpos = some g →
    let x := bitsOf d.gmap 27 24
    let y := bitsOf d.gmap 23 22
    let px := g.toNat / 8 % 16
    let py := g.toNat % 4
    let gx := bitsOf d.gmap 21 18 + 1
    let gy := bitsOf d.gmap 17 16 + 1
    let valid := g.toNat / 128 % 2 = 1
    (¬ valid → d.route p = none) ∧
    (valid → x ≠ px → d.route p = some (if 2 * ((px + gx - x) % gx) ≤ gx then 0 else 1)) ∧
    (valid → x = px → y ≠ py → d.route p = some (if 2 * ((py + gy - y) % gy) ≤ gy then 2 else 3)) ∧
    (x = px → y = py → d.route p = none)

/-- FLIT_SEND: a replay goes first, then control records, then packets that have a way on, and otherwise an idle flit; a
sequenced flit takes the next number and the current key, is kept for replay, and goes striped over the lanes that its predecessor
announced (R376-R381, R384-R386, R395, R399). -/
def Claims.FlitsSent : Prop :=
  ∀ s : State, s.cur.die < 16 →
    let die := s.cur.die
    let l := s.inp.getD 0 0 % 4
    let s0 := s.dropLate die
    let k := s0.link die l
    let ready := k.up = true ∧ k.relock = none
    let slots := s0.fillSlots die l 7
    let packets := k.records = [] ∨ k.outSlots ≠ []
    (¬ ready → exec .flitSend s = .next s) ∧
    (∀ n f, ready → k.resend = some n → k.replay[n]? = some f → exec .flitSend s =
      .next ((s0.setLink die l { k with resend := if n + 1 < k.replay.length then some (n + 1) else none }).launchFlit die l
        f.mask f.bytes)) ∧
    (ready → k.resend = none → 512 ≤ k.replay.length → exec .flitSend s = .next (s0.sendIdle die l)) ∧
    (ready → k.resend = none → k.replay.length < 512 →
      (¬ packets → exec .flitSend s = .next ((s0.setLink die l { k with records := k.records.drop 7 }).sendSequenced die l 2 0
        ((k.records.take 7).map LinkRec.slot))) ∧
      (packets → slots.1 ≠ [] ∨ k.maskDue = true →
        exec .flitSend s = .next ((slots.2.2.sendSequenced die l 1 slots.2.1 slots.1).watchFlows die)) ∧
      (packets → slots.1 = [] → k.maskDue = false → exec .flitSend s = .next (slots.2.2.sendIdle die l))) ∧
    (k.outSlots = [] → s0.nextPacket die l = none → slots = ([], 0, s0)) ∧
    (∀ p s1, k.outSlots = [] → s0.nextPacket die l = some (p, s1) → slots.1.take p.slots.length = p.slots.take 7 ∧
      slots.2.1 % 2 = 1) ∧
    (∀ ftype sop vs peer, k.peer = some peer → peer ≠ die →
      let t := s0.sendSequenced die l ftype sop vs
      let payload := joinBits 256 vs
      let frozen := s0.creditsFrozen die
      let bytes := sealFlit k.secret (linkDir die l peer) k.keyNum k.keyCount (k.header frozen ftype k.txMask sop) payload
      (t.link die l).txSeq = (k.txSeq + 1) % 2 ^ 20 ∧ (t.link die l).keyCount = k.keyCount + 1 ∧ (t.link die l).txLast = k.txMask ∧
      (t.link die l).replay = k.replay ++ [{ bytes := bytes, mask := k.txLast, payload := payload }] ∧
      (t.link die l).nakDue = false ∧
      (frozen = false → (t.link die l).owedQ = k.owedQ - 63 ∧ (t.link die l).owedS = k.owedS - 63) ∧
      (frozen = true → (t.link die l).owedQ = k.owedQ ∧ (t.link die l).owedS = k.owedS) ∧
      (peer < 16 → (t.link peer (farLink l)).wire = (s0.link peer (farLink l)).wire ++ [stripe k.txLast bytes]) ∧
      (16 ≤ peer → t.fabricOut = s0.fabricOut ++ [(4 * die + 2 * (l - 2), stripe k.txLast bytes)]))

/-- FLIT_RECEIVE: a damaged flit is discarded and asked for again, one out of sequence too, an idle one acknowledges and returns
buffers, and the expected one is accepted if its tag verifies; the third tag failure in a row has the link relock under a new
secret (R379, R380, R385, R396-R399, R454). -/
def Claims.FlitsReceived : Prop :=
  (∀ (s : State) (die l p : Nat), (s.link die l).peer = some p →
    (16 ≤ p → s.arriving die l = s.inp[3]?.map fun v => (v % 2 ^ 2048, s)) ∧
    (p < 16 → (s.link die l).wire = [] → s.arriving die l = none) ∧
    (∀ b rest, p < 16 → (s.link die l).wire = b :: rest → s.arriving die l =
      some (unstripe (s.link die l).rxMask b, s.setLink die l { s.link die l with wire := rest }))) ∧
  ∀ (s s0 : State) (sent : Nat), s.cur.die < 16 →
    let die := s.cur.die
    let l := s.inp.getD 0 0 % 4
    let lane := s.inp.getD 1 0
    let flit := sent ^^^ s.inp.getD 2 0 % 2 ^ 2048
    let h := flitHeader flit
    let k := s0.link die l
    let uncorrected := 1 ≤ lane ∧ lane ≤ 8
    let good := ¬ uncorrected ∧ h.ftype ≠ 3 ∧ flitCrcOk flit = true
    let expected := good ∧ h.ftype ≠ 0 ∧ h.seq = k.rxSeq
    let opened := openFlit k.secret (linkDir (k.peer.getD 0) (farLink l) die) (k.inKey h).1 (k.inKey h).2 flit
    (s.arriving die l = none → exec .flitReceive s = .next s) ∧
    (s.arriving die l = some (sent, s0) →
      (k.up = false → exec .flitReceive s = .next s0) ∧
      (k.up = true → ¬ good → ∃ t, exec .flitReceive s = .next t ∧ (t.link die l).err = satAdd k.err 63 48 1 ∧
        (t.link die l).nakDue = (k.nakDue || h.ftype ≠ 0) ∧ (t.link die l).rxSeq = k.rxSeq ∧
        (uncorrected → (t.link die l).lane (lane - 1) = satAdd (k.lane (lane - 1)) 15 0 1)) ∧
      (k.up = true → good → h.ftype = 0 → exec .flitReceive s = .next (s0.setLink die l (k.takeHeader h))) ∧
      (k.up = true → good → h.ftype ≠ 0 → h.seq ≠ k.rxSeq →
        exec .flitReceive s = .next (s0.setLink die l { k with nakDue := true })) ∧
      (∀ payload, k.up = true → expected → opened = some payload →
        exec .flitReceive s = .next (s0.acceptFlit die l h payload) ∧
        ((s0.acceptFlit die l h payload).link die l).rxSeq = (k.rxSeq + 1) % 2 ^ 20 ∧
        ((s0.acceptFlit die l h payload).link die l).authFails = 0) ∧
      (k.up = true → expected → opened = none →
        (k.authFails < 2 → exec .flitReceive s = .next (s0.setLink die l
          { k with err := satAdd k.err 31 16 1, nakDue := true, authFails := k.authFails + 1 })) ∧
        (2 ≤ k.authFails → k.peer ≠ none → k.peer ≠ some die → ∃ t, exec .flitReceive s = .next t ∧
          (t.link die l).up = false ∧ (t.link die l).keyNum = 0 ∧
          t.mgmt.linkFails = s0.mgmt.linkFails ++ [4 * die + l])))

/-- What a flit's receiver reads is what its sender sent: the beats of a flit on the lanes of a mask give its bytes back, its
header and its CRC are those of its bytes, and the key that sealed a payload opens it (R376, R377, R379, R395). -/
def Claims.FlitsOpen : Prop :=
  ∀ (mask secret dir n count payload : Nat) (h : FlitHeader),
    h.seq < 2 ^ 20 → h.ack < 2 ^ 20 → h.keyIdx < 2 → h.ftype < 4 → h.lmap < 256 → h.sop < 128 → h.crq < 64 → h.crs < 64 →
    payload < 2 ^ 1792 →
    let flit := sealFlit secret dir n count h payload
    flitHeader flit = h ∧ flitCrcOk flit = true ∧ openFlit secret dir n count flit = some payload ∧
    (lightLanes mask ≠ [] → unstripe mask (stripe mask flit) = flit) ∧
    ∀ v, v < 2 ^ 2048 → lightLanes mask ≠ [] → unstripe mask (stripe mask v) = v

/-- A packet that has come in lies in the inbox at its destination, in the queue of its flow where that is set aside, and in the
router where it has a way on; one that takes a place in a set-aside queue gives its input buffer back at once, and one with no way
on is dropped and counted (R382, R384-R386). -/
def Claims.PacketsComeIn : Prop :=
  ∀ (s : State) (die l : Nat) (p : Packet), die < 16 → l < 4 →
    let d := s.die die
    let t := s.takePacket die l p
    let aside := if p.isResponse then none else d.asideOf p.dest
    let queued : Bool := aside.isSome && d.queued p.dest < 16
    let e : Packet × Nat := (p, if queued then l + 8 else l)
    (p.dest ≠ die → d.route p = none → (t.die die).router = d.router ∧ (t.die die).inbox = d.inbox ∧
      (t.die die).fbstat = satAdd d.fbstat 15 8 1) ∧
    (p.dest = die → (t.die die).inbox = d.inbox ++ [e] ∧ (t.die die).router = d.router) ∧
    (p.dest ≠ die → d.route p ≠ none →
      (aside = none → (t.die die).router = d.router ++ [e] ∧ (t.die die).inbox = d.inbox) ∧
      (∀ a, aside = some a → (t.die die).router = d.router ∧
        ∃ b ∈ (t.die die).asides, b.dest = p.dest ∧ b.packets = a.packets ++ [e])) ∧
    (p.dest = die ∨ d.route p ≠ none →
      (t.link die l).owedQ = (s.link die l).owedQ + (if queued then 1 else 0) ∧ (t.link die l).owedS = (s.link die l).owedS)

/-- A packet is a header slot and its data slots, and the slots give it back; a header whose class contradicts its kind, or whose
kind is none of the table, is dropped and counted once all its slots are there (R381, R382). -/
def Claims.PacketsAreSlots : Prop :=
  (∀ p : Packet, p.kind ∈ packetKinds → p.dstMod < 4 → p.dstDie < 16 → p.srcMod < 4 → p.srcDie < 16 → p.unit < 64 → p.tag < 64 →
    p.gen < 16 → p.cls = tagClass p.kind → p.deadline < 2 ^ 16 → p.context < 64 → p.addr < 2 ^ 52 → p.poison < 2 ^ 16 →
    p.status < 256 → p.op < 256 → p.arg < 2 ^ 64 → p.data < 2 ^ (256 * p.dataSlots) →
    p.mask < 2 ^ (if p.masked then 128 else 0) →
    p.slots.length = 1 + p.len ∧ fieldOf p.header 30 28 = p.len ∧ headerOk p.header = true ∧
    readPacket p.header p.slots.tail = p) ∧
  ∀ (s : State) (die l v : Nat), die < 16 → l < 4 →
    let k := s.link die l
    (fieldOf v 30 28 = 0 → headerOk v = true → s.takeSlot die l true v = (s.setLink die l { k with inSlots := [] }).takePacket die l (readPacket v [])) ∧
    (fieldOf v 30 28 = 0 → headerOk v = false → ((s.takeSlot die l true v).die die).fbstat = satAdd (s.die die).fbstat 15 8 1 ∧
      ((s.takeSlot die l true v).die die).router = (s.die die).router) ∧
    (0 < fieldOf v 30 28 → s.takeSlot die l true v = s.setLink die l { k with inSlots := [v] }) ∧
    (k.inSlots = [] → s.takeSlot die l false v = s)

/-- Congestion: a flow that has had enough packets here for long enough is set aside while one of four queues is free, a notice
from downstream does the same, and a queue that has stayed empty is released (R386, R387). -/
def Claims.SetAsideQueues : Prop :=
  ∀ s : State, s.cur.die < 16 →
    let die := s.cur.die
    let d := s.die die
    let dest := s.inp.getD 0 0
    let l := s.inp.getD 0 0 % 4
    let k := s.link die l
    (∀ since, look dest d.busy = some since → d.congWindow ≤ s.cycle - since → d.congThresh ≤ d.flowCount dest →
      exec .congestionDetect s = .next (s.setAside die dest)) ∧
    (look dest d.busy = none → exec .congestionDetect s = .next s) ∧
    (d.asides.length < 4 → d.asideOf dest = none →
      ((s.setAside die dest).die die).asides = d.asides ++ [⟨dest, [], s.cycle, []⟩]) ∧
    (4 ≤ d.asides.length → s.setAside die dest = s) ∧
    (∀ x rest, k.asideIn = x :: rest →
      exec .setAsideNotice s = .next ((s.setLink die l { k with asideIn := rest }).setAside die x)) ∧
    (k.asideIn = [] → exec .setAsideNotice s = .next s) ∧
    (∀ a, d.asideOf dest = some a →
      (a.packets = [] → d.queued dest = 0 → d.congRelease ≤ s.cycle - a.since →
        exec .setAsideRelease s = .next (s.setDie die { d with asides := d.asides.filter fun b => b.dest ≠ dest })) ∧
      (a.packets ≠ [] ∨ 0 < d.queued dest ∨ s.cycle - a.since < d.congRelease → exec .setAsideRelease s = .next s))

/-- Lanes: a lane whose corrected count reaches the threshold is handed back by a notice while enough are left, a window's end
keeps its count and starts anew, the transmitter takes a lane out of its mask, and after training it is brought back, tried again,
or goes out (R398-R400). -/
def Claims.Lanes : Prop :=
  ∀ s : State, s.cur.die < 16 →
    let die := s.cur.die
    let l := s.inp.getD 0 0 % 4
    let j := s.inp.getD 1 0 % 8
    let n := min (s.inp.getD 2 0) 65535
    let k := s.link die l
    let w := k.lane j
    let active := bitsOf w 63 62 = 0
    let counted (m : Nat) : State := s.setLink die l (k.setLane j (setBits w 31 16 m))
    (∀ m, active → bitsOf w 31 16 ≤ m → m < k.thresh → s.laneCounts die l j m = counted m) ∧
    (∀ m, active → bitsOf w 31 16 ≤ m → k.thresh ≤ m → s.laneCounts die l j m = ((counted m).handBack die l j).2) ∧
    (∀ m, ¬ active ∨ m < bitsOf w 31 16 → s.laneCounts die l j m = s) ∧
    (k.up = false → exec .laneThresholdCross s = .next s ∧ exec .laneWindowEnd s = .next s) ∧
    (∀ i m, k.up = true → i < 8 → s.inp = [l] ++ List.replicate i 0 ++ [m] → 0 < m → m < 65536 →
      exec .laneThresholdCross s = .next (s.laneCounts die l i m)) ∧
    (k.up = true → active → ∃ t, exec .laneWindowEnd s = .next t ∧
      bitsOf ((t.link die l).lane j) 47 32 = bitsOf w 31 16 ∧ bitsOf ((t.link die l).lane j) 31 16 = 0 ∧
      bitsOf ((t.link die l).lane j) 15 0 = bitsOf w 15 0 ∧ bitsOf ((t.link die l).lane j) 63 61 = bitsOf w 63 61) ∧
    (k.notices.find? (fun x => x.1 = j) = none → exec .laneNotice s = .next s) ∧
    (∀ back, k.notices.find? (fun x => x.1 = j) = some (j, back) → exec .laneNotice s = .next (s.setLink die l
      { k with
        notices := k.notices.erase (j, back), maskDue := true
        txMask := if back then k.txMask ||| 2 ^ j else k.txMask &&& (255 - 2 ^ j) })) ∧
    (k.up = true → bitsOf w 63 62 = 1 → bitsOf w 61 61 = 0 →
      let bad := s.inp.getD 3 0
      let w1 := satAdd (setBits w 31 16 n) 15 0 bad
      (n ≤ k.thresh / 16 → bad = 0 → exec .trainingAttemptEnd s = .next (s.setLink die l
        { k.setLane j (setBits w1 61 61 1) with records := k.records ++ [.lane j true] })) ∧
      (¬ (n ≤ k.thresh / 16 ∧ bad = 0) → bitsOf w 51 48 = 15 → exec .trainingAttemptEnd s = .next (s.setLink die l
        { k.setLane j (setBits w1 63 62 2) with err := satAdd k.err 7 0 1 })) ∧
      (¬ (n ≤ k.thresh / 16 ∧ bad = 0) → bitsOf w 51 48 ≠ 15 → exec .trainingAttemptEnd s = .next (s.setLink die l
        (k.setLane j (setBits (setBits w1 51 48 (bitsOf w 51 48 + 1)) 31 16 0)))))

/-- Keys and relocking: after 2^32 flits a direction goes on to its next key, and a link that was taken down comes up again once
both ends are lit and the domain secret is there (R396, R400, R407, R454). -/
def Claims.KeysAndRelocks : Prop :=
  ∀ s : State, s.cur.die < 16 →
    let die := s.cur.die
    let l := s.inp.getD 0 0 % 4
    let k := s.link die l
    (k.up = true → bitsOf k.ctl 0 0 = 1 → 2 ^ 32 ≤ k.keyCount → k.oldKey = none →
      exec .autoKeyRotation s = .next (s.setLink die l
        { k with
          keyNum := (k.keyNum + 1) % 2 ^ 32, keyCount := 0, oldKey := if k.replay.isEmpty then none else some k.txSeq
          rotated := some s.cycle })) ∧
    (k.up = false ∨ bitsOf k.ctl 0 0 = 0 ∨ k.keyCount < 2 ^ 32 ∨ k.oldKey ≠ none → exec .autoKeyRotation s = .next s) ∧
    (∀ p, k.peer = some p → p ≠ die → k.relock ≠ none → k.lit = true → (p < 16 → (s.link p (farLink l)).lit = true) →
      s.mgmt.secret ≠ none → ∃ t, exec .linkRelockComplete s = .next t ∧
        (t.link die l).up = true ∧ (t.link die l).relock = none ∧ (t.link die l).txMask = k.txLast ∧
        (t.link die l).rxMask = k.rxMask ∧ (t.link die l).replay = k.replay ∧
        (p < 16 → (t.link p (farLink l)).up = true ∧ (t.link p (farLink l)).relock = none)) ∧
    (k.peer = none ∨ k.relock = none ∨ k.lit = false ∨ s.mgmt.secret = none → exec .linkRelockComplete s = .next s)

/-- A request whose turn it is leaves the inbox and is performed at its target: a read answers with the bytes, a write stores them
under its mask, a sync command acts, a translation is searched for, a notice is taken; the answer goes to the router. One past its
deadline is dropped and counted, and the payload of a context that is not bound here is refused (R388, R390-R392, R453). -/
def Claims.RequestsServed : Prop :=
  ∀ (s : State) (p0 : Packet) (from_ : Nat), s.cur.die < 16 →
    let die := s.cur.die
    let n := s.inp.getD 0 0
    let s1 := s.dropInbox die n
    let p := s1.openPacket p0
    (s.die die).inbox[n]? = some (p0, from_) → s.inboxHeld die n p0 = false →
    let late := s.deadlinePassed p0 = true
    let dropped := Host.Outcome.next (s1.countFabric die 31 16 1)
    (p.kind = p0.kind ∧ p.host = p0.host ∧ p.addr = p0.addr ∧ p.op = p0.op ∧ p.arg = p0.arg ∧ (s.payloadKey p0 = none → p = p0)) ∧
    (late → (p.kind = 0 → exec .readRequest s = dropped) ∧ (p.kind = 1 → exec .writeRequest s = dropped) ∧
      (p.kind = 2 → exec .syncCommandRequest s = dropped) ∧ (p.kind = 3 → exec .translationRequest s = dropped) ∧
      (p.kind = 5 → exec .engineNotice s = dropped)) ∧
    (¬ late → s.sealed p0 = true →
      let refused := Host.Outcome.next (s1.respond die p0 (p.kind + 8) ⟨4, 0, 0⟩)
      (p.kind = 0 → exec .readRequest s = refused) ∧ (p.kind = 1 → exec .writeRequest s = refused) ∧
      (p.kind = 2 → exec .syncCommandRequest s = refused)) ∧
    (¬ late → s.sealed p0 = false →
      (p.kind = 0 → p.host = false → homed die p = true →
        exec .readRequest s = .next (s1.respond die p 8 (s1.readHome die p.addr (p.op % 128 + 1)))) ∧
      (p.kind = 0 → p.host = false → homed die p = false → exec .readRequest s = .next (s1.respond die p 8 ⟨4, 0, 0⟩)) ∧
      (p.kind = 0 → p.host = true → exec .readRequest s = .next (s1.toHost die p 8)) ∧
      (p.kind = 1 → p.host = false → homed die p = true →
        let r := s1.writeHome die p.addr (p.op % 128 + 1) p.data (if 128 ≤ p.op then p.mask else fullMask (p.op % 128 + 1)) p.poison
        exec .writeRequest s = .next (r.2.respond die p 9 ⟨r.1, 0, 0⟩)) ∧
      (p.kind = 1 → p.host = false → homed die p = false → exec .writeRequest s = .next (s1.respond die p 9 ⟨4, 0, 0⟩)) ∧
      (p.kind = 1 → p.host = true → exec .writeRequest s = .next (s1.toHost die p 9)) ∧
      (p.kind = 2 → p.host = false → homed die p = true → p.op ≠ opReport →
        exec .syncCommandRequest s =
          .next (s1.syncPerform die p.op p.addr (p.data % 2 ^ 64) (p.data / 2 ^ 64) (.packet p))) ∧
      (p.kind = 2 → p.host = false → homed die p = false → exec .syncCommandRequest s = .next (s1.respond die p 10 ⟨4, 0, 0⟩)) ∧
      (p.kind = 2 → p.host = true → exec .syncCommandRequest s = .next (s1.toHost die p 10)) ∧
      (p.kind = 3 → (s1.die die).search die p.context p.arg true = none → exec .translationRequest s = .next ((s1.setDie die
        { s1.die die with xaFills := min ((s.die die).xaFills + 1) (2 ^ 32 - 1) }).respond die p 11 ⟨7, 0, 0⟩)) ∧
      (∀ k w0, p.kind = 3 → (s1.die die).search die p.context p.arg true = some (k, w0) →
        ∃ t, exec .translationRequest s = .next t ∧
          (t.die die).router = (s.die die).router ++ [(s.sealPacket (p.response 11
            ⟨0, w0.toNat + ((look k (s.die die).xent).getD (0, 0)).2.toNat * 2 ^ 64, 0⟩), 4)] ∧
          ∃ hs all, look k (t.die die).holders = some (hs, all) ∧ ((16 * p.srcMod + p.srcDie) ∈ hs ∨ all = true)) ∧
      (p.kind = 5 → p.op = 1 →
        let r := s1.cancelPoint die (p.arg / 2 ^ 32 % 64) (p.arg % 2 ^ 32)
        exec .engineNotice s = .next (r.2.respond die p 13 ⟨0, if r.1 then 1 else 0, 0⟩)) ∧
      (p.kind = 5 → p.op = 0 → exec .engineNotice s = .next ((s1.takeHold die p.arg).respond die p 13 ⟨0, 0, 0⟩)) ∧
      (p.kind = 5 → 2 ≤ p.op → exec .engineNotice s = .next (s1.respond die p 13 ⟨4, 0, 0⟩)))

/-- A masked write at its home changes the bytes that its mask selects, and no others (R44, R382, R390). -/
def Claims.WritesAtHome : Prop :=
  ∀ (s : State) (die a n data mask : Nat), s.MemoryCanonical → s.homePlace die (paOffset a) = .mem →
    let t := s.writeHome die a n data mask 0
    t.1 = 0 ∧ t.2.strands = s.strands ∧ t.2.dies = s.dies ∧
    (∀ b, (b < a ∨ a + n ≤ b) → t.2.byteAt b = s.byteAt b) ∧
    (∀ i, i < n → t.2.byteAt (a + i) = if mask.testBit i then BitVec.ofNat 8 (data / 256 ^ i) else s.byteAt (a + i))

/-- A response reaches the request that its class, tag and generation name, and ends it; one past its deadline is dropped and one
that nothing awaits is counted as late (R388, R389). -/
def Claims.ResponsesTaken : Prop :=
  ∀ (s : State) (p : Packet) (from_ : Nat) (i : Instr) (kind : Nat),
    (i, kind) ∈ [(Instr.readData, 8), (.writeAcknowledgement, 9), (.syncReply, 10), (.translationReply, 11),
      (.noticeAcknowledgement, 13)] →
    let die := s.cur.die
    let n := s.inp.getD 0 0
    let s1 := s.dropInbox die n
    (s.die die).inbox[n]? = some (p, from_) →
    (p.kind ≠ kind → exec i s = .next s) ∧
    (p.kind = kind → s.deadlinePassed p = true → exec i s = .next (s1.countFabric die 31 16 1)) ∧
    (p.kind = kind → s.deadlinePassed p = false →
      let found := s1.matchReq die (p.unit + if p.eng then 64 else 0) p.cls p.tag p.gen
      (∀ id, found = some id → exec i s =
        .next (s1.deliver id ⟨p.status, if kind = 13 then p.arg else (s1.openPacket p).data, p.poison⟩)) ∧
      (found = none → exec i s = .next (s1.countFabric die 63 32 1)))

/-- Invalidations: a holder begins to clear what it filled from the page, and answers once no dirty byte and no access of it is
left; the answer ends its wait at the target, matched by its tag and generation; those unanswered for an interval are sent again,
each as a new request (R389, R393, R394). -/
def Claims.Invalidations : Prop :=
  (∀ (s : State) (p : Packet) (from_ : Nat), s.cur.die < 16 →
    let die := s.cur.die
    let n := s.inp.getD 0 0
    let s1 := s.dropInbox die n
    let bytes := pageBytes (BitVec.ofNat 2 p.op)
    (s.die die).inbox[n]? = some (p, from_) →
    (p.kind = 4 → s.deadlinePassed p = true →
      exec .invalidationRequest s = .next ((s1.countFabric die 31 16 1).answerCleared die)) ∧
    (p.kind = 4 → s.deadlinePassed p = false →
      exec .invalidationRequest s = .next ((s1.beginClearing die p).answerCleared die) ∧
      ((s.die die).cache = [] → (s.die die).filled = [] → (s.die die).performing = [] →
        s.backsOut die (fun i _ => meets (128 * i) 128 p.addr bytes) = [] →
        (∀ e ∈ s.reqs, e.2.die = die → e.2.reply = none → meets e.2.addr (max 1 e.2.len) p.addr bytes = false) →
        let t := (s1.beginClearing die p).answerCleared die
        (t.die die).inbox = (s.die die).inbox.eraseIdx n ∧ (t.die die).performing = [] ∧
        (t.die die).router = (s.die die).router ++ [(s.sealPacket (p.response 12 ⟨0, 0, 0⟩), 4)] ∧
        ∀ e ∈ t.reqs, e.2.die = die → e.2.kind = 3 → e.2.addr = (16 * p.srcMod + p.srcDie) * 2 ^ 44 → e.2.mark = true)) ∧
    (p.kind = 12 → s.deadlinePassed p = false →
      (∀ id, s1.matchReq die 64 p.cls p.tag p.gen = some id → ∃ t, exec .invalidationAcknowledgement s = .next t ∧
        t = (s1.deliver id ⟨0, 0, 0⟩).dropInvals die (fun v => v.req = some id) ∧
        ∀ v ∈ (t.die die).invals, v.holder = die ∨ v.req ≠ some id) ∧
      (s1.matchReq die 64 p.cls p.tag p.gen = none →
        exec .invalidationAcknowledgement s = .next (s1.countFabric die 63 32 1)))) ∧
  ∀ s : State, s.cur.die < 16 →
    let die := s.cur.die
    let d := s.die die
    let due (v : Inval) : Bool := v.entry = s.inp.getD 0 0 && v.sent + d.interval ≤ s.cycle
    (∃ t, exec .invalidationResend s = .next t ∧ (∀ v ∈ d.invals, v.holder = die ∨ due v = false → v ∈ (t.die die).invals) ∧
      ∀ v ∈ (t.die die).invals, v.holder = die ∨ due v = false) ∧
    ((∀ v ∈ d.invals, v.holder = die ∨ due v = false) → ∃ t, exec .invalidationResend s = .next t ∧
      (t.die die).router = d.router ∧ (t.die die).invals = d.invals)

/-- A reset of the fabric engine takes its links down to be relocked with their keys and replay buffers, drops the requests it has
not begun and ends the fills (R61, R407). -/
def Claims.FabricResets : Prop :=
  ∀ s : State, s.cur.die < 16 →
    let die := s.cur.die
    ∃ t, exec .fabricEngineReset s = .next t ∧ t.crews = s.crews ∧
      (∀ l, l < 4 → (s.link die l).peer ≠ none → (s.link die l).up = true → (t.link die l).up = false ∧
        ((s.link die l).peer ≠ some die → (t.link die l).keyNum = (s.link die l).keyNum ∧
          (t.link die l).replay = (s.link die l).replay)) ∧
      (t.die die).inbox = (s.die die).inbox.filter fun e => e.1.isResponse

/-- FXFILL asks another die of the group for a translation and installs the answer; FKEY goes on to the next key of a link,
where an automatic rotation has not done so in the same cycle; FLANE
reads a lane, hands it back, or puts it into training (R402-R404). -/
def Claims.FabricWords : Prop :=
  ∀ (s s0 s1 s2 : State) (tk : BitVec 4) (rd ra rb : BitVec 5) (a b : Word), DWord s tk s0 → s.acquired = true → s.cur.die < 16 →
    readReg ra s0 = .ok (a, s1) →
    let die := s.cur.die
    let answers (i : Instr) (v : Word) (t : State) : Prop := Retires i s ((writeResult rd v t).bind (giveTokens tk))
    (readReg rb s1 = .ok (b, s2) →
      let i := Instr.fxfill tk rd ra rb
      let target := bitsOf b 29 24
      let e := bitsOf b 63 52
      let fits := bitsOf a 63 56 = 0 ∧ bitsOf b 51 38 = 0 ∧ bitsOf b 31 30 = 0 ∧ bitsOf b 23 0 = 0
      (s.pending = none →
        (¬ fits → exec i s = .next (s.takeTrap 0x70 1)) ∧
        (fits → target = die → exec i s = .next (s.takeTrap 0x70 2)) ∧
        (fits → target ≠ die → s.inGroup die (target / 16) (target % 16) = false →
          exec i s = .next (s.takeTrap 0x71 (BitVec.ofNat 64 target))) ∧
        (fits → target ≠ die → s.inGroup die (target / 16) (target % 16) = true →
          ((s.die die).entryTaken e = true → answers i 3 s2) ∧
          ((s.die die).entryTaken e = false →
            let r := s.request { Req.blank die 64 3 3 (target * 2 ^ 44) 0 (bitsOf b 37 32) with arg := a.toNat, owner := some 0 }
            exec i s = .next (r.2.setPending { ids := [r.1], data := [2000] })))) ∧
      (∀ p r q, s.pending = some p → look (p.ids.headD 0) s.reqs = some q → q.reply = some r →
        let x := s2.fillNow die e target r q.mark
        answers i (BitVec.ofNat 64 x.1) (x.2.forget (p.ids.headD 0)))) ∧
    (4 ≤ a.toNat → exec (.fkey tk rd ra) s = .next (s.takeTrap 0x70 1)) ∧
    (a.toNat < 4 →
      let k := s.link die a.toNat
      (k.up = false → answers (.fkey tk rd ra) 2 s1) ∧
      (k.up = true → k.rotated = some s.cycle → answers (.fkey tk rd ra) 0 s1) ∧
      (k.up = true → k.rotated ≠ some s.cycle → k.oldKey ≠ none → answers (.fkey tk rd ra) 1 s1) ∧
      (k.up = true → k.rotated ≠ some s.cycle → k.oldKey = none →
        answers (.fkey tk rd ra) 0 (s1.setLink die a.toNat k.rotate))) ∧
    (readReg rb s1 = .ok (b, s2) →
      let i := Instr.flane tk rd ra rb
      let l := bitsOf a 1 0
      let j := bitsOf a 4 2
      let k := s.link die l
      let w := k.lane j
      (32 ≤ a.toNat ∨ 4 ≤ b.toNat → exec i s = .next (s.takeTrap 0x70 1)) ∧
      (a.toNat < 32 → b = 3 → exec i s = .next (s.takeTrap 0x70 3)) ∧
      (a.toNat < 32 → b = 0 → answers i w s2) ∧
      (a.toNat < 32 → b = 1 ∨ b = 2 → k.up = false → answers i 3 s2) ∧
      (a.toNat < 32 → b = 1 → k.up = true →
        answers i (BitVec.ofNat 64 (s2.handBack die l j).1) (s2.handBack die l j).2) ∧
      (a.toNat < 32 → b = 2 → k.up = true → bitsOf w 63 62 ≠ 2 → answers i 1 s2) ∧
      (a.toNat < 32 → b = 2 → k.up = true → bitsOf w 63 62 = 2 → answers i 0 (s2.setLink die l
        (k.setLane j (setBits (setBits (setBits w 63 61 2) 51 48 1) 31 16 0)))))

/-! ## The sluice (13 R408-R423) -/

/-- SLCTL.GO: while a request or a spillway patch is in progress it has status 1; a ring that runs gives status 3, a map that fails a check status 2
with the check's number and the die; a valid request begins, and holds new requests on every die of the scope. A die of another
module whose map has not been offered fails the first check (R413-R417; log 2). -/
def Claims.MapRequests : Prop :=
  ∀ s0 : State,
    let offers := (pairs s0.inp.tail).map fun e => (e.1, BitVec.ofNat 64 e.2)
    let x : Sluice := { s0.sluice with offers := offers, farEpoch := s0.inp.headD (bitsOf s0.sluice.ctl 15 0) }
    let s : State := { s0 with sluice := x }
    let scope := x.scopeDies
    let set (w : Word) : State := { s with sluice := { x with ctl := w } }
    (bitsOf x.ctl 62 62 = 1 ∨ s0.patching = true →
      exec .slctlGo s0 = .next { s0 with sluice := { s0.sluice with ctl := setBits x.ctl 55 48 1 } }) ∧
    (bitsOf x.ctl 62 62 = 0 → s0.patching = false →
      (∀ d, s.ringRunning scope = some d → exec .slctlGo s0 = .next (set (slctl x.ctl 0 3 0 0 d))) ∧
      (∀ r d, s.ringRunning scope = none → s.mapReason x.scopeAll = some (r, d) →
        exec .slctlGo s0 = .next (set (slctl x.ctl 0 2 0 r d))) ∧
      (∀ d, s.ringRunning scope = none → d ∈ scope →
        (let g := x.next.get (Fin.ofNat 16 d)
         bitsOf g 63 48 ≠ 0 ∨ bitsOf g 34 34 ≠ 0 ∨ bitsOf g 32 32 ≠ 0 ∨ bitsOf g 15 0 ≠ 0) →
        ∃ b, exec .slctlGo s0 = .next (set (slctl x.ctl 0 2 0 1 b))) ∧
      (∀ d, s.ringRunning scope = none → d ∈ x.scopeAll → 16 ≤ d → look d offers = none →
        ∃ b, exec .slctlGo s0 = .next (set (slctl x.ctl 0 2 0 1 b))) ∧
      (s.ringRunning scope = none → s.mapReason x.scopeAll = none →
        ∃ t, exec .slctlGo s0 = .next t ∧ t.sluice.ctl = slctl x.ctl 1 (bitsOf x.ctl 55 48) 2 0 0 ∧ t.sluice.dies = scope ∧
          t.sluice.began = s.cycle ∧ (∀ d, d < 16 → (t.die d).gmap = (s.die d).gmap) ∧
          (∀ d ∈ scope, (t.die d).frozen ≠ none) ∧
          (∀ d ∈ scope, ∀ l, l < 4 → ∀ p ∈ x.scopeAll, (s.link d l).peer = some p → (s.link d l).up = true →
            LinkRec.marker ∈ (t.link d l).records)))

/-- Draining: a marker that has come in is noted; once every die of the scope is quiesced the links that change go dark, and past
the limit the request ends with status 4, or 6 where a die was fenced, and every map as it was (R416-R419). -/
def Claims.MapDrains : Prop :=
  ∀ s : State,
    let x := s.sluice
    let quiet := x.dies.all s.quiesced = true
    let new (e : Nat) : Word := s.proposed x.scopeAll e
    (s.cur.die < 16 →
      let die := s.cur.die
      let l := s.inp.getD 0 0 % 4
      ((s.link die l).marked = false → exec .drainMarker s = .next s) ∧
      ((s.link die l).marked = true → ∃ t, exec .drainMarker s = .next t ∧ (t.link die l).marked = false ∧
        l ∈ (t.die die).markers)) ∧
    ((∀ d ∈ x.dies, d < 16) →
      (x.step ≠ 2 ∨ ¬ quiet → exec .sluiceDrainComplete s = .next s) ∧
      (x.step = 2 → quiet → ∃ t, exec .sluiceDrainComplete s = .next t ∧ t.sluice.ctl = setBits x.ctl 47 40 4 ∧
        t.sluice.drainUs = (s.cycle - x.began) / 1200 ∧ t.sluice.began = s.cycle ∧
        t.sluice.paths = (s.changedPaths x.dies).map (fun p => (p, 0)) ∧ (∀ d, d < 16 → (t.die d).gmap = (s.die d).gmap) ∧
        (∀ d ∈ x.dies, ∀ l, l < 4 → peerOf new d l ≠ (s.link d l).peer → (t.link d l).up = false ∧ (t.link d l).lit = false)) ∧
      (x.step ≠ 2 ∨ s.cycle < x.began + x.limit → exec .sluiceDrainTimeout s = .next s) ∧
      (x.step = 2 → x.began + x.limit ≤ s.cycle → ∃ t, exec .sluiceDrainTimeout s = .next t ∧
        t.sluice.ctl = slctl x.ctl 0 (if x.fenced then 6 else 4) 0 0 ((x.dies.find? fun d => !s.quiesced d).getD 0) ∧
        t.sluice.dies = [] ∧ (∀ d, d < 16 → (t.die d).gmap = (s.die d).gmap) ∧
        (∀ d ∈ x.dies, (t.die d).frozen = none ∧ (t.die d).markers = [])))

/-- Relocking and publication: the mirrors settle, each path that changes relocks or is tried once more, and then the new maps
with the epoch after the greatest take force on every die of the scope in one step, with status 0, or 5 where a path stays down
(R416-R420). -/
def Claims.MapsPublished : Prop :=
  ∀ s : State,
    let x := s.sluice
    let p := s.inp.getD 0 0
    let epoch := (laterEpoch (bitsOf x.ctl 15 0) x.farEpoch + 1) % 65536
    let published (i : Instr) (failed : Bool) : Prop := ∃ t, exec i s = .next t ∧
      bitsOf t.sluice.ctl 62 62 = 0 ∧ bitsOf t.sluice.ctl 55 48 = (if failed then 5 else 0) ∧
      bitsOf t.sluice.ctl 15 0 = epoch ∧ t.sluice.dies = [] ∧
      ∀ d ∈ x.dies, (t.die d).gmap = setBits (x.next.get (Fin.ofNat 16 d)) 63 48 epoch ∧
        (t.die d).frozen = none
    let waits (ps : List (Nat × Nat)) : Prop := ∃ q ∈ ps, q.2 < 2
    let entry := x.paths.find? fun e => e.1 = p
    (∀ d ∈ x.dies, d < 16 ∧ d ∈ x.scopeAll) →
    (x.step ≠ 4 → exec .sluiceDarkEnd s = .next s) ∧
    (x.step = 4 → waits x.paths → exec .sluiceDarkEnd s = .next { s with
      sluice := { x with ctl := setBits x.ctl 47 40 5, darkUs := (s.cycle - x.began) / 1200, began := s.cycle } }) ∧
    (x.step = 4 → ¬ waits x.paths → published .sluiceDarkEnd x.failed) ∧
    (entry = none ∨ x.step ≠ 5 → exec .pathRelockComplete s = .next s ∧ exec .pathRelockTimeout s = .next s) ∧
    (∀ e, entry = some e → x.step = 5 →
      (2 ≤ e.2 → exec .pathRelockComplete s = .next s ∧ exec .pathRelockTimeout s = .next s) ∧
      (e.2 < 2 → s.canRelock p = false → exec .pathRelockComplete s = .next s) ∧
      (e.2 < 2 → s.canRelock p = true →
        let rest := x.paths.filter fun e => e.1 ≠ p
        (waits rest → exec .pathRelockComplete s =
          .next { s with sluice := { x with paths := rest, relocked := x.relocked + 1 } }) ∧
        (¬ waits rest → published .pathRelockComplete x.failed)) ∧
      (e.2 < 2 → s.cycle < x.began + 48000 * (e.2 + 1) → exec .pathRelockTimeout s = .next s) ∧
      (e.2 < 2 → x.began + 48000 * (e.2 + 1) ≤ s.cycle →
        let ps : List (Nat × Nat) := x.paths.map fun e => if e.1 = p then (p, e.2 + 1) else e
        (waits ps → exec .pathRelockTimeout s =
          .next { s with sluice := { x with paths := ps, failed := x.failed || e.2 = 1 } }) ∧
        (¬ waits ps → published .pathRelockTimeout (x.failed || e.2 = 1))))

/-! ## The host interface (14 R424-R445) -/

/-- The configuration header: its fixed fields read as they are, a write changes the bits that software may write, and nothing
answers over a link that is down (R425, R426; log 7). -/
def Claims.ConfigurationHeader : Prop :=
  ∀ s : State,
    let off := s.inp.getD 0 0 / 4 * 4 % 4096
    (s.host.linkUp = false → exec .configRequest s = .next s) ∧
    (s.host.linkUp = true → s.inp.getD 1 0 ≠ 1 →
      exec .configRequest s = .next (s.complete 0 (configFixed off + ((look off s.host.config).getD 0).toNat))) ∧
    (s.host.linkUp = true → s.inp.getD 1 0 = 1 → risingFrom 0 s.host.config = true → ∃ t, exec .configRequest s = .next t ∧
      t.host.readConfig off = configFixed off + (s.inp.getD 2 0 &&& configBits off) % 2 ^ 32 ∧
      t.host.completions = s.host.completions ++ [(0, 0)] ∧ t.mem = s.mem ∧ t.dies = s.dies)

/-- Reads through the BARs: one aligned unit of up to 8 bytes of BAR 0 or 2, any bytes of memory through BAR 4; a misaligned
access to a register is a completer abort, a reserved offset reads as 0 and counts, an AtomicOp is an unsupported request
(R427-R429, R433). -/
def Claims.BarReads : Prop :=
  ∀ s : State,
    let bar := s.inp.getD 0 0
    let off := s.inp.getD 1 0
    let len := min 4096 (s.inp.getD 2 0)
    let q := s.uq (off / 4096 % 256)
    let clear := ∀ d, d < 16 → s.clearingOf d hostOwner = false
    let up := s.host.linkUp = true ∧ clear
    (s.host.linkUp = false → exec .inboundBarRead s = .next s ∧ exec .inboundAtomicop s = .next s) ∧
    (up → exec .inboundAtomicop s = .next (s.complete 1 0)) ∧
    (¬ clear → exec .inboundBarRead s = .next s) ∧
    (up → bar ≠ 4 → barAligned off len = false → exec .inboundBarRead s = .next (s.complete 4 0)) ∧
    (up → bar ≠ 4 → bar ≠ 2 → barAligned off len = true →
      (∀ w, s.readBar0 (off / 8 * 8) = some w →
        exec .inboundBarRead s = .next (s.complete 0 (w / 256 ^ (off % 8) % 256 ^ len))) ∧
      (s.readBar0 (off / 8 * 8) = none → exec .inboundBarRead s = .next (s.unrequested.complete 0 0))) ∧
    (up → bar = 2 → barAligned off len = true → len = 8 →
      (off % 4096 = 0 → exec .inboundBarRead s = .next (s.complete 0 0)) ∧
      (off % 4096 = 8 → exec .inboundBarRead s = .next (s.complete 0 (q.rptr % 2 ^ 32))) ∧
      (off % 4096 = 16 → exec .inboundBarRead s =
        .next (s.complete 0 (bitsOf q.ctl 63 62 * 2 ^ 62 + bitsOf q.err 63 56))) ∧
      (24 ≤ off % 4096 → exec .inboundBarRead s = .next (s.unrequested.complete 0 0))) ∧
    (up → bar = 4 → (∀ i, i < len → ∃ a, bar4Address (off + i) = some a ∧ a / 8 ∉ s.poison) →
      ∃ v, exec .inboundBarRead s = .next (s.complete 0 v) ∧
        ∀ i a, i < len → bar4Address (off + i) = some a → v / 256 ^ i % 256 = (s.byteAt a).toNat)

/-- Writes through the BARs: to a register, to a notify page, or to bytes of memory and to no others; they wait for an earlier
write of the host that clears a translation (R393, R427-R429, R433, R437, R445). -/
def Claims.BarWrites : Prop :=
  ∀ s : State,
    let bar := s.inp.getD 0 0
    let off := s.inp.getD 1 0
    let bytes := (s.inp.drop 3).take 512
    let len := bytes.length
    let up := s.host.linkUp = true ∧ s.hostWaits = false
    (¬ up → exec .inboundBarWrite s = .next s) ∧
    (up → bar ≠ 4 → barAligned off len = false → exec .inboundBarWrite s = .next (s.complete 4 0)) ∧
    (up → bar ≠ 4 → bar ≠ 2 → len = 8 → off % 8 = 0 →
      exec .inboundBarWrite s = .next (s.writeBar0 off (BitVec.ofNat 64 (bytes.foldr (fun b acc => b % 256 + 256 * acc) 0))
        (BitVec.allOnes 64))) ∧
    (up → bar = 2 → barAligned off len = true → off % 4096 < 8 →
      exec .inboundBarWrite s = .next (s.notifyQueue (off / 4096 % 256))) ∧
    (up → bar = 4 → s.MemoryCanonical → ∃ t, exec .inboundBarWrite s = .next t ∧
      (∀ i a, i < len → bar4Address (off + i) = some a → t.byteAt a = BitVec.ofNat 8 (bytes.getD i 0)) ∧
      (∀ b, (∀ i, i < len → bar4Address (off + i) ≠ some b) → t.byteAt b = s.byteAt b) ∧
      t.dies = s.dies ∧ t.crews = s.crews ∧ t.strands = s.strands)

/-- A write of a register changes the bits that software writes, and an offset with no register takes none (R460): the read and
written fields of these registers, the counters that writing ones clears, and the reserved rest. It waits for an earlier write of
the host that clears a translation (R393, R445). -/
def Claims.RegistersWritten : Prop :=
  ∀ s : State,
    let d := s.inp.getD 0 0
    let x := s.die d
    let v := BitVec.ofNat 64 (s.inp.getD 2 0)
    let takes (off : Nat) (y : Die) : Prop :=
      s.hostWaits = false → s.inp.getD 1 0 = off → exec .registerWrite s = .next (s.setDie d y)
    let field (old m : Word) : Word := (old &&& ~~~m) ||| (m &&& v)
    (s.hostWaits = true → exec .registerWrite s = .next s) ∧
    (d < 16 →
      takes 0x1010 { x with rampctl := field x.rampctl 0x8000000000000FFF } ∧
      takes 0x2000 { x with frbase := field x.frbase 0xFFFFFFFFFFFFF } ∧
      takes 0x2008 { x with frctl := field x.frctl 0x1FFF } ∧
      takes 0x2020 { x with remtimeout := field x.remtimeout 0xFFFFFF } ∧
      takes 0x3000 { x with syncctl := field x.syncctl 0xFFFFFF } ∧
      takes 0x4018 { x with rptext := field x.rptext 0xFFFFFFFFFFFF0000 } ∧
      takes 0x4020 { x with rpentry := field x.rpentry 0xFFFFFFFFFFFFF } ∧
      takes 0x5000 { x with congctl := field x.congctl 0x0000FFFF00FFFFFF } ∧
      takes 0x5008 { x with fbstat := x.fbstat &&& ~~~v } ∧
      takes 0x7000 { x with errBase := field x.errBase 0xFFFFFFFFFFFE0 } ∧
      (∀ off, 0x7028 ≤ off → off < 0x100000 → s.inp.getD 1 0 = off → exec .registerWrite s = .next s)) ∧
    (d = 16 → s.inp.getD 1 0 = 0 → s.hostWaits = false →
      exec .registerWrite s = .next { s with host := { s.host with hectl := field s.host.hectl 3 } }) ∧
    (d = 17 → s.inp.getD 1 0 = 0x10 → bitsOf s.sluice.ctl 62 62 = 0 → s.patching = false → s.hostWaits = false →
      exec .registerWrite s = .next { s with sluice := { s.sluice with scope := v } }) ∧
    (d = 17 → s.inp.getD 1 0 = 0x10 → bitsOf s.sluice.ctl 62 62 = 1 ∨ s.patching = true → exec .registerWrite s = .next s) ∧
    (20 ≤ d → exec .registerWrite s = .next s)

/-- User queues: a notify sets the flag, and UQCTL's fields other than ENABLE and HALTED are taken only while the queue is off;
the engine fetches the slot at the read index of the queue whose turn it is (R432, R437, R439, R444). Both writes wait for an
earlier write of the host that clears a translation (R393, R445). -/
def Claims.UserQueues : Prop :=
  ∀ s : State,
    let u := s.inp.getD 0 0 % 256
    let q := s.uq u
    let v := BitVec.ofNat 64 (s.inp.getD 1 0)
    (s.hostWaits = true → exec .uqnotify s = .next s ∧ exec .uqctlWrite s = .next s) ∧
    (s.hostWaits = false → exec .uqnotify s = .next (s.setUq u { q with notify := true })) ∧
    (s.hostWaits = false → ∃ t, exec .uqctlWrite s = .next t ∧
      (let r := t.uq u
       bitsOf r.ctl 63 63 = bitsOf v 63 63 ∧ bitsOf r.ctl 62 62 = bitsOf q.ctl 62 62 * (1 - bitsOf v 62 62) ∧
       (q.enabled = false → r.context = bitsOf v 53 48 ∧ r.die = bitsOf v 35 32 ∧ r.hwq = bitsOf v 28 24 ∧
         bitsOf r.ctl 59 56 = min 12 (bitsOf v 59 56)) ∧
       (q.enabled = true → r.context = q.context ∧ r.die = q.die ∧ r.hwq = q.hwq ∧
         bitsOf r.ctl 59 56 = min 12 (bitsOf q.ctl 59 56)) ∧
       (r.enabled = true → q.enabled = false → r.notify = true) ∧
       r.base = q.base ∧ r.rptr = q.rptr ∧ r.err = q.err) ∧
      (∀ w, w ≠ u → t.uq w = s.uq w)) ∧
    (let turn := s.host.linkUp = true ∧ bitsOf s.host.hectl 0 0 = 1 ∧ s.nextQueue = some u
     let failed := s.inp.getD 1 0 = 1 ∨ s.poisonIn q.slot 64 ≠ none
     (¬ turn → exec .packetFetch s = .next s) ∧
     (turn → failed → ∃ t, exec .packetFetch s = .next t ∧ (t.uq u).halted = true ∧ (t.uq u).packet = none ∧
       (t.uq u).err = BitVec.ofNat 64 (0xFF * 2 ^ 56 + q.rptr % 2 ^ 32) ∧ (t.uq u).rptr = q.rptr) ∧
     (turn → ¬ failed → ∃ t, exec .packetFetch s = .next t ∧ t.host.served = u ∧ t.mem = s.mem ∧
       (s.readN q.slot 8 % 2 = 0 → (t.uq u).packet = none ∧ (t.uq u).busy = false) ∧
       (s.readN q.slot 8 % 2 = 1 → (t.uq u).busy = true ∧ (t.uq u).packet =
         some ((List.range 8).map fun i => BitVec.ofNat 64 (s.readN q.slot 64 / 2 ^ (64 * i)))))) ∧
    ∀ status, status < 256 → s.MemoryCanonical →
      let t := s.endPacket u status
      (t.uq u).rptr = (q.rptr + 1) % 2 ^ 32 ∧ (t.uq u).packet = none ∧
      (status ≠ 0 → (t.uq u).err = BitVec.ofNat 64 (status * 2 ^ 56 + q.rptr % 2 ^ 32)) ∧ (status = 0 → (t.uq u).err = q.err) ∧
      (s.host.linkUp = true → ∀ w0 rest, q.packet = some (w0 :: rest) →
        t.word64 q.slot = setBits (setBits w0 63 56 status) 0 0 0 ∧
        ∀ b, b < q.slot ∨ q.slot + 8 ≤ b → t.byteAt b = s.byteAt b)

/-- Packets: a launch goes to the tail of its hardware queue once that and the launch table have room, a cancel cancels the job on
the dies, a barrier decrements its signal once the queue's launches have retired, and sends its interrupt, for a signal at another
module after the reply of the home; each failing check ends the packet with its
status (R434-R438, R440, R441). -/
def Claims.UserPackets : Prop :=
  ∀ s : State,
    let u := s.inp.getD 0 0 % 256
    let q := s.uq u
    (q.packet = none →
      exec .launchPacket s = .next s ∧ exec .cancelPacket s = .next s ∧ exec .barrierPacket s = .next s) ∧
    ∀ ws, q.packet = some ws →
      let kind := bitsOf (ws.getD 0 0) 7 4
      let a := bitsOf (ws.getD 1 0) 51 0
      let hw := (s.te q.die).queue q.hwq
      let ended (i : Instr) (w : State) (status : Nat) : Prop := exec i s = .next (w.endPacket u status)
      (kind ≠ 1 → badPacket ws = false → exec .launchPacket s = .next s) ∧
      (kind ≠ 2 → exec .cancelPacket s = .next s) ∧ (kind ≠ 3 → exec .barrierPacket s = .next s) ∧
      (badPacket ws = true →
        (kind ≠ 2 → kind ≠ 3 → ended .launchPacket s 1) ∧ (kind = 2 → ended .cancelPacket s 1) ∧
        (kind = 3 → ended .barrierPacket s 1)) ∧
      (badPacket ws = false →
        (kind = 1 → a % 256 ≠ 0 ∨ inBerm q.die a 256 = false → ended .launchPacket s 2) ∧
        (kind = 1 → a % 256 = 0 → inBerm q.die a 256 = true →
          (bitsOf hw.cfg 63 63 = 0 → ended .launchPacket s 3) ∧
          (bitsOf hw.cfg 63 63 = 1 → 64 ≤ hw.pending.length ∨ (∀ e, e < 4096 → look e s.host.launches ≠ none) →
            exec .launchPacket s = .next s) ∧
          (bitsOf hw.cfg 63 63 = 1 → hw.pending.length < 64 → ∀ e, e < 4096 → look e s.host.launches = none →
            (∀ f, f < e → look f s.host.launches ≠ none) → ∃ t, exec .launchPacket s = .next t ∧
              (t.uq u).rptr = (q.rptr + 1) % 2 ^ 32 ∧ (look e t.host.launches).map (·.retired) = some false ∧
              ((t.te q.die).queue q.hwq).pending.map (·.addr) = hw.pending.map (·.addr) ++ [a])) ∧
        (kind = 2 → ∃ w status, (status = 0 ∨ status = 4) ∧ ended .cancelPacket w status) ∧
        (kind = 3 → a ≠ 0 → a % 16 ≠ 0 ∨ reservedAddr a = true → ended .barrierPacket s 2) ∧
        (kind = 3 → a = 0 ∨ (a % 16 = 0 ∧ reservedAddr a = false) →
          let open_ := ∃ e ∈ s.host.launches, e.2.user = u ∧ e.2.retired = false
          let die := if paModule a = 0 then paDie a else q.die
          (open_ → exec .barrierPacket s = .next s) ∧
          (¬ open_ → bitsOf (ws.getD 2 0) 63 63 = 0 →
            ended .barrierPacket (s.decrement die a) 0) ∧
          (∀ v, ¬ open_ → packetIrq ws = some v →
            (q.sent = none → s.signalSent die a = none →
              ended .barrierPacket (if s.signalLost die a then s.decrement die a else (s.decrement die a).sendMsi v) 0) ∧
            (∀ id, q.sent = none → s.signalSent die a = some id →
              exec .barrierPacket s = .next ((s.decrement die a).setUq u { q with sent := some id })) ∧
            (∀ id, q.sent = some id → look id s.reqs ≠ none → exec .barrierPacket s = .next s) ∧
            (∀ id, q.sent = some id → look id s.reqs = none → ended .barrierPacket (s.sendMsi v) 0))))

/-- A retired launch sends the interrupt that its packet asked for, and its entry frees; after a decrement at another module it
waits for the reply of the home (R441). -/
def Claims.LaunchInterrupts : Prop :=
  ∀ s : State,
    let e := s.inp.getD 0 0
    let freed := { s with host := { s.host with launches := unput e s.host.launches } }
    (look e s.host.launches = none → exec .launchInterrupt s = .next s) ∧
    ∀ x, look e s.host.launches = some x →
      (x.retired = false → exec .launchInterrupt s = .next s) ∧
      let replied := ∀ id, x.after = some id → look id s.reqs = none
      (x.retired = true → ¬ replied → exec .launchInterrupt s = .next s) ∧
      (x.retired = true → replied → x.irq = none → exec .launchInterrupt s = .next freed) ∧
      (∀ v, x.retired = true → replied → x.irq = some v → exec .launchInterrupt s = .next (freed.sendMsi v)) ∧
    ∀ v,
      (s.host.linkUp = false → s.sendMsi v = { s with host := { s.host with hestat := satAdd s.host.hestat 31 16 1 } }) ∧
      (s.host.linkUp = true → s.host.masked v = false →
        s.sendMsi v = { s with host := { s.host with messages := s.host.messages ++ [v] } }) ∧
      (s.host.linkUp = true → s.host.masked v = true → v ∈ (s.sendMsi v).host.msixPending ∧
        (s.sendMsi v).host.messages = s.host.messages)

/-- Host memory: a write is made and acknowledged, in clear or as a sector under the context's key, a read waits for its
completion, a context that is not bound has an address error, and over a link that is down nothing is sent; the requests of one
die are taken up in the order in which they left it, and at most 1,024 wait for completions (R383, R391, R424, R442-R444,
R453). -/
def Claims.HostAccesses : Prop :=
  ∀ s : State,
    let id := s.inp.getD 0 0
    let sent (r : Req) : Prop := s.hostReq id = some r ∧ look id s.host.late = none
    (s.hostReq id = none → exec .deviceHostAccess s = .next s ∧ exec .pcieCompletionTimeout s = .next s) ∧
    (∀ r, sent r → r.mark = false →
      exec .hostCompletion s = .next s ∧ exec .pcieCompletionTimeout s = .next s ∧
      (s.expired r = true ∨ s.hostBehind r = true → exec .deviceHostAccess s = .next s)) ∧
    (∀ r, sent r → r.mark = false → s.expired r = false → s.hostBehind r = false →
      (s.host.linkUp = false → exec .deviceHostAccess s = .next { s with host := { s.host with lost := s.host.lost ++ [id] } }) ∧
      (s.host.linkUp = true →
        (s.mgmt.binding r.context = none → exec .deviceHostAccess s = .next (s.deliver id ⟨4, 0, 0⟩)) ∧
        (∀ key, s.mgmt.binding r.context = some key → r.kind ≠ 1 → 1024 ≤ s.hostTags → exec .deviceHostAccess s = .next s) ∧
        (∀ key, s.mgmt.binding r.context = some key → r.kind ≠ 1 → s.hostTags < 1024 →
          exec .deviceHostAccess s = .next { s with reqs := put id { r with mark := true } s.reqs }) ∧
        (∀ key, s.mgmt.binding r.context = some key → r.kind = 1 → exec .deviceHostAccess s =
          .next ((s.hostWrite key r.addr r.len r.data (if 128 ≤ r.op then r.mask else fullMask r.len) r.poison).deliver id
            ⟨0, 0, 0⟩)))) ∧
    (∀ r, sent r → r.mark = true → s.expired r = false →
      exec .deviceHostAccess s = .next s ∧ exec .pcieCompletionTimeout s = .next (s.deliver id ⟨2, 0, 0⟩) ∧
      (s.host.linkUp = true → s.hostBehind r = false →
        (s.inp.getD 1 0 = 1 → exec .hostCompletion s = .next (s.deliver id ⟨4, 0, 0⟩)) ∧
        (s.inp.getD 1 0 = 0 → r.kind ≠ 2 → (s.mgmt.binding r.context).getD none = none →
          exec .hostCompletion s =
            .next (s.deliver id ⟨0, s.readN (128 * (r.addr / 128)) 128 / 2 ^ (8 * (r.addr % 128)) % 2 ^ (8 * r.len),
              s.poisonBits r.addr r.len⟩)))) ∧
    (∀ a data mask, ∀ key, s.MemoryCanonical → a % 128 = 0 →
      let t := s.hostWrite (some key) a 128 data mask 0
      ∀ i, i < 128 → t.openSector (some key) (a / 128) / 256 ^ i % 256 =
        if mask.testBit i then data / 256 ^ i % 256 else s.openSector (some key) (a / 128) / 256 ^ i % 256)

/-- The host link falls and trains again: the requests on it are lost to their requesters' timeouts (R444); a reset of the host
engine keeps the read indexes and the table of launches, and fetches again what it has read, unless the queue fetches no more or
its barrier's decrement is out (R61, R439). -/
def Claims.HostLink : Prop :=
  ∀ s : State,
    (s.host.linkUp = false → exec .hostLinkDown s = .next s) ∧
    (s.host.linkUp = true → ∃ t, exec .hostLinkDown s = .next t ∧ t.host.linkUp = false ∧ t.mem = s.mem ∧ t.reqs = s.reqs ∧
      (∀ id r, s.hostReq id = some r → t.hostReq id = none)) ∧
    (s.mgmt.boot = 0 ∨ s.mgmt.recovery = true →
      exec .hostLinkUp s = .next { s with host := { s.host with linkUp := true } }) ∧
    (s.mgmt.boot ≠ 0 → s.mgmt.recovery = false → exec .hostLinkUp s = .next s) ∧
    (∃ t, exec .hostEngineReset s = .next t ∧ t.host.launches = s.host.launches ∧ t.host.linkUp = s.host.linkUp ∧
      (∀ u q, look u s.host.uqs = some q → look u t.host.uqs =
        some (if q.enabled = true ∧ q.sent = none then { q with packet := none } else q)))

/-! ## Management (15 R446-R459) -/

/-- The mailbox runs one command at a time, and every command but IDENTITY, JOURNAL and FWSTAGE has status 3 in recovery; a
request of the wrong shape has status 2 (R446, R450). -/
def Claims.CommandChecks : Prop :=
  ∀ (s : State) (bs : List Nat),
    let bad (i : Instr) (status : Nat) : Prop := exec i s = .next (s.answered s status [])
    let allowed := s.mgmt.recovery = false
    (s.Commanded 1 bs → bs ≠ [] → bad .identity 2) ∧
    (s.Commanded 2 bs → (allowed → bs.length ≠ 32 → bad .attest 2) ∧ (¬ allowed → bad .attest 3)) ∧
    (s.Commanded 6 bs → (allowed → bs.length ≠ 32 → bad .domkey 2) ∧ (¬ allowed → bad .domkey 3)) ∧
    (s.Commanded 7 bs → bs ≠ [0] → bs ≠ [1] → bad .journalRead 2) ∧
    (s.Commanded 8 bs → bs.length ≤ 8 → bad .fwstage 2) ∧
    (s.Commanded 9 bs → bs.getD 1 0 ≠ 1 → (allowed → bs.length ≠ 2 ∨ 16 ≤ bs.headD 0 ∨ bs.getD 1 0 ≠ 0 → bad .fenceDie 2) ∧
      (¬ allowed → bad .fenceDie 3)) ∧
    (s.Commanded 9 bs → bs.getD 1 0 = 1 → (allowed → bs.length ≠ 2 ∨ 16 ≤ bs.headD 0 → bad .unfenceDie 2) ∧
      (¬ allowed → bad .unfenceDie 3)) ∧
    (s.Commanded 10 bs → (allowed → bs.length ≠ 1 ∨ 16 ≤ bs.headD 0 → bad .diereset 2) ∧ (¬ allowed → bad .diereset 3)) ∧
    (s.Commanded 11 bs → (allowed → bs.length ≠ 4 → bad .pwrcap 2) ∧ (¬ allowed → bad .pwrcap 3)) ∧
    (s.contextQuiet (s.mgmt.boundTo (bs.headD 0)) = true →
      (s.Commanded 3 bs → (allowed → bs.length ≠ 65 ∨ 64 ≤ bs.headD 0 → bad .keyset 2) ∧ (¬ allowed → bad .keyset 3)) ∧
      (s.Commanded 4 bs → (allowed → bs.length ≠ 1 ∨ 64 ≤ bs.headD 0 → bad .keyclr 2) ∧ (¬ allowed → bad .keyclr 3))) ∧
    (s.contextQuiet (· = bs.headD 0) = true → s.Commanded 5 bs →
      (allowed → bs.length ≠ 2 ∨ 64 ≤ bs.headD 0 ∨ 66 ≤ bs.getD 1 0 → bad .ctxbind 2) ∧ (¬ allowed → bad .ctxbind 3)) ∧
    (∀ i ∈ [Instr.identity, .attest, .keyset, .keyclr, .ctxbind, .domkey, .journalRead, .journalClear, .fwstage, .fenceDie,
        .unfenceDie, .diereset, .pwrcap, .telem],
      s.inp.headD 0 = 1 → bitsOf s.mgmt.stat 63 63 = 1 → exec i s = .next s) ∧
    (∀ status resp, bitsOf (s.endCommand status resp).mgmt.stat 63 63 = 0 ∧
      bitsOf (s.endCommand status resp).mgmt.stat 55 48 = status % 256 ∧
      (s.endCommand status resp).mgmt.tag = bitsOf s.mgmt.cmd 31 0)

/-- Identity, telemetry and the power cap; keys, bindings and the domain secret (R451, R453, R454, R457, R459); the layouts of the
requests and responses are the model's (log 21). -/
def Claims.CommandsRun : Prop :=
  ∀ (s : State) (bs : List Nat), s.mgmt.recovery = false →
    let m := s.mgmt
    (s.Commanded 1 [] → exec .identity s = .next (s.answered s 0 (natBytes 0x1E57 2 ++ natBytes 0x4C16 2 ++
      natBytes (Config.deviceFact 1) 8 ++ natBytes (Config.deviceFact 2) 1312 ++ natBytes (Config.deviceFact 3) 2420))) ∧
    (s.Commanded 2 bs → bs.length = 32 → ∃ body, exec .attest s =
      .next (s.answered s 0 (body ++ natBytes (signed (textOf body)) 2420)) ∧ body.take 64 = bs ++ natBytes m.meas0 32) ∧
    (s.Commanded 3 bs → s.contextQuiet (m.boundTo (bs.headD 0)) = true → bs.length = 65 → bs.headD 0 < 64 →
      exec .keyset s = .next (s.answered { s with mgmt := { m with keys := put (bs.headD 0) (bytesNat bs.tail) m.keys } } 0 [])) ∧
    (s.Commanded 4 bs → s.contextQuiet (m.boundTo (bs.headD 0)) = true → bs.length = 1 → bs.headD 0 < 64 →
      exec .keyclr s = .next (s.answered { s with mgmt := { m with keys := unput (bs.headD 0) m.keys } } 0 [])) ∧
    (s.Commanded 3 bs → s.contextQuiet (m.boundTo (bs.headD 0)) = false → exec .keyset s = .next s) ∧
    (s.Commanded 4 bs → s.contextQuiet (m.boundTo (bs.headD 0)) = false → exec .keyclr s = .next s) ∧
    (s.Commanded 5 bs → s.contextQuiet (· = bs.headD 0) = true → bs.length = 2 → bs.headD 0 < 64 → risingFrom 0 m.binds = true →
      let c := bs.headD 0
      let b := bs.getD 1 0
      b < 66 → ∃ t, exec .ctxbind s = .next (s.answered t 0 []) ∧
        t.mgmt.binding c = (if b = 65 then none else if b = 64 then some none else some (some ((look b m.keys).getD 0))) ∧
        (∀ e, e ≠ c → t.mgmt.binding e = m.binding e) ∧ t.mem = s.mem) ∧
    (s.Commanded 5 bs → s.contextQuiet (· = bs.headD 0) = false → exec .ctxbind s = .next s) ∧
    (s.Commanded 6 bs → bs.length = 32 → ∃ t, exec .domkey s = .next (s.answered t 0 []) ∧ t.mgmt.secret = some (bytesNat bs) ∧
      t.mem = s.mem) ∧
    (s.Commanded 11 bs → bs.length = 4 →
      exec .pwrcap s = .next (s.answered { s with mgmt := { m with pwrcap := bytesNat bs } } 0 [])) ∧
    (s.inp.headD 0 = 1 → bitsOf m.stat 63 63 = 0 → ∃ resp, exec .telem s = .next (s.answered s 0 resp)) ∧
    (s.inp.headD 0 ≠ 1 → s.Commanded 12 [] → ∃ resp, exec .telem s = .next (s.answered s 0 resp))

/-- The journal is read and cleared, firmware is staged piece by piece and verified with the last one (R448, R449); the layouts
are the model's (log 21). -/
def Claims.JournalAndFirmware : Prop :=
  ∀ (s : State) (bs : List Nat),
    let m := s.mgmt
    (s.Commanded 7 [0] → exec .journalRead s = .next (s.answered s 0 m.journalBytes)) ∧
    (s.Commanded 7 [1] → ∃ t, exec .journalClear s = .next (s.answered t 0 []) ∧ (∀ e ∈ t.mgmt.journal, e.fails = 0) ∧
      (m.boot = 0 → t.mgmt.journal = [])) ∧
    (s.Commanded 8 bs → 8 < bs.length → bs.length ≤ 32520 →
      let off := bytesNat (bs.take 4)
      let total := bytesNat ((bs.drop 4).take 4)
      let piece := bs.drop 8
      let n := off + piece.length
      let staged := (total, Memory.writeN off (bytesNat piece) piece.length (if off = 0 then [] else m.staged.2))
      (total < n → exec .fwstage s = .next (s.answered s 2 [])) ∧
      (n < total → exec .fwstage s =
        .next (s.answered { s with mgmt := { m with staged := staged, verified := false } } 0 [])) ∧
      (n = total → m.imageOk staged = true → ∃ t, exec .fwstage s = .next (s.answered t 0 []) ∧ t.mgmt.staged = staged ∧
        t.mgmt.verified = true ∧ ∀ e ∈ t.mgmt.journal, e.fails = 0) ∧
      (n = total → m.imageOk staged = false → exec .fwstage s =
        .next (s.answered { s with mgmt := { m with staged := staged, verified := false } } 4 [])))

/-- Fencing takes a die out of service, and unfencing lets a later map name it; a die reset empties a fenced die's memory and
registers (R458). -/
def Claims.FencedDies : Prop :=
  ∀ (s : State) (bs : List Nat) (d : Nat), s.mgmt.recovery = false → d < 16 →
    (s.Commanded 9 bs → bs = [d, 0] → ∃ t, exec .fenceDie s = .next (s.answered t 0 []) ∧ d ∈ t.mgmt.fenced ∧
      (d ∉ s.mgmt.fenced → (t.die d).live = false) ∧ (∀ e, e < 16 → (t.die e).gmap = (s.die e).gmap)) ∧
    (s.Commanded 9 bs → bs = [d, 1] → exec .unfenceDie s =
      .next (s.answered { s with mgmt := { s.mgmt with fenced := s.mgmt.fenced.filter (· ≠ d) } } 0 [])) ∧
    (s.Commanded 10 bs → bs = [d] →
      (d ∉ s.mgmt.fenced → exec .diereset s = .next (s.answered s 3 [])) ∧
      (d ∈ s.mgmt.fenced → ∃ t, exec .diereset s = .next (s.answered t 0 []) ∧ d ∉ t.mgmt.fenced ∧
        t.die d = { Die.reset with cycle0 := s.cycle } ∧ (∀ p, s.MemoryCanonical → t.byteAt (dieAddr d p) = 0 ∨ 2 ^ 44 ≤ p) ∧
        (∀ a, s.MemoryCanonical → paModule a ≠ 0 ∨ paDie a ≠ d → t.byteAt a = s.byteAt a) ∧
        (∀ p, p < 64 → t.crew? d p = none)))

/-- Boot: the step in progress ends well or not; the steps of the module go by recovery, those of a die by fencing it, a port
stays dark, an external port that is found shows what it reaches, and after the last the host link is up and the fused minimum
rises; a step that does not end restarts the module, and so does a module reset, which keeps host memory, the journal and the
images (R413, R447-R450, R458). -/
def Claims.Boot : Prop :=
  ∀ s : State,
    let m := s.mgmt
    let k := m.boot
    let ok := s.inp.headD 0 = 1 ∧ (k = 2 → m.imageOk m.image = true)
    (k = 0 → exec .bootStep s = .next s) ∧
    (k ≠ 0 → ∃ t, exec .bootStep s = .next t ∧
      (k = 1 → m.target = 0 → ok → (m.entry 2 0).fails = 0 → t.mgmt.boot = 2 ∧ t.mgmt.recovery = m.recovery) ∧
      (k ≤ 2 → ¬ ok → t.mgmt.recovery = true ∧ t.mgmt.boot = 0 ∧ t.host.linkUp = true) ∧
      (k = 2 → t.mgmt.meas0 = sha3Bytes (Memory.readN m.image.2 0 m.image.1) m.image.1) ∧
      ((k = 3 ∨ k = 4) → m.target < 16 → ¬ ok → m.target ∈ t.mgmt.fenced) ∧
      (k = 5 → ¬ ok → m.target ∈ t.mgmt.dark) ∧
      (k = 6 → look m.target t.sluice.ext =
        if s.inp.headD 0 = 1 then some (BitVec.ofNat 64 (2 ^ 63 + s.inp.getD 1 0 % 128)) else look m.target s.sluice.ext) ∧
      (k = 8 → m.target = 0 → t.host.linkUp = true ∧ t.mgmt.boot = 0 ∧ m.version ≤ t.mgmt.fused)) ∧
    (k = 0 ∨ s.cycle < m.since + 2400000000 → exec .bootWatchdog s = .next s) ∧
    (k ≠ 0 → m.since + 2400000000 ≤ s.cycle → exec .bootWatchdog s = exec .moduleReset s) ∧
    (∃ t, exec .moduleReset s = .next t ∧ t.cycle = s.cycle ∧ t.crews = [] ∧ t.strands = [] ∧
      (s.MemoryCanonical → ∀ a, t.byteAt a = if 8 ≤ paModule a then s.byteAt a else 0) ∧
      t.mgmt.image = (if m.verified then m.staged else m.image) ∧ t.mgmt.fused = m.fused ∧ t.mgmt.keys = [] ∧
      (∀ d, d < 16 → (t.die d).cycle0 = s.cycle))

/-- Power and temperature: a die above 95 °C has its cap halved, down to 300, one above 110 °C is fenced, and a cool one has its
cap raised by 300, while the module is within its power cap (R456-R458); corrected errors are counted, more than 1,024 of one
class within 1 s go into the die's error log, and a word with a double-bit error is poisoned (R55, R455; log 69). -/
def Claims.PowerAndErrors : Prop :=
  (∀ (s : State) (d : Nat), d < 16 → (s.die d).live = true →
    let x := s.die d
    let tenths := s.inp.getD (16 + d) 0
    (List.range 16).foldl (fun acc i => acc + s.inp.getD i 0) 0 ≤ s.mgmt.pwrcap →
    ∃ t, exec .powerThermalTick s = .next t ∧
      (tenths ≤ 950 → look d s.mgmt.hot = none → bitsOf x.mxcap 63 63 = 0 → (t.die d).mxcap = x.mxcap) ∧
      (tenths ≤ 950 → look d s.mgmt.hot = none → bitsOf x.mxcap 63 63 = 1 →
        (t.die d).mxcap = BitVec.ofNat 64 (2 ^ 63 + min 2400 (bitsOf x.mxcap 11 0 + 300))) ∧
      (950 < tenths →
        (t.die d).mxcap = BitVec.ofNat 64 (2 ^ 63 + if 300 < x.cap then max 300 (x.cap / 2) else x.cap)) ∧
      (1100 < tenths → d ∈ t.mgmt.fenced)) ∧
  ∀ s : State, s.cur.die < 16 →
    let die := s.cur.die
    let d := s.die die
    let count := bitsOf d.errCtl 11 0
    let base := bitsOf d.errBase 51 5 * 32
    let room := count ≠ 0 ∧ base ≠ 0 ∧ inBerm die base (32 * count) = true ∧ (d.errHead + 1) % count ≠ bitsOf d.errTail 11 0
    let k := s.inp.getD 0 0
    let q := ((look k d.corrected).getD default).more (s.inp.getD 1 0) s.cycle
    (s.inp.length ≤ 2 → q.2 = false →
      exec .correctedErrorThreshold s = .next (s.setDie die { d with corrected := put k q.1 d.corrected })) ∧
    (∀ a ∈ s.inp.drop 2, a < dieAddr die 0x400000000 ∨ dieAddr die 0x41BC00000 ≤ a →
      ∃ t, exec .correctedErrorThreshold s = .next t ∧ a / 8 ∈ t.poison) ∧
    (s.inp.length ≤ 2 → q.2 = true → ∃ t, exec .correctedErrorThreshold s = .next t ∧
      (t.die die).corrected = put k q.1 d.corrected ∧
      (room → (t.die die).errHead = (d.errHead + 1) % count ∧ (t.die die).errDrop = d.errDrop ∧
        (s.MemoryCanonical → t.byteAt (base + 32 * d.errHead + 7) = 5)) ∧
      (¬ room → (t.die die).errHead = d.errHead ∧ (t.die die).errDrop = min (d.errDrop + 1) (2 ^ 32 - 1) ∧ t.mem = s.mem)) ∧
    ∀ (e : ArrayErrors) (n now : Nat), 0 < e.count → now < e.since + microseconds 1000000 →
      (e.more n now).1.total = e.total + n ∧ ((e.more n now).2 = true ↔ 1024 < e.count + n)

/-! ## Frames -/

/-- A word of the integer, branch, loop, token, system-read or vector blocks changes nothing but its own strand: no byte of
memory, no other strand, no crew and no die. That holds too where it waits, passes by, or takes a trap. -/
def Claims.StrandWordsFrame : Prop :=
  ∀ (i : Instr) (s t : State), strandOnly i = true → s.cur.rot = false → exec i s = .next t → OnlyStrand s t

/-- Within its strand, a read of a register changes at most one queue, a write only the register or the queue it goes to, the
tokens only their counts, and the retirement of a word no register (R23, R24, R74, R75, R89). -/
def Claims.RegisterFrames : Prop :=
  ∀ (s t : State), s.cur.rot = false →
    let st := s.strand s.cur
    let only (u : Strand) : Prop := t.strand s.cur = u ∧ OnlyStrand s t
    (∀ r v, readReg r s = .ok (v, t) → ∃ a b c, only { st with qAX := a, qXA := b, qXD := c }) ∧
    (∀ r v, writeReg r v s = .ok t →
      (s.cur.str = .a → ∃ rs q, only { st with a := { st.a with regs := rs }, qAX := q } ∧
        ∀ k : Fin 32, k.val ≠ r.toNat → rs.get k = st.a.regs.get k) ∧
      (s.cur.str = .x → ∃ rs p q, only { st with x := { st.x with regs := rs }, qXA := p, qXD := q } ∧
        ∀ k : Fin 32, k.val ≠ r.toNat → rs.get k = st.x.regs.get k) ∧
      (s.cur.str = .d → ∃ rs, only { st with d := { st.d with regs := rs } } ∧
        ∀ k : Fin 32, k.val ≠ r.toNat → rs.get k = st.d.regs.get k)) ∧
    (∀ r v, readVec r s = .ok (v, t) → ∃ p a b, only { st with p := p, vAX0 := a, vAX1 := b } ∧ (r.toNat < 28 → p = st.p)) ∧
    (∀ r v, writeVec r v s = .ok t → ∃ vs a b, only { st with v := vs, vXD0 := a, vXD1 := b } ∧
      ∀ k : Fin 28, k.val ≠ r.toNat → vs.get k = st.v.get k) ∧
    (∀ p x, writePred p x s = t → ∃ ps, only { st with p := ps } ∧ ∀ k : Fin 12, k.val ≠ p → ps.get k = st.p.get k) ∧
    (∀ tk, takeTokens tk s = .ok t ∨ giveTokens tk s = .ok t →
      ∃ a b c d, only { st with tokAX := a, tokXA := b, tokXD := c, tokDX := d }) ∧
    (∀ n, s.retire n = t → ∃ x, only (st.set s.cur.str x) ∧ x.regs = (st.get s.cur.str).regs ∧
      x.spillSp = (st.get s.cur.str).spillSp ∧ x.ovPtr = (st.get s.cur.str).ovPtr)

/-! ## Memory and reset -/

/-- Every step keeps memory in its canonical form: addresses strictly rising, and no entry that equals what an unlisted address
reads as. -/
def Claims.StepsKeepMemoryCanonical : Prop :=
  ∀ s t : State, s.MemoryCanonical → step s = .next t → t.MemoryCanonical

/-- A whole 8-byte word written with good data loses its poison, a word written in part keeps it, and one that is not written
too (R55; log 15). -/
def Claims.WritesClearPoison : Prop :=
  ∀ (s : State) (a v n w : Nat),
    (w ∈ (s.writeN a v n).poison ↔ w ∈ s.poison ∧ ¬ (a ≤ 8 * w ∧ 8 * w + 8 ≤ a + n)) ∧
    (∀ mask, w ∈ (s.writeMasked a v mask n).poison ↔
      w ∈ s.poison ∧ ¬ (a ≤ 8 * w ∧ 8 * w + 8 ≤ a + n ∧ mask / 2 ^ (8 * w - a) % 256 = 255))

/-- The machine right after reset: memory lists nothing, no crew and no strand is there, and the registers have the values of
their Reset columns (R64, R152, R258, R335, R352, R405, R413, R430). -/
def Claims.ResetState : Prop :=
  State.reset.MemoryCanonical ∧ State.reset.mem = [] ∧ State.reset.crews = [] ∧ State.reset.strands = [] ∧
    (∀ d, d < 16 → State.reset.dieReg d 0x1000 = 1 ∧ State.reset.dieReg d 0x1008 = 0x80000064 ∧
      State.reset.dieReg d 0x1010 = 0x800000000000012C ∧ State.reset.dieReg d 0x2020 = 64 ∧ State.reset.dieReg d 0x3000 = 100 ∧
      State.reset.dieReg d 0x5000 = 0x00000100000C0200 ∧ State.reset.dieReg d 0x5100 = 0x0000100000000001) ∧
    State.reset.readHost 0 = some 0 ∧ State.reset.readSluice 8 = some 200 ∧ State.reset.mgmt.pwrcap = 5300 ∧
    State.reset.mgmt.boot = 1 ∧ State.reset.host.linkUp = false

/-! ## Rules stated whole -/

/-- TRAP imm raises cause 0x02 in the named stream with the zero-extended immediate as TRAPINFO, and the other streams pass it by
(R95). -/
def Claims.TrapWord : Prop :=
  ∀ (sf : BitVec 2) (imm : BitVec 13),
    (sf ≠ 0 → ∀ sys, decode (.polder sys) (BitVec.ofNat 32 (0x60000000 + sf.toNat * 0x800000 + imm.toNat)) none =
      .ok (.trap sf imm) 1) ∧
    ∀ s : State, s.runs = true → s.replyDue = none → s.cur.rot = false →
      (namedBy sf s.cur.str = true → exec (.trap sf imm) s = .next (s.takeTrap 0x02 (BitVec.ofNat 64 imm.toNat)) ∧
        ((s.strand s.cur).trapMode = false → (s.strand s.cur).trapEntry ≠ 0 →
          let u := (s.takeTrap 0x02 (BitVec.ofNat 64 imm.toNat)).strand s.cur
          u.trapInfo.toNat = imm.toNat ∧ bitsOf u.trapCause 7 0 = 0x02 ∧ bitsOf u.trapCause 15 14 = Str.code s.cur.str)) ∧
      (namedBy sf s.cur.str = false → exec (.trap sf imm) s = .next (s.passBy 1 markNone))

/-- VSEL writes every element: from va where the selector's bit is 1, and from vb where it is 0; a selector of 15 is illegal with
reason 3 (R168). -/
def Claims.VectorSelect : Prop :=
  ∀ (tk : BitVec 4) (width : BitVec 2) (vd va vb : BitVec 5) (pn : BitVec 4),
    (∀ (s s0 s1 s2 : State) (x y : Vec), XWord s tk s0 → readVec va s0 = .ok (x, s1) → readVec vb s1 = .ok (y, s2) →
      let w := 4 * 2 ^ width.toNat
      ∃ r, WritesVec (.vsel tk width vd va vb pn) s tk vd r s2 ∧
        ∀ i, i < 4096 / w → lane w i r = if (readPred pn.toNat s0).getLsbD i then lane w i x else lane w i y) ∧
    (let word := 0xBA000000 + tk.toNat * 0x200000 + width.toNat * 0x80000 + vd.toNat * 0x4000 + va.toNat * 0x200 + vb.toNat * 0x10
     vd.toNat < 28 ∨ 30 ≤ vd.toNat → va.toNat < 30 → vb.toNat < 30 → ∀ sys,
      (pn.toNat < 12 → decode (.polder sys) (BitVec.ofNat 32 (word + pn.toNat)) none = .ok (.vsel tk width vd va vb pn) 1) ∧
      decode (.polder sys) (BitVec.ofNat 32 (word + 15)) none = .illegal (BitVec.ofNat 32 (word + 15)) 3 1)

/-- VHIST adds to each of 128 bins of 32 bits the number of active elements that hold the bin's number (R183). -/
def Claims.VectorHistogram : Prop :=
  ∀ (tk : BitVec 4) (vd va vb : BitVec 5) (pn : BitVec 4),
    (∀ (s s0 s1 s2 : State) (x y : Vec), XWord s tk s0 → readVec va s0 = .ok (x, s1) → readVec vb s1 = .ok (y, s2) →
      let active (i : Nat) : Bool := pn = 15 || (readPred pn.toNat s0).getLsbD i
      ∃ r, WritesVec (.vhist tk vd va vb pn) s tk vd r s2 ∧
        ∀ b, b < 128 → lane 32 b r = (lane 32 b y + ((List.range 128).filter fun i => active i && lane 32 i x = b).length) % 2 ^ 32) ∧
    (let word := 0xC8000000 + tk.toNat * 0x200000 + vd.toNat * 0x4000 + va.toNat * 0x200 + vb.toNat * 0x10 + pn.toNat
     vd.toNat < 28 ∨ 30 ≤ vd.toNat → va.toNat < 30 → vb.toNat < 30 → pn.toNat < 12 ∨ pn.toNat = 15 → ∀ sys,
      decode (.polder sys) (BitVec.ofNat 32 word) none = .ok (.vhist tk vd va vb pn) 1)

/-! ## The obligations -/

/-- Decoding the encoded words of any legal instruction gives it back, whatever its operands (R66-R73, R195). -/
def Obligations.DecodeOfEncodeIsTheInstruction : Prop :=
  Claims.DecodeOfEncode

/-- Words written out from the encodings decode to the instructions they stand for (R66-R73). -/
def Obligations.WrittenOutWordsDecode : Prop :=
  Claims.EncodedWords

/-- Unallocated majors are illegal, and blocks belong to their executors (R71-R73, R353). -/
def Obligations.IllegalEncodings : Prop :=
  Claims.ReservedMajorsAreIllegal ∧
    Claims.BlocksOfTheirExecutors

/-- A step fetches, decodes and runs the word at the pc, or performs the event whose turn it is (R4, R60, R70, R73, R87, R189,
R307). -/
def Obligations.StepRunsTheDecodedWord : Prop :=
  Claims.StepRunsTheDecodedWord ∧
    Claims.StepTakesIllegalWords ∧
    Claims.SameCycleFaults ∧
    Claims.StepPerformsTheEvent ∧
    Claims.FetchReadsTheText

/-- TRAP raises cause 0x02 in the named stream with its immediate as detail (R95). -/
def Obligations.TrapWordRaisesItsCause : Prop :=
  Claims.TrapWord

/-- VSEL takes each element from one source or the other, and needs a selector (R168). -/
def Obligations.VectorSelectTakesEachElement : Prop :=
  Claims.VectorSelect

/-- VHIST counts the active elements that hold each bin number (R183). -/
def Obligations.VectorHistogramCounts : Prop :=
  Claims.VectorHistogram

/-- Integer words write their results and retire (R83, R84). -/
def Obligations.IntegerArithmeticResults : Prop :=
  Claims.RegisterArithmetic ∧
    Claims.ImmediateArithmetic

/-- Registers, ports and tokens: what a read or a write does, and all that it changes (R23, R24, R74, R75, R78, R89). -/
def Obligations.RegistersReadAndWrite : Prop :=
  Claims.RegisterReads ∧
    Claims.RegisterWrites ∧
    Claims.RegisterFrames

/-- Branches are evaluated in one stream and followed by the others (R78, R86, R88). -/
def Obligations.BranchesShareTheirOutcome : Prop :=
  Claims.ConditionalBranches ∧
    Claims.FollowedBranches ∧
    Claims.BranchQueues

/-- Jumps and calls, their targets, and the loops they leave (R87, R90). -/
def Obligations.TransfersOfControl : Prop :=
  Claims.UnconditionalTransfers ∧
    Claims.MisalignedJumpTargets ∧
    Claims.TransfersLeaveLoops

/-- Loop words open levels, and a loop end goes round or on (R22, R89). -/
def Obligations.HardwareLoops : Prop :=
  Claims.LoopWords ∧
    Claims.LoopTraps ∧
    Claims.CountQueue ∧
    Claims.LoopEndStep

/-- Streams pass by the words of others, and wait for tokens and at a fence (R18-R20, R24, R25, R89, R93). -/
def Obligations.StreamsPassByAndWait : Prop :=
  Claims.PassedByWords ∧
    Claims.TokensHold ∧
    Claims.FenceHolds

/-- PUSH and POP move registers to the spill stack and back (R94, R140). -/
def Obligations.SpillStackKeepsRegisters : Prop :=
  Claims.PushAndPop ∧
    Claims.SpillStack ∧
    Claims.PopReturnsThePush

/-- Trap entry sets aside and starts the handler (R64, R65, R70, R73, R82, R95, R96, R307, R352, R353). -/
def Obligations.TrapsEnterTheirHandler : Prop :=
  Claims.SoftwareTrap ∧
    Claims.TrapEntry ∧
    Claims.IllegalWordsTrap ∧
    Claims.RotationTraps ∧
    Claims.WatchdogTraps

/-- TOK, EXIT, FENCE.X and ERET complete: tokens move, the stream ends, the fence opens, the program resumes (R24, R53, R92,
R93, R97, R99, R353). -/
def Obligations.ControlWordsComplete : Prop :=
  Claims.ExplicitTokens ∧
    Claims.ExitEndsTheStream ∧
    Claims.FenceReleases ∧
    Claims.ReturnFromTrap

/-- SYSR and SYSW by stream and register (R79, R98). -/
def Obligations.SystemRegistersReadAndWrite : Prop :=
  Claims.SystemRegisterReads ∧
    Claims.SystemRegisterWrites

/-- Vector integer words write every active element (R162, R164-R168). -/
def Obligations.VectorIntegerResults : Prop :=
  Claims.VectorIntegerArithmetic ∧
    Claims.VectorBitOperations ∧
    Claims.VectorShiftsAndUnary

/-- Floating-point words compute exactly and round once (R162, R163, R169, R172, R173, R178). -/
def Obligations.FloatingPointResults : Prop :=
  Claims.VectorFloatingPoint ∧
    Claims.SpecialFunctions ∧
    Claims.ScalarFloatingPoint

/-- Compares and predicate words write their predicates (R170, R171). -/
def Obligations.PredicateWordResults : Prop :=
  Claims.PredicateWords

/-- Conversions between number formats and of DX blocks (R174, R177). -/
def Obligations.ConversionResults : Prop :=
  Claims.Conversions ∧
    Claims.BlockVectors

/-- Broadcasts, extracts, permutations and reductions (R175, R176). -/
def Obligations.DataMovementResults : Prop :=
  Claims.DataMovement ∧
    Claims.Reductions

/-- The post-processing words and pushes into the count queue (R179, R181-R184). -/
def Obligations.PostProcessingResults : Prop :=
  Claims.PostProcessing ∧
    Claims.CountPushes

/-- Scalar loads through handles, and where a handle traps (R4, R44, R53, R57, R127, R130, R131). -/
def Obligations.ScalarLoadsAndHandleChecks : Prop :=
  Claims.LocalReads ∧
    Claims.ScalarLoads ∧
    Claims.HandleChecks

/-- Vector loads issue, complete in order and push their elements (R128, R132-R137). -/
def Obligations.VectorLoadsFillTheirQueues : Prop :=
  Claims.VectorAddresses ∧
    Claims.VectorLoadsIssue ∧
    Claims.VectorLoadsComplete ∧
    Claims.ScratchpadLoads

/-- Handles are made, tested and moved, and requests end in time (R139-R146, R152). -/
def Obligations.HandlesAndRequesters : Prop :=
  Claims.HandleWords ∧
    Claims.RequestsAndQueries ∧
    Claims.RequesterTimers

/-- Load streams are bound, fetch and push (R147-R150). -/
def Obligations.LoadStreamsPush : Prop :=
  Claims.LoadStreams ∧
    Claims.LoadStreamFetch

/-- Copy words complete: each enters its command, and CCANCEL and CSTAT answer (R194-R198, R205, R207-R212, R218, R219). -/
def Obligations.CopyWordsEnterCommands : Prop :=
  Claims.CopyWords ∧
    Claims.OtherCopyWords ∧
    Claims.CopyQueries

/-- Copy commands are checked, start in order, land their units, suspend and end (R39, R198, R202, R212, R213, R216, R219,
R220). -/
def Obligations.CopyCommandsMoveTheirUnits : Prop :=
  Claims.CopyEntries ∧
    Claims.CopyChecks ∧
    Claims.CopyStarts ∧
    Claims.CopyUnits ∧
    Claims.CopyStops

/-- Matrix words enter products and control commands and move tiles (R185, R187, R195, R225, R240-R243). -/
def Obligations.MatrixWordsEnterProducts : Prop :=
  Claims.ProductWords ∧
    Claims.MatrixControlWords ∧
    Claims.MatrixWaitsAndPairs ∧
    Claims.TileWords

/-- Matrix commands acquire a tile, step through slabs and retire (R195, R228, R233, R234, R238, R240-R244, R247-R249, R251). -/
def Obligations.MatrixCommandsAccumulate : Prop :=
  Claims.MatrixStarts ∧
    Claims.TileAcquires ∧
    Claims.MatrixSteps ∧
    Claims.MatrixRetires ∧
    Claims.MatrixHandoffAndReset

/-- What atomics, barriers, counters, semaphores and signals do at the home (R255, R257-R259, R261, R263-R266, R269). -/
def Obligations.SyncObjectsAtTheirHomes : Prop :=
  Claims.SyncChecks ∧
    Claims.AtomicsPerform ∧
    Claims.BarriersAndCounters ∧
    Claims.SemaphoresAndSignals ∧
    Claims.WaiterEntries

/-- Sync words send their commands and complete or trap (R25, R91, R256, R259-R265, R267, R269, R382). -/
def Obligations.SyncWordsComplete : Prop :=
  Claims.TagWaits ∧
    Claims.ReturningSyncWords ∧
    Claims.QueuedSyncWords ∧
    Claims.ContinuationWaits ∧
    Claims.SyncReplies

/-- Queued commands leave, waiters time out, and triggers are taken (R260, R262, R264, R266, R270, R273, R297, R313). -/
def Obligations.SyncEngineEvents : Prop :=
  Claims.SyncCommandsSend ∧
    Claims.SyncEngineEvents ∧
    Claims.TriggersTaken

/-- Stores write the bytes that their addresses name, and no others (R4, R37, R277-R282, R285, R288, R300, R301, R305). -/
def Obligations.StoresWriteTheirBytes : Prop :=
  Claims.StoreChecks ∧
    Claims.StoresWriteMemory ∧
    Claims.StoreWords ∧
    Claims.RetiredReleases ∧
    Claims.ScratchpadStores

/-- Drain streams, DRAIN and the claim words (R283, R284, R286, R287, R289-R299). -/
def Obligations.DrainStreamsWriteVectors : Prop :=
  Claims.DrainStreams ∧
    Claims.Drains ∧
    Claims.DrainedElements ∧
    Claims.ClaimWords

/-- Tasks are spawned, joined and checked (R322, R323, R326-R329). -/
def Obligations.SpawnAndJoin : Prop :=
  Claims.SpawnWords ∧
    Claims.SpawnAnswers ∧
    Claims.TaskWords

/-- Hardware queues, cancelled jobs and request registers (R313, R329, R330). -/
def Obligations.QueuesJobsAndRequests : Prop :=
  Claims.QueuesAndCancelPoints ∧
    Claims.JobCancels ∧
    Claims.RequestWords

/-- Launch records are checked, rejected or admitted (R306, R310, R313, R314, R316, R319). -/
def Obligations.RecordsAreAdmitted : Prop :=
  Claims.Admissions ∧
    Claims.RecordChecks ∧
    Claims.LaunchesEnter

/-- Tasks are dispatched, gangs start together, and launches retire (R14, R77, R99, R262, R267, R307, R309, R311-R315, R319,
R332). -/
def Obligations.GangsRunAndRetire : Prop :=
  Claims.Dispatching ∧
    Claims.GangStarts ∧
    Claims.Ends ∧
    Claims.RunsFreeTheirPolders ∧
    Claims.LaunchesRetire

/-- Signals, graph nodes and the issue ramp (R309, R316-R318, R334, R440, R456). -/
def Obligations.SignalsGraphsAndRamp : Prop :=
  Claims.Signals ∧
    Claims.GraphNodes ∧
    Claims.IssueRamp

/-- Task engine reset, registers and pre-emption (R61, R330, R335, R337, R338, R340, R341). -/
def Obligations.TaskEngineControl : Prop :=
  Claims.TaskEngineResets ∧
    Claims.TaskRegisterEvents ∧
    Claims.Preemption ∧
    Claims.PreemptionStops

/-- The words of the rotation program (R355-R363). -/
def Obligations.RotationWords : Prop :=
  Claims.SegmentWords ∧
    Claims.KeepingWords ∧
    Claims.RingControlWords

/-- Segments arrive and go on, and the ring holds, repairs and resumes (R344-R347, R349, R352, R353, R357, R362, R366, R369,
R370, R372). -/
def Obligations.RingEngineEvents : Prop :=
  Claims.SegmentsArrive ∧
    Claims.SegmentEvents ∧
    Claims.RingRecords ∧
    Claims.RingHolds ∧
    Claims.RotationProgram

/-- Translation entries are written and cleared, and their holders told (R139, R143, R144, R389, R392-R394). -/
def Obligations.TranslationsAndTheirHolders : Prop :=
  Claims.TranslationWrites ∧
    Claims.Invalidations

/-- Packets go the shorter way round, wait, and are set aside (R381, R382, R384-R387). -/
def Obligations.PacketsFindTheirWay : Prop :=
  Claims.PacketsAreSlots ∧
    Claims.Routes ∧
    Claims.PacketsComeIn ∧
    Claims.SetAsideQueues

/-- Links send, accept, replay, rotate keys, train lanes and relock (R376-R381, R384-R386, R395-R400, R407, R454). -/
def Obligations.LinksCarryFlits : Prop :=
  Claims.FlitsSent ∧
    Claims.FlitsOpen ∧
    Claims.FlitsReceived ∧
    Claims.Lanes ∧
    Claims.KeysAndRelocks

/-- FXFILL, FKEY and FLANE complete with their answers (R402-R404). -/
def Obligations.FabricWordsComplete : Prop :=
  Claims.FabricWords

/-- Requests are performed at their homes and responses matched (R44, R61, R382, R388-R392, R407, R453). -/
def Obligations.FabricRequestsAndResponses : Prop :=
  Claims.RequestsServed ∧
    Claims.WritesAtHome ∧
    Claims.ResponsesTaken ∧
    Claims.FabricResets

/-- A proposed map is checked, drained, relocked and published as one (R413-R420). -/
def Obligations.GroupMapsArePublished : Prop :=
  Claims.MapRequests ∧
    Claims.MapDrains ∧
    Claims.MapsPublished

/-- The configuration header, the BARs, and what a register takes of a write (R460, R393, R425-R429, R433, R437, R445). -/
def Obligations.HostReachesRegistersAndMemory : Prop :=
  Claims.ConfigurationHeader ∧
    Claims.BarReads ∧
    Claims.BarWrites ∧
    Claims.RegistersWritten

/-- User queues are notified, fetched, and their packets run (R393, R432, R434-R441, R444, R445). -/
def Obligations.UserQueuesRunPackets : Prop :=
  Claims.UserQueues ∧
    Claims.UserPackets ∧
    Claims.LaunchInterrupts

/-- Accesses of dies to host memory, and the link that carries them (R61, R383, R391, R424, R439, R442-R444, R453). -/
def Obligations.HostMemoryAccesses : Prop :=
  Claims.HostAccesses ∧
    Claims.HostLink

/-- The commands of the mailbox and of the management port (R446, R448-R451, R453, R454, R457, R459). -/
def Obligations.ManagementCommandsAnswer : Prop :=
  Claims.CommandChecks ∧
    Claims.CommandsRun ∧
    Claims.JournalAndFirmware

/-- Fencing, die reset, boot and module reset; the power and thermal tick and the error log (R55, R413, R447-R450, R455-R458).
-/
def Obligations.FencingBootPowerAndErrors : Prop :=
  Claims.FencedDies ∧
    Claims.Boot ∧
    Claims.PowerAndErrors

/-- Every event of an engine comes to a next state from every state: none is a fault or is refused (R65, R149, R213, R228, R240,
R270, R286, R335, R366, R378, R412, R443). -/
def Obligations.EngineEventsComplete : Prop :=
  Claims.EventsComplete

/-- Register, branch and vector words change nothing but their own strand (R18-R25, R83-R98, R160-R184). -/
def Obligations.StrandWordsChangeOnlyTheirStrand : Prop :=
  Claims.StrandWordsFrame

/-- Every step keeps memory in its canonical form (R40-R44). The canonical form is the model's own (log 4). -/
def Obligations.StepsKeepMemoryCanonical : Prop :=
  Claims.StepsKeepMemoryCanonical

/-- A word written whole with good data loses its poison, and no other (R55). That a word written in part keeps its poison is
the model's choice (log 15). -/
def Obligations.GoodDataReplacesPoison : Prop :=
  Claims.WritesClearPoison

/-- What reset leaves: empty canonical memory, no crew, and the registers at their reset values (R64, R152, R258, R335, R352,
R405, R413, R430). -/
def Obligations.ResetStateIsAsStated : Prop :=
  Claims.ResetState
end

