-- ==== Sys2Proof/Laws/Tables.lean ====
section
/-! SUPPORT. Tables of keys and values: what a look-up finds after a change, and that changes keep the keys rising. -/

namespace Sys2Proof.Machine

variable {α : Type}

@[simp] theorem look_put_self (k : Nat) (a : α) (l : List (Nat × α)) : look k (put k a l) = some a := by
  induction l with
  | nil => simp [put, look]
  | cons e r ih => simp only [put]; split <;> [simp [look]; (split <;> simp_all [look])]

theorem look_put_other {k j : Nat} (h : k ≠ j) (a : α) (l : List (Nat × α)) : look j (put k a l) = look j l := by
  induction l with
  | nil => simp [put, look, h]
  | cons e r ih =>
    simp only [put]
    split
    · simp [look, h]
    · split
      · rename_i h2; simp [look, h, h2]
      · simp [look, ih]

@[simp] theorem put_put_self (k : Nat) (a b : α) (l : List (Nat × α)) : put k b (put k a l) = put k b l := by
  induction l with
  | nil => simp [put]
  | cons e r ih => simp only [put]; split <;> [simp [put]; (split <;> simp_all [put])]

theorem risingFrom_mono {lo lo' : Nat} (h : lo' ≤ lo) : ∀ l : List (Nat × α), risingFrom lo l = true → risingFrom lo' l = true
  | [], _ => rfl
  | (j, _) :: r, hr => by
    simp only [risingFrom, Bool.and_eq_true, decide_eq_true_eq] at hr ⊢
    exact ⟨by omega, hr.2⟩

/-- A change keeps the keys of a table strictly rising. -/
theorem risingFrom_put {lo k : Nat} (hk : lo ≤ k) (a : α) : ∀ l : List (Nat × α), risingFrom lo l = true → risingFrom lo (put k a l) = true
  | [], _ => by simp [put, risingFrom, hk]
  | (j, b) :: r, hr => by
    simp only [risingFrom, Bool.and_eq_true, decide_eq_true_eq] at hr
    simp only [put]
    split
    · simp only [risingFrom, Bool.and_eq_true, decide_eq_true_eq]; exact ⟨hk, by omega, hr.2⟩
    · split
      · rename_i h2; subst h2; simp only [risingFrom, Bool.and_eq_true, decide_eq_true_eq]; exact hr
      · simp only [risingFrom, Bool.and_eq_true, decide_eq_true_eq]
        exact ⟨hr.1, risingFrom_put (by omega) a r hr.2⟩

theorem risingFrom_unput {lo : Nat} (k : Nat) : ∀ l : List (Nat × α), risingFrom lo l = true → risingFrom lo (unput k l) = true
  | [], _ => rfl
  | (j, b) :: r, hr => by
    simp only [risingFrom, Bool.and_eq_true, decide_eq_true_eq] at hr
    simp only [unput]
    split
    · exact risingFrom_mono (by omega) r hr.2
    · simp only [risingFrom, Bool.and_eq_true, decide_eq_true_eq]; exact ⟨hr.1, risingFrom_unput k r hr.2⟩

theorem look_of_rising {lo k : Nat} (h : k < lo) : ∀ l : List (Nat × α), risingFrom lo l = true → look k l = none
  | [], _ => rfl
  | (j, b) :: r, hr => by
    simp only [risingFrom, Bool.and_eq_true, decide_eq_true_eq] at hr
    simp only [look]
    rw [if_neg (by omega)]
    exact look_of_rising (by omega) r hr.2

/-- Where the keys rise, a removed key is gone. -/
theorem look_unput_self {lo : Nat} (k : Nat) : ∀ l : List (Nat × α), risingFrom lo l = true → look k (unput k l) = none
  | [], _ => rfl
  | (j, b) :: r, hr => by
    simp only [risingFrom, Bool.and_eq_true, decide_eq_true_eq] at hr
    simp only [unput]
    split
    · rename_i h; subst h; exact look_of_rising (by omega) r hr.2
    · rename_i h; simp only [look, if_neg h]; exact look_unput_self k r hr.2

theorem look_unput_other {k j : Nat} (h : k ≠ j) (l : List (Nat × α)) : look j (unput k l) = look j l := by
  induction l with
  | nil => rfl
  | cons e r ih =>
    simp only [unput]
    split
    · rename_i h2; simp [look, h2, h]
    · simp [look, ih]

end Sys2Proof.Machine
end

