-- ==== Sys2Proof/Laws/State.lean ====
section
/-! SUPPORT. The state after an update, field by field: no later proof unfolds a record update. -/

namespace Sys2Proof.Machine

/-! ## A die, a crew, a strand, memory -/

@[simp] theorem State.setDie_cycle (s : State) (d : Nat) (x : Die) : (s.setDie d x).cycle = s.cycle := rfl
@[simp] theorem State.setDie_turns (s : State) (d : Nat) (x : Die) : (s.setDie d x).turns = s.turns := rfl
@[simp] theorem State.setDie_turnNo (s : State) (d : Nat) (x : Die) : (s.setDie d x).turnNo = s.turnNo := rfl
@[simp] theorem State.setDie_fresh (s : State) (d : Nat) (x : Die) : (s.setDie d x).fresh = s.fresh := rfl
@[simp] theorem State.setDie_cur (s : State) (d : Nat) (x : Die) : (s.setDie d x).cur = s.cur := rfl
@[simp] theorem State.setDie_inp (s : State) (d : Nat) (x : Die) : (s.setDie d x).inp = s.inp := rfl
@[simp] theorem State.setDie_mem (s : State) (d : Nat) (x : Die) : (s.setDie d x).mem = s.mem := rfl
@[simp] theorem State.setDie_poison (s : State) (d : Nat) (x : Die) : (s.setDie d x).poison = s.poison := rfl
@[simp] theorem State.setDie_crews (s : State) (d : Nat) (x : Die) : (s.setDie d x).crews = s.crews := rfl
@[simp] theorem State.setDie_strands (s : State) (d : Nat) (x : Die) : (s.setDie d x).strands = s.strands := rfl
@[simp] theorem State.setDie_dies (s : State) (d : Nat) (x : Die) : (s.setDie d x).dies = s.dies.setIfInBounds d x := rfl
@[simp] theorem State.setDie_reqs (s : State) (d : Nat) (x : Die) : (s.setDie d x).reqs = s.reqs := rfl
@[simp] theorem State.setDie_reqNo (s : State) (d : Nat) (x : Die) : (s.setDie d x).reqNo = s.reqNo := rfl
@[simp] theorem State.setDie_tagGen (s : State) (d : Nat) (x : Die) : (s.setDie d x).tagGen = s.tagGen := rfl
@[simp] theorem State.setDie_tagRest (s : State) (d : Nat) (x : Die) : (s.setDie d x).tagRest = s.tagRest := rfl
@[simp] theorem State.setDie_host (s : State) (d : Nat) (x : Die) : (s.setDie d x).host = s.host := rfl
@[simp] theorem State.setDie_ringOut (s : State) (d : Nat) (x : Die) : (s.setDie d x).ringOut = s.ringOut := rfl
@[simp] theorem State.setDie_fabricOut (s : State) (d : Nat) (x : Die) : (s.setDie d x).fabricOut = s.fabricOut := rfl
@[simp] theorem State.setDie_sluice (s : State) (d : Nat) (x : Die) : (s.setDie d x).sluice = s.sluice := rfl
@[simp] theorem State.setDie_mgmt (s : State) (d : Nat) (x : Die) : (s.setDie d x).mgmt = s.mgmt := rfl

@[simp] theorem State.setCrew_cycle (s : State) (d p : Nat) (x : Crew) : (s.setCrew d p x).cycle = s.cycle := rfl
@[simp] theorem State.setCrew_turns (s : State) (d p : Nat) (x : Crew) : (s.setCrew d p x).turns = s.turns := rfl
@[simp] theorem State.setCrew_turnNo (s : State) (d p : Nat) (x : Crew) : (s.setCrew d p x).turnNo = s.turnNo := rfl
@[simp] theorem State.setCrew_fresh (s : State) (d p : Nat) (x : Crew) : (s.setCrew d p x).fresh = s.fresh := rfl
@[simp] theorem State.setCrew_cur (s : State) (d p : Nat) (x : Crew) : (s.setCrew d p x).cur = s.cur := rfl
@[simp] theorem State.setCrew_inp (s : State) (d p : Nat) (x : Crew) : (s.setCrew d p x).inp = s.inp := rfl
@[simp] theorem State.setCrew_mem (s : State) (d p : Nat) (x : Crew) : (s.setCrew d p x).mem = s.mem := rfl
@[simp] theorem State.setCrew_poison (s : State) (d p : Nat) (x : Crew) : (s.setCrew d p x).poison = s.poison := rfl
@[simp] theorem State.setCrew_crews (s : State) (d p : Nat) (x : Crew) : (s.setCrew d p x).crews = put (crewKey d p) x s.crews := rfl
@[simp] theorem State.setCrew_strands (s : State) (d p : Nat) (x : Crew) : (s.setCrew d p x).strands = s.strands := rfl
@[simp] theorem State.setCrew_dies (s : State) (d p : Nat) (x : Crew) : (s.setCrew d p x).dies = s.dies := rfl
@[simp] theorem State.setCrew_reqs (s : State) (d p : Nat) (x : Crew) : (s.setCrew d p x).reqs = s.reqs := rfl
@[simp] theorem State.setCrew_reqNo (s : State) (d p : Nat) (x : Crew) : (s.setCrew d p x).reqNo = s.reqNo := rfl
@[simp] theorem State.setCrew_tagGen (s : State) (d p : Nat) (x : Crew) : (s.setCrew d p x).tagGen = s.tagGen := rfl
@[simp] theorem State.setCrew_tagRest (s : State) (d p : Nat) (x : Crew) : (s.setCrew d p x).tagRest = s.tagRest := rfl
@[simp] theorem State.setCrew_host (s : State) (d p : Nat) (x : Crew) : (s.setCrew d p x).host = s.host := rfl
@[simp] theorem State.setCrew_ringOut (s : State) (d p : Nat) (x : Crew) : (s.setCrew d p x).ringOut = s.ringOut := rfl
@[simp] theorem State.setCrew_fabricOut (s : State) (d p : Nat) (x : Crew) : (s.setCrew d p x).fabricOut = s.fabricOut := rfl
@[simp] theorem State.setCrew_sluice (s : State) (d p : Nat) (x : Crew) : (s.setCrew d p x).sluice = s.sluice := rfl
@[simp] theorem State.setCrew_mgmt (s : State) (d p : Nat) (x : Crew) : (s.setCrew d p x).mgmt = s.mgmt := rfl

@[simp] theorem State.setStrand_cycle (s : State) (c : Ctx) (x : Strand) : (s.setStrand c x).cycle = s.cycle := rfl
@[simp] theorem State.setStrand_turns (s : State) (c : Ctx) (x : Strand) : (s.setStrand c x).turns = s.turns := rfl
@[simp] theorem State.setStrand_turnNo (s : State) (c : Ctx) (x : Strand) : (s.setStrand c x).turnNo = s.turnNo := rfl
@[simp] theorem State.setStrand_fresh (s : State) (c : Ctx) (x : Strand) : (s.setStrand c x).fresh = s.fresh := rfl
@[simp] theorem State.setStrand_cur (s : State) (c : Ctx) (x : Strand) : (s.setStrand c x).cur = s.cur := rfl
@[simp] theorem State.setStrand_inp (s : State) (c : Ctx) (x : Strand) : (s.setStrand c x).inp = s.inp := rfl
@[simp] theorem State.setStrand_mem (s : State) (c : Ctx) (x : Strand) : (s.setStrand c x).mem = s.mem := rfl
@[simp] theorem State.setStrand_poison (s : State) (c : Ctx) (x : Strand) : (s.setStrand c x).poison = s.poison := rfl
@[simp] theorem State.setStrand_crews (s : State) (c : Ctx) (x : Strand) : (s.setStrand c x).crews = s.crews := rfl
@[simp] theorem State.setStrand_strands (s : State) (c : Ctx) (x : Strand) : (s.setStrand c x).strands = put (strandKey c.die c.polder c.strand) x s.strands := rfl
@[simp] theorem State.setStrand_dies (s : State) (c : Ctx) (x : Strand) : (s.setStrand c x).dies = s.dies := rfl
@[simp] theorem State.setStrand_reqs (s : State) (c : Ctx) (x : Strand) : (s.setStrand c x).reqs = s.reqs := rfl
@[simp] theorem State.setStrand_reqNo (s : State) (c : Ctx) (x : Strand) : (s.setStrand c x).reqNo = s.reqNo := rfl
@[simp] theorem State.setStrand_tagGen (s : State) (c : Ctx) (x : Strand) : (s.setStrand c x).tagGen = s.tagGen := rfl
@[simp] theorem State.setStrand_tagRest (s : State) (c : Ctx) (x : Strand) : (s.setStrand c x).tagRest = s.tagRest := rfl
@[simp] theorem State.setStrand_host (s : State) (c : Ctx) (x : Strand) : (s.setStrand c x).host = s.host := rfl
@[simp] theorem State.setStrand_ringOut (s : State) (c : Ctx) (x : Strand) : (s.setStrand c x).ringOut = s.ringOut := rfl
@[simp] theorem State.setStrand_fabricOut (s : State) (c : Ctx) (x : Strand) : (s.setStrand c x).fabricOut = s.fabricOut := rfl
@[simp] theorem State.setStrand_sluice (s : State) (c : Ctx) (x : Strand) : (s.setStrand c x).sluice = s.sluice := rfl
@[simp] theorem State.setStrand_mgmt (s : State) (c : Ctx) (x : Strand) : (s.setStrand c x).mgmt = s.mgmt := rfl

@[simp] theorem State.writeN_cycle (s : State) (a v n : Nat) : (s.writeN a v n).cycle = s.cycle := rfl
@[simp] theorem State.writeN_turns (s : State) (a v n : Nat) : (s.writeN a v n).turns = s.turns := rfl
@[simp] theorem State.writeN_turnNo (s : State) (a v n : Nat) : (s.writeN a v n).turnNo = s.turnNo := rfl
@[simp] theorem State.writeN_fresh (s : State) (a v n : Nat) : (s.writeN a v n).fresh = s.fresh := rfl
@[simp] theorem State.writeN_cur (s : State) (a v n : Nat) : (s.writeN a v n).cur = s.cur := rfl
@[simp] theorem State.writeN_inp (s : State) (a v n : Nat) : (s.writeN a v n).inp = s.inp := rfl
@[simp] theorem State.writeN_mem (s : State) (a v n : Nat) : (s.writeN a v n).mem = Memory.writeN a v n s.mem := rfl
@[simp] theorem State.writeN_poison (s : State) (a v n : Nat) : (s.writeN a v n).poison = if s.poison.isEmpty then [] else clearPoison a n s.poison := rfl
@[simp] theorem State.writeN_crews (s : State) (a v n : Nat) : (s.writeN a v n).crews = s.crews := rfl
@[simp] theorem State.writeN_strands (s : State) (a v n : Nat) : (s.writeN a v n).strands = s.strands := rfl
@[simp] theorem State.writeN_dies (s : State) (a v n : Nat) : (s.writeN a v n).dies = s.dies := rfl
@[simp] theorem State.writeN_reqs (s : State) (a v n : Nat) : (s.writeN a v n).reqs = s.reqs := rfl
@[simp] theorem State.writeN_reqNo (s : State) (a v n : Nat) : (s.writeN a v n).reqNo = s.reqNo := rfl
@[simp] theorem State.writeN_tagGen (s : State) (a v n : Nat) : (s.writeN a v n).tagGen = s.tagGen := rfl
@[simp] theorem State.writeN_tagRest (s : State) (a v n : Nat) : (s.writeN a v n).tagRest = s.tagRest := rfl
@[simp] theorem State.writeN_host (s : State) (a v n : Nat) : (s.writeN a v n).host = s.host := rfl
@[simp] theorem State.writeN_ringOut (s : State) (a v n : Nat) : (s.writeN a v n).ringOut = s.ringOut := rfl
@[simp] theorem State.writeN_fabricOut (s : State) (a v n : Nat) : (s.writeN a v n).fabricOut = s.fabricOut := rfl
@[simp] theorem State.writeN_sluice (s : State) (a v n : Nat) : (s.writeN a v n).sluice = s.sluice := rfl
@[simp] theorem State.writeN_mgmt (s : State) (a v n : Nat) : (s.writeN a v n).mgmt = s.mgmt := rfl

/-! ## A stream of a strand -/

@[simp] theorem Strand.set_v (st : Strand) (k : Str) (x : Stream) : (st.set k x).v = st.v := by cases k <;> rfl
@[simp] theorem Strand.set_p (st : Strand) (k : Str) (x : Stream) : (st.set k x).p = st.p := by cases k <;> rfl
@[simp] theorem Strand.set_h (st : Strand) (k : Str) (x : Stream) : (st.set k x).h = st.h := by cases k <;> rfl
@[simp] theorem Strand.set_qAX (st : Strand) (k : Str) (x : Stream) : (st.set k x).qAX = st.qAX := by cases k <;> rfl
@[simp] theorem Strand.set_qXA (st : Strand) (k : Str) (x : Stream) : (st.set k x).qXA = st.qXA := by cases k <;> rfl
@[simp] theorem Strand.set_qXD (st : Strand) (k : Str) (x : Stream) : (st.set k x).qXD = st.qXD := by cases k <;> rfl
@[simp] theorem Strand.set_vAX0 (st : Strand) (k : Str) (x : Stream) : (st.set k x).vAX0 = st.vAX0 := by cases k <;> rfl
@[simp] theorem Strand.set_vAX1 (st : Strand) (k : Str) (x : Stream) : (st.set k x).vAX1 = st.vAX1 := by cases k <;> rfl
@[simp] theorem Strand.set_vXD0 (st : Strand) (k : Str) (x : Stream) : (st.set k x).vXD0 = st.vXD0 := by cases k <;> rfl
@[simp] theorem Strand.set_vXD1 (st : Strand) (k : Str) (x : Stream) : (st.set k x).vXD1 = st.vXD1 := by cases k <;> rfl
@[simp] theorem Strand.set_bq (st : Strand) (k : Str) (x : Stream) : (st.set k x).bq = st.bq := by cases k <;> rfl
@[simp] theorem Strand.set_cq (st : Strand) (k : Str) (x : Stream) : (st.set k x).cq = st.cq := by cases k <;> rfl
@[simp] theorem Strand.set_cqBase (st : Strand) (k : Str) (x : Stream) : (st.set k x).cqBase = st.cqBase := by cases k <;> rfl
@[simp] theorem Strand.set_tokAX (st : Strand) (k : Str) (x : Stream) : (st.set k x).tokAX = st.tokAX := by cases k <;> rfl
@[simp] theorem Strand.set_tokXA (st : Strand) (k : Str) (x : Stream) : (st.set k x).tokXA = st.tokXA := by cases k <;> rfl
@[simp] theorem Strand.set_tokXD (st : Strand) (k : Str) (x : Stream) : (st.set k x).tokXD = st.tokXD := by cases k <;> rfl
@[simp] theorem Strand.set_tokDX (st : Strand) (k : Str) (x : Stream) : (st.set k x).tokDX = st.tokDX := by cases k <;> rfl
@[simp] theorem Strand.set_trapEntry (st : Strand) (k : Str) (x : Stream) : (st.set k x).trapEntry = st.trapEntry := by cases k <;> rfl
@[simp] theorem Strand.set_trapCause (st : Strand) (k : Str) (x : Stream) : (st.set k x).trapCause = st.trapCause := by cases k <;> rfl
@[simp] theorem Strand.set_trapInfo (st : Strand) (k : Str) (x : Stream) : (st.set k x).trapInfo = st.trapInfo := by cases k <;> rfl
@[simp] theorem Strand.set_trapMode (st : Strand) (k : Str) (x : Stream) : (st.set k x).trapMode = st.trapMode := by cases k <;> rfl
@[simp] theorem Strand.set_setAside (st : Strand) (k : Str) (x : Stream) : (st.set k x).setAside = st.setAside := by cases k <;> rfl
@[simp] theorem Strand.set_ldstat (st : Strand) (k : Str) (x : Stream) : (st.set k x).ldstat = st.ldstat := by cases k <;> rfl
@[simp] theorem Strand.set_ldstatpc (st : Strand) (k : Str) (x : Stream) : (st.set k x).ldstatpc = st.ldstatpc := by cases k <;> rfl
@[simp] theorem Strand.set_ls0 (st : Strand) (k : Str) (x : Stream) : (st.set k x).ls0 = st.ls0 := by cases k <;> rfl
@[simp] theorem Strand.set_ls1 (st : Strand) (k : Str) (x : Stream) : (st.set k x).ls1 = st.ls1 := by cases k <;> rfl
@[simp] theorem Strand.set_cplast (st : Strand) (k : Str) (x : Stream) : (st.set k x).cplast = st.cplast := by cases k <;> rfl
@[simp] theorem Strand.set_xctl (st : Strand) (k : Str) (x : Stream) : (st.set k x).xctl = st.xctl := by cases k <;> rfl
@[simp] theorem Strand.set_srX (st : Strand) (k : Str) (x : Stream) : (st.set k x).srX = st.srX := by cases k <;> rfl
@[simp] theorem Strand.set_srD (st : Strand) (k : Str) (x : Stream) : (st.set k x).srD = st.srD := by cases k <;> rfl
@[simp] theorem Strand.set_syncstat (st : Strand) (k : Str) (x : Stream) : (st.set k x).syncstat = st.syncstat := by cases k <;> rfl
@[simp] theorem Strand.set_syncQ (st : Strand) (k : Str) (x : Stream) : (st.set k x).syncQ = st.syncQ := by cases k <;> rfl
@[simp] theorem Strand.set_waitc (st : Strand) (k : Str) (x : Stream) : (st.set k x).waitc = st.waitc := by cases k <;> rfl
@[simp] theorem Strand.set_ststat (st : Strand) (k : Str) (x : Stream) : (st.set k x).ststat = st.ststat := by cases k <;> rfl
@[simp] theorem Strand.set_ststatAddr (st : Strand) (k : Str) (x : Stream) : (st.set k x).ststatAddr = st.ststatAddr := by cases k <;> rfl
@[simp] theorem Strand.set_ds0 (st : Strand) (k : Str) (x : Stream) : (st.set k x).ds0 = st.ds0 := by cases k <;> rfl
@[simp] theorem Strand.set_ds1 (st : Strand) (k : Str) (x : Stream) : (st.set k x).ds1 = st.ds1 := by cases k <;> rfl
@[simp] theorem Strand.set_fault (st : Strand) (k : Str) (x : Stream) : (st.set k x).fault = st.fault := by cases k <;> rfl
@[simp] theorem Strand.set_reply (st : Strand) (k : Str) (x : Stream) : (st.set k x).reply = st.reply := by cases k <;> rfl
@[simp] theorem Strand.set_replyD (st : Strand) (k : Str) (x : Stream) : (st.set k x).replyD = st.replyD := by cases k <;> rfl
@[simp] theorem Strand.set_written0 (st : Strand) (k : Str) (x : Stream) : (st.set k x).written0 = st.written0 := by cases k <;> rfl
@[simp] theorem Strand.set_written1 (st : Strand) (k : Str) (x : Stream) : (st.set k x).written1 = st.written1 := by cases k <;> rfl
@[simp] theorem Strand.set_rels (st : Strand) (k : Str) (x : Stream) : (st.set k x).rels = st.rels := by cases k <;> rfl
@[simp] theorem Strand.set_load (st : Strand) (k : Str) (x : Stream) : (st.set k x).load = st.load := by cases k <;> rfl
@[simp] theorem Strand.get_set_self (st : Strand) (k : Str) (x : Stream) : (st.set k x).get k = x := by cases k <;> rfl
theorem Strand.get_set_other (st : Strand) {k j : Str} (h : k ≠ j) (x : Stream) : (st.set k x).get j = st.get j := by
  cases k <;> cases j <;> first | rfl | exact absurd rfl h
@[simp] theorem Strand.set_set_self (st : Strand) (k : Str) (x y : Stream) : (st.set k x).set k y = st.set k y := by cases k <;> rfl

/-! ## A stream that goes on -/

@[simp] theorem Stream.advance_regs (st : Stream) (n : Nat) : (st.advance n).regs = st.regs := rfl
@[simp] theorem Stream.transfer_regs (st : Stream) (t : Word) : (st.transfer t).regs = st.regs := rfl
@[simp] theorem Stream.advance_cqPos (st : Stream) (n : Nat) : (st.advance n).cqPos = st.cqPos := rfl
@[simp] theorem Stream.transfer_cqPos (st : Stream) (t : Word) : (st.transfer t).cqPos = st.cqPos := rfl
@[simp] theorem Stream.advance_spillSp (st : Stream) (n : Nat) : (st.advance n).spillSp = st.spillSp := rfl
@[simp] theorem Stream.transfer_spillSp (st : Stream) (t : Word) : (st.transfer t).spillSp = st.spillSp := rfl
@[simp] theorem Stream.advance_ovBase (st : Stream) (n : Nat) : (st.advance n).ovBase = st.ovBase := rfl
@[simp] theorem Stream.transfer_ovBase (st : Stream) (t : Word) : (st.transfer t).ovBase = st.ovBase := rfl
@[simp] theorem Stream.advance_ovPtr (st : Stream) (n : Nat) : (st.advance n).ovPtr = st.ovPtr := rfl
@[simp] theorem Stream.transfer_ovPtr (st : Stream) (t : Word) : (st.transfer t).ovPtr = st.ovPtr := rfl
@[simp] theorem Stream.advance_ovLimit (st : Stream) (n : Nat) : (st.advance n).ovLimit = st.ovLimit := rfl
@[simp] theorem Stream.transfer_ovLimit (st : Stream) (t : Word) : (st.transfer t).ovLimit = st.ovLimit := rfl
@[simp] theorem Stream.advance_trapPc (st : Stream) (n : Nat) : (st.advance n).trapPc = st.trapPc := rfl
@[simp] theorem Stream.transfer_trapPc (st : Stream) (t : Word) : (st.transfer t).trapPc = st.trapPc := rfl
@[simp] theorem Stream.advance_trapResume (st : Stream) (n : Nat) : (st.advance n).trapResume = st.trapResume := rfl
@[simp] theorem Stream.transfer_trapResume (st : Stream) (t : Word) : (st.transfer t).trapResume = st.trapResume := rfl
@[simp] theorem Stream.advance_ended (st : Stream) (n : Nat) : (st.advance n).ended = st.ended := rfl
@[simp] theorem Stream.transfer_ended (st : Stream) (t : Word) : (st.transfer t).ended = st.ended := rfl
@[simp] theorem Stream.advance_marks (st : Stream) (n : Nat) : (st.advance n).marks = st.marks := rfl
@[simp] theorem Stream.transfer_marks (st : Stream) (t : Word) : (st.transfer t).marks = st.marks := rfl
@[simp] theorem Stream.transfer_pc (st : Stream) (t : Word) : (st.transfer t).pc = t := rfl
@[simp] theorem Stream.advance_seq (st : Stream) (n : Nat) : (st.advance n).seq = st.seq + 1 := rfl
@[simp] theorem Stream.transfer_seq (st : Stream) (t : Word) : (st.transfer t).seq = st.seq + 1 := rfl
@[simp] theorem Stream.advance_wait (st : Stream) (n : Nat) : (st.advance n).wait = none := rfl
@[simp] theorem Stream.transfer_wait (st : Stream) (t : Word) : (st.transfer t).wait = none := rfl

/-! ## Reading back -/

@[simp] theorem State.strand?_setStrand (s : State) (c : Ctx) (x : Strand) : (s.setStrand c x).strand? c = some x := by
  simp [State.strand?]
@[simp] theorem State.strand_setStrand (s : State) (c : Ctx) (x : Strand) : (s.setStrand c x).strand c = x := by
  simp [State.strand]
theorem State.strand_setStrand_other (s : State) {c e : Ctx}
    (h : strandKey c.die c.polder c.strand ≠ strandKey e.die e.polder e.strand) (x : Strand) :
    (s.setStrand c x).strand e = s.strand e := by
  simp [State.strand, State.strand?, look_put_other h]
@[simp] theorem State.setStrand_setStrand (s : State) (c : Ctx) (x y : Strand) : (s.setStrand c x).setStrand c y = s.setStrand c y := by
  simp [State.setStrand]
@[simp] theorem State.crew?_setCrew (s : State) (d p : Nat) (x : Crew) : (s.setCrew d p x).crew? d p = some x := by
  simp [State.crew?]
@[simp] theorem State.crew_setCrew (s : State) (d p : Nat) (x : Crew) : (s.setCrew d p x).crew d p = x := by
  simp [State.crew]
@[simp] theorem State.crew_setStrand (s : State) (c : Ctx) (x : Strand) (d p : Nat) : (s.setStrand c x).crew d p = s.crew d p := rfl
@[simp] theorem State.crew_setDie (s : State) (e : Nat) (x : Die) (d p : Nat) : (s.setDie e x).crew d p = s.crew d p := rfl
@[simp] theorem State.crew_writeN (s : State) (a v n d p : Nat) : (s.writeN a v n).crew d p = s.crew d p := rfl
@[simp] theorem State.strand_setCrew (s : State) (d p : Nat) (x : Crew) (c : Ctx) : (s.setCrew d p x).strand c = s.strand c := rfl
@[simp] theorem State.strand_setDie (s : State) (e : Nat) (x : Die) (c : Ctx) : (s.setDie e x).strand c = s.strand c := rfl
@[simp] theorem State.strand_writeN (s : State) (a v n : Nat) (c : Ctx) : (s.writeN a v n).strand c = s.strand c := rfl
@[simp] theorem State.die_setStrand (s : State) (c : Ctx) (x : Strand) (d : Nat) : (s.setStrand c x).die d = s.die d := rfl
@[simp] theorem State.die_setCrew (s : State) (e p : Nat) (x : Crew) (d : Nat) : (s.setCrew e p x).die d = s.die d := rfl
@[simp] theorem State.die_writeN (s : State) (a v n d : Nat) : (s.writeN a v n).die d = s.die d := rfl
theorem State.die_setDie (s : State) {d : Nat} (h : d < 16) (x : Die) : (s.setDie d x).die d = x := by
  simp [State.die, State.setDie, h]
theorem State.die_setDie_other (s : State) {d e : Nat} (h : d ≠ e) (x : Die) : (s.setDie d x).die e = s.die e := by
  simp [State.die, State.setDie, h]

/-! ## The stream an agent runs -/

theorem State.setStream_strand (s : State) {c : Ctx} (h : c.rot = false) (x : Stream) :
    s.setStream c x = s.setStrand c ((s.strand c).set c.str x) := by simp [State.setStream, h]
theorem State.setStream_rotation (s : State) {c : Ctx} (h : c.rot = true) (x : Stream) :
    s.setStream c x = s.setDie c.die { s.die c.die with rotStream := x } := by simp [State.setStream, h]
theorem State.stream_strand (s : State) {c : Ctx} (h : c.rot = false) : s.stream c = (s.strand c).get c.str := by
  simp [State.stream, h]
theorem State.stream_rotation (s : State) {c : Ctx} (h : c.rot = true) : s.stream c = (s.die c.die).rotStream := by
  simp [State.stream, h]

@[simp] theorem State.setStream_cycle (s : State) (c : Ctx) (x : Stream) : (s.setStream c x).cycle = s.cycle := by
  unfold State.setStream; split <;> rfl
@[simp] theorem State.setStream_turns (s : State) (c : Ctx) (x : Stream) : (s.setStream c x).turns = s.turns := by
  unfold State.setStream; split <;> rfl
@[simp] theorem State.setStream_turnNo (s : State) (c : Ctx) (x : Stream) : (s.setStream c x).turnNo = s.turnNo := by
  unfold State.setStream; split <;> rfl
@[simp] theorem State.setStream_fresh (s : State) (c : Ctx) (x : Stream) : (s.setStream c x).fresh = s.fresh := by
  unfold State.setStream; split <;> rfl
@[simp] theorem State.setStream_cur (s : State) (c : Ctx) (x : Stream) : (s.setStream c x).cur = s.cur := by
  unfold State.setStream; split <;> rfl
@[simp] theorem State.setStream_inp (s : State) (c : Ctx) (x : Stream) : (s.setStream c x).inp = s.inp := by
  unfold State.setStream; split <;> rfl
@[simp] theorem State.setStream_mem (s : State) (c : Ctx) (x : Stream) : (s.setStream c x).mem = s.mem := by
  unfold State.setStream; split <;> rfl
@[simp] theorem State.setStream_poison (s : State) (c : Ctx) (x : Stream) : (s.setStream c x).poison = s.poison := by
  unfold State.setStream; split <;> rfl
@[simp] theorem State.setStream_crews (s : State) (c : Ctx) (x : Stream) : (s.setStream c x).crews = s.crews := by
  unfold State.setStream; split <;> rfl
@[simp] theorem State.setStream_reqs (s : State) (c : Ctx) (x : Stream) : (s.setStream c x).reqs = s.reqs := by
  unfold State.setStream; split <;> rfl
@[simp] theorem State.setStream_reqNo (s : State) (c : Ctx) (x : Stream) : (s.setStream c x).reqNo = s.reqNo := by
  unfold State.setStream; split <;> rfl
@[simp] theorem State.setStream_tagGen (s : State) (c : Ctx) (x : Stream) : (s.setStream c x).tagGen = s.tagGen := by
  unfold State.setStream; split <;> rfl
@[simp] theorem State.setStream_tagRest (s : State) (c : Ctx) (x : Stream) : (s.setStream c x).tagRest = s.tagRest := by
  unfold State.setStream; split <;> rfl
@[simp] theorem State.setStream_host (s : State) (c : Ctx) (x : Stream) : (s.setStream c x).host = s.host := by
  unfold State.setStream; split <;> rfl
@[simp] theorem State.setStream_ringOut (s : State) (c : Ctx) (x : Stream) : (s.setStream c x).ringOut = s.ringOut := by
  unfold State.setStream; split <;> rfl
@[simp] theorem State.setStream_fabricOut (s : State) (c : Ctx) (x : Stream) : (s.setStream c x).fabricOut = s.fabricOut := by
  unfold State.setStream; split <;> rfl
@[simp] theorem State.setStream_sluice (s : State) (c : Ctx) (x : Stream) : (s.setStream c x).sluice = s.sluice := by
  unfold State.setStream; split <;> rfl
@[simp] theorem State.setStream_mgmt (s : State) (c : Ctx) (x : Stream) : (s.setStream c x).mgmt = s.mgmt := by
  unfold State.setStream; split <;> rfl

theorem State.setStream_setStream (s : State) {c : Ctx} (h : c.die < 16) (x y : Stream) :
    (s.setStream c x).setStream c y = s.setStream c y := by
  by_cases hc : c.rot = true
  · simp only [State.setStream, hc, if_true, State.die_setDie _ h]
    simp [State.setDie]
  · simp [State.setStream, hc]
theorem State.stream_setStream (s : State) {c : Ctx} (h : c.die < 16) (x : Stream) : (s.setStream c x).stream c = x := by
  by_cases hc : c.rot = true
  · simp [State.setStream, State.stream, hc, State.die_setDie _ h]
  · simp [State.setStream, State.stream, hc]

end Sys2Proof.Machine
end

