-- ==== Sys2Proof/Laws/Links.lean ====
section
/-! SUPPORT. The links of a die after an update, and what the operations of a link leave as it was. -/

namespace Sys2Proof.Machine

/-- A link reads back as it was set. -/
theorem State.link_setLink (s : State) {d : Nat} (h : d < 16) (l : Nat) (x : Link) : (s.setLink d l x).link d l = x := by
  simp [State.setLink, State.link, State.die_setDie _ h, Fin.ofNat, Vector.get_eq_getElem]

/-- Setting a link leaves the links of every other die as they were. -/
theorem State.link_setLink_die (s : State) {d e : Nat} (h : d ≠ e) (l m : Nat) (x : Link) :
    (s.setLink d l x).link e m = s.link e m := by
  simp [State.setLink, State.link, State.die_setDie_other _ h]

@[simp] theorem State.setLink_cycle (s : State) (d l : Nat) (x : Link) : (s.setLink d l x).cycle = s.cycle := rfl
@[simp] theorem State.setLink_mem (s : State) (d l : Nat) (x : Link) : (s.setLink d l x).mem = s.mem := rfl
@[simp] theorem State.setLink_cur (s : State) (d l : Nat) (x : Link) : (s.setLink d l x).cur = s.cur := rfl
@[simp] theorem State.setLink_inp (s : State) (d l : Nat) (x : Link) : (s.setLink d l x).inp = s.inp := rfl
@[simp] theorem State.setLink_mgmt (s : State) (d l : Nat) (x : Link) : (s.setLink d l x).mgmt = s.mgmt := rfl
@[simp] theorem State.setLink_sluice (s : State) (d l : Nat) (x : Link) : (s.setLink d l x).sluice = s.sluice := rfl
@[simp] theorem State.setLink_crews (s : State) (d l : Nat) (x : Link) : (s.setLink d l x).crews = s.crews := rfl
@[simp] theorem State.setLink_strands (s : State) (d l : Nat) (x : Link) : (s.setLink d l x).strands = s.strands := rfl
@[simp] theorem State.setLink_reqs (s : State) (d l : Nat) (x : Link) : (s.setLink d l x).reqs = s.reqs := rfl

@[simp] theorem Link.told_secret (k : Link) (b : Bool) : (k.told b).secret = k.secret := rfl
@[simp] theorem Link.told_replay (k : Link) (b : Bool) : (k.told b).replay = k.replay := rfl
@[simp] theorem Link.told_creditQ (k : Link) (b : Bool) : (k.told b).creditQ = k.creditQ := rfl
@[simp] theorem Link.told_creditS (k : Link) (b : Bool) : (k.told b).creditS = k.creditS := rfl
@[simp] theorem Link.rotate_replay (k : Link) : k.rotate.replay = k.replay := rfl
@[simp] theorem Link.rotate_secret (k : Link) : k.rotate.secret = k.secret := rfl

end Sys2Proof.Machine
end

