-- ==== Sys2Proof/Laws/Memory.lean ====
section
/-! SUPPORT. Memory: what a byte reads as after a write, and that every memory operation keeps the canonical form. -/

namespace Sys2Proof.Machine

open Host

theorem Memory.wfFrom_mono {lo lo' : Nat} (h : lo' ≤ lo) : ∀ m : List Cell, Memory.wfFrom lo m = true → Memory.wfFrom lo' m = true
  | [], _ => rfl
  | (j, b) :: r, hm => by
    simp only [Memory.wfFrom, Bool.and_eq_true, decide_eq_true_eq] at hm ⊢
    exact ⟨⟨by omega, hm.1.2⟩, hm.2⟩

/-- Dropping entries keeps the canonical form. -/
theorem Memory.wfFrom_filter (p : Cell → Bool) : ∀ (lo : Nat) (m : List Cell), Memory.wfFrom lo m = true → Memory.wfFrom lo (m.filter p) = true
  | _, [], _ => rfl
  | lo, (j, b) :: r, hm => by
    simp only [Memory.wfFrom, Bool.and_eq_true, decide_eq_true_eq] at hm
    have ih := Memory.wfFrom_filter p (j + 1) r hm.2
    rw [List.filter_cons]
    split
    · simp only [Memory.wfFrom, Bool.and_eq_true, decide_eq_true_eq]; exact ⟨hm.1, ih⟩
    · exact Memory.wfFrom_mono (by omega) _ ih

theorem Memory.wf_filter (p : Cell → Bool) (m : List Cell) (h : Memory.wf m = true) : Memory.wf (m.filter p) = true :=
  Memory.wfFrom_filter p 0 m h

/-- Entries below `b` followed by entries from `b` on are in order. -/
theorem Memory.wfFrom_append {b : Nat} : ∀ {lo : Nat} (m t : List Cell), Memory.wfFrom lo m = true → (∀ c ∈ m, c.1 < b) → lo ≤ b →
    Memory.wfFrom b t = true → Memory.wfFrom lo (m ++ t) = true
  | _, [], t, _, _, hb, ht => Memory.wfFrom_mono hb t ht
  | lo, (j, x) :: r, t, hm, hlt, hb, ht => by
    simp only [Memory.wfFrom, Bool.and_eq_true, decide_eq_true_eq, List.cons_append] at hm ⊢
    have hj : j < b := hlt (j, x) (by simp)
    exact ⟨hm.1, Memory.wfFrom_append r t hm.2 (fun c hc => hlt c (by simp [hc])) (by omega) ht⟩

theorem Memory.cells_bounds : ∀ (n a v : Nat), ∀ c ∈ Memory.cells a v n, a ≤ c.1 ∧ c.1 < a + n
  | 0, _, _, c, hc => by simp [Memory.cells] at hc
  | n + 1, a, v, c, hc => by
    simp only [Memory.cells] at hc
    split at hc
    · have := Memory.cells_bounds n (a + 1) (v / 256) c hc; omega
    · rcases List.mem_cons.1 hc with rfl | h
      · simp
      · have := Memory.cells_bounds n (a + 1) (v / 256) c h; omega

theorem Memory.wfFrom_cells : ∀ (n a v : Nat), Memory.wfFrom a (Memory.cells a v n) = true
  | 0, _, _ => rfl
  | n + 1, a, v => by
    simp only [Memory.cells]
    have ih := Memory.wfFrom_cells n (a + 1) (v / 256)
    split
    · exact Memory.wfFrom_mono (by omega) _ ih
    · rename_i h
      simp only [Memory.wfFrom, Bool.and_eq_true, decide_eq_true_eq, le_refl, bne_iff_ne, ne_eq, true_and]
      exact ⟨h, ih⟩

theorem Memory.wfFrom_filter_ge {a : Nat} : ∀ {lo : Nat} (m : List Cell), Memory.wfFrom lo m = true →
    Memory.wfFrom a (m.filter fun c => a ≤ c.1) = true
  | _, [], _ => rfl
  | lo, (j, b) :: r, hm => by
    simp only [Memory.wfFrom, Bool.and_eq_true, decide_eq_true_eq] at hm
    rw [List.filter_cons]
    split
    · rename_i h
      simp only [decide_eq_true_eq] at h
      simp only [Memory.wfFrom, Bool.and_eq_true, decide_eq_true_eq]
      exact ⟨⟨h, hm.1.2⟩, Memory.wfFrom_filter _ (j + 1) r hm.2⟩
    · exact Memory.wfFrom_filter_ge r hm.2

/-- A write keeps the canonical form. -/
theorem Memory.wf_writeN (a v n : Nat) (m : List Cell) (h : Memory.wf m = true) : Memory.wf (Memory.writeN a v n m) = true := by
  have h1 : Memory.wfFrom (a + n) (m.filter fun c => a + n ≤ c.1) = true := Memory.wfFrom_filter_ge m h
  have h2 : Memory.wfFrom a (Memory.cells a v n ++ m.filter fun c => a + n ≤ c.1) = true :=
    Memory.wfFrom_append (b := a + n) _ _ (Memory.wfFrom_cells n a v) (fun c hc => (Memory.cells_bounds n a v c hc).2) (by omega) h1
  refine Memory.wfFrom_append (b := a) _ _ (Memory.wf_filter _ m h) (fun c hc => ?_) (by omega) h2
  have := (List.mem_filter.1 hc).2
  simpa using this

theorem Memory.get_append_left {x : Nat} (m t : List Cell) (h : ∀ c ∈ m, c.1 ≠ x) : Memory.get x (m ++ t) = Memory.get x t := by
  induction m with
  | nil => rfl
  | cons c r ih =>
    obtain ⟨j, b⟩ := c
    have h1 : j ≠ x := h (j, b) (by simp)
    simp only [List.cons_append, Memory.get, if_neg h1]
    exact ih fun c hc => h c (by simp [hc])

theorem Memory.get_of_not_mem {x : Nat} (m : List Cell) (h : ∀ c ∈ m, c.1 ≠ x) : Memory.get x m = Memory.unlisted := by
  have := Memory.get_append_left m [] h
  simpa [Memory.get] using this

theorem Memory.get_filter_of {x : Nat} (p : Nat → Bool) (hp : p x = true) (m : List Cell) :
    Memory.get x (m.filter fun c => p c.1) = Memory.get x m := by
  induction m with
  | nil => rfl
  | cons c r ih =>
    obtain ⟨j, b⟩ := c
    rw [List.filter_cons]
    split
    · simp only [Memory.get, ih]
    · rename_i h
      have hj : j ≠ x := by rintro rfl; simp [hp] at h
      simp only [Memory.get, if_neg hj, ih]

theorem Memory.get_append_right {x : Nat} (m t : List Cell) (h : ∀ c ∈ t, c.1 ≠ x) : Memory.get x (m ++ t) = Memory.get x m := by
  induction m with
  | nil => simpa [Memory.get] using Memory.get_of_not_mem t h
  | cons c r ih => obtain ⟨j, b⟩ := c; simp only [List.cons_append, Memory.get, ih]

theorem Memory.get_cells : ∀ (n a v x : Nat), a ≤ x → x < a + n → Memory.get x (Memory.cells a v n) = BitVec.ofNat 8 (v / 256 ^ (x - a))
  | 0, a, v, x, h1, h2 => by omega
  | n + 1, a, v, x, h1, h2 => by
    simp only [Memory.cells]
    by_cases hx : x = a
    · subst hx
      split
      · rename_i h
        rw [Memory.get_of_not_mem _ fun c hc => by have := Memory.cells_bounds n (x + 1) (v / 256) c hc; omega]
        simp [h]
      · simp [Memory.get]
    · have ih := Memory.get_cells n (a + 1) (v / 256) x (by omega) (by omega)
      have e : v / 256 / 256 ^ (x - (a + 1)) = v / 256 ^ (x - a) := by
        rw [Nat.div_div_eq_div_mul, ← Nat.pow_succ', Nat.succ_eq_add_one, show x - (a + 1) + 1 = x - a by omega]
      rw [e] at ih
      split
      · exact ih
      · simp only [Memory.get, if_neg (show a ≠ x by omega)]; exact ih

/-- A byte inside a write reads as the byte written. -/
theorem Memory.get_writeN_in {a v n x : Nat} (h1 : a ≤ x) (h2 : x < a + n) (m : List Cell) :
    Memory.get x (Memory.writeN a v n m) = BitVec.ofNat 8 (v / 256 ^ (x - a)) := by
  unfold Memory.writeN
  rw [Memory.get_append_left, Memory.get_append_right, Memory.get_cells n a v x h1 h2]
  · intro c hc; have := (List.mem_filter.1 hc).2; simp only [decide_eq_true_eq] at this; omega
  · intro c hc; have := (List.mem_filter.1 hc).2; simp only [decide_eq_true_eq] at this; omega

/-- A byte outside a write reads as before. -/
theorem Memory.get_writeN_out {a v n x : Nat} (h : x < a ∨ a + n ≤ x) (m : List Cell) :
    Memory.get x (Memory.writeN a v n m) = Memory.get x m := by
  unfold Memory.writeN
  rcases h with h | h
  · rw [Memory.get_append_right]
    · exact Memory.get_filter_of (fun j => j < a) (by simpa using h) m
    · intro c hc
      rcases List.mem_append.1 hc with hc | hc
      · have := Memory.cells_bounds n a v c hc; omega
      · have := (List.mem_filter.1 hc).2; simp only [decide_eq_true_eq] at this; omega
  · rw [Memory.get_append_left, Memory.get_append_left]
    · exact Memory.get_filter_of (fun j => a + n ≤ j) (by simpa using h) m
    · intro c hc; have := Memory.cells_bounds n a v c hc; omega
    · intro c hc; have := (List.mem_filter.1 hc).2; simp only [decide_eq_true_eq] at this; omega

theorem Memory.gather_eq : ∀ (n a : Nat) (m : List Cell), Memory.wfFrom a m = true → ∀ i < n,
    Memory.gather a n m / 256 ^ i % 256 = (Memory.get (a + i) m).toNat
  | 0, _, _, _, i, hi => by omega
  | n + 1, a, [], _, i, hi => by simp [Memory.gather, Memory.get, Memory.unlisted]
  | n + 1, a, (j, b) :: r, hm, i, hi => by
    simp only [Memory.wfFrom, Bool.and_eq_true, decide_eq_true_eq] at hm
    simp only [Memory.gather]
    by_cases hj : j = a
    · subst hj
      rw [if_pos rfl]
      rcases Nat.eq_zero_or_pos i with rfl | hp
      · simp only [pow_zero, Nat.div_one, add_zero, Memory.get, if_true]
        have := b.isLt; omega
      · obtain ⟨k, rfl⟩ : ∃ k, i = k + 1 := ⟨i - 1, by omega⟩
        have ih := Memory.gather_eq n (j + 1) r hm.2 k (by omega)
        rw [Nat.pow_succ', ← Nat.div_div_eq_div_mul, show (b.toNat + 256 * Memory.gather (j + 1) n r) / 256 = Memory.gather (j + 1) n r by
          have := b.isLt; omega, ih]
        simp only [Memory.get, if_neg (show j ≠ j + (k + 1) by omega)]
        congr 2; omega
    · rw [if_neg hj]
      have hlt : a < j := by omega
      rcases Nat.eq_zero_or_pos i with rfl | hp
      · simp only [pow_zero, Nat.div_one, add_zero, Memory.get, if_neg hj]
        rw [Memory.get_of_not_mem]
        · simp [Memory.unlisted]
        · intro c hc
          have : ∀ (lo : Nat) (l : List Cell), Memory.wfFrom lo l = true → ∀ c ∈ l, lo ≤ c.1 := by
            intro lo l
            induction l generalizing lo with
            | nil => simp
            | cons e t ih =>
              obtain ⟨q, w⟩ := e
              intro hl c hc
              simp only [Memory.wfFrom, Bool.and_eq_true, decide_eq_true_eq] at hl
              rcases List.mem_cons.1 hc with rfl | h
              · exact hl.1.1
              · have := ih (q + 1) hl.2 c h; omega
          have := this _ _ hm.2 c hc
          omega
      · obtain ⟨k, rfl⟩ : ∃ k, i = k + 1 := ⟨i - 1, by omega⟩
        have hm' : Memory.wfFrom (a + 1) ((j, b) :: r) = true := by
          simp only [Memory.wfFrom, Bool.and_eq_true, decide_eq_true_eq]; exact ⟨⟨by omega, hm.1.2⟩, hm.2⟩
        have ih := Memory.gather_eq n (a + 1) ((j, b) :: r) hm' k (by omega)
        rw [Nat.pow_succ', ← Nat.div_div_eq_div_mul, Nat.mul_div_cancel_left _ (by norm_num), ih]
        congr 2; omega

/-- Byte `i` of a read of a memory in canonical form. -/
theorem Memory.readN_byte (m : List Cell) (h : Memory.wf m = true) {a n i : Nat} (hi : i < n) :
    Memory.readN m a n / 256 ^ i % 256 = (Memory.get (a + i) m).toNat := by
  unfold Memory.readN
  rw [Memory.gather_eq n a _ (Memory.wfFrom_filter_ge m h) i hi]
  rw [Memory.get_filter_of (fun j => a ≤ j) (by simp)]

theorem Memory.gather_lt : ∀ (n a : Nat) (m : List Cell), Memory.gather a n m < 256 ^ n
  | 0, _, _ => by simp [Memory.gather]
  | n + 1, a, [] => by simp [Memory.gather]
  | n + 1, a, (j, b) :: r => by
    have hb := b.isLt
    have h1 := Memory.gather_lt n (a + 1) r
    have h2 := Memory.gather_lt n (a + 1) ((j, b) :: r)
    simp only [Memory.gather, Nat.pow_succ']
    split <;> omega

/-- A read of `n` bytes is below 256 to the n. -/
theorem Memory.readN_lt (m : List Cell) (a n : Nat) : Memory.readN m a n < 256 ^ n := Memory.gather_lt n a _

theorem Nat.eq_of_bytes : ∀ (n : Nat) {x y : Nat}, x < 256 ^ n → y < 256 ^ n → (∀ i < n, x / 256 ^ i % 256 = y / 256 ^ i % 256) → x = y
  | 0, x, y, hx, hy, _ => by simp at hx hy; omega
  | n + 1, x, y, hx, hy, h => by
    have h0 := h 0 (by omega)
    simp only [pow_zero, Nat.div_one] at h0
    rw [Nat.pow_succ'] at hx hy
    have ih := Nat.eq_of_bytes n (x := x / 256) (y := y / 256) (by omega) (by omega) fun i hi => by
      have := h (i + 1) (by omega)
      rwa [Nat.pow_succ', ← Nat.div_div_eq_div_mul, ← Nat.div_div_eq_div_mul] at this
    omega

/-- A read of the bytes just written gives the value written (R4). -/
theorem Memory.readN_writeN_self (m : List Cell) (h : Memory.wf m = true) (a v n : Nat) :
    Memory.readN (Memory.writeN a v n m) a n = v % 256 ^ n := by
  refine Nat.eq_of_bytes n (Memory.readN_lt _ _ _) (Nat.mod_lt _ (by positivity)) fun i hi => ?_
  rw [Memory.readN_byte _ (Memory.wf_writeN a v n m h) hi, Memory.get_writeN_in (by omega) (by omega)]
  simp only [BitVec.toNat_ofNat, Nat.add_sub_cancel_left]
  have e : (256 : Nat) ^ n = 256 ^ i * 256 ^ (n - i) := by rw [← pow_add]; congr 1; omega
  rw [e, Nat.mod_mul_right_div_self]
  obtain ⟨k, hk⟩ : ∃ k, n - i = k + 1 := ⟨n - i - 1, by omega⟩
  have e2 : (256 : Nat) ^ (k + 1) = 256 * 256 ^ k := Nat.pow_succ'
  rw [hk, e2, Nat.mod_mul_right_mod]

/-- A read outside a write gives what it gave before (R4). -/
theorem Memory.readN_writeN_other (m : List Cell) (h : Memory.wf m = true) {a v n b k : Nat} (hd : b + k ≤ a ∨ a + n ≤ b) :
    Memory.readN (Memory.writeN a v n m) b k = Memory.readN m b k := by
  refine Nat.eq_of_bytes k (Memory.readN_lt _ _ _) (Memory.readN_lt _ _ _) fun i hi => ?_
  rw [Memory.readN_byte _ (Memory.wf_writeN a v n m h) hi, Memory.readN_byte _ h hi, Memory.get_writeN_out (by omega)]

/-- Storing good data keeps the canonical form. -/
theorem State.writeN_wf (s : State) (a v n : Nat) (h : Memory.wf s.mem = true) : Memory.wf (s.writeN a v n).mem = true :=
  Memory.wf_writeN a v n s.mem h

/-- Storing bytes under a mask keeps the canonical form. -/
theorem State.writeMasked_wf (s : State) (a v mask n : Nat) (h : Memory.wf s.mem = true) : Memory.wf (s.writeMasked a v mask n).mem = true :=
  Memory.wf_writeN _ _ _ _ h

/-- The memory after reset is in the canonical form. -/
theorem State.reset_memory_wf : Memory.wf State.reset.mem = true := rfl

end Sys2Proof.Machine
end

