-- ==== Sys2Proof/Tests/Slice0.lean ====
section
/-! SUPPORT. Tests: terms that the checks refuse, words written out from the encodings, single steps on small states, and states
that meet the hypotheses of the statements. Expected values are worked out by hand from the rules that a section names. -/

open Sys2Proof Sys2Proof.Machine

section

set_option Elab.async false

/-! ## Ill-formed terms: one for each check -/

/-- The checks refuse the term in a polder program of a system strand, for this lowest reason (R73). -/
def Tests.refused (i : Instr) (r : Nat) : Bool := lowestReason (i.reasonsIn (.polder true)) = some r

theorem test_illformed_register_read : Tests.refused (.add 0 1 30 2) 9 = true := by decide
theorem test_illformed_register_write : Tests.refused (.add 3 31 1 2) 9 = true := by decide
theorem test_illformed_all_streams : Tests.refused (.jal 30 0) 9 = true := by decide
theorem test_illformed_evaluator : Tests.refused (.beq 0 0 1 2 0) 8 = true := by decide
theorem test_illformed_scope : Tests.refused (.fenceX 6 1 1) 10 = true := by decide
theorem test_illformed_outward_a : Tests.refused (.ld 8 1 0 2 3 0 0) 5 = true := by decide
theorem test_illformed_outward_d : Tests.refused (.st 4 1 0 2 3) 5 = true := by decide
theorem test_illformed_predicate : Tests.refused (.vadd 0 1 0 1 2 13) 4 = true := by decide
theorem test_illformed_needed_predicate : Tests.refused (.vsel 0 1 0 1 2 15) 3 = true := by decide
theorem test_illformed_mask_predicate : Tests.refused (.vrsum 0 1 2 3 16) 3 = true := by decide
theorem test_illformed_width : Tests.refused (.vcmp 0 0 0 1 1 2 0) 3 = true := by decide
theorem test_illformed_s_source : Tests.refused (.fadd 0 1 30 2) 9 = true := by decide
theorem test_illformed_d_destination : Tests.refused (.claim 0 31 1 2) 9 = true := by decide
theorem test_illformed_vector_source : Tests.refused (.vadd 0 1 0 30 2 15) 9 = true := by decide
theorem test_illformed_vector_destination : Tests.refused (.vadd 0 1 28 1 2 15) 9 = true := by decide
theorem test_illformed_vector_group : Tests.refused (.vqdx 0 0 1 25 2) 9 = true := by decide
theorem test_illformed_ring_port : lowestReason ((Instr.rdrop 1 31).reasonsIn .rotation) = some 9 := by decide
theorem test_illformed_spill_class : Tests.refused (.push 0 1 1) 3 = true := by decide
theorem test_illformed_atomic_order : Tests.refused (.atom 0 1 2 0 0 0 1) 3 = true := by decide
theorem test_illformed_conversion : Tests.refused (.vcvt 0 1 2 11 0 0) 3 = true := by decide
theorem test_illformed_token_word : Tests.refused (.tok 1 8) 5 = true := by decide
theorem test_illformed_empty_fence : Tests.refused (.fenceX 0 0 1) 10 = true := by decide
theorem test_illformed_wide_unsigned_load : Tests.refused (.ld 0 1 0 2 3 1 0) 3 = true := by decide
theorem test_illformed_scalar_copy_port : Tests.refused (.cpy 0 0 1 30 1 2) 9 = true := by decide
theorem test_illformed_merge_operation : Tests.refused (.cmerge 0 9 1 2 3) 2 = true := by decide
theorem test_illformed_shift_amount : Tests.refused (.vslli 0 0 1 2 8) 3 = true := by decide
theorem test_illformed_compare_condition : Tests.refused (.vcmp 0 2 1 1 1 2 4) 3 = true := by decide
theorem test_illformed_quantize_in_place : Tests.refused (.vqdx 0 0 5 8 5) 3 = true := by decide
theorem test_illformed_atomic_operation : Tests.refused (.atom 0 1 2 13 0 0 0) 2 = true := by decide
theorem test_illformed_wide_float_atomic : Tests.refused (.red 0 1 2 10 1 0 0) 3 = true := by decide
theorem test_illformed_acquiring_reduction : Tests.refused (.red 0 1 2 0 0 1 0) 3 = true := by decide
theorem test_illformed_odd_pair : Tests.refused (.acas 0 3 2 0 0 0) 3 = true := by decide
theorem test_illformed_column_of_nibbles : Tests.refused (.stpv 0 0 0 1 1) 3 = true := by decide
theorem test_illformed_drain_registers : Tests.refused (.drain 0 0 1 30 2) 3 = true := by decide
theorem test_illformed_spawn_port : Tests.refused (.spawn 0 30 1 2) 9 = true := by decide
theorem test_illformed_ring_word : Tests.refused (.rdrop 1 2) 6 = true := by decide
theorem test_illformed_fabric_word : lowestReason ((Instr.fkey 0 1 2).reasonsIn (.polder false)) = some 7 := by decide
theorem test_illformed_rotation_stream : lowestReason ((Instr.add 2 1 2 3).reasonsIn .rotation) = some 8 := by decide
theorem test_illformed_event : Tests.refused .moduleReset 1 = true := by decide

/-! ## Decoding -/

/-- A follow-on that is no matrix word makes the pair illegal, and one outside the text leaves it undecided (R70, R195). -/
theorem test_decode_pair : (decode (.polder false) 0b10010000101100110001001000010000 (some 0b10011000000100010001011011000111),
    decode (.polder false) 0b10010000101100110001001000010000 none) =
    (.ok (.cpym 5 0 1 17 4 4 0x981116C7) 2, .noFollow) := by decide +kernel

/-! ## Small states -/

/-- The agent of stream `k` of strand 0 of polder 0 on die 0. -/
def Tests.ctx (k : Str) : Ctx := { die := 0, polder := 0, strand := 0, str := k, rot := false }

/-- Die 0 in service with one strand on its polder 0, changed by `f`, whose stream `k` has the turn. -/
def Tests.on (k : Str) (f : Strand → Strand) : State :=
  let s := { (State.reset.setDie 0 { Die.reset with live := true }).placeStrand (Tests.ctx k) with cur := Tests.ctx k }
  s.setStrand s.cur (f (s.strand s.cur))

/-- Die 0 in service with its rotation program running, changed by `f`. -/
def Tests.rotation (f : Die → Die) : State :=
  let d : Die := { Die.reset with
    live := true, rprunning := true, rptext := BitVec.ofNat 64 (placedText + 2 ^ 52)
    rotStream := { Stream.reset with pc := BitVec.ofNat 64 placedText } }
  { State.reset.setDie 0 (f d) with cur := { Tests.ctx .x with rot := true } }

/-- Die 0 in service with no strand, changed by `f`, and inputs for an event. -/
def Tests.die (inp : List Nat) (f : Die → Die) : State :=
  { State.reset.setDie 0 (f { Die.reset with live := true }) with cur := Tests.ctx .x, inp := inp }

/-- Set registers of a stream. -/
def Tests.regs (rs : List (Nat × Word)) (x : Stream) : Stream :=
  { x with regs := rs.foldl (fun v e => v.setIfInBounds e.1 e.2) x.regs }
def Tests.a (rs : List (Nat × Word)) (st : Strand) : Strand := { st with a := Tests.regs rs st.a }
def Tests.x (rs : List (Nat × Word)) (st : Strand) : Strand := { st with x := Tests.regs rs st.x }
def Tests.d (rs : List (Nat × Word)) (st : Strand) : Strand := { st with d := Tests.regs rs st.d }

/-- A vector of elements of `w` bits, the lowest first. -/
def Tests.vec (w : Nat) (xs : List Nat) : Vec := BitVec.ofNat 4096 (xs.foldr (fun x acc => x + 2 ^ w * acc) 0)

/-- Set vector registers 1 and 2. -/
def Tests.v (x y : Vec) (st : Strand) : Strand := { st with v := (st.v.set 1 x).set 2 y }

/-- The next state of an outcome. -/
def Tests.next (o : Host.Outcome State Fault Refusal) : State :=
  match o with
  | .next s => s
  | .fault _ => State.reset
  | .refused _ => State.reset

/-- Whether an outcome is a next state. -/
def Tests.isNext (o : Host.Outcome State Fault Refusal) : Bool :=
  match o with
  | .next _ => true
  | .fault _ => false
  | .refused _ => false

/-- The value that came of a part of a word. -/
def Tests.ok (r : Res State) : State :=
  match r with
  | .ok s => s
  | .error _ => State.reset

/-- Whether a part of a word came to an end, and whether it gave `v`. -/
def Tests.came {α : Type} (r : Res α) : Bool :=
  match r with
  | .ok _ => true
  | .error _ => false
def Tests.gave {α : Type} [DecidableEq α] (v : α) (r : Res (α × State)) : Bool :=
  match r with
  | .ok (x, _) => x == v
  | .error _ => false
theorem Tests.exists_of_came {α : Type} : {r : Res α} → Tests.came r = true → ∃ t, r = .ok t
  | .ok t, _ => ⟨t, rfl⟩
theorem Tests.exists_of_gave {α : Type} [DecidableEq α] {v : α} : {r : Res (α × State)} → Tests.gave v r = true → ∃ t, r = .ok (v, t)
  | .ok (_, t), h => ⟨t, by rw [eq_of_beq h]⟩

/-- The executing strand, its stream, and register `n` of that stream after an instruction. -/
def Tests.strand (i : Instr) (s : State) : Strand := (Tests.next (exec i s)).strand s.cur
def Tests.stream (i : Instr) (s : State) : Stream := (Tests.next (exec i s)).stream s.cur
def Tests.reg (i : Instr) (n : Nat) (s : State) : Word := (Tests.stream i s).regs.get (Fin.ofNat 32 n)

/-- Register 3 of X after a word, with two values in registers 1 and 2. -/
def Tests.x3 (i : Instr) (p q : Word) : Word := Tests.reg i 3 (Tests.on .x (Tests.x [(1, p), (2, q)]))

/-- The first elements, of `w` bits, of vector register 3 after a word of X, with two vectors in registers 1 and 2. -/
def Tests.v3 (i : Instr) (w n : Nat) (x y : Vec) : List Nat :=
  let r := (Tests.strand i (Tests.on .x (Tests.v x y))).v.get 3
  (List.range n).map fun k => lane w k r

theorem Tests.takeNone (s : State) : takeTokens 0 s = .ok s := rfl
theorem Tests.readRegX (s : State) (r : BitVec 5) (h0 : r ≠ 0) (h1 : r ≠ 31) (h2 : s.cur.rot = false) (h3 : s.cur.str = .x) :
    readReg r s = .ok ((s.stream s.cur).regs.get r.toFin, s) := by
  simp only [readReg, State.stream, Strand.get, if_neg h0, if_neg h1, h2, h3]
  rfl
theorem Tests.readVecOne (s : State) : readVec 1 s = .ok ((s.strand s.cur).v.get 1, s) := rfl
theorem Tests.readVecTwo (s : State) : readVec 2 s = .ok ((s.strand s.cur).v.get 2, s) := rfl

/-! ## Integer words (R83, R84) -/

theorem test_add_wraps : Tests.x3 (.add 2 3 1 2) (-1) 2 = 1 := by decide +kernel
theorem test_sub_borrows : Tests.x3 (.sub 2 3 1 2) 1 2 = 0xFFFFFFFFFFFFFFFF := by decide +kernel
theorem test_and : Tests.x3 (.and 2 3 1 2) 0xFF00FF00 0x0FF00FF0 = 0x0F000F00 := by decide +kernel
theorem test_or : Tests.x3 (.or 2 3 1 2) 0xFF00FF00 0x0FF00FF0 = 0xFFF0FFF0 := by decide +kernel
theorem test_xor : Tests.x3 (.xor 2 3 1 2) 0xFF00FF00 0x0FF00FF0 = 0xF0F0F0F0 := by decide +kernel
theorem test_sll_takes_six_bits : Tests.x3 (.sll 2 3 1 2) 3 65 = 6 := by decide +kernel
theorem test_srl_brings_zeros : Tests.x3 (.srl 2 3 1 2) 0x8000000000000000 63 = 1 := by decide +kernel
theorem test_sra_copies_the_sign : Tests.x3 (.sra 2 3 1 2) 0x8000000000000000 63 = 0xFFFFFFFFFFFFFFFF := by decide +kernel
theorem test_mul_wraps : Tests.x3 (.mul 2 3 1 2) 0x100000001 0x100000001 = 0x200000001 := by decide +kernel
theorem test_mulhu : Tests.x3 (.mulhu 2 3 1 2) (-1) (-1) = 0xFFFFFFFFFFFFFFFE := by decide +kernel
theorem test_mulh_of_minus_one : Tests.x3 (.mulh 2 3 1 2) (-1) (-1) = 0 := by decide +kernel
theorem test_slt_is_signed : Tests.x3 (.slt 2 3 1 2) (-1) 1 = 1 := by decide +kernel
theorem test_sltu_is_unsigned : Tests.x3 (.sltu 2 3 1 2) (-1) 1 = 0 := by decide +kernel
theorem test_min_is_signed : Tests.x3 (.min 2 3 1 2) (-1) 1 = 0xFFFFFFFFFFFFFFFF := by decide +kernel
theorem test_max_is_signed : Tests.x3 (.max 2 3 1 2) (-1) 1 = 1 := by decide +kernel
theorem test_minu_is_unsigned : Tests.x3 (.minu 2 3 1 2) (-1) 1 = 1 := by decide +kernel
theorem test_maxu_is_unsigned : Tests.x3 (.maxu 2 3 1 2) (-1) 1 = 0xFFFFFFFFFFFFFFFF := by decide +kernel
theorem test_addi_extends_the_sign : Tests.x3 (.addi 2 3 1 0x1FFF) 5 0 = 4 := by decide +kernel
theorem test_slti_extends_the_sign : Tests.x3 (.slti 2 3 1 0x1FFF) (-2) 0 = 1 := by decide +kernel
theorem test_andi_extends_with_zeros : Tests.x3 (.andi 2 3 1 0x1FFF) (-1) 0 = 0x1FFF := by decide +kernel
theorem test_ori : Tests.x3 (.ori 2 3 1 0x1000) 1 0 = 0x1001 := by decide +kernel
theorem test_xori : Tests.x3 (.xori 2 3 1 0x1001) 1 0 = 0x1000 := by decide +kernel
theorem test_slli : Tests.x3 (.slli 2 3 1 63) 3 0 = 0x8000000000000000 := by decide +kernel
theorem test_srli : Tests.x3 (.srli 2 3 1 63) (-1) 0 = 1 := by decide +kernel
theorem test_srai : Tests.x3 (.srai 2 3 1 63) 0x8000000000000000 0 = 0xFFFFFFFFFFFFFFFF := by decide +kernel
theorem test_lui : Tests.x3 (.lui 2 3 0x20000) 0 0 = 0xFFFFFFFFC0000000 := by decide +kernel
theorem test_register_zero_discards : Tests.reg (.addi 2 0 0 5) 0 (Tests.on .x id) = 0 := by decide +kernel

/-- The hypotheses of the integer statements. -/
theorem witness_integer_words :
    let s := Tests.on .x (Tests.x [(1, 5), (2, 7)])
    s.Ready (namedBy 2) ∧ readReg 1 s = .ok (5, s) ∧ readReg 2 s = .ok (7, s) :=
  ⟨by and_intros <;> decide +kernel, rfl, rfl⟩
theorem witness_integer_words_of_the_rotation :
    let s := Tests.rotation fun d => { d with rotStream := Tests.regs [(1, 5)] d.rotStream }
    s.Ready (namedBy 1) ∧ readReg 1 s = .ok (5, s) ∧ s.cur.rot = true :=
  ⟨by and_intros <;> decide +kernel, rfl, rfl⟩

/-! ## Registers and ports (R74, R75) -/

theorem test_port_pops : Tests.reg (.addi 2 3 31 0) 3 (Tests.on .x fun st => { st with qAX := [9, 8] }) = 9 := by decide +kernel
theorem test_port_pushes : (Tests.strand (.addi 2 31 0 7) (Tests.on .x fun st => { st with qXD := [4] })).qXD = [4, 7] := by
  decide +kernel
theorem witness_ports :
    (Tests.on .a fun st => { st with qXA := [1] }).cur.str = .a ∧
    ((Tests.on .a fun st => { st with qXA := [1] }).strand (Tests.ctx .a)).qXA = 1 :: [] ∧
    ((Tests.on .x fun st => { st with qAX := [1] }).strand (Tests.ctx .x)).qAX = 1 :: [] ∧
    ((Tests.on .d fun st => { st with qXD := [1] }).strand (Tests.ctx .d)).qXD = 1 :: [] ∧
    ((Tests.on .x id).strand (Tests.ctx .x)).qAX = [] ∧ ((Tests.on .x id).crew 0 0).debug = false ∧
    16 ≤ ((Tests.on .x fun st => { st with qXA := List.replicate 16 0 }).strand (Tests.ctx .x)).qXA.length ∧
    ((Tests.on .x fun st => { st with qXD := List.replicate 15 0 }).strand (Tests.ctx .x)).qXD.length < 16 := by
  decide +kernel
theorem witness_vector_ports :
    (∃ v t, readVec 1 (Tests.on .x id) = .ok (v, t)) ∧ (∃ t, writeVec 30 0 (Tests.on .x id) = .ok t) ∧
    (∃ t, takeTokens 0 (Tests.on .x id) = .ok t) ∧ (∃ t, giveTokens 0 (Tests.on .x id) = .ok t) :=
  ⟨⟨_, _, rfl⟩, ⟨_, rfl⟩, ⟨_, rfl⟩, ⟨_, rfl⟩⟩

/-! ## Branches, transfers and loops (R86-R90) -/

/-- Where the text of the small states begins. -/
def Tests.text : Nat := placedText

theorem test_beq_taken : (Tests.stream (.beq 2 0 1 2 3) (Tests.on .x (Tests.x [(1, 5), (2, 5)]))).pc.toNat = Tests.text + 12 := by
  decide +kernel
theorem test_bne_not_taken : (Tests.stream (.bne 2 0 1 2 3) (Tests.on .x (Tests.x [(1, 5), (2, 5)]))).pc.toNat = Tests.text + 4 := by
  decide +kernel
theorem test_blt_is_signed : (Tests.stream (.blt 2 0 1 2 3) (Tests.on .x (Tests.x [(1, -1), (2, 0)]))).pc.toNat = Tests.text + 12 := by
  decide +kernel
theorem test_bge_is_signed : (Tests.stream (.bge 2 0 1 2 3) (Tests.on .x (Tests.x [(1, -1), (2, 0)]))).pc.toNat = Tests.text + 4 := by
  decide +kernel
theorem test_bltu_is_unsigned : (Tests.stream (.bltu 2 0 1 2 3) (Tests.on .x (Tests.x [(1, -1), (2, 0)]))).pc.toNat = Tests.text + 4 := by
  decide +kernel
theorem test_bgeu_goes_back :
    (Tests.stream (.bgeu 2 31 1 2 0xFF) (Tests.on .x (Tests.x [(1, -1), (2, 0)]))).pc.toNat = Tests.text - 4 := by decide +kernel
theorem test_bpany_not_taken : (Tests.stream (.bpany 0 1 3) (Tests.on .x id)).pc.toNat = Tests.text + 4 := by decide +kernel
theorem test_bpnone_taken : (Tests.stream (.bpnone 0 1 3) (Tests.on .x id)).pc.toNat = Tests.text + 12 := by decide +kernel
theorem test_branch_outcome_is_shared :
    (Tests.strand (.beq 2 0 1 2 3) (Tests.on .x id)).bq.toList.map (·.length) = [0, 0, 1, 1, 0, 0] := by decide +kernel
theorem test_followed_branch :
    (Tests.stream (.beq 2 0 1 2 3) (Tests.on .a fun st => { st with bq := Vector.replicate 6 [1] })).pc.toNat = Tests.text + 12 := by
  decide +kernel
theorem test_j_goes_back : (Tests.stream (.j 0x7FFFFF) (Tests.on .d id)).pc.toNat = Tests.text - 4 := by decide +kernel
theorem test_jal_links : Tests.reg (.jal 3 2) 3 (Tests.on .x id) = BitVec.ofNat 64 (Tests.text + 4) := by decide +kernel
theorem test_jr : (Tests.stream (.jr 2 1) (Tests.on .x (Tests.x [(1, 0x1000)]))).pc = 0x1000 := by decide +kernel
theorem test_jalr_misaligned : (Tests.strand (.jalr 2 3 1) (Tests.on .x (Tests.x [(1, 0x1002)]))).fault = some 0x0B := by
  decide +kernel
theorem test_loopi_opens : (Tests.stream (.loopi 3 1) (Tests.on .x id)).loops.map (fun l => (l.stop.toNat - Tests.text, l.lc)) =
    [(8, 3)] := by decide +kernel
theorem test_loopi_skips : (Tests.stream (.loopi 0 1) (Tests.on .x id)).pc.toNat = Tests.text + 12 := by decide +kernel
theorem test_loopr_too_large : (Tests.strand (.loopr 2 1 1) (Tests.on .x (Tests.x [(1, 0x100000000)]))).fault = some 0x04 := by
  decide +kernel
theorem test_loopq_takes_a_count :
    (Tests.stream (.loopq 1) (Tests.on .x fun st => { st with cq := [7] })).loops.map (·.lc) = [7] := by decide +kernel

theorem witness_branches :
    (Tests.on .x (Tests.x [(1, 5)])).Ready (fun _ => true) ∧ (Tests.on .x id).Evaluates 2 ∧ ¬ (Tests.on .a id).Evaluates 2 ∧
    (Tests.on .a id).cur.str ≠ strOf 2 ∧
    (∃ t, popBranch (strOf 2) (Tests.on .a fun st => { st with bq := Vector.replicate 6 [1] }) = .ok (1, t)) ∧
    (∃ t, shareBranch 5 (Tests.on .x id) = .ok t) ∧ (∃ t, writeReg 3 (Tests.on .x id).pc (Tests.on .x id) = .ok t) :=
  ⟨by and_intros <;> decide +kernel, Or.inr rfl,
    fun h => h.elim (fun h => absurd h (by decide +kernel)) (fun h => absurd h (by decide +kernel)), by decide +kernel,
    ⟨_, rfl⟩, ⟨_, rfl⟩, ⟨_, rfl⟩⟩
theorem witness_branch_queues :
    let st := (Tests.on .x fun st => { st with bq := Vector.replicate 6 (List.replicate 8 1) }).strand (Tests.ctx .x)
    8 ≤ (st.bq.get (bqIndex .x (otherStreams .x).1)).length ∧
    (((Tests.on .x id).strand (Tests.ctx .x)).bq.get (bqIndex .x .a)).length < 8 ∧
    ((Tests.on .x id).strand (Tests.ctx .x)).bq.get (bqIndex .a .x) = [] ∧ Str.a ≠ .x ∧
    st.bq.get (bqIndex .a .x) = 1 :: List.replicate 7 1 := by decide +kernel
theorem witness_loops :
    (Tests.on .x (Tests.x [(1, 0x100000000)])).Ready (fun _ => true) ∧
    (∃ t, readReg 1 (Tests.on .x (Tests.x [(1, 0x100000000)])) = .ok (0x100000000, t)) ∧
    3 ≤ ((Tests.on .x fun st => { st with x := { st.x with loops := List.replicate 3 default } }).stream (Tests.ctx .x)).loops.length ∧
    (∃ t, popCount (Tests.on .x fun st => { st with cq := [7] }) = .ok (7, t)) ∧
    ((Tests.on .x id).strand (Tests.ctx .x)).setAside = none :=
  ⟨by and_intros <;> decide +kernel, ⟨_, rfl⟩, by decide +kernel, ⟨_, rfl⟩, by decide +kernel⟩
theorem witness_loop_ends :
    let l : Loop := { start := 0x100, stop := 0x108, lc := 2 }
    let st : Stream := { Stream.reset with pc := 0x108, loops := [l] }
    st.loops = l :: [] ∧ l.stop = st.pc ∧ 1 < l.lc.toNat ∧ (st.advance 1).pc = 0x100 ∧ ({ l with lc := 1 } : Loop).lc.toNat ≤ 1 ∧
    (st.transfer 0x200).loops = [] ∧ (st.transfer 0x104).loops = [l] := by decide +kernel

/-- Words of the integer block, bit by bit from its encoding table (R66-R73). -/
theorem test_decode_integer : ([
  (0b00000001010001010011010000000000, .add 2 17 9 20),
  (0b00000001010001010011010000000001, .sub 2 17 9 20),
  (0b00000001010001010011010000000010, .and 2 17 9 20),
  (0b00000001010001010011010000000011, .or 2 17 9 20),
  (0b00000001010001010011010000000100, .xor 2 17 9 20),
  (0b00000001010001010011010000000101, .sll 2 17 9 20),
  (0b00000001010001010011010000000110, .srl 2 17 9 20),
  (0b00000001010001010011010000000111, .sra 2 17 9 20),
  (0b00000001010001010011010000001000, .mul 2 17 9 20),
  (0b00000001010001010011010000001001, .mulhu 2 17 9 20),
  (0b00000001010001010011010000001010, .mulh 2 17 9 20),
  (0b00000001010001010011010000001011, .slt 2 17 9 20),
  (0b00000001010001010011010000001100, .sltu 2 17 9 20),
  (0b00000001010001010011010000001101, .min 2 17 9 20),
  (0b00000001010001010011010000001110, .max 2 17 9 20),
  (0b00000001010001010011010000001111, .minu 2 17 9 20),
  (0b00000001010001010011010000010000, .maxu 2 17 9 20),
  (0b00000011010001010011001000110100, .addi 2 17 9 4660),
  (0b00000101010001010011001000110100, .slti 2 17 9 4660),
  (0b00000111010001010011001000110100, .andi 2 17 9 4660),
  (0b00001001010001010011001000110100, .ori 2 17 9 4660),
  (0b00001011010001010011001000110100, .xori 2 17 9 4660),
  (0b00001101010001010010000000100101, .slli 2 17 9 37),
  (0b00001101010001010010000001100101, .srli 2 17 9 37),
  (0b00001101010001010010000010100101, .srai 2 17 9 37),
  (0b00001111010001101010010111000011, .lui 2 17 173507)] : List (BitVec 32 × Instr)).all (fun e => decode (.polder true) e.1 none = .ok e.2 1) = true := by decide +kernel

/-- Words of the branch block, bit by bit from its encoding table (R66-R73). -/
theorem test_decode_branch : ([
  (0b00100001010001010011010010100101, .beq 2 17 9 20 165),
  (0b00100011010001010011010010100101, .bne 2 17 9 20 165),
  (0b00100101010001010011010010100101, .blt 2 17 9 20 165),
  (0b00100111010001010011010010100101, .bge 2 17 9 20 165),
  (0b00101001010001010011010010100101, .bltu 2 17 9 20 165),
  (0b00101011010001010011010010100101, .bgeu 2 17 9 20 165),
  (0b00101101000011010010000010100101, .bpany 3 9 165),
  (0b00101111000011010010000010100101, .bpnone 3 9 165),
  (0b00110000010110100101101001011010, .j 5921370),
  (0b00110010000011101010010111000011, .jal 3 173507),
  (0b00110101000000100010000000000000, .jr 2 17),
  (0b00110111010001010010000000000000, .jalr 2 17 9),
  (0b01000000010110100011110001011011, .loopi 23100 91),
  (0b01000011000000100010000010100101, .loopr 2 17 165),
  (0b01000100000000000000000010100101, .loopq 165)] : List (BitVec 32 × Instr)).all (fun e => decode (.polder true) e.1 none = .ok e.2 1) = true := by decide +kernel

/-- Words of the control block, bit by bit from its encoding table (R66-R73). -/
theorem test_decode_control : ([
  (0b01001001010001010010000000000000, .tagw 2 17 9),
  (0b01001011000000000000000000001001, .tok 2 9),
  (0b01001100001100000101101110100101, .fenceX 3 91 165),
  (0b01010001000000001111000000000000, .push 2 7 2),
  (0b01010011000000001111000000000000, .pop 2 7 2),
  (0b01100001000000000001001000110100, .trap 2 4660),
  (0b01100010000000000000000000000000, .eret),
  (0b01100101010001000001001000110100, .sysr 2 17 4660),
  (0b01100111000000100011001000110100, .sysw 2 17 4660),
  (0b01101000000000000000000000000000, .exit)] : List (BitVec 32 × Instr)).all (fun e => decode (.polder true) e.1 none = .ok e.2 1) = true := by decide +kernel

/-- Words of the access block, bit by bit from its encoding table (R66-R73). -/
theorem test_decode_access : ([
  (0b10000000101100010101010010101000, .ld 5 17 2 20 2 1 1),
  (0b10000000101100010101010010111001, .ldAcq 5 17 2 20 2 1 1 1),
  (0b10000010101110001001100000001001, .ldv 5 1 2 1 6 9),
  (0b10000010101110001001101101000011, .ldvAcq 5 1 2 1 6 5 3),
  (0b10000100101110001001100001100011, .ldvs 5 1 2 1 6 3 3),
  (0b10000110101110001001100001100011, .ldvg 5 1 2 1 6 3 3),
  (0b10001000101001000101001101000000, .ldp 5 17 9 2 1),
  (0b10001000101011101001100000000000, .ldpv 5 1 2 1 6),
  (0b10001000101101100101000011000000, .ldpvg 5 1 2 20 6),
  (0b10001010101001000100111010000000, .xlate 5 17 3 20),
  (0b10001010101011000100110000000000, .htest 5 17 3),
  (0b10001010101100000010010000000000, .hrel 5 9),
  (0b10001010101110000010010011000000, .hmov 5 9 3),
  (0b10001100101001000101001000000000, .preq 5 17 9),
  (0b10001100101011010100110000000000, .pref 5 5 9 2),
  (0b10001100101101000101001101001000, .scbq 5 17 9 20 1),
  (0b10001100101110000010001000000000, .scbwait 5 17),
  (0b10001110101000101001000000000000, .sbind 5 1 9),
  (0b10001110101001100000000000000000, .sunbind 5 1),
  (0b10001110101010101001000000000000, .sbget 5 1 9),
  (0b10001110101011101001000000000000, .sbadv 5 1 9),
  (0b10001110101100100000000000000000, .sbwait 5 1)] : List (BitVec 32 × Instr)).all (fun e => decode (.polder true) e.1 none = .ok e.2 1) = true := by decide +kernel

/-- Words of the copy block, bit by bit from its encoding table (R66-R73). -/
theorem test_decode_copy : ([
  (0b10010000101010110100001100001100, .cpy 5 1 1 20 6 3),
  (0b10010010101010100000010100001100, .cpyr 5 1 2 20 6),
  (0b10010010101110101010000110000110, .cpyrAt 5 1 2 20 6 3),
  (0b10010100101001000101001101000000, .cpyg 5 17 9 20),
  (0b10010100101011000101001101000000, .cpymeta 5 17 9 20),
  (0b10010100101100000010001010010000, .cpyq 5 17 9),
  (0b10010100101110010010011010000110, .cmerge 5 2 9 20 6),
  (0b10010110101001010011101001010000, .bfmt 5 83 165),
  (0b10010110101011000101001000000000, .ccancel 5 17 9),
  (0b10010110101101000101001000000000, .cstat 5 17 9)] : List (BitVec 32 × Instr)).all (fun e => decode (.polder true) e.1 none = .ok e.2 1) = true := by decide +kernel

/-- Words of the matrix block, bit by bit from its encoding table (R66-R73). -/
theorem test_decode_matrix : ([
  (0b10011001001111010011101111000110, .mma 9 1 1 10 3 5 1 1 2 6),
  (0b10011011001111010011101111000110, .mmas 9 1 1 10 3 5 1 1 2 6),
  (0b10011101001111010000011011001001, .mmag 9 1 1 10 3 1 2 9),
  (0b10011111001100000111000000000000, .mctlZero 9 1 3 1),
  (0b10011111001100110101000011000000, .mctlMode 9 1 2 20 6),
  (0b10011111001101001010100000000000, .mctlRing 9 1 2 20),
  (0b10011111001101101010100000000000, .mctlPop 9 1 2 20),
  (0b10011111001010010001000000000000, .mctlWait 9 17)] : List (BitVec 32 × Instr)).all (fun e => decode (.polder true) e.1 none = .ok e.2 1) = true := by decide +kernel

/-- Words of the vectorInteger block, bit by bit from its encoding table (R66-R73). -/
theorem test_decode_vectorInteger : ([
  (0b10100001001100100110100001101001, .vadd 9 2 9 20 6 9),
  (0b10100011001100100110100001101001, .vsub 9 2 9 20 6 9),
  (0b10100101001100100110100001101001, .vmul 9 2 9 20 6 9),
  (0b10100111001100100110100001101001, .vand 9 2 9 20 6 9),
  (0b10101001001100100110100001101001, .vor 9 2 9 20 6 9),
  (0b10101011001100100110100001101001, .vxor 9 2 9 20 6 9),
  (0b10101101001100100110100001101001, .vfnsb 9 2 9 20 6 9),
  (0b10101111001100100110100001011000, .vslli 9 2 9 20 11),
  (0b10101111001100100110100001011010, .vsrli 9 2 9 20 11),
  (0b10101111001100100110100001011100, .vsrai 9 2 9 20 11)] : List (BitVec 32 × Instr)).all (fun e => decode (.polder true) e.1 none = .ok e.2 1) = true := by decide +kernel

/-- Words of the vectorFloat block, bit by bit from its encoding table (R66-R73). -/
theorem test_decode_vectorFloat : ([
  (0b10110001001100100110100001101001, .vfadd 9 2 9 20 6 9),
  (0b10110011001100100110100001101001, .vfsub 9 2 9 20 6 9),
  (0b10110101001100100110100001101001, .vfmul 9 2 9 20 6 9),
  (0b10110111001100100110100001101001, .vfma 9 2 9 20 6 9),
  (0b10111001001101101000110000110100, .vcmp 9 2 1 10 6 3 2),
  (0b10111011001100100110100001101001, .vsel 9 2 9 20 6 9),
  (0b10111101001100100110100000000111, .vmov 9 2 9 20 7),
  (0b10111101001100100110100000010111, .vnot 9 2 9 20 7),
  (0b10111101001100100110100000100111, .vneg 9 2 9 20 7),
  (0b10111101001100100110100000110111, .vpopc 9 2 9 20 7),
  (0b10111101001100100110100001000111, .vclz 9 2 9 20 7),
  (0b10111101001100100110100001010111, .vbrev 9 2 9 20 7),
  (0b10111111001100100110100000000111, .vfabs 9 2 9 20 7),
  (0b10111111001100100110100000010111, .vexp2 9 2 9 20 7),
  (0b10111111001100100110100000100111, .vlog2 9 2 9 20 7),
  (0b10111111001100100110100000110111, .vrcp 9 2 9 20 7),
  (0b10111111001100100110100001000111, .vrsqrt 9 2 9 20 7),
  (0b10111111001100100110100001010111, .vtanh 9 2 9 20 7),
  (0b10111111001100100110100001100111, .vsigm 9 2 9 20 7),
  (0b11000001001100010100101000111010, .vcvt 9 17 9 4 7 2)] : List (BitVec 32 × Instr)).all (fun e => decode (.polder true) e.1 none = .ok e.2 1) = true := by decide +kernel

/-- Words of the vectorOther block, bit by bit from its encoding table (R66-R73). -/
theorem test_decode_vectorOther : ([
  (0b11000011001100100110100000000000, .vbcast 9 2 9 20),
  (0b11000011001100100110100001100001, .vext 9 2 9 20 6),
  (0b11000011001100100110100001100010, .vperm 9 2 9 20 6),
  (0b11000011001100100110100001100011, .vrsum 9 2 9 20 6),
  (0b11000011001100100110100001100100, .vrmax 9 2 9 20 6),
  (0b11000011001111000101001001110101, .vfrsum 9 17 9 7),
  (0b11000011001111000101001001110110, .vfrmax 9 17 9 7),
  (0b11000011001010100110100001100111, .vqdx 9 1 9 20 6),
  (0b11000011001010100110100001101000, .vdqdx 9 1 9 20 6),
  (0b11000101001001000101001101000000, .fadd 9 17 9 20),
  (0b11000101001001000101001101000001, .fsub 9 17 9 20),
  (0b11000101001001000101001101000010, .fmul 9 17 9 20),
  (0b11000101001001000101001101000011, .fmin 9 17 9 20),
  (0b11000101001001000101001101000100, .fmax 9 17 9 20),
  (0b11000101001100100110100001100101, .fcmp 9 2 9 20 6),
  (0b11000101001001000101001000000110, .fcvtif 9 17 9),
  (0b11000101001001000101001000000111, .fcvtfi 9 17 9),
  (0b11000111001100010100110100011100, .vthr 9 17 9 20 7),
  (0b11001001001001000101001101000111, .vhist 9 17 9 20 7),
  (0b11001001001011000101001101000111, .vxrep 9 17 9 20 7),
  (0b11001001001101000101001000001010, .vgatew 9 17 9 10),
  (0b11001001001110000010001000000011, .cqpush 9 17 3),
  (0b11001011001000010001001110100100, .vtileRd 9 17 3 20 1),
  (0b11001011001000110001001110100100, .vtileWr 9 17 3 20 1),
  (0b11001011001001010010011101010000, .plog 9 9 3 10 2),
  (0b11001011001001110001001100000000, .pcnt 9 17 3),
  (0b11001011001010010010100100000000, .vtop 9 9 9),
  (0b11001011001010110001001100000000, .ptov 9 17 3)] : List (BitVec 32 × Instr)).all (fun e => decode (.polder true) e.1 none = .ok e.2 1) = true := by decide +kernel

/-- Words of the sync block, bit by bit from its encoding table (R66-R73). -/
theorem test_decode_sync : ([
  (0b11001101001100010100100111110010, .atom 9 17 9 3 1 2 2),
  (0b11001101001100010100100111010010, .red 9 17 9 3 1 2 2),
  (0b11001101001100000100010011110101, .acas 9 16 8 1 2 5),
  (0b11001111001000010001010010000000, .bara 9 17 9),
  (0b11001111001000110001010011010000, .barw 9 17 9 20),
  (0b11001111001001010001010011010000, .carm 9 17 9 20),
  (0b11001111001001100000100010100100, .carr 9 17 9),
  (0b11001111001010010001010011010000, .cwait 9 17 9 20),
  (0b11001111001010110001010010000000, .semp 9 17 9),
  (0b11001111001011000000100010100100, .semv 9 17 9),
  (0b11001111001011110001010011010000, .waitc 9 17 9 20),
  (0b11001111001100000000100010100100, .signal 9 17 9)] : List (BitVec 32 × Instr)).all (fun e => decode (.polder true) e.1 none = .ok e.2 1) = true := by decide +kernel

/-- Words of the drain block, bit by bit from its encoding table (R66-R73). -/
theorem test_decode_drain : ([
  (0b11010001010100010101010010000000, .st 10 17 2 20 2),
  (0b11010001010100010101010010010101, .stRel 10 17 2 20 2 5),
  (0b11010011010001000101010000000000, .stv 10 1 2 20),
  (0b11010011010011100010011000011000, .stvs 10 1 2 1 6 3),
  (0b11010011010101100010011000011000, .stvx 10 1 2 1 6 3),
  (0b11010101010001000101001100000000, .stp 10 17 9 2),
  (0b11010101010011101001100000000000, .stpv 10 1 2 1 6),
  (0b11010101010101010010000000000000, .dbind 10 1 9),
  (0b11010101010111000000000000000000, .dunbind 10 1),
  (0b11010111010010010100110100001100, .drain 10 9 9 20 6),
  (0b11010111010110001010011010000000, .claim 10 17 9 20)] : List (BitVec 32 × Instr)).all (fun e => decode (.polder true) e.1 none = .ok e.2 1) = true := by decide +kernel

/-- Words of the task block, bit by bit from its encoding table (R66-R73). -/
theorem test_decode_task : ([
  (0b11011001001001000101001101000000, .spawn 9 17 9 20),
  (0b11011001001010000000000000000000, .endt 9),
  (0b11011001001101000100000000000000, .join 9 17),
  (0b11011001001111000100000000000000, .check 9 17),
  (0b11011011001001000101001101000000, .launch 9 17 9 20),
  (0b11011011001011000101001000000000, .jcancel 9 17 9),
  (0b11011011001101000101001000000000, .tinfo 9 17 9),
  (0b11011011001111000101001101000000, .rqset 9 17 9 20)] : List (BitVec 32 × Instr)).all (fun e => decode (.polder true) e.1 none = .ok e.2 1) = true := by decide +kernel

/-- Words of the ring block, bit by bit from its encoding table (R66-R73). -/
theorem test_decode_ring : ([
  (0b11011100000000000111000101001000, .rinj 3 17 9),
  (0b11011100000001000111000100000000, .rdrop 3 17),
  (0b11011100000010000111000101001000, .rkeep 3 17 9),
  (0b11011100000011000111000100000000, .rfwd 3 17),
  (0b11011110000000000111000100000000, .rhold 3 17),
  (0b11011110000001000111000101001000, .rtag 3 17 9),
  (0b11100000000000000111000101001000, .rpar 3 17 9),
  (0b11100010000000000111000100000000, .rbyp 3 17),
  (0b11100010000001000111000100000000, .rstat 3 17)] : List (BitVec 32 × Instr)).all (fun e => decode .rotation e.1 none = .ok e.2 1) = true := by decide +kernel

/-- Words of the fabric block, bit by bit from its encoding table (R66-R73). -/
theorem test_decode_fabric : ([
  (0b11100101010001000101001101000000, .fxfill 10 17 9 20),
  (0b11100101010011000101001000000000, .fkey 10 17 9),
  (0b11100101010101000101001101000000, .flane 10 17 9 20)] : List (BitVec 32 × Instr)).all (fun e => decode (.polder true) e.1 none = .ok e.2 1) = true := by decide +kernel

/-! ## Steps (R70, R73, R307) -/

/-- ADDI X r3, r0, 5, placed at the start of the text. -/
def Tests.placed (w : Nat) : State := State.reset.withFetchWord 32 w

theorem test_step_runs_the_word :
    ((Tests.next (step (Tests.placed 0b00000011000011000000000000000101))).strand (Tests.ctx .x)).x.regs.get 3 = 5 := by
  decide +kernel
theorem test_step_advances_the_pc :
    ((Tests.next (step (Tests.placed 0b00000011000011000000000000000101))).strand (Tests.ctx .x)).x.pc.toNat = placedText + 4 := by
  decide +kernel
theorem witness_steps :
    let s := Tests.placed 0b00000011000011000000000000000101
    let t := (s.nextTurn).1
    let u := (s.nextTurn).2.take t
    t.act = .stream .x ∧ u.runs = true ∧ (u.die u.cur.die).live = true ∧
    u.fetch32 u.pc.toNat = some 0x030C0005 ∧ decode (.polder true) 0x030C0005 (u.fetch32 (u.pc.toNat + 4)) = .ok (.addi 2 3 0 5) 1 ∧
    (u.stream u.cur).loops = [] ∧ (u.crew u.cur.die u.cur.polder).system = true := by decide +kernel
theorem witness_illegal_steps :
    let s := { Tests.placed 0b00000011000011000000000000000101 with mem := Memory.writeN placedText 0x10000000 4 [] }
    let t := (s.nextTurn).1
    let u := (s.nextTurn).2.take t
    u.runs = true ∧ u.fetch32 u.pc.toNat = some 0x10000000 ∧ decode (.polder true) 0x10000000 none = .illegal 0x10000000 1 1 ∧
    u.fetch32 (placedText + 65536) = none ∧ u.fetch32 (placedText - 1) = none ∧
    (u.fetch32 (placedText + 65532)).isSome = true := by decide +kernel
theorem witness_events_of_steps :
    let s := { State.reset with turns := [{ dt := 0, die := 0, polder := 0, strand := 0, act := .event .bootStep, inp := [1] }] }
    (s.nextTurn).1.act = .event .bootStep ∧ ((s.nextTurn).2.take (s.nextTurn).1).mayAct .bootStep = true := by decide +kernel
theorem witness_fetches :
    let s := Tests.placed 0b00000011000011000000000000000101
    s.MemoryCanonical ∧ look placedText (s.stream s.cur).loopBuf = none ∧ s.text = (placedText, 65536) ∧
    (s.engineRead s.cur.die placedText 4).isSome = true := ⟨by unfold State.MemoryCanonical; decide +kernel, by and_intros <;> decide +kernel⟩
theorem witness_majors : (0x08 : Nat) ≤ 0x10000000 / 2 ^ 25 ∧ (Instr.add 0 0 0 0).major = some 0 ∧ (Instr.rstat 0 0).major = some 0x71 ∧
    (Instr.fkey 0 0 0).major = some 0x72 ∧ (Instr.ld 0 0 0 0 0 0 0).major = some 0x40 ∧
    (Instr.claim 0 0 0 0).major = some 0x6B := by decide
theorem witness_encodings : encode (.add 1 1 9 3) ≠ [] ∧ (Instr.add 1 1 9 3).reasonsIn (.polder false) = [] ∧
    followReason 0x981116C7 = none := by decide +kernel

/-! ## Tokens, spills, traps and ends (R18-R25, R92-R99) -/

theorem test_tok_takes_and_gives :
    let st := Tests.strand (.tok 2 0b1001) (Tests.on .x fun st => { st with tokAX := 2 })
    (st.tokAX, st.tokXA, st.tokXD, st.tokDX) = (1, 0, 1, 0) := by decide +kernel
theorem test_tok_waits :
    (Tests.strand (.tok 2 0b1001) (Tests.on .x id)).x.wait = some .token ∧
    (Tests.strand (.tok 2 0b1001) (Tests.on .x id)).x.pc.toNat = placedText := by decide +kernel
theorem witness_tokens :
    (Tests.on .x fun st => { st with tokAX := 1, tokXD := 14 }).InStrand (namedBy 2) ∧
    (Tests.on .a fun st => { st with tokXA := 1, tokAX := 14 }).InStrand (namedBy 1) ∧
    (Tests.on .d fun st => { st with tokXD := 1, tokDX := 14 }).InStrand (namedBy 3) ∧
    ((0b1001 : BitVec 4).getLsbD 3 = true ∧ (0b0101 : BitVec 4).getLsbD 3 = false ∧ (0b0101 : BitVec 4).getLsbD 1 = false ∧
      (0b1010 : BitVec 4).getLsbD 2 = false) ∧ ((Tests.on .x id).crew 0 0).debug = false ∧
    15 < ((Tests.on .x fun st => { st with tokXD := 15 }).strand (Tests.ctx .x)).tokXD + 1 :=
  ⟨by and_intros <;> decide +kernel,
    by and_intros <;> decide +kernel,
    by and_intros <;> decide +kernel, by decide, by decide +kernel, by decide +kernel⟩
theorem witness_passed_words :
    (Tests.on .d id).runs = true ∧ (Tests.on .d id).replyDue = none ∧ sentTo (.vadd 0 1 1 2 3 15) .d = false ∧
    encode (.vadd 0 1 1 2 3 15) ≠ [] := by decide +kernel
theorem test_word_passed_by : (Tests.stream (.vadd 0 1 1 2 3 15) (Tests.on .d id)).pc.toNat = placedText + 4 := by decide +kernel

/-- A strand with 16 KiB of spill stack for each stream. -/
theorem test_push_writes_the_stack :
    let s := Tests.on .x (Tests.x [(1, 0x1122334455667788)])
    ((Tests.next (exec (.push 2 1 0) s)).byteAt (spillBase s), (Tests.stream (.push 2 1 0) s).spillSp) = (0x88, 8) := by
  decide +kernel
theorem test_pop_returns_it :
    let s := Tests.next (exec (.push 2 1 0) (Tests.on .x (Tests.x [(1, 0x1122334455667788)])))
    (Tests.reg (.pop 2 3 0) 3 s, (Tests.stream (.pop 2 3 0) s).spillSp) = (0x1122334455667788, 0) := by decide +kernel
theorem witness_spills :
    let s := Tests.on .x (Tests.x [(1, 7)])
    s.InStrand (namedBy 2) ∧ readReg 1 s = .ok (7, s) ∧ s.MemoryCanonical ∧ s.poison = [] ∧
    (s.stream s.cur).ovPtr.toNat + 8 < 2 ^ 64 ∧ (s.stream s.cur).ovBase.toNat ≤ (s.stream s.cur).ovPtr.toNat ∧
    (s.stream s.cur).ovPtr.toNat ≤ (s.stream s.cur).ovLimit.toNat ∧ (∃ t, spillPush 7 8 s = .ok t) ∧
    (∃ u, spillPop 8 (Tests.ok (spillPush 7 8 s)) = .ok (7, u)) ∧ (s.stream s.cur).spillSp + 512 ≤ (s.crew 0 0).spillSize :=
  ⟨by and_intros <;> decide +kernel, rfl, by unfold State.MemoryCanonical; decide +kernel,
    by decide +kernel, by decide +kernel, by decide +kernel, by decide +kernel, Tests.exists_of_came (by decide +kernel), Tests.exists_of_gave (by decide +kernel),
    by decide +kernel⟩
theorem witness_spill_overflow :
    let f (st : Strand) : Strand := { st with x := { st.x with
      ovBase := BitVec.ofNat 64 placedText, ovPtr := BitVec.ofNat 64 (placedText + 8), ovLimit := BitVec.ofNat 64 (placedText + 64) } }
    let k := (Tests.on .x f).stream (Tests.ctx .x)
    k.ovBase.toNat < k.ovPtr.toNat ∧ k.ovPtr.toNat + 8 ≤ k.ovLimit.toNat ∧
    inBerm 0 k.ovBase.toNat (k.ovLimit.toNat - k.ovBase.toNat) = true ∧ ¬ (k.ovPtr.toNat + 64 ≤ k.ovLimit.toNat) ∧
    ((Tests.on .x id).stream (Tests.ctx .x)).spillSp < 8 := by decide +kernel

/-- A strand with a trap handler at 0x1000. -/
def Tests.handled (st : Strand) : Strand := { st with trapEntry := 0x1000 }

theorem test_trap_enters_the_handler :
    let st := Tests.strand (.trap 2 5) (Tests.on .x Tests.handled)
    (st.trapCause, st.trapInfo, st.a.pc, st.x.pc, st.d.pc, st.trapMode) = (0x8002, 5, 0x1000, 0x1000, 0x1000, true) := by decide +kernel
theorem test_trap_without_a_handler_ends_the_strand : (Tests.strand (.trap 2 5) (Tests.on .x id)).fault = some 2 := by
  decide +kernel
theorem test_eret_returns :
    let s := Tests.next (exec (.trap 2 5) (Tests.on .x Tests.handled))
    let t := s.setStrand s.cur { s.strand s.cur with
      a := { (s.strand s.cur).a with arrived := true }, d := { (s.strand s.cur).d with arrived := true } }
    let st := Tests.strand .eret t
    (st.trapMode, st.x.pc.toNat, st.a.pc.toNat) = (false, placedText, placedText) := by decide +kernel
theorem test_eret_outside_trap_mode : (Tests.strand .eret (Tests.on .x id)).fault = some 0x0C := by decide +kernel
theorem witness_traps :
    let s := Tests.on .x Tests.handled
    s.Ready (namedBy 2) ∧ s.InStrand (fun _ => true) ∧ s.cur.rot = false ∧ (s.strand s.cur).trapMode = false ∧
    (s.strand s.cur).trapEntry ≠ 0 ∧ ((Tests.on .x id).strand s.cur).trapEntry = 0 ∧
    ((Tests.next (exec (.trap 2 5) s)).strand s.cur).trapMode = true ∧
    ((Tests.next (exec (.trap 2 5) s)).strand s.cur).setAside.isSome = true :=
  ⟨by and_intros <;> decide +kernel,
    by and_intros <;> decide +kernel, by and_intros <;> decide +kernel⟩
theorem test_exit_ends_the_stream :
    ((Tests.strand .exit (Tests.on .x id)).a.ended, (Tests.strand .exit (Tests.on .x id)).x.ended) = (false, true) := by
  decide +kernel
theorem test_rotation_exit : (((Tests.next (exec .exit (Tests.rotation id))).die 0).rprunning,
    ((Tests.next (exec .exit (Tests.rotation id))).die 0).rpcause) = (false, 0) := by decide +kernel
theorem witness_ends :
    (Tests.on .x id).InStrand (fun _ => true) ∧ ((Tests.on .x id).crew 0 0).debug = false ∧
    (Tests.rotation id).Ready (fun _ => true) ∧ (Tests.rotation id).cur.rot = true ∧ (Tests.rotation id).cur.die < 16 :=
  ⟨by and_intros <;> decide +kernel, by decide +kernel,
    ⟨by decide +kernel, by decide +kernel, Or.inl (by decide +kernel)⟩, by decide +kernel, by decide +kernel⟩
theorem test_fence_waits :
    ((Tests.strand (.fenceX 0 1 1) (Tests.on .x id)).x.arrived, (Tests.stream (.fenceX 0 1 1) (Tests.on .x id)).pc.toNat) =
      (true, placedText) := by decide +kernel

/-- A strand whose three streams have reached a fence. -/
def Tests.fenced (st : Strand) : Strand :=
  { st with
    a := { st.a with arrived := true }, d := { st.d with arrived := true }
    x := { st.x with arrived := true, pend := some { ids := [], data := [1003] } } }

theorem test_fence_releases :
    let st := Tests.strand (.fenceX 3 1 1) (Tests.on .x Tests.fenced)
    (st.a.pc.toNat, st.x.pc.toNat, st.d.pc.toNat, st.x.arrived) = (placedText + 4, placedText + 4, placedText + 4, false) := by
  decide +kernel
theorem witness_fences :
    let s := Tests.on .x Tests.fenced
    s.InStrand (fun _ => true) ∧ (s.strand s.cur).a.arrived = true ∧ (s.strand s.cur).x.pend = some { ids := [], data := [1003] } ∧
    s.fenceReady 255 = true ∧ (s.writeBackContext s.cur).1 = [] ∧ ((Tests.on .a id).stream (Tests.ctx .a)).pend = none ∧
    ((Tests.on .a id).stream (Tests.ctx .a)).arrived = false :=
  ⟨by and_intros <;> decide +kernel, by and_intros <;> decide +kernel⟩
theorem test_sysr_spillsp : Tests.reg (.sysr 2 3 0x010) 3 (Tests.on .x fun st => { st with x := { st.x with spillSp := 24 } }) = 24 := by
  decide +kernel
theorem test_sysw_trapentry : (Tests.strand (.sysw 2 1 0x018) (Tests.on .x (Tests.x [(1, 0x1000)]))).trapEntry = 0x1000 := by
  decide +kernel
theorem witness_system_registers :
    let s := Tests.on .x (Tests.x [(1, 0x1000)])
    s.InStrand (namedBy 2) ∧ (systemRegister 0x100 s).isSome = true ∧ systemRegister 0x1000 s = none ∧
    readReg 1 s = .ok (0x1000, s) ∧ (writeSystem 0x018 5 s).isSome = true ∧ (s.crew 0 0).system = true ∧
    ((s.setCrew 0 0 { s.crew 0 0 with system := false }).crew 0 0).system = false :=
  ⟨by and_intros <;> decide +kernel, by decide +kernel, by decide +kernel, rfl,
    by and_intros <;> decide +kernel⟩
theorem test_illegal_word_traps :
    let s := { Tests.on .x Tests.handled with inp := [0x10000000, 1, 0x10000000, 1] }
    ((Tests.strand .illegalInstruction s).trapCause, (Tests.strand .illegalInstruction s).trapInfo) = (0x8001, 0x110000000) := by
  decide +kernel
theorem test_fetch_fault_traps :
    let s := { Tests.on .x Tests.handled with inp := [0x1234] }
    ((Tests.strand .instructionFetchFault s).trapCause, (Tests.strand .instructionFetchFault s).trapInfo) = (0x800A, 0x1234) := by
  decide +kernel
theorem witness_illegal_words :
    ({ Tests.on .x id with inp := [0x10000000, 1, 0x10000000, 1] } : State).Ready (· = illegalStream 0x10000000) ∧
    illegalStream 0x10000000 = .x ∧ (Tests.on .a id).InStrand (· = .a) ∧
    (Tests.on .a id).cur.str ≠ illegalStream 0x10000000 :=
  ⟨by and_intros <;> decide +kernel, by decide +kernel,
    by and_intros <;> decide +kernel, by decide +kernel⟩
theorem test_watchdog_traps :
    let s := { Tests.on .x fun st => { Tests.handled st with x := { st.x with wait := some .token, waited := 120000 } } with inp := [1] }
    ((Tests.strand .stallWatchdogTrap s).trapCause) = 0x807C := by decide +kernel
theorem witness_watchdog :
    let s := { Tests.on .x fun st => { st with x := { st.x with wait := some .token, waited := 120000 } } with inp := [1] }
    s.inp = [Str.num .x] ∧ (s.strand? s.cur).isSome = true ∧ (s.crew? 0 0).isSome = true ∧ Wait.kind .token ≠ 0 ∧
    bitsOf (s.die 0).stallwd 31 31 = 1 ∧ microseconds (max 1 (bitsOf (s.die 0).stallwd 23 0)) ≤ 120000 ∧
    (s.crew 0 0).halted = false := by decide +kernel

/-! ## Vector words (R160-R184) -/

/-- Predicate registers 1 and 2. -/
def Tests.preds (p q : Nat) (st : Strand) : Strand :=
  { st with p := (st.p.set 1 (BitVec.ofNat 1024 p)).set 2 (BitVec.ofNat 1024 q) }

/-- The first `n` elements, of `w` bits, of vector register `r` after a word of X, with vectors in registers 1 and 2, ones in
every element of register 3, and predicates 1 and 2. -/
def Tests.vp (i : Instr) (r w n : Nat) (x y : Vec) (p q : Nat) : List Nat :=
  let st := Tests.strand i (Tests.on .x fun st =>
    let st := Tests.preds p q (Tests.v x y st)
    { st with v := st.v.set 3 (BitVec.allOnes 4096) })
  (List.range n).map fun k => lane w k (st.v.get (Fin.ofNat 28 r))

/-- The first `n` bits of predicate 3 after a word of X, with two vectors and two predicates. -/
def Tests.p3 (i : Instr) (n : Nat) (x y : Vec) (p q : Nat) : Nat :=
  ((Tests.strand i (Tests.on .x fun st => Tests.preds p q (Tests.v x y st))).p.get 3).toNat % 2 ^ n

theorem test_vadd_wraps_and_keeps_inactive_elements :
    Tests.vp (.vadd 0 1 3 1 2 1) 3 8 3 (Tests.vec 8 [255, 1, 7]) (Tests.vec 8 [2, 2, 1]) 5 0 = [1, 255, 8] := by decide +kernel
theorem test_vsub_borrows : Tests.v3 (.vsub 0 2 3 1 2 15) 16 2 (Tests.vec 16 [1, 9]) (Tests.vec 16 [2, 4]) = [0xFFFF, 5] := by
  decide +kernel
theorem test_vmul_wraps : Tests.v3 (.vmul 0 1 3 1 2 15) 8 2 (Tests.vec 8 [16, 3]) (Tests.vec 8 [17, 5]) = [16, 15] := by decide +kernel
theorem test_vsel_takes_either_source :
    Tests.vp (.vsel 0 0 3 1 2 1) 3 4 4 (Tests.vec 4 [1, 2, 3, 4]) (Tests.vec 4 [8, 9, 10, 11]) 6 0 = [8, 2, 3, 11] := by decide +kernel
theorem test_vand : Tests.v3 (.vand 0 3 3 1 2 15) 64 1 (Tests.vec 64 [0xFF00]) (Tests.vec 64 [0x0FF0]) = [0x0F00] := by decide +kernel
theorem test_vor_of_wide_elements_uses_their_own_bits :
    Tests.vp (.vor 0 3 3 1 2 1) 3 64 2 (Tests.vec 64 [1, 1]) (Tests.vec 64 [2, 2]) 2 0 = [0xFFFFFFFFFFFFFFFF, 3] := by decide +kernel
theorem test_vxor : Tests.v3 (.vxor 0 0 3 1 2 15) 8 1 (Tests.vec 8 [0xF0]) (Tests.vec 8 [0xFF]) = [0x0F] := by decide +kernel
theorem test_vfnsb_counts_from_zero :
    Tests.v3 (.vfnsb 0 0 3 1 2 15) 8 3 (Tests.vec 8 [0x94, 0x94, 0x94]) (Tests.vec 8 [0, 2, 3]) = [2, 7, 8] := by decide +kernel
theorem test_vslli_drops_high_bits : Tests.v3 (.vslli 0 0 3 1 4) 8 2 (Tests.vec 8 [0x12, 1]) 0 = [0x20, 0x10] := by decide +kernel
theorem test_vsrli : Tests.v3 (.vsrli 0 1 3 1 15) 16 1 (Tests.vec 16 [0x8000]) 0 = [1] := by decide +kernel
theorem test_vsrai_copies_the_sign : Tests.v3 (.vsrai 0 1 3 1 15) 16 2 (Tests.vec 16 [0x8000, 0x7FFF]) 0 = [0xFFFF, 0] := by
  decide +kernel
theorem test_vmov : Tests.v3 (.vmov 0 2 3 1 15) 32 1 (Tests.vec 32 [7]) 0 = [7] := by decide +kernel
theorem test_vnot : Tests.v3 (.vnot 0 0 3 1 15) 8 1 (Tests.vec 8 [0xF0]) 0 = [0x0F] := by decide +kernel
theorem test_vneg : Tests.v3 (.vneg 0 0 3 1 15) 8 2 (Tests.vec 8 [1, 0x80]) 0 = [0xFF, 0x80] := by decide +kernel
theorem test_vpopc : Tests.v3 (.vpopc 0 1 3 1 15) 16 2 (Tests.vec 16 [0xF001, 0]) 0 = [5, 0] := by decide +kernel
theorem test_vclz : Tests.v3 (.vclz 0 0 3 1 15) 8 3 (Tests.vec 8 [1, 0x80, 0]) 0 = [7, 0, 8] := by decide +kernel
theorem test_vbrev : Tests.v3 (.vbrev 0 0 3 1 15) 8 1 (Tests.vec 8 [0x13]) 0 = [0xC8] := by decide +kernel

theorem test_vfadd : Tests.vp (.vfadd 0 3 3 1 2 1) 3 32 1 (Tests.vec 32 [0x3F800000]) (Tests.vec 32 [0x40000000]) 1 0 = [0x40400000] := by
  decide +kernel
theorem test_vfsub_of_equals_is_zero :
    Tests.vp (.vfsub 0 1 3 1 2 1) 3 16 1 (Tests.vec 16 [0x3F80]) (Tests.vec 16 [0x3F80]) 1 0 = [0] := by decide +kernel
theorem test_vfmul_overflows : Tests.vp (.vfmul 0 2 3 1 2 1) 3 16 1 (Tests.vec 16 [0x7BFF]) (Tests.vec 16 [0x4000]) 1 0 = [0x7C00] := by
  decide +kernel
theorem test_vfma_rounds_once :
    -- 1.5 * 2 + 1 in destination 2
    Tests.vp (.vfma 0 3 2 1 1 1) 2 32 1 (Tests.vec 32 [0x3FC00000]) (Tests.vec 32 [0x3F800000]) 1 0 = [0x40500000] := by decide +kernel

theorem test_vcmp_signed : Tests.p3 (.vcmp 0 1 0 3 1 2 2) 4 (Tests.vec 8 [0xFF, 1, 2, 3]) (Tests.vec 8 [0, 0, 2, 4]) 0 0 = 0b1001 := by
  decide +kernel
theorem test_vcmp_nan_is_unequal :
    Tests.p3 (.vcmp 0 3 1 3 1 2 1) 3 (Tests.vec 32 [0x7FC00000, 0x80000000, 0x3F800000]) (Tests.vec 32 [0x7FC00000, 0, 0]) 0 0 = 0b101 := by
  decide +kernel
theorem test_plog_and_not : Tests.p3 (.plog 0 3 1 2 3) 8 0 0 0b1100 0b1010 = 0b0100 := by decide +kernel
theorem test_pcnt : Tests.reg (.pcnt 0 3 1) 3 (Tests.on .x (Tests.preds 0b1101 0)) = 3 := by decide +kernel
theorem test_vtop : Tests.p3 (.vtop 0 3 1) 16 (Tests.vec 16 [0xA5A5]) 0 0 0 = 0xA5A5 := by decide +kernel
theorem test_ptov_clears_the_rest : Tests.vp (.ptov 0 3 1) 3 1024 2 0 0 0xBEEF 0 = [0xBEEF, 0] := by decide +kernel

theorem test_vfabs : Tests.v3 (.vfabs 0 1 3 1 15) 16 2 (Tests.vec 16 [0xBF80, 0xFFC1]) 0 = [0x3F80, 0x7FC0] := by decide +kernel
theorem test_vexp2_of_zero : Tests.vp (.vexp2 0 3 3 1 1) 3 32 1 0 0 1 0 = [0x3F800000] := by decide +kernel
theorem test_vlog2_of_zero : Tests.vp (.vlog2 0 3 3 1 1) 3 32 1 0 0 1 0 = [0xFF800000] := by decide +kernel
theorem test_vrcp_of_minus_infinity : Tests.vp (.vrcp 0 3 3 1 1) 3 32 1 (Tests.vec 32 [0xFF800000]) 0 1 0 = [0x80000000] := by
  decide +kernel
theorem test_vrsqrt_of_minus_zero : Tests.vp (.vrsqrt 0 1 3 1 1) 3 16 1 (Tests.vec 16 [0x8000]) 0 1 0 = [0xFF80] := by decide +kernel
theorem test_vtanh_of_minus_infinity : Tests.vp (.vtanh 0 2 3 1 1) 3 16 1 (Tests.vec 16 [0xFC00]) 0 1 0 = [0xBC00] := by decide +kernel
theorem test_vsigm_of_zero : Tests.vp (.vsigm 0 2 3 1 1) 3 16 1 0 0 1 0 = [0x3800] := by decide +kernel

theorem test_vcvt_widens_by_interleaving :
    -- BF16 lanes 0 and 1 go to lane 0 of the first and of the second register
    (Tests.vp (.vcvt 0 4 1 8 6 0) 4 32 1 (Tests.vec 16 [0x3F80, 0x4000]) 0 0 0,
      Tests.vp (.vcvt 0 4 1 8 6 0) 5 32 1 (Tests.vec 16 [0x3F80, 0x4000]) 0 0 0) = ([0x3F800000], [0x40000000]) := by decide +kernel
theorem test_vbcast : (Tests.strand (.vbcast 0 1 3 1) (Tests.on .x (Tests.x [(1, 0x1AB)]))).v.get 3 = BitVec.ofNat 4096
    ((List.replicate 512 0xAB).foldr (fun x acc => x + 256 * acc) 0) := by decide +kernel
theorem test_vext_takes_the_index_modulo :
    Tests.reg (.vext 0 3 3 1 2) 3 (Tests.on .x fun st => Tests.x [(2, 129)] (Tests.v (Tests.vec 32 [5, 6]) 0 st)) = 6 := by decide +kernel
theorem test_vperm : Tests.v3 (.vperm 0 1 3 1 2) 8 3 (Tests.vec 8 [10, 11, 12]) (Tests.vec 8 [2, 0, 1]) = [12, 10, 11] := by
  decide +kernel
theorem test_vrsum_is_signed :
    Tests.reg (.vrsum 0 1 3 1 1) 3 (Tests.on .x fun st => Tests.preds 0b1011 0 (Tests.v (Tests.vec 8 [0xFF, 0xFE, 9, 1]) 0 st)) =
      0xFFFFFFFFFFFFFFFE := by decide +kernel
theorem test_vrmax_of_no_element :
    Tests.reg (.vrmax 0 1 3 1 1) 3 (Tests.on .x id) = 0xFFFFFFFFFFFFFF80 := by decide +kernel
theorem test_vfrsum : Tests.reg (.vfrsum 0 3 1 1) 3 (Tests.on .x fun st =>
    Tests.preds 0b101 0 (Tests.v (Tests.vec 32 [0x3F800000, 0x3F800000, 0x40000000]) 0 st)) = 0x40400000 := by decide +kernel
theorem test_vfrmax : Tests.reg (.vfrmax 0 3 1 1) 3 (Tests.on .x fun st =>
    Tests.preds 0b11 0 (Tests.v (Tests.vec 32 [0xBF800000, 0xC0000000]) 0 st)) = 0xBF800000 := by decide +kernel
theorem test_vdqdx_of_zero_codes : (Tests.vp (.vdqdx 0 1 4 1 2) 4 32 1 0 0 0 0) = [0] := by decide +kernel

theorem test_fadd : Tests.x3 (.fadd 0 3 1 2) 0xFFFFFFFF3F800000 0x40000000 = 0x40400000 := by decide +kernel
theorem test_fsub : Tests.x3 (.fsub 0 3 1 2) 0x3F800000 0x40000000 = 0xBF800000 := by decide +kernel
theorem test_fmul : Tests.x3 (.fmul 0 3 1 2) 0xC0000000 0x40400000 = 0xC0C00000 := by decide +kernel
theorem test_fmin : Tests.x3 (.fmin 0 3 1 2) 0x3F800000 0xBF800000 = 0xBF800000 := by decide +kernel
theorem test_fmax : Tests.x3 (.fmax 0 3 1 2) 0x3F800000 0xBF800000 = 0x3F800000 := by decide +kernel
theorem test_fcmp_of_zeros : Tests.x3 (.fcmp 0 0 3 1 2) 0x80000000 0 = 1 := by decide +kernel
theorem test_fcmp_unordered : Tests.x3 (.fcmp 0 3 3 1 2) 0x7FC00000 0 = 1 := by decide +kernel
theorem test_fcvtif : Tests.x3 (.fcvtif 0 3 1) (-3) 0 = 0xC0400000 := by decide +kernel
theorem test_fcvtfi_goes_toward_zero : Tests.x3 (.fcvtfi 0 3 1) 0xC0200000 0 = 0xFFFFFFFFFFFFFFFE := by decide +kernel

theorem test_vhist : Tests.vp (.vhist 0 3 1 2 1) 3 32 3 (Tests.vec 32 [1, 1, 2]) (Tests.vec 32 [5, 6, 7]) 0b111 0 = [5, 8, 8] := by
  decide +kernel
theorem test_vthr_counts_a_row :
    -- row length 16: lanes 0 and 2 of row 0 reach the threshold 1.0, a NaN does not and is reported
    (Tests.vp (.vthr 0 3 1 2 1) 3 32 1 (Tests.vec 32 [0x3F800000, 0, 0x40000000, 0x7FC00000])
      (Tests.vec 32 (List.replicate 8 0x3F800000)) 0 0,
     Tests.vp (.vthr 0 3 1 2 1) 3 32 65 (Tests.vec 32 [0x3F800000, 0, 0x40000000, 0x7FC00000])
      (Tests.vec 32 (List.replicate 8 0x3F800000)) 0 0 |>.getD 64 9) = ([2], 1) := by decide +kernel
theorem test_vxrep_folds_a_replica :
    (Tests.vp (.vxrep 0 3 1 2 1) 3 32 2 (Tests.vec 32 [5, 5]) (Tests.vec 32 [0x3F000000, 0x3F000000]) 0b11 0) = [0x3F800000, 0] := by
  decide +kernel
theorem test_vgatew_of_infinities :
    Tests.vp (.vgatew 0 3 1 1) 3 32 3 (Tests.vec 32 [0x7F800000, 0x3F800000, 0x7F800000]) 0 0b111 0 = [0x3F000000, 0, 0x3F000000] := by
  decide +kernel
theorem test_cqpush_pushes_in_lane_order :
    (Tests.strand (.cqpush 0 1 1) (Tests.on .x fun st =>
      { Tests.preds 0b101 0 (Tests.v (Tests.vec 32 [4, 5, 6]) 0 st) with cq := [9] })).cq = [9, 4, 6] := by decide +kernel
theorem test_cqpush_of_too_many_traps :
    (Tests.strand (.cqpush 0 1 15) (Tests.on .x id)).fault = some 0x31 := by decide +kernel
theorem test_cqpush_waits :
    (Tests.strand (.cqpush 0 1 1) (Tests.on .x fun st => { Tests.preds 1 0 st with cq := List.replicate 64 0 })).x.wait =
      some .countQueue := by decide +kernel

/-- The hypotheses of the vector statements. -/
theorem witness_vector_words :
    let s := Tests.on .x (Tests.x [(1, 0x3F800000), (2, 0x40000000)])
    XWord s 0 s ∧ readVec 1 s = .ok ((s.strand s.cur).v.get 1, s) ∧ readVec 2 s = .ok ((s.strand s.cur).v.get 2, s) ∧
    readReg 1 s = .ok (0x3F800000, s) ∧ readReg 2 s = .ok (0x40000000, s) ∧ (∃ t, readGroup 1 4 s = .ok ([0, 0, 0, 0], t)) ∧
    ∃ t, readGroup 1 2 s = .ok ([0, 0], t) :=
  ⟨⟨by and_intros <;> decide +kernel, Tests.takeNone _⟩, Tests.readVecOne _,
    Tests.readVecTwo _, rfl, rfl, Tests.exists_of_gave (by decide +kernel), Tests.exists_of_gave (by decide +kernel)⟩
theorem witness_conversions :
    (Instr.vcvt 0 4 1 8 6 0).reasonsIn (.polder false) = [] ∧ (Instr.vcvt 0 4 1 6 8 0).reasonsIn (.polder false) = [] ∧
    (cvtFmt 8).1.bits < (cvtFmt 6).1.bits := by decide +kernel
theorem witness_cqpush :
    let active (p : Nat) := (List.range 128).filter (BitVec.ofNat 1024 p).getLsbD
    active 0 = [] ∧ (active 5).length ≤ 64 ∧ 64 < (active (2 ^ 65 - 1)).length ∧ (active 5) ≠ [] ∧
    64 < (List.replicate 63 (0 : BitVec 32)).length + (active 5).length := by decide +kernel

/-! ## Access engine (R125-R156) -/

/-- A valid writable handle to a page of 64 KiB of die 0's memory. -/
def Tests.page : Handle :=
  { gen := 1, entry := 0, valid := true, kind := 1, size := 0, wr := true, seg := false, base := BitVec.ofNat 52 (dieAddr 0 0x400020000) }

/-- The A stream with the turn, registers set, handle 0 on `Tests.page`, and `n` bytes of `v` at `a`. -/
def Tests.acc (rs : List (Nat × Word)) (a v n : Nat) : State :=
  let s := Tests.on .a fun st => { Tests.a rs st with h := st.h.set 0 Tests.page }
  { s with mem := Memory.writeN a v n s.mem }

/-- The address of a byte of the page and of a byte of the scratchpad. -/
def Tests.pageAt (u : Nat) : Nat := dieAddr 0 (0x400020000 + u)
def Tests.scratchAt (u : Nat) : Nat := dieAddr 0 (poolOffset 0 + u)

theorem test_ld_extends_the_sign : Tests.reg (.ld 0 3 0 1 1 0 0) 3 (Tests.acc [(1, 8)] (Tests.pageAt 8) 0xFFFE 2) = 0xFFFFFFFFFFFFFFFE := by
  decide +kernel
theorem test_ld_of_an_invalid_handle :
    (Tests.strand (.ld 0 3 1 1 1 0 0) (Tests.acc [] 0 0 0)).fault = some 0x20 := by decide +kernel
theorem test_ld_acq_extends_with_zeros :
    Tests.reg (.ldAcq 0 3 0 1 0 1 0 3) 3 (Tests.acc [(1, 8)] (Tests.pageAt 8) 0xFE 1) = 0xFE := by decide +kernel

/-- The first elements of queue 0 of A to X after a vector load word and its completion. -/
def Tests.loads (i : Instr) (w n : Nat) (s : State) : List Nat :=
  let st := Tests.strand .vectorLoadComplete (Tests.next (exec i s))
  (List.range n).map fun k => lane w k (match st.vAX0 with
    | [] => 0
    | e :: _ => e.data)

theorem test_ldv : Tests.loads (.ldv 0 0 1 0 1 15) 8 3 (Tests.acc [(1, 16)] (Tests.pageAt 16) 0x030201 3) = [1, 2, 3] := by
  decide +kernel
theorem test_ldv_acq : Tests.loads (.ldvAcq 0 0 1 0 1 0 15) 8 3 (Tests.acc [(1, 16)] (Tests.pageAt 16) 0x030201 3) = [1, 2, 3] := by
  decide +kernel
theorem test_ldvs_takes_a_stride :
    Tests.loads (.ldvs 0 0 3 0 1 2 15) 32 2 (Tests.acc [(1, 0), (2, 8)] (Tests.pageAt 0) 0x300000002000000010 9) = [0x10, 0x30] := by
  decide +kernel
theorem test_ldvg_takes_indices :
    -- indices 2 and then zeros
    Tests.loads (.ldvg 0 0 3 0 1 2 15) 32 2
      { Tests.acc [(1, 0), (2, 0)] (Tests.pageAt 8) 7 4 with mem := Memory.writeN (Tests.scratchAt 0) 2 4 (Memory.writeN (Tests.pageAt 8) 7 4 []) } =
      [7, 0] := by decide +kernel
theorem test_ldp : Tests.reg (.ldp 0 3 1 2 1) 3 (Tests.acc [(1, 64)] (Tests.scratchAt 64) 0x12345678 4) = 0x12345678 := by decide +kernel
theorem test_ldp_misaligned : (Tests.strand (.ldp 0 3 1 2 1) (Tests.acc [(1, 66)] 0 0 0)).fault = some 0x23 := by decide +kernel
theorem test_ldpv : ((Tests.strand (.ldpv 0 1 1 0 1) (Tests.acc [(1, 64)] (Tests.scratchAt 64) 0x0201 2)).vAX1.map (lane 8 1 ·.data)) = [2] := by
  decide +kernel
theorem test_ldpvg :
    ((Tests.strand (.ldpvg 0 0 1 1 2) (Tests.acc [(1, 0), (2, 4096)] (Tests.scratchAt 0) 9 1)).vAX0.map (lane 8 1 ·.data)) = [9] := by
  decide +kernel

/-- An entry of 64 KiB at virtual address 0x10000 for every die, local to die 0. -/
theorem test_xlate_without_an_entry :
    (Tests.reg (.xlate 0 3 0 1) 3 (Tests.acc [(1, 0x10000)] 0 0 0), (Tests.strand (.xlate 0 3 0 1) (Tests.acc [(1, 0x10000)] 0 0 0)).h[0].valid) =
      (1, false) := by decide +kernel
theorem test_htest : Tests.reg (.htest 0 3 0) 3 (Tests.acc [] 0 0 0) = 0xA400000400020000 := by decide +kernel
theorem test_hrel : (Tests.strand (.hrel 0 0) (Tests.acc [] 0 0 0)).h[0].valid = false := by decide +kernel
theorem test_hmov : (Tests.strand (.hmov 0 2 0) (Tests.acc [] 0 0 0)).h[2] = Tests.page := by decide +kernel
theorem test_preq_without_an_area : Tests.reg (.preq 0 3 1) 3 (Tests.acc [(1, 2 ^ 56)] 0 0 0) = 3 := by decide +kernel
theorem test_pref_goes_on : (Tests.stream (.pref 0 0 1 0) (Tests.acc [] 0 0 0)).pc.toNat = placedText + 4 := by decide +kernel
theorem test_scbq_of_no_copies : Tests.reg (.scbq 0 3 1 2 0) 3 (Tests.acc [(1, 0), (2, 64)] 0 0 0) = 0 := by decide +kernel
theorem test_scbwait_goes_on : (Tests.stream (.scbwait 0 1) (Tests.acc [] 0 0 0)).pc.toNat = placedText + 4 := by decide +kernel

/-- A load stream of the scratchpad: two vectors of bytes, 512 apart, from address 0. -/
def Tests.streaming : AffineStream :=
  { desc := #v[0, BitVec.ofNat 64 (0x40 + 0x100 + 15 * 4096), 2, 0, 512, 0, 0, 0], handle := default, word := 0, next := 0, count := 2, pushed := 0
    flight := none, place := 0, began := 0, reqs := [], stopped := none }
theorem test_sbind :
    (Tests.strand (.sbind 0 0 1) (Tests.acc [(1, 64)] (Tests.scratchAt 64) (0xF140 * 2 ^ 64 + 2 * 2 ^ 128 + 512 * 2 ^ 256) 64)).ls0.map
      (fun x => (x.next, x.count)) = some (0, 2) := by decide +kernel
theorem test_sbind_of_a_reserved_field :
    (Tests.strand (.sbind 0 0 1) (Tests.acc [(1, 64)] (Tests.scratchAt 64) (0x10000 * 2 ^ 64) 64)).fault = some 0x29 := by decide +kernel

/-- The A stream with that stream bound to queue 0 and byte 2 at its first address. -/
def Tests.bound (rs : List (Nat × Word)) : State :=
  let s := Tests.on .a fun st => { Tests.a rs st with ls0 := some Tests.streaming }
  { s with mem := Memory.writeN (Tests.scratchAt 0) 2 1 s.mem }
theorem test_sbget : Tests.reg (.sbget 0 0 3) 3 (Tests.bound []) = 0x8000000000000000 := by decide +kernel
theorem test_sbadv_stops_at_the_end : (Tests.strand (.sbadv 0 0 1) (Tests.bound [(1, 9)])).ls0.map (·.next) = some 2 := by decide +kernel
theorem test_sbwait_waits : (Tests.stream (.sbwait 0 0) (Tests.bound [])).wait = some .dataQueue := by decide +kernel
theorem test_sunbind : (Tests.strand (.sunbind 0 0) (Tests.bound [])).ls0 = none := by decide +kernel
theorem test_load_stream_fetch :
    let st := Tests.strand .loadStreamFetch { Tests.bound [] with inp := [0] }
    (st.vAX0.map (lane 8 0 ·.data), st.ls0.map fun x => (x.next, x.pushed)) = ([2], some (1, 1)) := by decide +kernel

/-- A read that die 0's polder 0 sent at cycle 0 under tag 3. -/
def Tests.request : Req := { Req.blank 0 0 0 0 0x1000 128 0 with tag := some 3 }
theorem test_requester_timeout :
    let s := { Tests.die [5] id with reqs := [(5, Tests.request)], cycle := 2 ^ 40 }
    (look 5 (Tests.next (exec .requesterTimeout s)).reqs).map (fun r => (r.tag, r.reply.map (·.status))) = some (none, some 2) := by
  decide +kernel
theorem test_tag_rest_end :
    let s := { Tests.die [5] id with tagRest := [(5, 10)], cycle := 10 }
    (Tests.next (exec .tagRestEnd s)).tagRest = [] := by decide +kernel

theorem witness_loads :
    let s := Tests.acc [(1, 8)] (Tests.pageAt 8) 0xFFFE 2
    AWord s 0 s ∧ s.acquired = true ∧ s.pending = none ∧ readReg 1 s = .ok (8, s) ∧ (s.handle 0).valid = true ∧
    8 + 2 ≤ pageBytes (s.handle 0).size ∧ s.bankSplit 0 (Tests.pageAt 8) 2 = none ∧ s.MemoryCanonical ∧
    s.scoreboardHolds [(Tests.pageAt 8, 2)] = false ∧ s.place 0 (Tests.pageAt 8 / 128 * 128) = .mem ∧
    s.poisonIn (Tests.pageAt 8) 2 = none ∧ (s.handle 1).valid = false ∧ pageBytes (s.handle 0).size < 65535 + 2 ^ 1 :=
  ⟨⟨by and_intros <;> decide +kernel, Tests.takeNone _⟩, by decide +kernel, by decide +kernel,
    rfl, by decide +kernel, by decide +kernel, by decide +kernel, by unfold State.MemoryCanonical; decide +kernel, by and_intros <;> decide +kernel⟩

/-- Whether a read of ranges came to its results, or to a request. -/
def Tests.fetched (r : Res Fetch) : Option Nat :=
  match r with
  | .ok (.got rs _ _) => some rs.length
  | .ok (.stay _) => none
  | .error _ => none
theorem Tests.exists_of_fetched : {r : Res Fetch} → {n : Nat} → Tests.fetched r = some n → ∃ rs ids t, r = .ok (.got rs ids t)
  | .ok (.got rs ids t), _, _ => ⟨rs, ids, t, rfl⟩
  | .ok (.stay _), _, h => nomatch h
  | .error _, _, h => nomatch h
theorem witness_reads :
    let s := Tests.acc [(1, 8)] (Tests.pageAt 8) 0xFFFE 2
    ∃ rs ids t, fetchRanges readDieReg (s.reader 1 false) false true [(Tests.pageAt 8, 2)] [] s s = .ok (.got rs ids t) :=
  Tests.exists_of_fetched (n := 1) (by decide +kernel)
theorem witness_failing_loads :
    collectRange [(Tests.pageAt 0 / 128, ⟨2, 0, 0⟩)] (Tests.pageAt 8) 2 = ⟨2, Tests.pageAt 8, 0, none⟩ ∧
    (collectRange [(Tests.pageAt 0 / 128, ⟨0, 0, 2⟩)] (Tests.pageAt 8) 2).poisonAt = some (Tests.pageAt 8) := by decide +kernel
theorem witness_vector_loads :
    let v : VLoad := ⟨1, 0, 0, 1, 0, 1, 0, none, 15⟩
    let s := Tests.acc [(1, 16)] (Tests.pageAt 16) 0x030201 3
    let t := Tests.next (exec (.ldv 0 0 1 0 1 15) s)
    (s.strand s.cur).loadStream 0 = none ∧ 16 + 512 ≤ pageBytes (s.handle 0).size ∧ Tests.came (vloadSources v s) = true ∧
    s.bankSplit 0 (Tests.pageAt 16) 512 = none ∧ (t.strand t.cur).a.pend.map (·.data) = some v.toList ∧
    Tests.gave [2] (indexList 4096 1 { s with mem := Memory.writeN (Tests.scratchAt 4096) 2 4 [] } |>.map fun l => (l, s)) = true ∧
    (∀ i : Fin 128, (0 : Int) ≤ 16 + i.val * 8 ∧ 16 + (i.val : Int) * 8 + 4 ≤ 65536) := by decide +kernel
theorem witness_scratchpad_loads :
    let s := Tests.acc [(1, 64)] (Tests.scratchAt 64) 0x12345678 4
    s.scratchPa 64 = Tests.scratchAt 64 ∧ 64 + 512 ≤ s.myCrew.scratchBytes ∧ s.myCrew.scratchBytes < 2 ^ 23 ∧
    s.scoreboardHolds [(Tests.scratchAt 64, 512)] = false ∧ s.poisonIn (Tests.scratchAt 64) 512 = none ∧
    Tests.came (scratchVector 1 false 64 s) = true ∧ (s.myCrew.fmtOf 0).sixBit = false ∧
    s.myCrew.fmtCode 0 = s.myCrew.fmtCode ((64 + 511) / 65536) ∧ Tests.came (scratchGather 0 1 [0, 1] s) = true := by decide +kernel
theorem witness_translation :
    let d := { Die.reset with xent := [(0, (BitVec.ofNat 64 (2 ^ 63 + 2 ^ 61 + 0x20000), BitVec.ofNat 64 0x100000))] }
    (Die.reset.search 0 0 0x10000 false = none) ∧ (d.search 0 0 0x40000 false).isSome = true := by decide +kernel
theorem witness_load_streams :
    let s := Tests.bound []
    s.acquired = true ∧ (s.strand s.cur).loadStream 0 = some Tests.streaming ∧ (s.strand s.cur).loadStream 1 = none ∧
    streamFault s.myCrew s.handle (descrOf Tests.streaming.desc) = none ∧ Tests.came (readDescr 64 0x23 0x28 s) = true ∧
    s.strand? s.cur = some (s.strand s.cur) ∧ ((s.strand s.cur).vAX 0).length < 8 ∧ (s.crew 0 0).halted = false ∧
    bitsOf (descrOf Tests.streaming.desc).ctrl 8 8 = 1 ∧ (streamFault s.myCrew s.handle (descrOf (Vector.replicate 8 (-1)))).isSome = true := by
  decide +kernel
theorem witness_timers :
    let s := { Tests.die [5] id with reqs := [(5, Tests.request)], tagRest := [(5, 10)] }
    s.inp = [5] ∧ look 5 s.reqs = some Tests.request ∧ Tests.request.reply = none ∧ s.cycle < Tests.request.sent + (s.die 0).interval ∧
    look 5 s.tagRest = some 10 ∧ Tests.request.purpose = .plain ∧ Tests.request.mark = false ∧ ¬ Tests.request.kind = 2 := by decide +kernel

/-! ## Copy engine (R193-R220) -/

/-- A stream with the turn, changed by `f`, in a crew changed by `g`, with `n` bytes of `v` at `a`. -/
def Tests.crewOn (k : Str) (f : Strand → Strand) (g : Crew → Crew) (a v n : Nat) : State :=
  let s := Tests.on k f
  { s.setCrew 0 0 (g (s.crew 0 0)) with mem := Memory.writeN a v n s.mem }

/-- The crew after an instruction. -/
def Tests.crewAfter (i : Instr) (s : State) : Crew := (Tests.next (exec i s)).crew 0 0

/-- Source 0x1000, length 128 and destination 0x2000 of the scratchpad in registers 1, 2 and 3. -/
def Tests.copying (g : Crew → Crew) (v : Nat) : State :=
  Tests.crewOn .a (Tests.a [(1, 0x1000), (2, 128), (3, 0x2000)]) g (Tests.scratchAt 0x1000) v 8

/-- A ring of two stages of 4096 bytes at bank 4. -/
def Tests.ringed (c : Crew) : Crew := c.setRing 0 (ringOf 0x41001)

theorem test_cpy_enters_the_scoreboard :
    let e := (Tests.crewAfter (.cpy 0 0 0 3 1 2) (Tests.copying id 7)).copyAt 0
    (e.state, e.srcPa, e.dstPa, e.dstLen) = (.queued, Tests.scratchAt 0x1000, Tests.scratchAt 0x2000, 128) := by decide +kernel
theorem test_cpy_of_a_reserved_address_bit :
    (Tests.strand (.cpy 0 0 0 3 1 2) (Tests.crewOn .a (Tests.a [(1, 0x100001000), (2, 128), (3, 0x2000)]) id 0 0 0)).fault = some 0x40 := by
  decide +kernel
/-- That copy issued and started. -/
def Tests.started : State := Tests.next (exec .copyCommandStart (Tests.next (exec (.cpy 0 0 0 3 1 2) (Tests.copying id 7))))
theorem test_copy_command_start : ((Tests.started.crew 0 0).copyAt 0).state = .active := by decide +kernel
theorem test_copy_unit_land :
    let t := Tests.next (exec .copyUnitLand { Tests.started with inp := [0, 0] })
    (t.byteAt (Tests.scratchAt 0x2000), ((t.crew 0 0).copyAt 0).state) = (7, .free) := by decide +kernel
theorem test_cpyr_fills_its_ring :
    let c := Tests.crewAfter (.cpyr 0 0 0 1 2) (Tests.copying Tests.ringed 7)
    ((c.copyAt 0).dstPa, (c.ring 0).fillStage, (c.ring 0).fillOff) = (Tests.scratchAt 0x40000, 0, 128) := by decide +kernel
theorem test_cpyr_at_keeps_the_fill_point :
    let c := Tests.crewAfter (.cpyrAt 0 0 0 4 1 2) (Tests.copying (fun c =>
      c.setRing 0 { ringOf 0x41001 with fillStage := 1, fillOff := 256 }) 7)
    ((c.copyAt 0).dstPa, (c.ring 0).fillStage, (c.ring 0).fillOff) = (Tests.scratchAt 0x40000, 1, 256) := by decide +kernel
theorem test_cpym_hands_out_a_number :
    let c := Tests.crewAfter (.cpym 0 0 0 3 1 2 0x98000000) (Tests.copying id 7)
    ((c.copyAt 0).follow, c.matOrder) = (some 0x98000000, 1) := by decide +kernel
theorem test_cpyg_of_one_row :
    -- the list at 0x100, one row of 128 bytes
    let e := (Tests.crewAfter (.cpyg 0 3 1 2) (Tests.crewOn .a (Tests.a [(1, 0x3000), (2, 0x100000100), (3, 0x2000)]) id 0 0 0)).copyAt 0
    (e.op, e.dstLen) = (.gather, 128) := by decide +kernel
theorem test_cpymeta :
    ((Tests.crewAfter (.cpymeta 0 4 1 2) (Tests.copying (fun c => { c with partition := 0x0270050A }) 7)).copyAt 0).op = .sidecar := by decide +kernel
theorem test_cpyq :
    let e := (Tests.crewAfter (.cpyq 0 1 4) (Tests.crewOn .a (Tests.a [(1, 0x1000), (4, 2)]) id 0 0 0)).copyAt 0
    (e.op, e.units, e.srcR) = (.queue, 2, [(Tests.scratchAt 0x1000, 1024)]) := by decide +kernel
theorem test_cmerge_adds :
    -- add.i32 of 7 at the source and 5 at the destination
    let s := Tests.copying id 7
    let s1 := { s with mem := Memory.writeN (Tests.scratchAt 0x2000) 5 1 s.mem }
    let t := Tests.next (exec .copyCommandStart (Tests.next (exec (.cmerge 0 0 3 1 2) s1)))
    let u := Tests.next (exec .copyUnitLand { t with inp := [0, 0] })
    (Tests.next (exec .copyUnitLand { u with inp := [0, 0] })).byteAt (Tests.scratchAt 0x2000) = 12 := by decide +kernel
theorem test_bfmt_perform :
    let t := Tests.next (exec (.bfmt 0 1 0x12) (Tests.copying id 0))
    (((t.crew 0 0).copyAt 0).op, (t.crew 0 0).fmtCode 1, (Tests.crewAfter .bfmtPerform { t with inp := [0] }).fmtCode 1) =
      (.bfmt 1 0x12, 0, 0x12) := by decide +kernel
theorem test_ccancel_ends_a_queued_copy :
    let t := Tests.next (exec (.cpy 0 0 0 3 1 2) (Tests.copying id 7))
    (Tests.reg (.ccancel 0 5 4) 5 t, ((Tests.crewAfter (.ccancel 0 5 4) t).copyAt 0).status) = (1, 6) := by decide +kernel
theorem test_cstat_of_an_active_copy :
    Tests.reg (.cstat 0 5 4) 5 Tests.started = 0x4000000000000000 := by decide +kernel
theorem test_copy_suspend_without_a_segment :
    (Tests.crewAfter .copySuspend { Tests.started with inp := [0, 0] }).copyAt 0 = (Tests.started.crew 0 0).copyAt 0 := by decide +kernel
theorem test_copy_engine_reset : ((Tests.crewAfter .copyEngineReset Tests.started).copyAt 0).status = 11 := by decide +kernel

theorem witness_copy_words :
    let s := Tests.copying Tests.ringed 7
    AWord s 0 s ∧ s.acquired = true ∧ s.pending = none ∧ readReg 1 s = .ok (0x1000, s) ∧ readReg 2 s = .ok (128, s) ∧
    readReg 4 s = .ok (0, s) ∧ s.myCrew.ringPending 0 = false ∧ (s.myCrew.ring 0).stages ≠ 0 ∧ s.myCrew.debug = false ∧
    (s.myCrew.copyAt 0).state = .free ∧ (bankFmt 0x12).isSome = true ∧ 1 < s.myCrew.scratchBytes / 65536 ∧
    (0x98000000 : BitVec 32).toNat / 2 ^ 25 ≠ 0x4F :=
  ⟨⟨by and_intros <;> decide +kernel, Tests.takeNone _⟩, by decide +kernel, by decide +kernel,
    rfl, rfl, rfl,
    by and_intros <;> decide +kernel⟩
/-- Whether the plan of a copy passes its checks. -/
def Tests.planned (s : State) : Bool :=
  match planCpy 0 0 3 1 2 s with
  | .ok (p, bad, _) => Tests.came (p.check s bad [])
  | .error _ => false
theorem witness_copy_plans :
    let s := Tests.copying Tests.ringed 7
    let stage : Side := { global := false, hn := 0, h := default, off := 0x40000 }
    let plan := planCopy s (sideOf 0x1000 s) stage 128 false false none none true
    Tests.planned s = true ∧ plan.cmd.dstLen = 128 ∧ plan.convBad = false ∧ Tests.came (plan.check s (copyAddrBad 0x1000) []) = true ∧
    (∀ i : Fin 16, (({ s.myCrew with copies := Vector.replicate 16 { CopyCmd.blank .bytes with state := .active } } : Crew).copyAt i.val).state ≠ .free) ∧
    Tests.came (firstTrap [(false, 0, 0)]) = true ∧ Tests.came (firstTrap [(false, 0, 0), (true, 1, 2)]) = false := by decide +kernel
theorem witness_other_copy_words :
    let s := Tests.crewOn .a (Tests.a [(1, 0x3000), (2, 0x100000100), (3, 0x2000)]) id 0 0 0
    let t := Tests.copying (fun c => { c with partition := 0x0270050A }) 7
    Tests.came (copyRegs 3 1 2 s) = true ∧
    Tests.came (copyChecks s (sideOf 0x3000 s) (sideOf 0x2000 s) [] false [(0x3000, 1)] [(0x2000, 128)] 0 128
      [false, false, false, false, false] true []) = true ∧
    Tests.came (copyChecks t (sideOf 0x1000 t) default [] false [(0x1000, 128)] [] 128 0 [false, false, false, false, false] false
      [((t.myCrew.sideMemory 0 0).2 < 0 + 128, 0x43, 0)]) = true ∧
    Tests.came (copyChecks t (sideOf 0x1000 t) (sideOf 0x2000 t) [] false [(0x1000, 128)] [(0x2000, 128)] 128 128
      [false, false, false, false, false] true []) = true ∧
    Tests.came (copyChecks t (sideOf 0x1000 t) default [] false [(0x1000, 1024)] [] 1024 0 [false, false, false, false, false] false
      [(65535 < 2, 0x43, 2)]) = true := by decide +kernel
theorem witness_copy_events :
    let s := Tests.next (exec (.cpy 0 0 0 3 1 2) (Tests.copying id 7))
    let e := (Tests.started.crew 0 0).copyAt 0
    s.oldestReady 0 0 = some 0 ∧ (s.crew? 0 0).isSome = true ∧ ((s.crew 0 0).copyAt 0).units ≠ 0 ∧
    ((s.crew 0 0).copies.toList.filter fun e => e.state = .active).length < 8 ∧ e.next < e.units ∧ e.follow = none ∧ e.op = .bytes ∧
    (∀ k : Fin 128, Tests.started.place 0 ((e.srcPa + (e.unitRange 0).1 + k.val) / 128 * 128) = .mem) ∧
    Tests.started.place 0 (e.dstPa + (e.unitRange 0).1) = .mem ∧ Tests.started.poisonIn e.srcPa 128 = none ∧ e.ring = 8 ∧
    e.flight = [] ∧ e.landed = [] ∧ e.poisoned = false ∧ e.overfill = false ∧ e.cancelled = false ∧ (e.unitRange 0).2 = 128 := by
  decide +kernel
theorem witness_bfmt_perform :
    let t := Tests.next (exec (.bfmt 0 1 0x12) (Tests.copying id 0))
    let e := (t.crew 0 0).copyAt 0
    e.op = .bfmt 1 0x12 ∧ e.state = .queued ∧ t.mayStart 0 0 e = true ∧ e.flight = [] ∧ 8 ≤ e.ring := by decide +kernel
theorem witness_copy_suspend :
    let s := { Tests.started with inp := [0, 0] }
    let w := dieAddr 0 0x1000
    let t := s.setCopy 0 0 0 { (s.crew 0 0).copyAt 0 with srcPa := w, state := .active }
    (∀ k : Fin 128, t.place 0 ((w + k.val) / 128 * 128) = .window) ∧ (t.die 0).holds (paOffset w / (t.die 0).segSize) = false := by
  decide +kernel

/-! ## Matrix engine (R185, R224-R252) -/

/-- A crew with a matrix command queued: its word and register values. -/
def Tests.queued (w : BitVec 32) (v1 v2 : Word) (c : Crew) : Crew :=
  { c with matQ := [{ word := w, follow := false, strand := 0, val1 := v1, val2 := v2, stamp := 0, after := 0 }] }
def Tests.ctlWord (i : Instr) : BitVec 32 := (encode i).headD 0

theorem test_mma_enters_its_queue :
    let c := Tests.crewAfter (.mma 0 0 1 2 0 1 0 0 0 3) (Tests.on .x id)
    (c.matQ.map (·.word), c.matOrder) = ([Tests.ctlWord (.mma 0 0 1 2 0 1 0 0 0 3)], 1) := by decide +kernel
theorem test_mmas_enters_the_urgent_queue :
    (Tests.crewAfter (.mmas 0 1 1 2 0 1 0 0 0 3) (Tests.on .x id)).matU.length = 1 := by decide +kernel
theorem test_mmag_waits_while_the_queue_is_full :
    (Tests.stream (.mmag 0 0 1 2 1 0 0 3) (Tests.crewOn .x id (fun c =>
      { c with matQ := List.replicate 16 ((Tests.queued 0 0 0 c).matQ.headD default) }) 0 0 0)).wait = some .commandQueue := by decide +kernel
theorem test_mctl_zero : (Tests.crewAfter (.mctlZero 0 0 3 1) (Tests.on .x id)).matQ.length = 1 := by decide +kernel
theorem test_mctl_mode_of_reserved_bits :
    (Tests.strand (.mctlMode 0 0 1 1 2) (Tests.on .x (Tests.x [(2, 1)]))).fault = some 0x48 := by decide +kernel
theorem test_mctl_mode : (Tests.crewAfter (.mctlMode 0 0 1 1 2) (Tests.on .x (Tests.x [(1, 0x1313000000000000)]))).matQ.map (·.val1) =
    [0x1313000000000000] := by decide +kernel
theorem test_mctl_ring : (Tests.crewAfter (.mctlRing 0 0 1 1) (Tests.on .x (Tests.x [(1, 0x41001)]))).matQ.map (·.val1) = [0x41001] := by
  decide +kernel
theorem test_mctl_ring_too_large : (Tests.strand (.mctlRing 0 0 1 1) (Tests.on .x (Tests.x [(1, 0x41041)]))).fault = some 0x49 := by
  decide +kernel
theorem test_mctl_pop : (Tests.crewAfter (.mctlPop 0 0 1 1) (Tests.on .x (Tests.x [(1, 2)]))).matQ.map (·.val1) = [2] := by
  decide +kernel
theorem test_mctl_wait_of_no_commands : Tests.reg (.mctlWait 0 3) 3 (Tests.on .x id) = 0 := by decide +kernel
theorem test_vtile_rd_reads_and_clears :
    let s := Tests.crewOn .x (Tests.x [(1, 1)]) (fun c => { c with tilesFull := 6 }) ((Tests.on .x id).tileAddr 0 0 1 + 512) 9 1
    ((Tests.strand (.vtileRd 0 3 1 1 1) s).v.get 3, (Tests.crewAfter (.vtileRd 0 3 1 1 1) s).tilesFull) = (9, 4) := by decide +kernel
theorem test_vtile_rd_past_the_tile : (Tests.strand (.vtileRd 0 3 1 1 1) (Tests.on .x (Tests.x [(1, 32)]))).fault = some 0x30 := by
  decide +kernel
theorem test_vtile_wr_writes_and_fills :
    let t := Tests.next (exec (.vtileWr 0 1 2 4 1) (Tests.on .x (Tests.v 5 0)))
    (t.byteAt (t.tileAddr 0 0 2), (t.crew 0 0).tilesFull) = (5, 4) := by decide +kernel

theorem test_matrix_command_start_sets_a_mode :
    (Tests.crewAfter .matrixCommandStart { Tests.crewOn .x id (Tests.queued (Tests.ctlWord (.mctlMode 0 0 1 1 2)) 5 6) 0 0 0 with
      inp := [0] }).modes[1] = (5, 6) := by decide +kernel
theorem test_ring_config_effect :
    ((Tests.crewAfter .ringConfigEffect { Tests.crewOn .x id (Tests.queued (Tests.ctlWord (.mctlRing 0 0 1 1)) 0x41001 0) 0 0 0 with
      inp := [0] }).ring 1).stageSize = 4096 := by decide +kernel
/-- A queue whose MCTL.ZERO of tile 3 with FILL waits for its tile. -/
def Tests.zeroing : State :=
  Tests.next (exec .matrixCommandStart { Tests.crewOn .x id (Tests.queued (Tests.ctlWord (.mctlZero 0 0 3 1)) 0 0) 0 0 0 with inp := [0] })
theorem test_tile_acquire :
    ((Tests.crewAfter .tileAcquire { Tests.zeroing with inp := [3] }).actQ.map (·.owns)) = some (some 3) := by decide +kernel
theorem test_matrix_command_retire_of_a_failed_command :
    let c := Tests.crewAfter .matrixCommandRetire { Tests.crewOn .x id (fun c => { c with
      actQ := some { MatActive.of ((Tests.queued (Tests.ctlWord (.mma 0 0 1 2 0 1 0 0 0 3)) 0 0 c).matQ.headD default) 0 0 with
        status := some 1 } }) 0 0 0 with inp := [0] }
    (c.actQ, c.mxstat.toNat % 256) = (none, 1) := by decide +kernel
theorem test_follow_on_handoff :
    let c := Tests.crewAfter .followOnHandoff { Tests.crewOn .x id (fun c =>
      { c with copies := c.copies.set 0 { CopyCmd.blank .bytes with state := .active, follow := some 0x98000000 } }) 0 0 0 with inp := [0] }
    (c.matQ.map (·.word), (c.copyAt 0).state) = ([0x98000000], .free) := by decide +kernel
theorem test_matrix_engine_reset :
    (Tests.crewAfter .matrixEngineReset (Tests.crewOn .x id (Tests.queued 0 0 0) 0 0 0)).matQ = [] := by decide +kernel
theorem test_mmag_length_reread :
    -- a length of 0 stands at the table, so no row-tile begins
    ((Tests.crewAfter .mmagLengthReread { Tests.crewOn .x id (fun c => { c with
      actQ := some (MatActive.of { word := Tests.ctlWord (.mmag 0 0 1 2 1 0 0 3), follow := false, strand := 0, val1 := 0, val2 := 0, stamp := 0
                                   after := 0 } 0 0) }) 0 0 0 with inp := [0] }).actQ.map (·.left)) = some 1 := by decide +kernel
theorem test_slab_step_issue_without_a_command :
    Tests.crewAfter .slabStepIssue (Tests.on .x id) = (Tests.on .x id).crew 0 0 := by decide +kernel

theorem witness_matrix_words :
    let s := Tests.on .x (Tests.x [(1, 0x1313000000000000)])
    XWord s 0 s ∧ s.myCrew.debug = false ∧ (s.myCrew.mq false).length < 16 ∧ readReg 1 s = .ok (0x1313000000000000, s) ∧
    readReg 2 s = .ok (0, s) ∧ (0x1313000000000000 : Word).getLsbD 31 = false ∧ matClass 0x13 ≠ 0 ∧ s.pending = none ∧
    s.myCrew.matLive 0 0 = false ∧ ringCheck s.myCrew 1 0x41001 = 0 ∧ ringCheck s.myCrew 1 0x41041 ≠ 0 :=
  ⟨⟨by and_intros <;> decide +kernel, Tests.takeNone _⟩, by decide +kernel, by decide +kernel,
    rfl, rfl, by decide, by and_intros <;> decide +kernel⟩
theorem witness_tile_words :
    let s := Tests.crewOn .x (Tests.x [(1, 1)]) (fun c => { c with tilesFull := 2 }) 0 0 0
    readReg 1 s = .ok (1, s) ∧ s.passed .a ((look 1 (s.stream s.cur).marks.tiles).getD 0) = true ∧
    s.myCrew.tileHeld 0 (s.stream s.cur).seq 1 false = false ∧ s.myCrew.tileHeld 0 (s.stream s.cur).seq 1 true = false ∧
    s.myCrew.tileFull 1 = true ∧ s.myCrew.tileFull 2 = false ∧ s.poisonIn (s.tileAddr 0 0 1 + 512) 512 = none :=
  ⟨rfl, by and_intros <;> decide +kernel⟩
theorem witness_matrix_starts :
    let c := (Tests.crewOn .x id (Tests.queued (Tests.ctlWord (.mma 0 0 1 2 0 1 0 0 0 3)) 0 0) 0 0 0).crew 0 0
    c.halted = false ∧ c.act false = none ∧ c.act true = none ∧ (c.mq false).length = 1 ∧
    (matWord (Tests.ctlWord (.mma 0 0 1 2 0 1 0 0 0 3))).product = true ∧ (matWord (Tests.ctlWord (.mctlMode 0 0 1 1 2))).fn = 1 ∧
    (matWord (Tests.ctlWord (.mctlMode 0 0 1 1 2))).ms = 1 ∧ (matWord (Tests.ctlWord (.mctlZero 0 0 3 1))).fn = 0 ∧
    (matWord (Tests.ctlWord (.mctlPop 0 0 1 1))).fn = 3 ∧ ((Tests.ringed c).ring 0).stages ≠ 0 ∧
    (matWord (Tests.ctlWord (.mctlRing 0 0 1 1))).fn = 2 ∧ (matWord (Tests.ctlWord (.mctlRing 0 0 1 1))).ra = 1 ∧
    (matWord (Tests.ctlWord (.mctlZero 0 0 3 1))).product = false ∧ (∀ e ∈ c.copies.toList, e.state = .free) := by decide +kernel
theorem witness_tile_acquire :
    let a := ((Tests.zeroing.crew 0 0).actQ).getD default
    (Tests.zeroing.crew 0 0).actU = none ∧ a.wants.map (·.1) = some 3 ∧ Tests.zeroing.followMay 0 0 a = true ∧
    (Tests.zeroing.crew 0 0).tileFull 3 = false ∧ (Tests.zeroing.crew 0 0).tileOwned 3 = false ∧
    Tests.zeroing.poisonIn (Tests.zeroing.tileAddr 0 0 3) 16384 = none := by decide +kernel
theorem witness_matrix_steps :
    let w := Tests.ctlWord (.mma 0 0 1 2 0 1 0 0 0 3)
    let r := { ringOf 0x41001 with fillStage := 1, head := 0, counts := [4096, 4096] }
    let a : MatActive := { MatActive.of { word := w, follow := false, strand := 0, val1 := 0, val2 := 0, stamp := 0, after := 0 }
      0x1313000000000000 0 with owns := some 2 }
    let s := Tests.crewOn .x id (fun c => { (c.setRing 0 r).setRing 1 r with actQ := some a }) 0 0 0
    (matWord w).major = 0x4C ∧ s.stepReady 0 0 a = true ∧ (s.die 0).rampAllows = true ∧ (matWord w).ks < 4 ∧
    (matWord (Tests.ctlWord (.mmag 0 0 1 2 1 0 0 3))).major = 0x4E ∧ s.poisonIn (dieAddr 0 (poolOffset 0)) 4 = none := by decide +kernel
theorem witness_handoff :
    (matWord 0x98000000).u = false ∧ ((Tests.on .x id).crew 0 0).halted = false ∧ (0 : Nat) < 1 ∧ (1 : Nat) < 256 := by decide +kernel

/-! ## Sync engine (R253-R273) -/

/-- Handles on a page of the berm and on a page of the sync memory of die 0. -/
def Tests.bermPage : Handle := { Tests.page with base := BitVec.ofNat 52 (dieAddr 0 0x400020000) }
def Tests.syncPage : Handle := { Tests.page with base := BitVec.ofNat 52 (dieAddr 0 0x600000000) }
def Tests.syncAt (u : Nat) : Nat := dieAddr 0 (0x600000000 + u)

/-- The X stream with those handles in h0 and h1, registers, and words of memory. -/
def Tests.sync (rs : List (Nat × Word)) (ws : List (Nat × Nat)) : State :=
  let s := Tests.on .x fun st => { Tests.x rs st with h := (st.h.set 0 Tests.bermPage).set 1 Tests.syncPage }
  { s with mem := ws.foldl (fun m w => Memory.writeN w.1 w.2 8 m) s.mem }

/-- The address word of byte `u` of the sync page. -/
def Tests.objectAt (u : Nat) : Word := BitVec.ofNat 64 (2 ^ 60 + u)

theorem test_tagw_out_of_range : Tests.reg (.tagw 2 3 1) 3 (Tests.on .x (Tests.x [(1, 0xF0000000)])) = 512 := by decide +kernel
theorem test_tagw_stays_until_the_tag : (Tests.stream (.tagw 2 3 1) (Tests.on .x id)).pend.map (·.data) = some [900, 0] := by
  decide +kernel
theorem test_atom_adds :
    let s := Tests.sync [(3, 5), (1, 8)] [(Tests.pageAt 8, 7)]
    let t := Tests.next (exec (.atom 0 3 1 0 1 0 0) s)
    ((t.stream t.cur).regs.get 3, t.readN (Tests.pageAt 8) 8) = (7, 12) := by decide +kernel
theorem test_atom_misaligned : (Tests.strand (.atom 0 3 1 0 1 0 0) (Tests.sync [(1, 4)] [])).fault = some 0x52 := by decide +kernel
theorem test_acas_that_fails_writes_nothing :
    let s := Tests.sync [(3, 5), (4, 6), (1, 8)] [(Tests.pageAt 8, 7)]
    let t := Tests.next (exec (.acas 0 3 1 1 0 0) s)
    ((t.stream t.cur).regs.get 3, t.readN (Tests.pageAt 8) 8) = (7, 7) := by decide +kernel
theorem test_red_queues_and_is_sent :
    let t := Tests.next (exec (.red 0 3 1 4 0 0 0) (Tests.sync [(3, 9), (1, 8)] [(Tests.pageAt 8, 7)]))
    ((t.strand t.cur).syncQ.length, (Tests.next (exec .syncCommandSend t)).readN (Tests.pageAt 8) 4) = (1, 9) := by decide +kernel
theorem test_bara_counts :
    let t := Tests.next (exec (.bara 0 3 1) (Tests.sync [(1, Tests.objectAt 16)] [(Tests.syncAt 16, 2 ^ 32), (Tests.syncAt 24, 2)]))
    ((t.stream t.cur).regs.get 3, t.readN (Tests.syncAt 16) 8) = (1, 2 ^ 32 + 1) := by decide +kernel
theorem test_barw_of_a_past_generation :
    Tests.reg (.barw 0 3 1 2) 3 (Tests.sync [(1, Tests.objectAt 16), (2, 0), (3, 9)] [(Tests.syncAt 16, 2 ^ 32), (Tests.syncAt 24, 2)]) = 0 := by
  decide +kernel
theorem test_carm_sets_a_counter :
    let s := Tests.sync [(1, Tests.objectAt 32), (2, BitVec.ofNat 64 (2 ^ 63 + 5))] [(Tests.syncAt 32, 4)]
    let t := Tests.next (exec .syncCommandSend (Tests.next (exec (.carm 0 1 2 0) s)))
    (t.readN (Tests.syncAt 32) 8, t.readN (Tests.syncAt 40) 8, (t.die 0).armed) = (0, 2 ^ 63 + 5, [Tests.syncAt 32]) := by decide +kernel
theorem test_carm_of_reserved_bits :
    (Tests.strand (.carm 0 1 2 0) (Tests.sync [(1, Tests.objectAt 32), (2, BitVec.ofNat 64 (2 ^ 51))] [])).fault = some 0x56 := by
  decide +kernel
theorem test_carr_counts_one :
    let s := Tests.sync [(1, Tests.objectAt 32), (2, 9)] [(Tests.syncAt 32, 4)]
    (Tests.next (exec .syncCommandSend (Tests.next (exec (.carr 0 1 2) s)))).readN (Tests.syncAt 32) 8 = 5 := by decide +kernel
theorem test_cwait_waits :
    (((Tests.next (exec (.cwait 0 3 1 2) (Tests.sync [(1, Tests.objectAt 32), (2, 9)] [(Tests.syncAt 32, 4)]))).die 0).waiters.map
      fun w => (w.kind, w.object, w.value)) = [(1, Tests.syncAt 32, 9)] := by decide +kernel
theorem test_semp_takes_a_unit :
    (Tests.next (exec (.semp 0 3 1) (Tests.sync [(1, Tests.objectAt 16)] [(Tests.syncAt 16, 3)]))).readN (Tests.syncAt 16) 8 = 2 := by
  decide +kernel
theorem test_semv_gives_units :
    let s := Tests.sync [(1, Tests.objectAt 16), (2, 4)] [(Tests.syncAt 16, 3)]
    (Tests.next (exec .syncCommandSend (Tests.next (exec (.semv 0 1 2) s)))).readN (Tests.syncAt 16) 8 = 7 := by decide +kernel
theorem test_signal_stays_pending :
    let s := Tests.sync [(1, Tests.objectAt 16), (2, 4)] []
    (Tests.next (exec .syncCommandSend (Tests.next (exec (.signal 0 1 2) s)))).readN (Tests.syncAt 22) 2 = 4 := by decide +kernel
/-- The overflow area of two chunks at the start of the berm. -/
def Tests.overflow (s : State) : State :=
  s.setDie 0 { s.die 0 with syncOvBase := BitVec.ofNat 64 (dieAddr 0 0x400100000), syncOvSize := 2 }
theorem test_waitc_ends_the_stream :
    let t := Tests.next (exec (.waitc 0 1 2 4) (Tests.overflow (Tests.sync [(1, Tests.objectAt 16), (2, 0x1000)] [])))
    ((t.stream t.cur).ended, (t.strand t.cur).waitc.map (·.object), (t.die 0).chunks) =
      (true, some (Tests.syncAt 16), [(dieAddr 0 0x400100000, 0)]) := by decide +kernel
theorem test_waitc_without_a_chunk :
    let t := Tests.next (exec (.waitc 0 1 2 4) (Tests.sync [(1, Tests.objectAt 16), (2, 0x1000)] []))
    ((t.strand t.cur).fault, (t.die 0).syncRefused) = (some 0x56, 1) := by decide +kernel

/-- A waiter for a counter, registered at cycle 0. -/
def Tests.waiter : Waiter := { origin := .here 7, kind := 1, object := Tests.syncAt 32, value := 9, since := 0, chunk := none }
theorem test_sync_wait_limit :
    let s := { Tests.die [0] fun d => { d with waiters := [Tests.waiter] } with cycle := 2 ^ 40, reqs := [(7, Tests.request)] }
    let t := Tests.next (exec .syncWaitLimit s)
    ((t.die 0).waiters, (t.replyOf 7).map (·.data)) = ([], some 1) := by decide +kernel
theorem test_sync_engine_reset :
    ((Tests.next (exec .syncEngineReset (Tests.die [] fun d => { d with waiters := [Tests.waiter] }))).die 0).waiters = [] := by decide +kernel
theorem test_trigger_take_marks_the_counter :
    let t := Tests.next (exec .triggerTake (Tests.die [] fun d => { d with fired := [⟨Tests.syncAt 32, dieAddr 0 0x400001000, 0⟩] }))
    ((t.die 0).fired, t.readN (Tests.syncAt 40) 8) = ([], 2 ^ 61) := by decide +kernel

theorem witness_sync_words :
    let s := Tests.sync [(3, 5), (1, 8)] [(Tests.pageAt 8, 7)]
    XWord s 0 s ∧ s.Ready (namedBy 2) ∧ readReg 3 s = .ok (5, s) ∧ readReg 1 s = .ok (8, s) ∧ s.pending = none ∧ s.acquired = true ∧
    s.releaseReady 0 0 0 .x (s.stream s.cur).seq (s.stream s.cur).marks = true ∧ (s.strand s.cur).syncQ = [] ∧
    (s.writeBackContext s.cur).1 = [] ∧ s.soHeld = false ∧ s.myCrew.halted = false ∧
    s.passedBy 0 0 0 .a (s.stream s.cur).seq (s.stream s.cur).marks.acqA = true ∧
    (let r := s.sendSync 0 0 s.myCrew.context 16 (Tests.pageAt 8) 5 0 .plain
     (r.2.replyOf r.1).map (·.status) = some 0) ∧ s.MemoryCanonical :=
  ⟨⟨by and_intros <;> decide +kernel, Tests.takeNone _⟩,
    by and_intros <;> decide +kernel, rfl, rfl,
    by unfold State.MemoryCanonical; and_intros <;> decide +kernel⟩
theorem witness_sync_checks :
    let s := Tests.sync [] []
    Tests.came (syncCheck 8 8 false true false 16 s) = true ∧ Tests.came (syncCheck (Tests.objectAt 16) 16 true true false opBara s) = true ∧
    Tests.came (syncCheck (Tests.objectAt 32) 32 true true false opCarr s) = true ∧
    Tests.came (syncCheck (Tests.objectAt 16) 16 true true true opSignal s) = true ∧ (s.handle 2).valid = false ∧
    pageBytes (s.handle 0).size < 65535 + 8 ∧ (1 : Nat) % 8 ≠ 0 ∧ isBerm (paOffset (Tests.pageAt 0)) = true ∧
    isSyncSram (paOffset (Tests.syncAt 0)) = true ∧ paModule (Tests.syncAt 0) < 4 ∧
    (s.place 0 (2 ^ 48 + 0x400000000) = .unreach) ∧ paModule (2 ^ 48 + 0x400000000) < 4 ∧ 8 ≤ paModule (2 ^ 51) ∧ paModule (2 ^ 51) < 12 := by
  decide +kernel
theorem witness_sync_objects :
    let s := Tests.sync [] [(Tests.syncAt 16, 2 ^ 32), (Tests.syncAt 24, 2), (Tests.syncAt 40, 2 ^ 63 + 2), (Tests.syncAt 64, 3)]
    let b := s.readN (Tests.syncAt 24) 8
    s.poisonIn (Tests.syncAt 16) 16 = none ∧ s.poisonIn (Tests.syncAt 32) 32 = none ∧ b < 2 ^ 35 ∧ b % 2 ^ 32 ≠ 0 ∧
    s.readN (Tests.syncAt 16) 8 % 2 ^ 32 + 1 < b % 2 ^ 32 ∧ s.readN (Tests.syncAt 40) 8 / 2 ^ 51 % 2 ^ 10 = 0 ∧
    s.readN (Tests.syncAt 40) 8 / 2 ^ 48 % 8 < 6 ∧ bitsOf (BitVec.ofNat 64 (s.readN (Tests.syncAt 40) 8)) 63 63 = 1 ∧
    s.readN (Tests.syncAt 64) 8 = 3 ∧ (s.die 0).waiters = [] ∧ Tests.syncAt 64 % 16 = 0 := by decide +kernel
theorem witness_arrivals :
    let d := { Die.reset with arrivals := [(3, { (default : ArrivalRec) with rotation := 5 })] }
    (look 3 d.arrivals).map (·.rotation) = some 5 ∧ look 4 d.arrivals = none ∧ ((5 : BitVec 8) - (5 : Word).setWidth 8).toNat < 128 ∧
    128 ≤ ((5 : BitVec 8) - (6 : Word).setWidth 8).toNat ∧ bitsOf (0x300 : Word) 31 28 = bitsOf d.rgctl 63 60 ∧
    3 * d.segSize < 2 ^ 34 ∧ ¬ bitsOf (0xF0000000 : Word) 31 28 = bitsOf d.rgctl 63 60 := by decide +kernel
theorem witness_waiter_entries :
    let s := Tests.overflow (Tests.sync [] [])
    (s.freeChunk 0 = some (dieAddr 0 0x400100000)) ∧ (Tests.sync [] []).freeChunk 0 = none ∧
    4096 ≤ ((List.replicate 4096 Tests.waiter).filter (·.chunk.isNone)).length ∧ (s.die 0).chunks = [] ∧
    ¬ 4096 ≤ ((s.die 0).waiters.filter (·.chunk.isNone)).length := by decide +kernel
theorem witness_continuations :
    let s := Tests.overflow (Tests.sync [(1, Tests.objectAt 16), (2, 0x1000)] [])
    readReg 1 s = .ok (Tests.objectAt 16, s) ∧ readReg 2 s = .ok (0x1000, s) ∧ readReg 4 s = .ok (0, s) ∧ s.stopPoint s.cur = false ∧
    maskBad 0 = false ∧ s.myCrew.viewsUnsaved = false ∧ (giveTokens 0 s = .ok s) :=
  ⟨rfl, rfl, rfl, by decide +kernel, by decide +kernel, by decide +kernel, rfl⟩
theorem witness_sync_events :
    let s := Tests.next (exec (.red 0 3 1 4 0 0 0) (Tests.sync [(3, 9), (1, 8)] []))
    let q := (s.strand s.cur).syncQ.headD default
    (look (strandKey 0 0 0) s.strands).isSome = true ∧ (s.crew 0 0).halted = false ∧ s.passedBy 0 0 0 .a q.seq q.marks.acqA = true ∧
    q.pageKind ≠ 0 ∧ q.wb = none ∧ q.wide = false ∧ (s.die 0).cache = [] ∧
    ((Tests.die [] fun d => { d with fired := [⟨Tests.syncAt 32, 0, 0⟩] }).die 0).te.down = none ∧
    (Tests.die [] id).readRecord 0 (dieAddr 0 0x1000) none = none := by decide +kernel

/-! ## Drain engine (R275-R305) -/

/-- The D stream with h8 on the berm page and h9 on the sync page, registers, and the vector 7, 6 in its queue. -/
def Tests.store (rs : List (Nat × Word)) : State :=
  Tests.on .d fun st => { Tests.d rs st with
    h := (st.h.set 8 Tests.bermPage).set 9 Tests.syncPage, vXD0 := [Tests.vec 32 [7, 6]] }

theorem test_st : (Tests.next (exec (.st 0 3 0 1 1) (Tests.store [(1, 8), (3, 0x12345)]))).readN (Tests.pageAt 8) 4 = 0x2345 := by
  decide +kernel
theorem test_st_past_the_page : (Tests.strand (.st 0 3 0 1 1) (Tests.store [(1, 65535)])).fault = some 0x59 := by decide +kernel
theorem test_st_rel : (Tests.next (exec (.stRel 0 3 0 1 0 3) (Tests.store [(1, 8), (3, 0x12345)]))).readN (Tests.pageAt 8) 4 = 0x45 := by
  decide +kernel
theorem test_stv :
    let t := Tests.next (exec (.stv 0 0 0 1) (Tests.store [(1, 64)]))
    (t.readN (Tests.pageAt 64) 8, (t.strand t.cur).vXD0) = (6 * 2 ^ 32 + 7, []) := by decide +kernel
theorem test_stvs :
    let t := Tests.next (exec (.stvs 0 0 3 0 1 2) (Tests.store [(1, 64), (2, 8)]))
    (t.readN (Tests.pageAt 64) 4, t.readN (Tests.pageAt 72) 4) = (7, 6) := by decide +kernel
theorem test_stvx :
    -- every index is a null lane but the first, 3
    let s := Tests.store [(1, 64), (2, 0)]
    let t := Tests.next (exec (.stvx 0 0 3 0 1 2) { s with mem := Memory.writeN (Tests.scratchAt 0) (2 ^ 4096 - 2 ^ 32 + 3) 512 s.mem })
    (t.readN (Tests.pageAt 76) 4, t.readN (Tests.pageAt 64) 4) = (7, 0) := by decide +kernel
theorem test_stp : (Tests.next (exec (.stp 0 1 3 2) (Tests.store [(1, 64), (3, 0x123456789)]))).readN (Tests.scratchAt 64) 8 = 0x23456789 := by
  decide +kernel
theorem test_stp_misaligned : (Tests.strand (.stp 0 1 3 2) (Tests.store [(1, 66)])).fault = some 0x5B := by decide +kernel
theorem test_stpv : (Tests.next (exec (.stpv 0 0 3 0 1) (Tests.store [(1, 64)]))).readN (Tests.scratchAt 64) 8 = 6 * 2 ^ 32 + 7 := by
  decide +kernel
theorem test_dbind :
    let s := Tests.store [(1, 64)]
    (Tests.strand (.dbind 0 0 1) { s with mem := Memory.writeN (Tests.scratchAt 64) (0xF140 * 2 ^ 64 + 2 * 2 ^ 128 + 512 * 2 ^ 256) 64 [] }).ds0.map
      (fun x => (x.next, x.count)) = some (0, 2) := by decide +kernel
theorem test_dunbind_waits : (Tests.stream (.dunbind 0 0) (Tests.on .d fun st => { st with ds0 := some Tests.streaming })).wait =
    some .dataQueue := by decide +kernel
theorem test_drain_stream_write :
    let s := Tests.on .d fun st => { st with ds0 := some Tests.streaming, vXD0 := [Tests.vec 32 [7, 6]] }
    let t := Tests.next (exec .drainStreamWrite { s with inp := [0] })
    (t.readN (Tests.scratchAt 0) 8, (t.strand t.cur).ds0.map (·.next)) = (6 * 2 ^ 32 + 7, some 1) := by decide +kernel
theorem test_drain_of_a_reserved_format : (Tests.strand (.drain 0 1 2 3 0) (Tests.store [])).fault = some 0x5E := by decide +kernel
theorem test_drain_waits_for_its_tile :
    -- FP32, stride 256, into the scratchpad
    (Tests.stream (.drain 0 1 2 4 0) (Tests.store [(2, BitVec.ofNat 64 (0x10 * 2 ^ 56 + 0x3F800000)), (4, 0), (5, 256)])).wait =
      some .tileBit := by decide +kernel
theorem test_claim_enters_its_window :
    let t := Tests.next (exec (.claim 0 3 1 2) (Tests.store [(1, BitVec.ofNat 64 (9 * 2 ^ 60 + 16)), (2, 5)]))
    ((t.die 0).claims.map fun c => (c.object, c.want)) = [(Tests.syncAt 16, 5)] := by decide +kernel
theorem test_claim_window_close :
    -- of a capacity of 6 the first claim takes 5 and the second 1
    let c (p w r : Nat) : Claim := { object := Tests.syncAt 16, window := 0, polder := p, strand := 0, want := w, req := r }
    let s := { Tests.die [Tests.syncAt 16] fun d => { d with claims := [c 1 4 8, c 0 5 7] } with
      cycle := 2 ^ 20, mem := Memory.writeN (Tests.syncAt 24) 6 8 [], reqs := [(7, Tests.request), (8, Tests.request)] }
    let t := Tests.next (exec .claimWindowClose s)
    (t.readN (Tests.syncAt 16) 8, (t.replyOf 7).map (·.data), (t.replyOf 8).map (·.data)) =
      (6, some 5, some (5 * 2 ^ 32 + 3 * 2 ^ 16 + 1)) := by decide +kernel

theorem witness_stores :
    let s := Tests.store [(1, 8), (3, 0x12345)]
    DWord s 0 s ∧ readReg 3 s = .ok (0x12345, s) ∧ readReg 1 s = .ok (8, s) ∧ (s.handle 8).valid = true ∧ (s.handle 8).wr = true ∧
    (s.handle 8).seg = false ∧ (s.handle 10).valid = false ∧ Tests.came (storeCheck s (s.handle 8) 8 8 2 8) = true ∧
    Tests.came (storeReady 1 [(Tests.pageAt 8, 2)] s) = true ∧ s.pending = none ∧
    s.releaseReady 0 0 0 .d (s.stream s.cur).seq (s.stream s.cur).marks = true ∧ (s.writeBackContext s.cur).1 = [] ∧
    (∀ i : Fin 8, s.place 0 (Tests.pageAt 8 + i.val) = .mem) ∧ Tests.came (popVXD 0 s) = true ∧
    Tests.came (storeList 0 128 s) = true ∧ (reservedAddr (2 ^ 50) = true ∨ paOffset 0 < 0x400000000) :=
  ⟨⟨by and_intros <;> decide +kernel, Tests.takeNone _⟩, rfl, rfl,
    by and_intros <;> decide +kernel⟩
theorem witness_scratchpad_stores :
    let s := Tests.store [(1, 64)]
    Tests.came (scratchStore 3 false 64 0 s) = true ∧ 64 + 512 ≤ s.myCrew.scratchBytes ∧
    s.myCrew.fmtCode 0 = s.myCrew.fmtCode ((64 + 511) / 65536) ∧ (s.myCrew.fmtOf 0).sixBit = false ∧
    s.myCrew.scratchBytes < 2 ^ 23 := by decide +kernel
theorem witness_drain_streams :
    let s := Tests.on .d fun st => { st with ds0 := some Tests.streaming, vXD0 := [Tests.vec 32 [7, 6]] }
    (s.strand s.cur).drainStream 0 = some Tests.streaming ∧ (s.strand s.cur).drainStream 1 = none ∧
    Tests.came (readDescr 64 0x5B 0x5B s) = true ∧ drainFault s (descrOf Tests.streaming.desc) = none ∧
    (drainFault s (descrOf (Vector.replicate 8 (-1)))).isSome = true ∧ (descrOf (Vector.replicate 8 0)).total = 0 ∧
    Tests.came (streamBytes Tests.streaming 0 s) = true ∧
    Tests.came (streamBytes { Tests.streaming with desc := Tests.streaming.desc.set 0 (-1) } 0 s) = false ∧
    (s.crew 0 0).halted = false ∧ Tests.streaming.stopped = none := by decide +kernel
theorem witness_drains :
    let s := Tests.store [(2, BitVec.ofNat 64 (0x10 * 2 ^ 56 + 0x3F800000)), (4, 0), (5, 256)]
    let d := drainOps 2 4 0 s
    (∀ r : Fin 9, d.fails 0 s (r.val + 1) = false) ∧ Tests.came (d.check s) = true ∧ d.amax = false ∧ d.fmt = .fp32 ∧
    s.myCrew.tileFull 1 = false ∧ s.myCrew.tileOwned 1 = false ∧ s.tileTaken 1 = false ∧ (drainOps 2 3 0 (Tests.store [])).fails 0 s 2 = true ∧
    d.isDX = false ∧ Rm.ofCode d.rm ≠ .sr ∧ s.poisonIn (s.tileAddr 0 0 1) 16384 = none := by decide +kernel
theorem witness_claims :
    let sa : Word := BitVec.ofNat 64 (9 * 2 ^ 60 + 16)
    let s := Tests.store [(1, sa), (2, 5)]
    readReg 1 s = .ok (sa, s) ∧ readReg 2 s = .ok (5, s) ∧ Tests.came (claimCheck sa 5 s) = true ∧
    ([(5, 2 ^ 16), (16, 5), (10 * 2 ^ 60, 5), (8 * 2 ^ 60, 5), (9 * 2 ^ 60 + 8, 5), (9 * 2 ^ 60 + 65535, 5)].all fun e =>
      !Tests.came (claimCheck (BitVec.ofNat 64 e.1) (BitVec.ofNat 64 e.2) s)) = true ∧ s.acquired = true ∧ s.pending = none :=
  ⟨rfl, rfl, by and_intros <;> decide +kernel⟩

/-! ## Task engine (R306-R341) -/

/-- Words of memory from an address. -/
def Tests.words (a : Nat) (ws : List Nat) (m : List Host.Cell) : List Host.Cell :=
  ws.zipIdx.foldl (fun m e => Memory.writeN (a + 8 * e.2) e.1 8 m) m

/-- A gang launch record of one gang of one strand, its text at `placedText`, and where it lies. -/
def Tests.record : List Nat := [2 ^ 48 + 0x0270040A, placedText, 2 ^ 52 + placedText, 2 ^ 16 + 1]
def Tests.recordAt : Nat := dieAddr 0 0x400010000
def Tests.launchRec : LaunchRec :=
  { addr := Tests.recordAt, words := (Tests.record ++ List.replicate 28 0).map (BitVec.ofNat 64), args := [], tags := [], banks := [] }

/-- Die 0 with that record, queue 0 enabled, its task engine changed by `f`, and inputs for an event. -/
def Tests.tasks (inp : List Nat) (f : TaskEngine → TaskEngine) : State :=
  let s := Tests.die inp fun d =>
    { d with te := f (d.te.setQueue 0 { cfg := BitVec.ofNat 64 (2 ^ 63), pass := 0, pending := [], head := none }) }
  { s with mem := Tests.words Tests.recordAt Tests.record s.mem }

/-- A pending record at the head of queue 0. -/
def Tests.pending : PendingRec := { addr := Tests.recordAt, host := none, word0 := none, since := 0 }
def Tests.headed (te : TaskEngine) : TaskEngine := te.setQueue 0 { te.queue 0 with pending := [Tests.pending] }

/-- The task engine of die 0 after an event. -/
def Tests.teAfter (i : Instr) (s : State) : TaskEngine := (Tests.next (exec i s)).te 0

/-- The record admitted, its gang dispatched, and its run started. -/
def Tests.launched : State := Tests.next (exec .recordAdmission (Tests.tasks [0] Tests.headed))
def Tests.dispatched : State := Tests.next (exec .taskDispatch Tests.launched)
def Tests.running : State :=
  let s := Tests.next (exec .gangStart Tests.dispatched)
  { s with cur := { s.cur with polder := ((s.te 0).run 0).origin } }

theorem test_record_admission :
    ((Tests.launched.te 0).launches.map fun l => (l.1, l.2.queue, l.2.record.entry), ((Tests.launched.te 0).queue 0).head) =
      ([(0, 0, placedText)], some 0) := by decide +kernel
theorem test_task_dispatch : (Tests.dispatched.te 0).runs.map (fun r => (r.2.strands, r.2.started)) = [(1, false)] := by decide +kernel
theorem test_gang_start :
    (((Tests.running.te 0).run 0).started, (Tests.running.strand Tests.running.cur).x.pc.toNat) = (true, placedText) := by decide +kernel
theorem test_strand_end :
    let s := Tests.running.setStrand Tests.running.cur (let st := Tests.running.strand Tests.running.cur
      { st with a := { st.a with ended := true }, x := { st.x with ended := true }, d := { st.d with ended := true } })
    ((Tests.next (exec .strandEnd s)).crew 0 s.cur.polder).endedStrands = [0] := by decide +kernel
/-- Its strand ended. -/
def Tests.overRun : State :=
  let p := Tests.running.cur.polder
  { Tests.running.setCrew 0 p { Tests.running.crew 0 p with endedStrands := [0] } with inp := [0] }
theorem test_task_end : ((Tests.teAfter .taskEnd Tests.overRun).runs, (Tests.next (exec .taskEnd Tests.overRun)).crews) = ([], []) := by
  decide +kernel
theorem test_launch_retire :
    let s := { Tests.next (exec .taskEnd Tests.overRun) with inp := [0] }
    ((Tests.teAfter .launchRetire s).launches, ((Tests.teAfter .launchRetire s).queue 0).head) = ([], none) := by decide +kernel
theorem test_overlap_word_read :
    let s := Tests.tasks [0] fun te => (Tests.headed te).setLaunch 0 { (default : Launch) with record := Tests.launchRec, nextGang := 1 }
    ((Tests.teAfter .overlapWordRead { s with inp := [0] }).queue 0).pending.map (·.word0) = [none] := by decide +kernel

/-- The X stream of a strand of that run, with registers. -/
def Tests.tasked (rs : List (Nat × Word)) : State :=
  let s := { Tests.running with cur := { Tests.running.cur with str := .x } }
  s.setStrand s.cur (Tests.x rs (s.strand s.cur))
theorem test_spawn :
    let t := Tests.next (exec (.spawn 0 3 1 2) (Tests.tasked [(1, BitVec.ofNat 64 Tests.recordAt), (2, 7)]))
    ((t.stream t.cur).regs.get 3, ((t.te 0).task 0).children.length, (t.te 0).ready.length) = (0, 1, 1) := by decide +kernel
theorem test_spawn_of_a_misplaced_template : (Tests.strand (.spawn 0 3 1 2) (Tests.tasked [(1, 0x1001)])).fault = some 0x60 := by
  decide +kernel
theorem test_endt_ends_the_stream : (Tests.stream (.endt 0) (Tests.tasked [])).ended = true := by decide +kernel
theorem test_check_of_a_live_job : Tests.reg (.check 0 3) 3 (Tests.tasked [(3, 9)]) = 0 := by decide +kernel
theorem test_join_of_no_children : Tests.reg (.join 0 3) 3 (Tests.tasked []) = 0x00FF000000000000 := by decide +kernel
theorem test_launch_enters_its_queue :
    let t := Tests.next (exec (.launch 0 3 1 2) (Tests.tasked [(1, BitVec.ofNat 64 Tests.recordAt), (2, 0)]))
    ((t.stream t.cur).regs.get 3, ((t.te 0).queue 0).pending.map (·.addr)) = (0, [Tests.recordAt]) := by decide +kernel
theorem test_launch_into_no_queue : (Tests.strand (.launch 0 3 1 2) (Tests.tasked [(1, BitVec.ofNat 64 Tests.recordAt), (2, 32)])).fault =
    some 0x60 := by decide +kernel
theorem test_tinfo_of_a_reserved_selector : (Tests.strand (.tinfo 0 3 1) (Tests.tasked [(1, 9)])).fault = some 0x60 := by decide +kernel
theorem test_jcancel_cancels_here :
    (Tests.teAfter (.jcancel 0 3 1) (Tests.tasked [(1, 5)])).jobs = [(0, 5)] := by decide +kernel
theorem test_rqset_reads_an_absent_entry :
    Tests.reg (.rqset 0 3 1 2) 3 (Tests.tasked [(1, 4), (2, BitVec.ofNat 64 (3 * 2 ^ 60)), (3, 9)]) = 0 := by decide +kernel
theorem test_rqset_of_a_reserved_operation : (Tests.strand (.rqset 0 3 1 2) (Tests.tasked [(2, BitVec.ofNat 64 (5 * 2 ^ 60))])).fault =
    some 0x60 := by decide +kernel

/-- A graph launch 1 whose node 0, at the table at 0x400020000, is due. -/
def Tests.graphed (w0 : Nat) : State :=
  let s := Tests.tasks [1, 0] fun te => te.setLaunch 1 { (default : Launch) with
    record := { Tests.launchRec with words := Tests.launchRec.words.set 1 (BitVec.ofNat 64 (dieAddr 0 0x400018000)) }
    graph := some { tokens := [], due := [0], fires := [], running := [], done := false } }
  { s with mem := Tests.words (dieAddr 0 0x400020000) [w0] (Tests.words (dieAddr 0 0x400018000)
      [2 ^ 48 + 2 ^ 32, dieAddr 0 0x400020000] s.mem) }
theorem test_graph_node_fire_ends_the_graph :
    ((Tests.teAfter .graphNodeFire (Tests.graphed (4 * 2 ^ 60))).launch 1).graph.map (·.done) = some true := by decide +kernel
/-- A snippet whose result is 1: ADDI a5, a0, 1 and EXIT. -/
def Tests.snippet (m : List Host.Cell) : List Host.Cell :=
  Memory.writeN (dieAddr 0 0x400028000) ((encode (.addi 1 5 0 1)).headD 0).toNat 4 (Memory.writeN (dieAddr 0 0x400028004)
    ((encode .exit).headD 0).toNat 4 m)
theorem test_graph_node_of_no_kind :
    ((Tests.teAfter .graphNodeFire (Tests.graphed (5 * 2 ^ 60))).launch 1).graph.map (·.done) = some true := by decide +kernel
/-- The limiter on with a step of 1 after a window of 5 steps: a floor of 4. -/
def Tests.ramped (d : Die) : Die := { d with rampctl := BitVec.ofNat 64 (2 ^ 63 + 1), rampstat := 5, rampFills := 1 }
theorem test_ramp_filler_issue :
    ((Tests.next (exec .rampFillerIssue (Tests.die [] Tests.ramped))).die 0).rampFills = 2 := by decide +kernel
theorem test_ramp_window_end :
    let t := Tests.next (exec .rampWindowEnd { Tests.die [] fun d => { d with rampSteps := 7000 } with cycle := 1300 })
    ((t.die 0).rampStart, (t.die 0).rampSteps) = (1200, 0) := by decide +kernel
theorem test_task_engine_reset : (Tests.teAfter .taskEngineReset { Tests.tasks [] id with cycle := 9 }).down = some 9 := by decide +kernel
theorem test_task_engine_resume_timeout :
    ((Tests.next (exec .taskEngineResumeTimeout { Tests.tasks [] fun te => { te with down := some 0 } with cycle := 2 ^ 30 })).die 0).live = false := by
  decide +kernel
theorem test_qpush : ((Tests.teAfter .qpush (Tests.tasks [0, 0x400010000] id)).queue 0).pending.map (·.addr) = [0x400010000] := by
  decide +kernel
theorem test_jobclr : (Tests.teAfter .jobclr (Tests.tasks [2 ^ 32 + 5] fun te => { te with jobs := [(1, 5), (0, 5)] })).jobs = [(0, 5)] := by
  decide +kernel
theorem test_snapdata_write :
    (Tests.teAfter .snapdataWrite (Tests.tasks [7] fun te => { te with snapSel := 1, containers := [(0, [1, 2])] })).containers =
      [(0, [1, 7])] := by decide +kernel
theorem test_preempt_go_of_no_launch : bitsOf (Tests.teAfter .preemptGo (Tests.tasks [] id)).preempt 55 48 = 1 := by decide +kernel
theorem test_preempt_hold : ((Tests.teAfter .preemptHold { Tests.running with inp := [] }).stopping).isSome = false := by decide +kernel
theorem test_preempt_resume_while_stopping :
    bitsOf (Tests.teAfter .preemptResume (Tests.tasks [] fun te => { te with stopping := some (0, true) })).preempt 55 48 = 3 := by
  decide +kernel
theorem test_preempt_discard_of_no_launch : bitsOf (Tests.teAfter .preemptDiscard (Tests.tasks [] id)).preempt 62 62 = 1 := by
  decide +kernel
theorem test_preempt_stop_complete :
    let s := Tests.launched.setTe 0 { Tests.launched.te 0 with stopping := some (0, false) }
    ((Tests.teAfter .preemptStopComplete s).stopping, ((Tests.teAfter .preemptStopComplete s).launch 0).hold) = (none, .held) := by
  decide +kernel

theorem witness_task_words :
    let s := Tests.tasked [(1, BitVec.ofNat 64 Tests.recordAt), (2, 7)]
    TaskWord s 0 s ∧ readReg 1 s = .ok ((s.stream s.cur).regs.get 1, s) ∧ readReg 2 s = .ok ((s.stream s.cur).regs.get 2, s) ∧
    readReg 3 s = .ok ((s.stream s.cur).regs.get 3, s) ∧ (s.stream s.cur).regs.get 1 = BitVec.ofNat 64 Tests.recordAt ∧
    inBerm 0 Tests.recordAt 256 = true ∧ Tests.recordAt % 256 = 0 ∧ s.pending = none ∧ s.stopPoint s.cur = false ∧
    s.releaseReady 0 s.cur.polder 0 .x (s.stream s.cur).seq (s.stream s.cur).marks = true ∧ (s.writeBackContext s.cur).1 = [] ∧
    Tests.came (writeResult 3 0 s) = true ∧ Tests.came (endStream s) = true ∧
    (∀ d : Fin 16, d.val ≠ 0 → (s.die 0).gmember.toNat.testBit d.val = false) :=
  ⟨⟨⟨by and_intros <;> decide +kernel, Tests.takeNone _⟩, by decide +kernel, by decide +kernel⟩,
    
    Tests.readRegX _ 1 (by decide) (by decide) (by decide +kernel) (by decide +kernel), Tests.readRegX _ 2 (by decide) (by decide) (by decide +kernel) (by decide +kernel),
    Tests.readRegX _ 3 (by decide) (by decide) (by decide +kernel) (by decide +kernel), by and_intros <;> decide +kernel⟩
theorem witness_stop_points :
    let s := Tests.tasked []
    (s.setTe 0 { s.te 0 with jobs := [(0, 0)] }).stopPoint s.cur = true ∧
    (s.cancelledTask 0 ((s.te 0).task (s.taskOf s.cur)) || s.jobCancelled 0 0 0) = false ∧
    ((s.te 0).task (s.taskOf s.cur)).depth < 8 ∧ ((s.te 0).task (s.taskOf s.cur)).children.length < 64 ∧ (s.te 0).freeTask.isSome = true ∧
    s.allBefore = true := by decide +kernel
theorem witness_join :
    let s := (Tests.tasked []).setTe 0 (((Tests.tasked []).te 0).setTask 0
      { ((Tests.tasked []).te 0).task 0 with children := [⟨3, .unresolved, none⟩] })
    ((s.te 0).task (s.taskOf s.cur)).joinReady = false ∧
    ((Tests.tasked []).allBefore && (((Tests.tasked []).te 0).task 0).joinReady) = true := by decide +kernel
theorem witness_requests :
    let te := ((TaskEngine.reset).setLaunch 0 { (default : Launch) with
      record := { Tests.launchRec with words := Tests.launchRec.words.set 6 (BitVec.ofNat 64 (3 * 2 ^ 52)) } })
    let te1 := { te with slots := [(0, 0)], requests := [(0, { (default : Request) with state := 1 })] }
    (te.launch 0).closed = false ∧ bitsOf (0 : Word) 43 32 < (te.launch 0).record.tkCount ∧ look 0 te.requests = none ∧
    look 0 te1.slots = some 0 ∧ (look 0 te1.requests).map (·.state) = some 1 ∧
    ((0 : Word).toNat &&& (rqsetBits 0 ^^^ (2 ^ 64 - 1))) = 0 := by decide +kernel
theorem witness_admissions :
    let s := Tests.tasks [0] Tests.headed
    ((s.te 0).queue 0).pending = [Tests.pending] ∧ ((s.te 0).queue 0).head = none ∧ (s.te 0).down = none ∧
    bitsOf ((s.te 0).queue 0).cfg 63 63 = 1 ∧ bitsOf ((s.te 0).queue 0).cfg 61 61 = 0 ∧
    s.readRecord 0 Tests.recordAt none = some Tests.launchRec ∧
    (match s.admitLaunch 0 { cfg := 0, ownJob := false, saveBad := false } Tests.launchRec with
      | .ok r => decide (r = Tests.launchRec)
      | .error _ => false) = true ∧
    (match s.admitLaunch 0 { cfg := 0, ownJob := false, saveBad := false } { Tests.launchRec with words := List.replicate 32 0 } with
      | .ok _ => false
      | .error e => decide (e = (1, 0))) = true ∧ Tests.launchRec.badForm = none ∧ Tests.launchRec.badPartition = false ∧
    { Tests.launchRec with words := Tests.launchRec.words.set 0 (BitVec.ofNat 64 (2 ^ 48)) }.badPartition = true ∧
    (s.engineRead 0 Tests.recordAt 8).isSome = true ∧ ((default : Launch).allStarted = true) := by decide +kernel
theorem witness_dispatching :
    let te := Tests.launched.te 0
    te.nextReady.isSome = true ∧ bitsOf te.ctl 0 0 = 1 ∧ te.ready.length = 1 ∧ te.ready.all te.goes = true ∧
    (te.nextReady.bind (Tests.launched.dispatch 0)).isSome = true ∧ (TaskEngine.reset).nextReady = none := by decide +kernel
theorem witness_gang_starts :
    let r := (Tests.dispatched.te 0).run 0
    (look 0 (Tests.dispatched.te 0).runs).isSome = true ∧ r.started = false ∧ r.wb = none ∧ (Tests.dispatched.die 0).cache = [] ∧
    r.cont = none ∧ r.strands = 1 ∧ r.polders.Nodup ∧
    ((Tests.dispatched.te 0).task r.task).first.length + ((Tests.dispatched.te 0).task r.task).record.args.length ≤ 28 := by decide +kernel
theorem witness_run_ends :
    let s := Tests.overRun
    let r := (s.te 0).run 0
    r.started = true ∧ r.fault = none ∧ r.cancelled = false ∧ r.polders = [s.cur.polder] ∧ (s.crew 0 s.cur.polder).task = 0 ∧
    (s.crew 0 s.cur.polder).halted = false ∧ s.reqs = [] ∧ (s.die 0).cache = [] ∧ s.commandsDone 0 s.cur.polder 0 = true ∧
    (look (strandKey 0 s.cur.polder 0) s.strands).isSome = true ∧ (Tests.running.crew 0 s.cur.polder).endedStrands = [] ∧
    (s.setCrew 0 s.cur.polder { s.crew 0 s.cur.polder with
      copies := Vector.replicate 16 { CopyCmd.blank .bytes with state := .active } }).commandsDone 0 s.cur.polder 0 = false ∧
    (Tests.next (exec .taskEnd s)).launchOver 0 0 = true := by decide +kernel
theorem witness_signals :
    let a := dieAddr 0 0x400030000
    let s := Tests.die [] id
    s.MemoryCanonical ∧ a ≠ 0 ∧ s.place 0 a = .mem ∧ s.place 0 (a + 8) = .mem ∧ s.poisonIn a 8 = none ∧ s.poisonIn (a + 8) 8 = none :=
  ⟨by unfold State.MemoryCanonical; decide +kernel, by and_intros <;> decide +kernel⟩
theorem witness_graph_nodes :
    let s := Tests.graphed (4 * 2 ^ 60)
    ((s.te 0).launch 1).graph.map (fun g => (g.done, g.due)) = some (false, [0]) ∧ (s.graphNode 0 1 0).isSome = true ∧
    (Tests.tasks [] fun te => te.setLaunch 1 { (default : Launch) with record := Tests.launchRec }).graphNode 0 1 0 = none ∧
    s.snippet 0 [2 ^ 60, 0] 0 = none ∧
    { s with mem := Tests.snippet s.mem }.snippet 0 [BitVec.ofNat 64 (2 ^ 60 + 2 * 2 ^ 50), BitVec.ofNat 64 (dieAddr 0 0x400028000)] 0 = some 1 := by
  decide +kernel
theorem witness_ramp :
    let d := Die.reset
    (Tests.ramped d).rampSteps + (Tests.ramped d).rampFills < (Tests.ramped d).rampFloor ∧ d.rampFloor ≤ d.rampSteps + d.rampFills ∧
    (0 : Nat) < d.rampStart + 1200 ∧ bitsOf ({ d with mxcap := 0x8000000000000100 } : Die).mxcap 63 63 = 1 := by decide +kernel
theorem witness_preemption :
    let s := Tests.launched.setTe 0 { Tests.launched.te 0 with
      preemptRec := BitVec.ofNat 64 Tests.recordAt, saveBase := BitVec.ofNat 64 (dieAddr 0 0x400100000), saveSize := 0x100000 }
    (s.te 0).stopping = none ∧ s.namedLaunch 0 (· = .saved) = none ∧ s.namedLaunch 0 (· = .none) = some 0 ∧
    risingFrom 0 (s.te 0).launches = true ∧ (s.setTe 0 { s.te 0 with stopping := some (0, false) }).atRest 0 0 = true ∧
    s.saveFits 0 0 = true ∧ Tests.launched.saveFits 0 0 = false := by decide +kernel

/-! ## Ring engine (R342-R374) -/

/-- Die 0 alone in ring 0 with its rotation program running, registers set, its ring engine changed by `f` and descriptors. -/
def Tests.ring (rs : List (Nat × Word)) (desc : List (Nat × Word)) (f : RingEngine → RingEngine) : State :=
  Tests.rotation fun d =>
    { d with gmap := BitVec.ofNat 64 (2 ^ 47), desc := desc, rg := f d.rg, rotStream := Tests.regs rs d.rotStream }

/-- Register 3 of the rotation program, and the ring engine, after a word. -/
def Tests.rot3 (i : Instr) (s : State) : Word := Tests.reg i 3 s
def Tests.rgAfter (i : Instr) (s : State) : RingEngine := (Tests.next (exec i s)).rg 0

/-- A valid descriptor. -/
def Tests.seg : Word := BitVec.ofNat 64 (2 ^ 63)

theorem test_rinj_of_a_valid_segment : Tests.rot3 (.rinj 3 1 2) (Tests.ring [(2, BitVec.ofNat 64 (5 * 2 ^ 32))] [(5, Tests.seg)] id) = 1 := by
  decide +kernel
theorem test_rinj_of_a_misplaced_source :
    Tests.rot3 (.rinj 3 1 2) (Tests.ring [(1, 0x1001), (2, BitVec.ofNat 64 (5 * 2 ^ 32))] [] id) = 3 := by decide +kernel
theorem test_rfwd_of_a_withheld_segment :
    let s := Tests.ring [(1, 5)] [(5, Tests.seg)] fun r => { r with kept := [(5, true)] }
    (Tests.rot3 (.rfwd 3 1) s, (Tests.rgAfter (.rfwd 3 1) s).kept, (Tests.rgAfter (.rfwd 3 1) s).queue) = (0, [], [5]) := by decide +kernel
theorem test_rdrop_of_no_segment : Tests.rot3 (.rdrop 3 1) (Tests.ring [(1, 5)] [] id) = 1 := by decide +kernel
theorem test_rkeep_pins :
    (Tests.rgAfter (.rkeep 3 1 2) (Tests.ring [(1, 5), (2, 1)] [(5, Tests.seg)] id)).pins = [5] := by decide +kernel
theorem test_rhold_sets_the_freeboard :
    let s := Tests.ring [(1, 4)] [] id
    (Tests.rot3 (.rhold 3 1) s, (Tests.rgAfter (.rhold 3 1) s).request) = (4, 4) := by decide +kernel
theorem test_rhold_of_too_much : ((Tests.next (exec (.rhold 3 1) (Tests.ring [(1, 64)] [] id))).die 0).rprunning = false := by
  decide +kernel
theorem test_rtag_sets_the_tag_bit :
    segTag (((Tests.next (exec (.rtag 3 1 2) (Tests.ring [(1, 5), (2, 1)] [(5, Tests.seg)] id))).die 0).seg 5) = true := by
  decide +kernel
theorem test_rpar_starts_a_build :
    (Tests.rgAfter (.rpar 3 1 2) (Tests.ring [(1, BitVec.ofNat 64 (5 * 2 ^ 32 + 7))] [] id)).jobs.map (fun j => (j.mode, j.target, j.stripe)) =
      [(0, 5, 7)] := by decide +kernel
theorem test_rbyp_rejoin_of_a_die_in_the_ring : Tests.rot3 (.rbyp 3 1) (Tests.ring [(1, 0)] [] id) = 1 := by decide +kernel
theorem test_rstat_takes_an_event :
    let s := Tests.ring [(1, 1)] [] fun r => { r with events := [9, 8] }
    (Tests.rot3 (.rstat 3 1) s, (Tests.rgAfter (.rstat 3 1) s).events) = (9, [8]) := by decide +kernel
theorem test_rstat_waits_for_an_event : (Tests.stream (.rstat 3 1) (Tests.ring [] [] id)).wait = some .uncounted := by decide +kernel

/-- A segment's frame with a good checksum, and one that was dropped here before. -/
def Tests.frame : Frame :=
  { index := 5, rot := 7, kind := 0, bad := false, stripe := 3, member := 2, crc := crc64 0 4194304 0, payload := 0, poison := false }
theorem test_segment_arrival_ends_a_drop :
    (Tests.rgAfter .segmentArrival { Tests.ring [] [] fun r => { r with ingress := [Tests.frame], drops := [(5, true, false)] } with
      inp := [1] }).ingress = [] := by decide +kernel
/-- Dies 0 and 1 form ring 0. -/
def Tests.pair (f g : RingEngine → RingEngine) : State :=
  let m (pos : Nat) : Word := BitVec.ofNat 64 (2 ^ 47 + pos * 2 ^ 39 + 2 ^ 35)
  ((Tests.die [] fun d => { d with gmap := m 0, desc := [(5, Tests.seg)], rg := f d.rg }).setDie 1
    { Die.reset with live := true, gmap := m 1, rg := g Die.reset.rg })
theorem test_segment_forward_complete :
    let t := Tests.next (exec .segmentForwardComplete (Tests.pair (fun r => { r with queue := [5], sending := true }) id))
    ((t.rg 0).queue, (t.rg 0).retained, (t.rg 1).ingress.map (·.index)) = ([], [5], [5]) := by decide +kernel
theorem test_drop_record :
    let t := Tests.next (exec .dropRecord (Tests.pair (fun r => { r with ctl := [.drop 5 1] }) id))
    ((t.rg 0).ctl, segValid ((t.die 0).seg 5)) = ([], false) := by decide +kernel
theorem test_lost_record_goes_on :
    let t := Tests.next (exec .lostRecord (Tests.pair (fun r => { r with ctl := [.lost 5 1] }) id))
    ((t.rg 1).ctl, bitsOf ((t.die 0).seg 5) 57 57) = ([.lost 5 1], 1) := by decide +kernel
theorem test_mirror_update :
    (Tests.rgAfter .mirrorUpdate (Tests.pair (fun r => { r with ctl := [.mirror [(1, 2)]] }) id)).mirror = [(1, 2)] := by decide +kernel
theorem test_ring_failure_detect :
    ((Tests.next (exec .ringFailureDetect { Tests.pair id id with inp := [0] })).rg 0).hold.isSome = true := by decide +kernel
theorem test_ring_resume_of_a_rejoin :
    let s := Tests.pair (fun r => { r with hold := some ⟨2, 0, 0⟩, state := 2 }) (fun r => { r with hold := some ⟨2, 0, 0⟩, state := 2 })
    ((Tests.next (exec .ringResume { s with inp := [1] })).rg 1).hold = none := by decide +kernel
theorem test_ring_engine_reset :
    (Tests.rgAfter .ringEngineReset (Tests.pair id id)).hold.map (·.kind) = some 5 := by decide +kernel
theorem test_ring_engine_restart_timeout :
    let s := Tests.pair (fun r => { r with hold := some ⟨5, 0, 2 ^ 30⟩ }) id
    Tests.next (exec .ringEngineRestartTimeout s) = s := by decide +kernel
theorem test_rpctl_start :
    let d := (Tests.next (exec .rpctlStart (Tests.die [] fun d => { d with rpentry := 0x1000 }))).die 0
    (d.rprunning, d.rotStream.pc) = (true, 0x1000) := by decide +kernel
theorem test_rpctl_stop : ((Tests.next (exec .rpctlStop (Tests.ring [] [] id))).die 0).rprunning = false := by decide +kernel

theorem witness_ring_words :
    let s := Tests.ring [(1, 5), (2, 1)] [(5, Tests.seg)] id
    RotWord s ∧ readReg 1 s = .ok (5, s) ∧ readReg 2 s = .ok (1, s) ∧ segValid ((s.die 0).seg 5) = true ∧
    segValid ((s.die 0).seg 6) = false ∧ (s.die 0).hasRoom = true ∧ (s.die 0).bypassed = false ∧ s.downstream 0 = some 0 ∧
    look 5 (s.rg 0).drops = none ∧ 6 * (s.die 0).segSize < 2 ^ 34 ∧ ¬ 20000 * (s.die 0).segSize < 2 ^ 34 ∧ (s.die 0).inRing = true ∧
    (∀ e ∈ s.ringDies 0, (s.die e).bypassed = false) ∧ (s.rg 0).state ≠ 2 :=
  ⟨⟨by decide +kernel, by decide +kernel⟩, rfl, rfl, by and_intros <;> decide +kernel⟩
theorem witness_segments :
    let d := (Tests.pair id id).die 0
    crc64 Tests.frame.payload 4194304 0 = Tests.frame.crc ∧ 0 < 2 ^ (8 * d.segSize) ∧ d.segSize = 4194304 ∧ look 5 d.rg.drops = none ∧
    d.rg.repair = none ∧ 5 ∉ d.rg.past ∧ 5 ∉ d.rg.withholds ∧ segTag (BitVec.ofNat 64 (2 ^ 61)) = true ∧ 5 < 16384 ∧
    5 * d.segSize < 2 ^ 34 ∧ Tests.frame.bad = false ∧ Tests.frame.poison = false :=
  ⟨by simp only [Tests.frame], Nat.two_pow_pos _, by and_intros <;> decide +kernel⟩
theorem witness_ring_events :
    let s := Tests.pair (fun r => { r with queue := [5], sending := true, ctl := [.drop 5 1, .lost 5 1, .mirror []] }) id
    s.downstream 0 = some 1 ∧ (s.rg 0).queue = [5] ∧ (s.rg 0).jobs = [] ∧ (s.die 0).freeboard ≠ 0 ∧ (s.rg 0).firm ≤ (s.die 0).slots ∧
    look 5 (s.rg 0).kept = none ∧ (∀ e ∈ s.ringDies 0, (s.rg e).ingress = []) ∧
    ((Tests.die [] fun d => { d with gmap := BitVec.ofNat 64 (2 ^ 47 + 2 ^ 35) }).downstream 0 = none) ∧
    (s.rg 0).ctl.find? (fun c => match c with | .lost _ _ => true | _ => false) = some (.lost 5 1) := by decide +kernel

/-! ## Fabric engine (R375-R407) -/

/-- A link to die `p`, up, with every lane in use, a secret of 1, and the eight buffers of each class lent to it. -/
def Tests.link (p : Nat) : Link :=
  { Link.reset with
    peer := some p, up := true, lit := true, txMask := 255, txLast := 255, rxMask := 255, secret := 1, creditQ := 8, creditS := 8 }
/-- GPOS of dies 0 to 2, and the maps of dies 0 to 2 on a torus of one row of three. -/
def Tests.gpos : List (Nat × Word) := [(0, 128), (1, 136), (2, 144)]
def Tests.gmap (x : Nat) : Word := BitVec.ofNat 64 (x * 2 ^ 24 + 2 * 2 ^ 18 + 2 ^ 33)
/-- Dies 0 and 1, joined by die 0's link 0, its engine changed by `f`, and inputs for an event; die 1 has accepted nothing. -/
def Tests.linked (inp : List Nat) (f : Die → Die) (k : Link → Link) : State :=
  let d (x : Nat) : Die := { Die.reset with live := true, gmap := Tests.gmap x, gpos := Tests.gpos, gmember := 7 }
  let s := (Tests.die inp fun _ => f (d 0)).setDie 1 (d 1)
  (s.setLink 0 0 (k (Tests.link 1))).setLink 1 1 (Tests.link 0)
def Tests.after (i : Instr) (s : State) : Die := (Tests.next (exec i s)).die 0
def Tests.linkAfter (i : Instr) (s : State) : Link := (Tests.next (exec i s)).link 0 0

/-- A request of die 1 to die 0: a kind, an address, an operation and data. -/
def Tests.packet (kind addr op data : Nat) : Packet :=
  { kind := kind, dstMod := 0, dstDie := 0, srcMod := 0, srcDie := 1, unit := 3, eng := false, tag := 5, gen := 9, cls := 1, host := false
    deadline := 10, context := 0, addr := addr, poison := 0, status := 0, op := op, arg := 0, data := data, mask := 0 }
/-- A flit of die 1 to die 0 with slots, as beats; a data flit's first slot begins a packet. -/
def Tests.flit (seq ftype : Nat) (slots : List Nat) : List (Nat × Nat) :=
  stripe 255 (sealFlit 1 (linkDir 1 1 0) 0 0 ⟨seq, 0, false, 0, ftype, 255, 1, 0, 0⟩ (joinBits 256 slots))
/-- A flit that is not encrypted and has no tag; it returns three request buffers. -/
def Tests.bare (seq ftype : Nat) : List (Nat × Nat) :=
  stripe 255 (flitBytes (FlitHeader.bits ⟨seq, 0, false, 0, ftype, 255, 0, 3, 0⟩) 0 0)
/-- Die 0 with a packet in its inbox. -/
def Tests.inbox (p : Packet) (f : Die → Die) : State := Tests.linked [0] (fun d => f { d with inbox := [(p, 0)] }) id
/-- The answer that goes out after a request. -/
def Tests.reply (i : Instr) (s : State) : Option (Nat × Nat × Nat × Nat) :=
  match (Tests.after i s).router with
  | [] => none
  | e :: _ => some (e.1.kind, e.1.dstDie, e.1.status, e.1.data)

theorem test_xent_write :
    look 3 (Tests.after .xentWrite (Tests.die [3, 0, 2 ^ 63 + 2 ^ 57 + 5 * 2 ^ 16] id)).xent =
      some (BitVec.ofNat 64 (2 ^ 63 + 2 ^ 57 + 5 * 2 ^ 16), 0) := by decide +kernel
theorem test_xent_write_clears_v_and_counts :
    ((look 3 (Tests.after .xentWrite (Tests.die [3, 0, 0] fun d => { d with xent := [(3, 0x8000000000050041, 7)] })).xent).map
      fun w => (bitsOf w.1 63 63, bitsOf w.1 15 0)) = some (0, 0x42) := by decide +kernel
theorem test_frclose :
    let s := Tests.die [1] fun d => { d with frbase := BitVec.ofNat 64 (Tests.pageAt 0), frctl := 4 }
    (Tests.next (exec .frclose { s with mem := Memory.writeN (Tests.pageAt 39) 0xC0 1 [] })).readN (Tests.pageAt 39) 1 = 0x80 := by
  decide +kernel
theorem test_packet_slots :
    let p : Packet := { Tests.packet 1 (Tests.pageAt 8) (128 + 39) (2 ^ 300 + 7) with mask := 2 ^ 39 + 5 }
    p.slots.length = 4 ∧ headerOk p.header = true ∧ readPacket p.header p.slots.tail = p := by decide +kernel
theorem test_lane_mask_beats :
    let lanes := (stripe 0b10111 (2 ^ 1792)).map (·.1)
    (lanes, unstripe 0b10111 (stripe 0b10111 (2 ^ 1792 + 2 ^ 300))) = ([0, 1, 2, 4, 0, 1, 2, 4], 2 ^ 1792 + 2 ^ 300) := by decide +kernel
set_option maxRecDepth 100000 in
theorem test_flit_send_takes_the_next_number :
    let s := Tests.linked [0] (fun d => { d with router := [({ Tests.packet 0 0 0 0 with dstDie := 1, srcDie := 0 }, 4)] }) fun k =>
      { k with txSeq := 2 ^ 20 - 1 }
    let k := Tests.linkAfter .flitSend s
    let h := k.replay.map fun f => flitHeader f.bytes
    (k.txSeq, k.creditQ, h.map fun h => (h.ftype, h.seq, h.sop)) = (0, 7, [(1, 2 ^ 20 - 1, 1)]) := by decide +kernel
set_option maxRecDepth 100000 in
theorem test_flit_receive :
    let s := Tests.linked [0, 0] id fun k => { k with rxSeq := 7, wire := [Tests.flit 7 1 [(Tests.packet 0 0 0 0).header]] }
    let t := Tests.next (exec .flitReceive s)
    ((t.link 0 0).rxSeq, (t.die 0).inbox.map fun e => (e.1.tag, e.2)) = (8, [(5, 0)]) := by decide +kernel
set_option maxRecDepth 100000 in
theorem test_flit_receive_asks_again_for_a_lost_one :
    (Tests.linkAfter .flitReceive (Tests.linked [0, 0] id fun k => { k with rxSeq := 7, wire := [Tests.bare 8 1] })).nakDue = true := by
  decide +kernel
set_option maxRecDepth 100000 in
theorem test_flit_receive_takes_returned_buffers :
    (Tests.linkAfter .flitReceive (Tests.linked [0, 0] id fun k => { k with creditQ := 2, wire := [Tests.bare 0 0] })).creditQ = 5 := by
  decide +kernel
theorem test_congestion_detect :
    let e : Packet × Nat := ({ Tests.packet 0 0 0 0 with dstDie := 2 }, 0)
    let s := Tests.linked [2] (fun d => { d with busy := [(2, 0)], router := List.replicate 12 e }) id
    (Tests.after .congestionDetect { s with cycle := 256 }).asides.map (·.dest) = [2] := by decide +kernel
theorem test_set_aside_notice :
    (Tests.after .setAsideNotice (Tests.linked [0] id fun k => { k with asideIn := [2] })).asides.map (·.dest) = [2] := by decide +kernel
def Tests.asided (n : Nat) : State :=
  let a : Aside := { dest := 2, packets := [], since := 0, noticed := [] }
  { Tests.linked [2] (fun d => { d with asides := [a] }) id with cycle := n }
theorem test_set_aside_release_waits : (Tests.after .setAsideRelease (Tests.asided 511)).asides.length = 1 := by decide +kernel
theorem test_set_aside_release : (Tests.after .setAsideRelease (Tests.asided 512)).asides = [] := by decide +kernel
theorem test_auto_key_rotation :
    let k := Tests.linkAfter .autoKeyRotation (Tests.linked [0] id fun k => { k with keyNum := 4, keyCount := 2 ^ 32 })
    (k.keyNum, k.keyCount) = (5, 0) := by decide +kernel
theorem test_lane_threshold_cross_hands_back :
    (Tests.linkAfter .laneThresholdCross (Tests.linked [0, 0, 0, 4096] id id)).records = [.lane 2 false] := by decide +kernel
theorem test_lane_threshold_cross_below :
    (Tests.linkAfter .laneThresholdCross (Tests.linked [0, 0, 0, 4095] id id)).lane 2 = 4095 * 65536 := by decide +kernel
theorem test_lane_window_end :
    (Tests.linkAfter .laneWindowEnd (Tests.linked [0, 2] id fun k => k.setLane 2 0x50001)).lane 2 = 0x500000001 := by decide +kernel
theorem test_lane_notice :
    (Tests.linkAfter .laneNotice (Tests.linked [0, 2] id fun k => { k with notices := [(2, false)] })).txMask = 0xFB := by decide +kernel
theorem test_training_attempt_end_goes_out :
    let k := Tests.linkAfter .trainingAttemptEnd (Tests.linked [0, 2, 257, 0] id fun k => k.setLane 2 0x400F000000000000)
    (bitsOf (k.lane 2) 63 62, k.err) = (2, 1) := by decide +kernel
theorem test_link_relock_complete :
    let s := Tests.linked [0] id fun k => { k with up := false, relock := some 0 }
    (Tests.linkAfter .linkRelockComplete { s with mgmt := { s.mgmt with secret := some 1 } }).up = true := by decide +kernel
theorem test_read_request :
    let s := Tests.inbox (Tests.packet 0 (Tests.pageAt 8) 1 0) id
    Tests.reply .readRequest { s with mem := Memory.writeN (Tests.pageAt 8) 0x030201 3 [] } = some (8, 1, 0, 0x0201) := by decide +kernel
theorem test_write_request_under_a_mask :
    let s := Tests.inbox { Tests.packet 1 (Tests.pageAt 8) (128 + 3) 0x04030201 with mask := 5 } id
    ((Tests.next (exec .writeRequest s)).readN (Tests.pageAt 8) 4, Tests.reply .writeRequest s) = (0x030001, some (9, 1, 0, 0)) := by
  decide +kernel
theorem test_sync_command_request_adds :
    let s := Tests.inbox (Tests.packet 2 (Tests.syncAt 8) 0x10 5) id
    Tests.reply .syncCommandRequest { s with mem := Memory.writeN (Tests.syncAt 8) 37 4 [] } = some (10, 1, 0, 37) := by decide +kernel
theorem test_translation_request_misses :
    Tests.reply .translationRequest (Tests.inbox { Tests.packet 3 0 0 0 with arg := 0x10000 } id) = some (11, 1, 7, 0) := by decide +kernel
theorem test_invalidation_request :
    Tests.reply .invalidationRequest (Tests.inbox (Tests.packet 4 (2 ^ 44 + 0x400020000) 0 0) id) = some (12, 1, 0, 0) := by decide +kernel
theorem test_engine_notice_holds_the_ring :
    let s := Tests.inbox (Tests.packet 5 0 0 0) fun d => { d with gmap := d.gmap ||| BitVec.ofNat 64 (2 ^ 47) }
    ((Tests.after .engineNotice s).rg.state, Tests.reply .engineNotice s) = (2, some (13, 1, 0, 0)) := by decide +kernel
/-- A request of die 0 that awaits the answer of `Tests.packet`. -/
def Tests.awaited (kind : Nat) : State :=
  { Tests.inbox { Tests.packet kind 0 0 0x77 with arg := 0x77 } id with
    reqs := [(4, { Req.blank 0 3 1 0 (2 ^ 44 + 0x400020000) 8 0 with tag := some 5, gen := 9, asked := true })], reqNo := 5 }
def Tests.came_to (i : Instr) (kind : Nat) : Option Nat := ((Tests.next (exec i (Tests.awaited kind))).replyOf 4).map (·.data)
theorem test_read_data : Tests.came_to .readData 8 = some 0x77 := by decide +kernel
theorem test_write_acknowledgement : Tests.came_to .writeAcknowledgement 9 = some 0x77 := by decide +kernel
theorem test_sync_reply : Tests.came_to .syncReply 10 = some 0x77 := by decide +kernel
theorem test_translation_reply : Tests.came_to .translationReply 11 = some 0x77 := by decide +kernel
theorem test_notice_acknowledgement : Tests.came_to .noticeAcknowledgement 13 = some 0x77 := by decide +kernel
theorem test_read_data_of_another_generation :
    (Tests.after .readData { Tests.awaited 8 with reqs := [(4, { Req.blank 0 3 1 0 0 8 0 with tag := some 5, gen := 8, asked := true })] }).fbstat =
      2 ^ 32 := by decide +kernel
def Tests.inval : Inval := { entry := 3, holder := 1, base := 0x400020000, size := 0, sent := 0, owner := none, req := some 4 }
theorem test_invalidation_acknowledgement :
    let s := Tests.inbox (Tests.packet 12 0x400020000 0 0) fun d => { d with invals := [Tests.inval] }
    let r : Req := { Req.blank 0 64 1 4 0 0 0 with tag := some 5, gen := 9, asked := true }
    (Tests.after .invalidationAcknowledgement { s with reqs := [(4, r)] }).invals = [] := by decide +kernel
theorem test_invalidation_resend :
    let s := Tests.linked [3] (fun d => { d with invals := [Tests.inval] }) id
    (Tests.after .invalidationResend { s with cycle := 64 * 1200 }).router.map (fun e => (e.1.kind, e.1.dstDie, e.1.addr)) =
      [(4, 1, 0x400020000)] := by decide +kernel
theorem test_fabric_engine_reset :
    (Tests.linkAfter .fabricEngineReset (Tests.linked [] id id)).relock = some 0 := by decide +kernel

/-- The D stream of a strand of die 0 with link 0 up to die 1, and registers 1 and 2. -/
def Tests.fabric (a b : Word) (k : Link → Link) : State :=
  let s := Tests.on .d (Tests.d [(1, a), (2, b)])
  (s.setDie 0 { s.die 0 with gmember := 7, gmap := Tests.gmap 0, gpos := Tests.gpos }).setLink 0 0 (k (Tests.link 1))
theorem test_fxfill_of_itself : (Tests.strand (.fxfill 0 3 1 2) (Tests.fabric 0 0 id)).fault = some 0x70 := by decide +kernel
theorem test_fxfill_asks_the_target :
    let s := Tests.fabric 0x10000 (1 * 2 ^ 24 + 7 * 2 ^ 52) id
    (Tests.after (.fxfill 0 3 1 2) s).router.map (fun e => (e.1.kind, e.1.dstDie, e.1.arg)) = [(3, 1, 0x10000)] := by decide +kernel
theorem test_fkey :
    let s := Tests.fabric 0 0 fun k => { k with keyNum := 4 }
    (Tests.reg (.fkey 0 3 1) 3 s, (Tests.linkAfter (.fkey 0 3 1) s).keyNum) = (0, 5) := by decide +kernel
theorem test_flane_reads : Tests.reg (.flane 0 3 1 2) 3 (Tests.fabric 8 0 fun k => k.setLane 2 0x50001) = 0x50001 := by decide +kernel
theorem test_flane_hands_back : (Tests.linkAfter (.flane 0 3 1 2) (Tests.fabric 8 1 id)).records = [.lane 2 false] := by decide +kernel

theorem witness_fabric_words :
    let s := Tests.fabric 0 (BitVec.ofNat 64 (2 ^ 24)) id
    DWord s 0 s ∧ s.acquired = true ∧ readReg 1 s = .ok (0, s) ∧ readReg 2 s = .ok (BitVec.ofNat 64 (2 ^ 24), s) ∧ s.pending = none ∧
    s.inGroup 0 0 1 = true ∧ s.inGroup 0 0 3 = false ∧ (s.die 0).entryTaken 0 = false ∧
    ({ s.die 0 with xent := [(0, BitVec.ofNat 64 (2 ^ 56), 0)] } : Die).entryTaken 0 = true ∧ (s.link 0 0).up = true ∧ (s.link 0 1).up = false ∧
    (s.link 0 0).oldKey = none ∧ (s.link 0 0).rotated ≠ some s.cycle ∧ bitsOf ((s.link 0 0).lane 0) 63 62 ≠ 2 ∧
    (let t := Tests.next (exec (.fxfill 0 3 1 2) s)
     let answered : List (Nat × Req) := t.reqs.map fun (e : Nat × Req) => (e.1, { e.2 with reply := some ⟨0, 0, 0⟩ })
     let u : State := { t with reqs := answered }
     ((u.pending.bind fun p => look (p.ids.headD 0) u.reqs).bind (·.reply)).isSome = true) :=
  ⟨⟨by and_intros <;> decide +kernel, Tests.takeNone _⟩, by decide +kernel, rfl, rfl,
    by and_intros <;> decide +kernel⟩
theorem witness_translation_writes :
    let e (w : Nat) : Word := BitVec.ofNat 64 w
    bitsOf (e (2 ^ 63)) 63 63 = 1 ∧ bitsOf (e 0) 63 63 = 0 ∧ bitsOf (e (2 ^ 56)) 56 56 = 1 ∧
    ({ Die.reset with frbase := e (Tests.pageAt 0), frctl := 1 }.faultArea 0).1 = 1 := by decide +kernel
theorem witness_routes :
    let s := Tests.linked [] id id
    let p (n : Nat) : Packet := { Tests.packet 0 0 0 0 with dstDie := n }
    look 0 (s.die 0).gpos = some 128 ∧ (s.die 0).route (p 0) = none ∧ (s.die 0).route (p 1) = some 0 ∧ (s.die 0).route (p 2) = some 1 ∧
    look 4 ({ s.die 0 with gpos := [(4, 129)] } : Die).gpos = some 129 ∧ ({ s.die 0 with gpos := [(4, 129)] } : Die).route (p 4) = some 2 := by
  decide +kernel
theorem witness_flits :
    let s := Tests.linked [0] (fun d => { d with router := [({ Tests.packet 0 0 0 0 with dstDie := 1 }, 4)] }) id
    let k := s.link 0 0
    let empty := Tests.linked [0] id id
    let f : Sent := default
    k.up = true ∧ k.relock = none ∧ k.resend = none ∧ k.replay.length < 512 ∧ k.records = [] ∧ k.outSlots = [] ∧
    ((s.dropLate 0).nextPacket 0 0).isSome = true ∧ ((s.dropLate 0).fillSlots 0 0 7).1 ≠ [] ∧ k.maskDue = false ∧ k.peer = some 1 ∧
    (empty.dropLate 0).nextPacket 0 0 = none ∧ ((empty.dropLate 0).fillSlots 0 0 7).1 = [] ∧
    ({ k with resend := some 0, replay := [f] } : Link).replay[0]? = some f ∧
    512 ≤ ({ k with replay := List.replicate 512 f } : Link).replay.length ∧
    ¬ (({ k with records := [.marker] } : Link).records = [] ∨ k.outSlots ≠ []) ∧ (Tests.link 20).peer = some 20 := by decide +kernel
theorem witness_flits_open : (7 : Nat) < 2 ^ 20 ∧ (99 : Nat) < 2 ^ 1792 ∧ lightLanes 255 ≠ [] := by decide +kernel
/-- A flit as it lies on the light, as it is checked when it has come. -/
def Tests.checked (k : Link) (b : List (Nat × Nat)) : Bool × FlitHeader × Bool :=
  let v := unstripe k.rxMask b
  let h := flitHeader v
  (flitCrcOk v, h, (openFlit k.secret (linkDir 1 1 0) (k.inKey h).1 (k.inKey h).2 v).isSome)
set_option maxRecDepth 100000 in
theorem witness_flits_received :
    let k := Tests.link 1
    let s := Tests.linked [0, 0] id fun k => { k with wire := [Tests.bare 0 0] }
    let good := Tests.checked k (Tests.flit 0 2 [3])
    let bare := Tests.checked k (Tests.bare 0 1)
    let damaged := Tests.checked k [(0, 5)]
    (s.arriving 0 0).isSome = true ∧ (s.link 0 0).wire = Tests.bare 0 0 :: [] ∧ (Tests.linked [0] id id).arriving 0 0 = none ∧
    (good.1, good.2.1.ftype, good.2.1.seq, good.2.2) = (true, 2, k.rxSeq, true) ∧
    (bare.1, bare.2.1.ftype, bare.2.1.seq, bare.2.2) = (true, 1, k.rxSeq, false) ∧ damaged.1 = false ∧
    (Tests.checked k (Tests.bare 0 0)).1 = true ∧ k.up = true ∧ k.authFails < 2 ∧ 2 ≤ ({ k with authFails := 2 } : Link).authFails ∧
    k.peer = some 1 ∧ (Tests.link 20).peer = some 20 := by decide +kernel
theorem witness_packet_slots :
    let p : Packet := { Tests.packet 0 0 0 0 with cls := 0 }
    p.kind ∈ packetKinds ∧ p.cls = tagClass p.kind ∧ p.data < 2 ^ (256 * p.dataSlots) ∧ p.mask < 2 ^ (if p.masked then 128 else 0) ∧
    fieldOf p.header 30 28 = 0 ∧ headerOk p.header = true ∧ headerOk (6 * 2 ^ 60) = false ∧ fieldOf (6 * 2 ^ 60) 30 28 = 0 ∧
    0 < fieldOf (2 ^ 28) 30 28 ∧ (Tests.link 1).inSlots = [] := by decide +kernel
theorem witness_packets :
    let d := (Tests.linked [] id id).die 0
    let p : Packet := { Tests.packet 0 0 0 0 with dstDie := 2 }
    d.route p ≠ none ∧ d.asideOf 2 = none ∧ ((Tests.asided 0).die 0).asideOf 2 ≠ none ∧ p.isResponse = false ∧ d.route (Tests.packet 0 0 0 0) = none ∧
    (Tests.packet 0 0 0 0).dest = 0 ∧ ¬ ((6 : Nat) ≤ 5 ∨ (8 ≤ (6 : Nat) ∧ (6 : Nat) ≤ 13)) := by decide +kernel
theorem witness_set_asides :
    let s := Tests.linked [2] (fun d => { d with busy := [(2, 0)], router := List.replicate 12 ({ Tests.packet 0 0 0 0 with dstDie := 2 }, 0) }) id
    look 2 (s.die 0).busy = some 0 ∧ (s.die 0).congWindow = 256 ∧ (s.die 0).congThresh ≤ (s.die 0).flowCount 2 ∧
    (s.die 0).asides.length < 4 ∧ (s.die 0).asideOf 2 = none ∧ (s.die 0).congRelease = 512 ∧ look 3 (s.die 0).busy = none := by decide +kernel
theorem witness_lanes :
    let k := Tests.link 1
    k.up = true ∧ bitsOf (k.lane 0) 63 62 = 0 ∧ k.thresh = 4096 ∧ bitsOf ((k.setLane 0 (BitVec.ofNat 64 (2 ^ 62 + 15 * 2 ^ 48))).lane 0) 63 62 = 1 ∧
    bitsOf ((k.setLane 0 (BitVec.ofNat 64 (2 ^ 62 + 15 * 2 ^ 48))).lane 0) 51 48 = 15 ∧
    k.notices.find? (fun x => x.1 = 2) = none ∧ ({ k with notices := [(2, true)] } : Link).notices.find? (fun x => x.1 = 2) = some (2, true) := by
  decide +kernel
theorem witness_keys :
    let s := Tests.linked [0] id fun k => { k with up := false, relock := some 0, keyCount := 2 ^ 32 }
    let k := s.link 0 0
    bitsOf k.ctl 0 0 = 1 ∧ k.keyCount = 2 ^ 32 ∧ k.oldKey = none ∧ k.peer = some 1 ∧ k.relock ≠ none ∧ k.lit = true ∧
    (s.link 1 (farLink 0)).lit = true ∧ s.mgmt.dark = [] ∧ ({ s.mgmt with secret := some 1 } : Mgmt).secret ≠ none := by decide +kernel
theorem witness_fabric_requests :
    let s := Tests.inbox (Tests.packet 0 (Tests.pageAt 8) 1 0) fun d => { d with xent := [(3, BitVec.ofNat 64 (2 ^ 63 + 2 ^ 16), BitVec.ofNat 64 (2 ^ 18))] }
    let p := Tests.packet 0 (Tests.pageAt 8) 1 0
    (s.die 0).inbox[0]? = some (p, 0) ∧ s.inboxHeld 0 0 p = false ∧ s.deadlinePassed p = false ∧
    ({ s with cycle := 1200 * 16 * 11 } : State).deadlinePassed p = true ∧ homed 0 p = true ∧ homed 0 { p with addr := 2 ^ 44 } = false ∧
    s.payloadKey p = none ∧ s.sealed p = false ∧ s.sealed { p with srcMod := 1 } = true ∧
    s.homePlace 0 (paOffset (Tests.pageAt 8)) = .mem ∧ (s.die 0).search 0 0 0x10000 true = some (3, BitVec.ofNat 64 (2 ^ 63 + 2 ^ 16)) ∧
    (s.die 0).search 0 0 0x20000 true = none := by decide +kernel
theorem witness_responses :
    let s := Tests.awaited 8
    s.matchReq 0 3 1 5 9 = some 4 ∧ s.matchReq 0 3 1 5 8 = none ∧ (s.die 0).inbox[0]? = some ({ Tests.packet 8 0 0 0x77 with arg := 0x77 }, 0) := by decide +kernel
theorem witness_invalidations :
    let s := Tests.inbox (Tests.packet 4 0x400020000 0 0) fun d => { d with invals := [Tests.inval] }
    (s.die 0).cache = [] ∧ (s.die 0).filled = [] ∧ (s.die 0).performing = [] ∧ s.reqs = [] ∧ s.backsOut 0 (fun i _ => meets (128 * i) 128 0x400020000 65536) = [] ∧
    Tests.inval.holder ≠ 0 ∧ s.matchReq 0 64 1 5 9 = none ∧ s.deadlinePassed (Tests.packet 4 0x400020000 0 0) = false ∧
    Tests.inval.sent + (s.die 0).interval ≤ 64 * 1200 ∧ ¬ Tests.inval.sent + (s.die 0).interval ≤ s.cycle := by decide +kernel

/-! ## Sluice (R408-R423) -/

/-- Dies 0 and 1 in service, the sluice changed by `f`, a domain secret, and inputs for an event. -/
def Tests.sluice (inp : List Nat) (f : Sluice → Sluice) : State :=
  let s := (Tests.die inp id).setDie 1 { Die.reset with live := true }
  { s with sluice := f s.sluice, mgmt := { s.mgmt with secret := some 1 } }
/-- The maps that put dies 0 and 1 on a torus of one row of two, and SLCTL at a step of a request under way. -/
def Tests.newMaps (x : Sluice) : Sluice :=
  { x with next := ((x.next.set 0 (BitVec.ofNat 64 (2 ^ 33 + 2 ^ 18))).set 1 (BitVec.ofNat 64 (2 ^ 33 + 2 ^ 24 + 2 ^ 18))), scope := 3, dies := [0, 1] }
def Tests.atStep (k : Nat) (x : Sluice) : Sluice := { Tests.newMaps x with ctl := slctl 6 1 0 k 0 0 }
def Tests.slAfter (i : Instr) (s : State) : Sluice := (Tests.next (exec i s)).sluice
/-- BUSY, STATUS, STEP, REASON and EPOCH. -/
def Tests.slFields (x : Sluice) : List Nat :=
  [bitsOf x.ctl 62 62, bitsOf x.ctl 55 48, bitsOf x.ctl 47 40, bitsOf x.ctl 39 32, bitsOf x.ctl 15 0]

theorem test_slctl_go : Tests.slFields (Tests.slAfter .slctlGo (Tests.sluice [] Tests.newMaps)) = [1, 0, 2, 0, 0] := by decide +kernel
theorem test_slctl_go_of_a_reserved_bit :
    Tests.slFields (Tests.slAfter .slctlGo (Tests.sluice [] fun x => { x with next := x.next.set 0 1, scope := 1 })) = [0, 2, 0, 1, 0] := by
  decide +kernel
theorem test_drain_marker :
    (Tests.after .drainMarker (Tests.linked [0] id fun k => { k with marked := true })).markers = [0] := by decide +kernel
theorem test_sluice_drain_complete :
    Tests.slFields (Tests.slAfter .sluiceDrainComplete (Tests.sluice [] (Tests.atStep 2))) = [1, 0, 4, 0, 6] := by decide +kernel
theorem test_sluice_drain_timeout :
    let s := { Tests.sluice [] (Tests.atStep 2) with cycle := 200 * 1200 }
    Tests.slFields (Tests.slAfter .sluiceDrainTimeout s) = [0, 4, 0, 0, 6] := by decide +kernel
theorem test_sluice_dark_end_publishes :
    let t := Tests.next (exec .sluiceDarkEnd (Tests.sluice [] (Tests.atStep 4)))
    (Tests.slFields t.sluice, (t.die 1).gmap.toNat) = ([0, 0, 0, 0, 7], 7 * 2 ^ 48 + 2 ^ 33 + 2 ^ 24 + 2 ^ 18) := by decide +kernel
theorem test_path_relock_complete :
    let t := Tests.next (exec .pathRelockComplete (Tests.sluice [0] fun x => { Tests.atStep 5 x with paths := [(0, 0)] }))
    ((t.link 0 0).up, (t.link 0 0).peer, bitsOf t.sluice.stat 31 16) = (true, some 1, 1) := by decide +kernel
theorem test_path_relock_timeout_publishes_down :
    let s := { Tests.sluice [0] (fun x => { Tests.atStep 5 x with paths := [(0, 1)] }) with cycle := 96000 }
    let t := Tests.next (exec .pathRelockTimeout s)
    ((t.link 0 0).up, Tests.slFields t.sluice) = (false, [0, 5, 0, 0, 7]) := by decide +kernel

theorem witness_map_requests :
    let s := Tests.sluice [] Tests.newMaps
    bitsOf s.sluice.ctl 62 62 = 0 ∧ bitsOf (Tests.atStep 2 s.sluice).ctl 62 62 = 1 ∧ s.sluice.scopeDies = [0, 1] ∧ s.ringRunning [0, 1] = none ∧
    s.mapReason [0, 1] = none ∧ (s.setDie 0 { s.die 0 with rgctl := BitVec.ofNat 64 (2 ^ 50) }).ringRunning [0, 1] = some 0 ∧
    ({ s with sluice := { s.sluice with next := s.sluice.next.set 0 1 } } : State).mapReason [0, 1] = some (1, 0) ∧
    bitsOf (1 : Word) 15 0 ≠ 0 := by decide +kernel
theorem witness_map_drains :
    let s := { Tests.sluice [] (Tests.atStep 2) with cycle := 240000 }
    s.sluice.dies.all s.quiesced = true ∧ s.sluice.step = 2 ∧ s.sluice.began + s.sluice.limit ≤ s.cycle ∧ (∀ d ∈ s.sluice.dies, d < 16) ∧
    (s.setDie 0 { s.die 0 with router := [(Tests.packet 0 0 0 0, 4)] }).quiesced 0 = false ∧
    ((Tests.linked [0] id fun k => { k with marked := true }).link 0 0).marked = true := by decide +kernel
theorem witness_maps_published :
    let s := { Tests.sluice [0] (fun x => { Tests.atStep 5 x with paths := [(0, 0), (5, 1)] }) with cycle := 96000 }
    s.sluice.step = 5 ∧ s.canRelock 0 = true ∧ ({ s with mgmt := { s.mgmt with secret := none } } : State).canRelock 0 = false ∧
    s.sluice.paths.find? (fun e => e.1 = 0) = some (0, 0) ∧ s.sluice.paths.find? (fun e => e.1 = 9) = none ∧
    s.sluice.began + 48000 * (1 + 1) ≤ s.cycle ∧ (Tests.atStep 4 s.sluice).step = 4 := by decide +kernel

/-! ## Host interface (R424-R445) -/

/-- Die 0 with the host link up and its engine enabled and changed by `f`, and inputs for an event. -/
def Tests.host (inp : List Nat) (f : HostEngine → HostEngine) : State :=
  let s := Tests.die inp fun d => { d with te := d.te.setQueue 0 { cfg := BitVec.ofNat 64 (2 ^ 63), pass := 0, pending := [], head := none } }
  { s with host := f { s.host with linkUp := true, hectl := 3 } }
def Tests.hostAfter (i : Instr) (s : State) : HostEngine := (Tests.next (exec i s)).host
/-- User queue 2, enabled, of 16 slots at 0x10000 of host memory, with a packet. -/
def Tests.queue (ws : List Word) : UserQueue :=
  { base := 0x10000, ctl := 0x8000000000000000, rptr := 5, err := 0, notify := false, busy := true
    packet := if ws = [] then none else some ws, sent := none }
def Tests.queued2 (ws : List Word) : State := Tests.host [2] fun h => { h with uqs := [(2, Tests.queue ws)] }
def Tests.slot : Nat := 8 * 2 ^ 48 + 0x10000 + 64 * 5
def Tests.words8 (w0 w1 : Nat) : List Word := [BitVec.ofNat 64 w0, BitVec.ofNat 64 w1, 0, 0, 0, 0, 0, 0]
/-- What a packet of queue 2 ends with: UQERR.STATUS, UQRPTR, and word 0 in its slot. -/
def Tests.ended (i : Instr) (w0 w1 : Nat) : Nat × Nat × Nat :=
  let t := Tests.next (exec i (Tests.queued2 (Tests.words8 w0 w1)))
  (bitsOf (t.uq 2).err 63 56, (t.uq 2).rptr, t.readN Tests.slot 8)

theorem test_config_request : (Tests.hostAfter .configRequest (Tests.host [0, 0] id)).completions = [(0, 0x4C161E57)] := by decide +kernel
theorem test_inbound_bar_read_of_memory :
    let s := Tests.host [4, 0x20008, 2] id
    (Tests.hostAfter .inboundBarRead { s with mem := Memory.writeN (Tests.pageAt 8) 0x030201 3 [] }).completions = [(0, 0x0201)] := by
  decide +kernel
theorem test_inbound_bar_read_misaligned : (Tests.hostAfter .inboundBarRead (Tests.host [0, 0x1012, 4] id)).completions = [(4, 0)] := by
  decide +kernel
theorem test_inbound_bar_write :
    (Tests.next (exec .inboundBarWrite (Tests.host [4, 0x20008, 0, 7, 8] id))).readN (Tests.pageAt 8) 8 = 0x0807 := by decide +kernel
theorem test_inbound_atomicop : (Tests.hostAfter .inboundAtomicop (Tests.host [4, 0] id)).completions = [(1, 0)] := by decide +kernel
theorem test_register_write : (Tests.after .registerWrite (Tests.host [0, 0x2020, 2 ^ 32 + 9] id)).remtimeout = 9 := by decide +kernel
theorem test_uqnotify : ((Tests.next (exec .uqnotify (Tests.host [2] id))).uq 2).notify = true := by decide +kernel
theorem test_uqctl_write_of_an_enabled_queue :
    let s := { Tests.queued2 [] with inp := [2, 2 ^ 63 + 5 * 2 ^ 48] }
    ((Tests.next (exec .uqctlWrite s)).uq 2).context = 0 := by decide +kernel
theorem test_packet_fetch :
    let s := Tests.queued2 []
    (((Tests.next (exec .packetFetch { s with mem := Memory.writeN Tests.slot 0x11 8 [] })).uq 2).packet.map (·.headD 0)) = some 0x11 := by
  decide +kernel
theorem test_launch_packet :
    let t := Tests.next (exec .launchPacket (Tests.queued2 (Tests.words8 0x11 Tests.recordAt)))
    ((((t.te 0).queue 0).pending.map (·.addr)), t.host.launches.map (fun e => (e.1, e.2.user)), (t.uq 2).rptr) = ([Tests.recordAt], [(0, 2)], 6) := by
  decide +kernel
theorem test_launch_packet_of_a_misaligned_record :
    Tests.ended .launchPacket 0x11 (Tests.recordAt + 8) = (2, 6, 2 * 2 ^ 56 + 0x10) := by decide +kernel
theorem test_cancel_packet : Tests.ended .cancelPacket 0x21 7 = (0, 6, 0x20) := by decide +kernel
theorem test_barrier_packet : Tests.ended .barrierPacket 0x31 0 = (0, 6, 0x30) := by decide +kernel
theorem test_launch_interrupt_is_pending_while_masked :
    let h := Tests.hostAfter .launchInterrupt (Tests.host [4] fun h => { h with launches := [(4, ⟨2, some 9, true, none⟩)] })
    (h.launches, h.msixPending, h.messages) = ([], [9], []) := by decide +kernel

/-- Request 3, of die 0 for 8 bytes of host memory in clear, on its way. -/
def Tests.hostRequest (kind : Nat) (mark : Bool) : State :=
  let s := Tests.host [3, 0] id
  { s with
    reqs := [(3, { Req.blank 0 3 1 kind (8 * 2 ^ 48 + 0x2008) 8 0 with tag := some 5, asked := true, mark := mark, data := 0x77, op := 7 })]
    reqNo := 4, mgmt := { s.mgmt with binds := [(0, 1)] }, mem := Memory.writeN (8 * 2 ^ 48 + 0x2008) 0x99 1 [] }
theorem test_device_host_access_writes :
    let t := Tests.next (exec .deviceHostAccess (Tests.hostRequest 1 false))
    (t.readN (8 * 2 ^ 48 + 0x2008) 8, (t.replyOf 3).map (·.status)) = (0x77, some 0) := by decide +kernel
theorem test_device_host_access_unbound :
    let s := Tests.hostRequest 1 false
    ((Tests.next (exec .deviceHostAccess { s with mgmt := { s.mgmt with binds := [] } })).replyOf 3).map (·.status) = some 4 := by decide +kernel
theorem test_host_completion : ((Tests.next (exec .hostCompletion (Tests.hostRequest 0 true))).replyOf 3).map (·.data) = some 0x99 := by
  decide +kernel
theorem test_pcie_completion_timeout :
    ((Tests.next (exec .pcieCompletionTimeout (Tests.hostRequest 0 true))).replyOf 3).map (·.status) = some 2 := by decide +kernel
theorem test_host_link_down_loses_requests : (Tests.hostAfter .hostLinkDown (Tests.hostRequest 0 true)).lost = [3] := by decide +kernel
theorem test_host_link_up_waits_for_boot : (Tests.hostAfter .hostLinkUp (Tests.die [] id)).linkUp = false := by decide +kernel
theorem test_host_engine_reset :
    ((Tests.next (exec .hostEngineReset (Tests.queued2 (Tests.words8 0x11 0)))).uq 2) = { Tests.queue [] with packet := none } := by decide +kernel

theorem witness_configuration :
    (Tests.host [] id).host.linkUp = true ∧ (Tests.die [] id).host.linkUp = false ∧ risingFrom 0 (Tests.host [] id).host.config = true := by
  decide +kernel
theorem witness_bars :
    let s := Tests.host [4, 0x20008, 8] id
    barAligned 8 8 = true ∧ barAligned 4 8 = false ∧ (s.readBar0 0x2020).isSome = true ∧ s.readBar0 0x10000018 = none ∧
    (∀ i : Fin 8, ((bar4Address (0x20008 + i.val)).map fun a => decide (a / 8 ∉ s.poison)) = some true) := by decide +kernel
theorem witness_user_queues :
    let s := Tests.queued2 []
    s.nextQueue = some 2 ∧ bitsOf s.host.hectl 0 0 = 1 ∧ (s.uq 2).slot = Tests.slot ∧ s.poisonIn Tests.slot 64 = none ∧
    s.readN Tests.slot 8 % 2 = 0 ∧ (s.uq 2).enabled = true ∧ ((Tests.host [] id).uq 2).enabled = false ∧ (Tests.host [] id).nextQueue ≠ some 2 := by
  decide +kernel
theorem witness_user_packets :
    let s := Tests.queued2 (Tests.words8 0x11 Tests.recordAt)
    badPacket (Tests.words8 0x11 Tests.recordAt) = false ∧ badPacket (Tests.words8 0x13 0) = true ∧ (s.uq 2).packet ≠ none ∧ Tests.recordAt % 256 = 0 ∧
    inBerm 0 Tests.recordAt 256 = true ∧ inBerm 0 0 256 = false ∧ bitsOf ((s.te 0).queue 0).cfg 63 63 = 1 ∧ ((s.te 0).queue 0).pending = [] ∧
    look 0 s.host.launches = none ∧ bitsOf ((s.te 0).queue 1).cfg 63 63 = 0 ∧ reservedAddr (2 ^ 50) = true ∧ reservedAddr Tests.recordAt = false ∧
    s.host.launches = [] := by decide +kernel
/-- A barrier's decrement at another module has gone out as request 3, and later its home has replied (R441). -/
theorem test_barrier_packet_waits_for_its_home :
    let q (s : State) : State := s.setUq 2 { Tests.queue [0x31, 0, BitVec.ofNat 64 (2 ^ 63 + 9 * 2 ^ 48), 0, 0, 0, 0, 0] with sent := some 3 }
    let s := q (Tests.queued2 [])
    let out := { s with reqs := [(3, Req.blank 0 3 2 2 (2 ^ 48) 8 0)] }
    let t := Tests.next (exec .barrierPacket s)
    ((Tests.next (exec .barrierPacket out)).uq 2 = out.uq 2) ∧ (t.host.msixPending, (t.uq 2).rptr, (t.uq 2).sent) = ([9], 6, none) := by
  decide +kernel
theorem witness_launch_interrupts :
    let h := (Tests.host [] fun h => { h with config := [(0x40, 0x80000000)], msixMasked := [] }).host
    h.masked 9 = false ∧ (Tests.host [] id).host.masked 9 = true ∧ h.linkUp = true := by decide +kernel
theorem witness_host_accesses :
    let s := Tests.hostRequest 1 false
    (s.hostReq 3).map (·.mark) = some false ∧ ((Tests.hostRequest 0 true).hostReq 3).map (fun r => (r.mark, r.kind)) = some (true, 0) ∧
    look 3 s.host.late = none ∧ s.mgmt.binding 0 = some none ∧ s.mgmt.binding 1 = none ∧ (s.mgmt.binding 0).getD none = none ∧
    s.hostReq 4 = none ∧ ({ s.mgmt with binds := [(0, 2)], keys := [(0, 5)] } : Mgmt).binding 0 = some (some 5) := by decide +kernel
theorem witness_host_link :
    (Tests.die [] id).mgmt.boot ≠ 0 ∧ (Tests.die [] id).mgmt.recovery = false ∧ ({ Mgmt.reset with boot := 0 } : Mgmt).boot = 0 ∧
    look 2 (Tests.queued2 []).host.uqs = some (Tests.queue []) := by decide +kernel

/-! ## Management (R446-R459) -/

/-- A command in the mailbox: its code and its request bytes. -/
def Tests.mailbox (code : Nat) (bs : List Nat) (f : Mgmt → Mgmt) : State :=
  let s := Tests.die [] id
  { s with mgmt := f { s.mgmt with
    cmd := BitVec.ofNat 64 (code * 2 ^ 56 + bs.length * 2 ^ 32 + 0x55), stat := BitVec.ofNat 64 (2 ^ 63)
    req := Memory.writeN 0 (bytesNat bs) bs.length [] } }
def Tests.mgmtAfter (i : Instr) (s : State) : Mgmt := (Tests.next (exec i s)).mgmt
/-- BUSY and STATUS, and the tag, after a command. -/
def Tests.done (i : Instr) (s : State) : List Nat :=
  let m := Tests.mgmtAfter i s
  [bitsOf m.stat 63 63, bitsOf m.stat 55 48, m.tag]

theorem test_identity_of_the_wrong_shape : Tests.done .identity (Tests.mailbox 1 [7] id) = [0, 2, 0x55] := by decide +kernel
theorem test_attest_in_recovery : Tests.done .attest (Tests.mailbox 2 [] fun m => { m with recovery := true }) = [0, 3, 0x55] := by
  decide +kernel
theorem test_keyset :
    (Tests.mgmtAfter .keyset (Tests.mailbox 3 (4 :: 0x99 :: List.replicate 63 0) id)).keys = [(4, 0x99)] := by decide +kernel
theorem test_keyclr : (Tests.mgmtAfter .keyclr (Tests.mailbox 4 [4] fun m => { m with keys := [(4, 0x99)] })).keys = [] := by decide +kernel
theorem test_ctxbind : (Tests.mgmtAfter .ctxbind (Tests.mailbox 5 [3, 4] fun m => { m with keys := [(4, 0x99)] })).binding 3 = some (some 0x99) := by
  decide +kernel
theorem test_domkey : (Tests.mgmtAfter .domkey (Tests.mailbox 6 (9 :: List.replicate 31 0) id)).secret = some 9 := by decide +kernel
theorem test_journal_read : Tests.done .journalRead (Tests.mailbox 7 [0] id) = [0, 0, 0x55] := by decide +kernel
theorem test_journal_clear_keeps_the_step : (Tests.mgmtAfter .journalClear (Tests.mailbox 7 [1] id)).journal.map (·.step) = [1] := by
  decide +kernel
theorem test_fwstage : (Tests.mgmtAfter .fwstage (Tests.mailbox 8 [0, 0, 0, 0, 4, 0, 0, 0, 0xAA] id)).staged = (4, [(0, 0xAA)]) := by
  decide +kernel
theorem test_fence_die :
    let t := Tests.next (exec .fenceDie (Tests.mailbox 9 [0, 0] id))
    (t.mgmt.fenced, (t.die 0).live) = ([0], false) := by decide +kernel
theorem test_unfence_die : (Tests.mgmtAfter .unfenceDie (Tests.mailbox 9 [0, 1] fun m => { m with fenced := [0, 1] })).fenced = [1] := by
  decide +kernel
theorem test_diereset_of_a_die_in_service : Tests.done .diereset (Tests.mailbox 10 [0] id) = [0, 3, 0x55] := by decide +kernel
theorem test_diereset : (Tests.mgmtAfter .diereset (Tests.mailbox 10 [0] fun m => { m with fenced := [0] })).fenced = [] := by decide +kernel
theorem test_pwrcap : (Tests.mgmtAfter .pwrcap (Tests.mailbox 11 [0x34, 0x12, 0, 0] id)).pwrcap = 0x1234 := by decide +kernel
theorem test_telem : Tests.done .telem (Tests.mailbox 12 [] id) = [0, 0, 0x55] := by decide +kernel
theorem test_module_reset_keeps_host_memory :
    let s := { Tests.die [] id with mem := [(Tests.pageAt 8, 1), (8 * 2 ^ 48, 2)] }
    (Tests.next (exec .moduleReset s)).mem = [(8 * 2 ^ 48, 2)] := by decide +kernel
theorem test_boot_step : (Tests.mgmtAfter .bootStep (Tests.die [1] id)).boot = 2 := by decide +kernel
theorem test_boot_step_fails : (Tests.mgmtAfter .bootStep (Tests.die [0] id)).recovery = true := by decide +kernel
theorem test_boot_watchdog :
    (Tests.mgmtAfter .bootWatchdog { Tests.die [] id with cycle := 2400000000 }).recovery = true := by decide +kernel
theorem test_power_thermal_tick_halves_a_hot_die :
    let s := Tests.die (List.replicate 16 0 ++ [951]) id
    bitsOf (Tests.after .powerThermalTick s).mxcap 11 0 = 1200 := by decide +kernel
theorem test_corrected_error_threshold :
    let s := Tests.die [3, 1025] fun d => { d with errBase := BitVec.ofNat 64 (Tests.pageAt 0), errCtl := 4 }
    (Tests.after .correctedErrorThreshold s).errHead = 1 := by decide +kernel

theorem Tests.commanded {code : Nat} {bs : List Nat} {f : Mgmt → Mgmt} (h : (Tests.mailbox code bs f).inp.headD 0 ≠ 1)
    (h1 : bitsOf (Tests.mailbox code bs f).mgmt.stat 63 63 = 1 ∧ bitsOf (Tests.mailbox code bs f).mgmt.cmd 63 56 = code ∧
      bitsOf (Tests.mailbox code bs f).mgmt.cmd 55 32 ≤ 0x7F00 ∧ bs = (Tests.mailbox code bs f).mgmt.request) :
    (Tests.mailbox code bs f).Commanded code bs := Or.inr ⟨h, h1⟩
theorem witness_commands :
    (Tests.mailbox 1 [7] id).Commanded 1 [7] ∧ (Tests.mailbox 1 [] id).Commanded 1 [] ∧ (Tests.mailbox 2 [7] id).Commanded 2 [7] ∧
    (Tests.mailbox 3 [7] id).Commanded 3 [7] ∧ (Tests.mailbox 4 [7] id).Commanded 4 [7] ∧ (Tests.mailbox 5 [7] id).Commanded 5 [7] ∧
    (Tests.mailbox 6 [7] id).Commanded 6 [7] ∧ (Tests.mailbox 7 [7] id).Commanded 7 [7] ∧ (Tests.mailbox 8 [7] id).Commanded 8 [7] ∧
    (Tests.mailbox 9 [0, 7] id).Commanded 9 [0, 7] ∧ (Tests.mailbox 9 [16, 1] id).Commanded 9 [16, 1] ∧
    (Tests.mailbox 10 [16] id).Commanded 10 [16] ∧ (Tests.mailbox 11 [7] id).Commanded 11 [7] ∧ (Tests.mailbox 12 [] id).Commanded 12 [] := by
  refine ⟨?_, ?_, ?_, ?_, ?_, ?_, ?_, ?_, ?_, ?_, ?_, ?_, ?_, ?_⟩ <;> exact Tests.commanded (by decide +kernel) (by decide +kernel)
theorem witness_commands_of_the_port :
    let s := { Tests.die [1, 7] id with mgmt := { Mgmt.reset with recovery := true } }
    s.Commanded 2 [7] ∧ s.contextQuiet (· = 7) = true ∧ (Tests.hostRequest 0 true).contextQuiet (· = 0) = false :=
  ⟨Or.inl (by decide +kernel), by decide +kernel, by decide +kernel⟩
theorem witness_commands_that_run :
    (Tests.mailbox 2 (List.replicate 32 7) id).Commanded 2 (List.replicate 32 7) ∧
    (Tests.mailbox 3 (List.replicate 65 7) id).Commanded 3 (List.replicate 65 7) ∧ (Tests.mailbox 5 [3, 4] id).Commanded 5 [3, 4] ∧
    (Tests.mailbox 6 (List.replicate 32 7) id).Commanded 6 (List.replicate 32 7) ∧ (Tests.mailbox 7 [0] id).Commanded 7 [0] ∧
    (Tests.mailbox 7 [1] id).Commanded 7 [1] ∧ (Tests.mailbox 8 [0, 0, 0, 0, 4, 0, 0, 0, 7] id).Commanded 8 [0, 0, 0, 0, 4, 0, 0, 0, 7] ∧
    (Tests.mailbox 9 [3, 0] id).Commanded 9 [3, 0] ∧ (Tests.mailbox 9 [3, 1] id).Commanded 9 [3, 1] ∧ (Tests.mailbox 10 [3] id).Commanded 10 [3] ∧
    (Tests.mailbox 11 [1, 2, 3, 4] id).Commanded 11 [1, 2, 3, 4] ∧ risingFrom 0 (Tests.mailbox 5 [3, 4] id).mgmt.binds = true := by
  refine ⟨?_, ?_, ?_, ?_, ?_, ?_, ?_, ?_, ?_, ?_, ?_, by decide +kernel⟩ <;> exact Tests.commanded (by decide +kernel) (by decide +kernel)
theorem witness_fenced_dies :
    (Tests.mailbox 10 [3] fun m => { m with fenced := [3] }).mgmt.fenced = [3] ∧ 3 ∉ (Tests.mailbox 10 [3] id).mgmt.fenced ∧
    (Tests.mailbox 10 [3] id).mgmt.recovery = false ∧ (Tests.mailbox 10 [3] id).MemoryCanonical := by unfold State.MemoryCanonical; decide +kernel
theorem witness_boot :
    let s := Tests.die [1] id
    s.mgmt.boot = 1 ∧ s.mgmt.target = 0 ∧ s.inp.headD 0 = 1 ∧ (s.mgmt.entry 2 0).fails = 0 ∧ s.mgmt.since + 2400000000 ≤ 2400000000 ∧
    (∀ k : Fin 9, ({ s.mgmt with boot := k.val } : Mgmt).boot = k.val) := by decide +kernel
theorem witness_power :
    let s := Tests.die (List.replicate 16 300) id
    (s.die 0).live = true ∧ (List.range 16).foldl (fun acc i => acc + s.inp.getD i 0) 0 ≤ s.mgmt.pwrcap ∧ look 0 s.mgmt.hot = none ∧
    bitsOf (s.die 0).mxcap 63 63 = 0 ∧ bitsOf (0x8000000000000100 : Word) 63 63 = 1 ∧ (300 : Nat) < (s.die 0).cap ∧
    inBerm 0 (Tests.pageAt 0) (32 * 4) = true ∧ ((0 : Nat) + 1) % 4 ≠ 0 := by decide +kernel

/-! ## Frames, reset, and words stated whole -/

theorem witness_frames :
    strandOnly (.add 2 3 1 2) = true ∧ strandOnly (.vsel 0 1 3 1 2 0) = true ∧ (Tests.on .x id).cur.rot = false ∧
    Tests.came (readReg 1 (Tests.on .x id)) = true ∧ Tests.came (writeReg 3 5 (Tests.on .a id)) = true ∧ Tests.came (writeReg 3 5 (Tests.on .d id)) = true ∧
    Tests.came (takeTokens 0 (Tests.on .x id)) = true ∧ Tests.came (giveTokens 0 (Tests.on .x id)) = true := by decide +kernel
theorem witness_memory :
    let s := Tests.placed 0b00000011000011000000000000000101
    s.MemoryCanonical ∧ Tests.isNext (step s) = true := ⟨by unfold State.MemoryCanonical; decide +kernel, by decide +kernel⟩
theorem witness_words_stated_whole :
    let s := Tests.on .x (Tests.v (Tests.vec 32 [5, 6]) (Tests.vec 32 [7, 8]))
    s.runs = true ∧ s.replyDue = none ∧ XWord s 0 s ∧ readVec 1 s = .ok ((s.strand s.cur).v.get 1, s) ∧ readVec 2 s = .ok ((s.strand s.cur).v.get 2, s) ∧
    (Tests.on .x fun st => { st with trapEntry := 0x1000 }).strand (Tests.ctx .x) ≠ (s.strand s.cur) :=
  ⟨by decide +kernel, by decide +kernel, ⟨by and_intros <;> decide +kernel, Tests.takeNone _⟩, rfl, rfl,
    by decide +kernel⟩

/-! ## States for the remaining clauses -/

/-- Streams A and X of a strand that have the next turns in one cycle, both at a pc outside the text; A is at place 4 of program
order and X at place `n`. -/
def Tests.racing (n : Nat) : State :=
  let t (k : Str) : Turn := { dt := 0, die := 0, polder := 0, strand := 0, act := .stream k, inp := [] }
  { Tests.on .a fun st => { st with a := { st.a with seq := 4, pc := 8 }, x := { st.x with seq := n, pc := 16 }, trapEntry := BitVec.ofNat 64 placedText } with
    turns := [t .a, t .x] }
theorem test_the_earlier_fault_is_taken :
    ((Tests.next (step (Tests.racing 3))).strand (Tests.ctx .x)).trapInfo = 16 ∧
    ((Tests.next (step (Tests.racing 4))).strand (Tests.ctx .x)).trapInfo = 16 ∧
    ((Tests.next (step (Tests.racing 5))).strand (Tests.ctx .x)).trapInfo = 8 := by decide +kernel
theorem witness_same_cycle_faults :
    let s := Tests.racing 3
    let u := (s.nextTurn).2.take (s.nextTurn).1
    u.rivals = [.x] ∧ Tests.isNext (u.act (.stream .a)) = true ∧ u.faultsIn (Tests.next (u.act (.stream .a))) = true ∧
    u.faultsIn (Tests.next (({ u with cur := { u.cur with str := .x } } : State).act (.stream .x))) = true ∧
    ((u.strand u.cur).get .x).seq < ((u.strand u.cur).get .a).seq := by decide +kernel
theorem witness_steps_alone :
    let s := Tests.placed 0b00000011000011000000000000000101
    let u := (s.nextTurn).2.take (s.nextTurn).1
    u.rivals = [] ∧ s.MemoryCanonical := ⟨by decide +kernel, by unfold State.MemoryCanonical; decide +kernel⟩

theorem witness_scratchpad_ends :
    let b := (Tests.on .a id).myCrew.scratchBytes
    let s := Tests.acc [(1, BitVec.ofNat 64 (b - 1)), (2, BitVec.ofNat 64 b)] 0 0 0
    ((s.stream s.cur).regs.get 1).toNat < s.myCrew.scratchBytes ∧ ((s.stream s.cur).regs.get 1).toNat % 2 ≠ 0 ∧
    s.myCrew.scratchBytes ≤ ((s.stream s.cur).regs.get 2).toNat := by decide +kernel
theorem witness_sync_phases :
    let s := Tests.sync [(3, 5), (1, 8)] [(Tests.pageAt 8, 7)]
    let at_ : SyncAt := ⟨Tests.pageAt 8, 1⟩
    let p0 : Pend := { ids := [], data := at_.held 0 }
    let p1 : Pend := { ids := [7], data := at_.held 1 }
    let u (p : Pend) : State := s.setStream s.cur { s.stream s.cur with pend := some p }
    (u p0).pending = some p0 ∧ p0.data = at_.held 0 ∧ s.allReplied p0.ids = true ∧ (u p1).pending = some p1 ∧ p1.data.headD 0 = 1 ∧
    ({ u p1 with reqs := [(7, { Tests.request with reply := some ⟨5, 3, 0⟩ })] } : State).replyOf 7 = some ⟨5, 3, 0⟩ ∧
    s.passedBy 0 0 0 .d 0 (s.stream s.cur).marks.acqD = true ∧ s.backsOut 0 (fun _ x => x = 0) = [] := by decide +kernel
theorem witness_chunks :
    (Tests.sync [] []).freeChunk 0 = none ∧ (Tests.overflow (Tests.sync [] [])).freeChunk 0 = some (dieAddr 0 0x400100000) ∧
    (Tests.sync [] []).myCrew.debug = false := by decide +kernel

/-- A handle on the scratchpad of polder 0, whose bank 1 holds 6-bit elements, in h8. -/
def Tests.twoBanks : State :=
  let s := Tests.on .d fun st => { st with h := st.h.set 8 { Tests.page with base := BitVec.ofNat 52 (Tests.scratchAt 0), size := 1, wr := true } }
  s.setCrew 0 0 { s.crew 0 0 with bankFmt := s.myCrew.bankFmt.set 1 0x12 }
theorem witness_split_stores :
    let s := Tests.twoBanks
    Tests.came (storeCheck s (s.handle 8) 8 65532 8 65532) = true ∧ s.bankSplit 0 (Tests.scratchAt 65532) 8 = some 65532 ∧
    Tests.came (storeAt s (s.handle 8) 8 65528 8 65528) = true ∧ Tests.came (storeAt s (s.handle 8) 8 65532 8 65532) = false := by
  decide +kernel
theorem test_store_over_two_banks :
    let s := Tests.twoBanks
    let s := s.setStrand s.cur (Tests.d [(1, 65532)] (s.strand s.cur))
    (Tests.strand (.st 0 3 0 1 3) s).fault = some 0x5C := by decide +kernel

/-- A release of eight bytes that has retired, and a strand that holds it. -/
def Tests.release (wb : Option (List Nat)) : Release :=
  { amax := false, kind := 1, addr := Tests.pageAt 8, len := 8, value := 0x77, wide := true, seq := 4
    marks := Stream.reset.marks, upTo := 0, wb := wb }
def Tests.releasing (wb : Option (List Nat)) (f : Strand → Strand) : State :=
  Tests.on .d fun st => f { st with rels := [Tests.release wb] }
theorem test_a_retired_release_is_performed :
    let t := (Tests.releasing none id).advanceRelease (strandKey 0 0 0)
    (t.readN (Tests.pageAt 8) 8, (t.strand t.cur).rels) = (0x77, []) := by decide +kernel
theorem witness_retired_releases :
    let s := Tests.releasing none id
    let clear (s : State) : Bool := s.releaseClear 0 0 0 .d 4 Stream.reset.marks 0
    let waits := Tests.releasing (some [7]) id
    (look (strandKey 0 0 0) s.strands).map (·.rels) = some [Tests.release none] ∧ clear s = true ∧
    clear (Tests.releasing none fun st => { st with syncQ := [⟨0, 0, 1, 0, 0, 0, false, false, 3, Stream.reset.marks, none⟩] }) = false ∧
    (s.writeBackContext s.cur).1 = [] ∧ ({ waits with reqs := [(7, Tests.request)] } : State).allReplied [7] = false ∧
    ({ waits with reqs := [(7, { Tests.request with reply := some ⟨0, 0, 0⟩ })] } : State).allReplied [7] = true := by decide +kernel
theorem witness_drain_stream_fails :
    let s := Tests.on .d fun st => { st with h := st.h.set 8 { Tests.page with base := BitVec.ofNat 52 (2 ^ 44 + 0x400020000), wr := true } }
    let x : AffineStream := { Tests.streaming with desc := Tests.streaming.desc.set 1 (BitVec.ofNat 64 (15 * 4096)), handle := s.handle 8 }
    (match streamBytes x 0 s with
      | .error (.trap cause info) => cause = 0x5D && bitsOf info 63 56 = 1
      | _ => false) = true := by decide +kernel
theorem witness_stores_that_wait :
    let s := Tests.store [(1, 8), (3, 0x12345)]
    let st := s.strand s.cur
    let u := s.setStrand s.cur { st with rels := [Tests.release none] }
    Tests.came (storeReady 1 [(Tests.pageAt 4096, 2)] u) = true ∧
    u.releaseReady 0 0 0 .d 5 (u.stream u.cur).marks = false := by decide +kernel
theorem witness_drain_atomics :
    let p : Pend := { ids := [], data := [1100, 7] }
    p.data.headD 0 = 1100 ∧ (Tests.store []).myCrew.halted = false ∧ ({ (Tests.store []).myCrew with halted := true } : Crew).halted = true := by
  decide +kernel
theorem witness_joins_with_write_backs :
    let s := Tests.tasked []
    let p : Pend := { ids := [7], data := [1000] }
    (s.setStream s.cur { s.stream s.cur with pend := some p }).pending = some p ∧ p.ids ≠ [] ∧
    ({ s with reqs := [(7, { Tests.request with reply := some ⟨0, 0, 0⟩ })] } : State).allReplied [7] = true := by decide +kernel
theorem witness_gangs_in_order :
    let te := Tests.dispatched.te 0
    te.waitingGangs 0 = [0] ∧ (te.waitingGangs 5).head? ≠ some 5 ∧ te.gridRun (te.run 0) = true ∧ te.down = none ∧
    Tests.dispatched.backsOut 0 (fun _ x => x = 0) = [] := by decide +kernel
theorem witness_continuations_of_ended_strands :
    let w : Waitc := ⟨dieAddr 0 0x400100000, Tests.syncAt 16, 0x1000, 0, [], [], none⟩
    let s := { Tests.running with inp := [0] }
    let st := s.strand s.cur
    w.wb = none ∧ s.releaseReady 0 s.cur.polder 0 .x st.x.seq st.x.marks = true ∧ (s.die 0).cache = [] ∧
    s.backsOut 0 (fun _ x => x = s.myCrew.context) = [] ∧ s.stopPoint s.cur = false ∧
    (s.setStrand s.cur { st with syncQ := [⟨0, 0, 1, 0, 0, 0, false, false, 0, st.x.marks, none⟩] }).releaseReady 0 s.cur.polder 0 .x
      (st.x.seq + 1) st.x.marks = false := by decide +kernel
theorem witness_stops_under_way :
    let s := Tests.launched.setTe 0 { Tests.launched.te 0 with stopping := some (0, false) }
    s.atRest 0 0 = true ∧ (Tests.dispatched.setTe 0 { Tests.dispatched.te 0 with stopping := some (0, false) }).atRest 0 0 = false := by
  decide +kernel
theorem witness_kept_segments :
    let r (f : RingEngine → RingEngine) := (Tests.ring [(1, 5), (2, 1)] [(5, Tests.seg)] f).rg 0
    let room (f : RingEngine → RingEngine) : Bool := ((Tests.ring [] [] f).die 0).hasRoom
    look 5 (r fun r => { r with kept := [(5, true)] }).kept = some true ∧ 5 ∈ (r fun r => { r with pins := [5] }).pins ∧
    look 5 (r fun r => { r with kept := [(5, false)] }).kept = some false ∧ 5 ∈ (r fun r => { r with retained := [5] }).retained ∧
    5 ∈ (r fun r => { r with queue := [5] }).queue ∧ 5 ∈ (r fun r => { r with withholds := [5] }).withholds ∧ room id = true ∧
    room (fun r => { r with kept := (List.range 256).map fun i => (i, false) }) = false := by decide +kernel
theorem witness_ring_holds_end :
    let h (k : Nat) (r : RingEngine) : RingEngine := { r with hold := some ⟨k, 0, 0⟩, state := 2 }
    let s := Tests.pair (h 2) (fun r => { r with state := 2 })
    let far := Tests.pair (fun r => { r with state := 2 }) id
    (∀ e ∈ s.ringDies 0, ((s.rg e).state = 2 ∨ (s.die e).bypassed = true) ∧ (s.rg e).sending = false ∧ (s.rg e).ingress = []) ∧
    (s.rg 0).hold = some ⟨2, 0, 0⟩ ∧ (far.rg 0).hold = none ∧ (far.rg 0).state = 2 ∧ (∀ e ∈ far.ringDies 0, (far.rg e).hold = none) ∧
    (∃ e ∈ (Tests.pair id (h 1)).ringDies 0, ((Tests.pair id (h 1)).rg e).hold ≠ none) ∧
    1 ∈ (Tests.pair (h 2) fun r => { r with sending := true }).ringDies 0 := by decide +kernel
theorem witness_offered_maps :
    let inp := [3, 17, 99]
    let offers := (pairs inp.tail).map fun e => (e.1, BitVec.ofNat 64 e.2)
    look 17 offers = some 99 ∧ look 18 offers = none ∧ inp.headD 0 = 3 := by decide +kernel
theorem witness_spillway_patches :
    let s := Tests.pair (fun r => { r with hold := some ⟨2, 0, 0⟩, state := 2 }) (fun r => { r with hold := some ⟨2, 0, 0⟩, state := 2 })
    s.patching = true ∧ (Tests.sluice [] Tests.newMaps).patching = false ∧ bitsOf (BitVec.ofNat 64 ((s.readSluice 0).getD 0)) 62 62 = 1 := by
  decide +kernel
theorem witness_frozen_credits :
    let s := Tests.sluice [] (Tests.atStep 4)
    s.creditsFrozen 0 = true ∧ (Tests.sluice [] (Tests.atStep 2)).creditsFrozen 0 = false := by decide +kernel
theorem witness_host_tags :
    let s := Tests.hostRequest 0 false
    let full := { s with host := { s.host with late := (List.range 1024).map fun i => (i + 9, Req.blank 0 3 1 0 0 8 0) } }
    s.hostTags = 0 ∧ full.hostTags = 1024 ∧ look 3 full.host.late = none ∧ s.signalSent 0 (8 * 2 ^ 48 + 16) = none := by decide +kernel
theorem witness_clearing_reads :
    let s := Tests.host [4, 0x20008, 8] id
    let held := s.setDie 0 { s.die 0 with invals := [{ Tests.inval with owner := some hostOwner }] }
    (∀ d : Fin 16, s.clearingOf d.val hostOwner = false) ∧ held.clearingOf 0 hostOwner = true := by decide +kernel
theorem witness_host_order :
    let s := Tests.hostRequest 1 false
    let r := (s.hostReq 3).getD default
    let early : Req := { r with order := 0 }
    s.expired r = false ∧ s.hostBehind r = false ∧ ({ s with cycle := 2 ^ 50 } : State).expired r = true ∧
    ({ s with reqs := [(2, early)] } : State).hostBehind { r with order := 5 } = true := by decide +kernel
theorem witness_soft_errors :
    let e : ArrayErrors := { total := 0, count := 1000, since := 0 }
    (e.more 24 5).2 = false ∧ (e.more 25 5).2 = true ∧ 0 < e.count ∧ 5 < e.since + microseconds 1000000 ∧
    Tests.scratchAt 0 < dieAddr 0 0x400000000 ∨ dieAddr 0 0x41BC00000 ≤ Tests.scratchAt 0 := by decide +kernel
theorem test_double_bit_error_poisons :
    Tests.scratchAt 8 / 8 ∈ (Tests.next (exec .correctedErrorThreshold (Tests.die [3, 0, Tests.scratchAt 8] id))).poison := by decide +kernel

/-! ## Standards (R376, R395, R449): their own published values -/

theorem test_crc32c_of_nine_digits : crc32c 0x393837363534333231 9 = 0xE3069283 := by decide +kernel
theorem test_sha3_of_nothing : sha3Bytes 0 0 = 0x4A43F8804B0AD882FA493BE44DFF80F562D661A05647C15166D71EBFF8C6FFA7 := by decide +kernel
theorem test_aes256_of_zeros : aesBlock (aesKeys 0) 0 = 0x8720849214A248AD898940A278C095DC := by decide +kernel
theorem test_gcm_tag_of_nothing : gcmTag 0 0 0 0 0 0 = 0x8B73CBC4F1B463A9B93645C7FB8A0F53 := by decide +kernel

end
end

section
namespace Sys2Proof.Machine

@[simp] theorem Res.ok_bind {α β : Type} (a : α) (f : α → Res β) : (Except.ok a : Res α) >>= f = f a := rfl

@[simp] theorem Res.trap_bind {α β : Type} (cause : Nat) (info : Word) (f : α → Res β) :
    trap cause info >>= f = trap cause info := rfl

/-- A part of a word's body comes to a result where its first step does and its rest does from there. -/
theorem Res.bind_eq_ok {α β : Type} {x : Res α} {f : α → Res β} {b : β} : x >>= f = .ok b ↔ ∃ a, x = .ok a ∧ f a = .ok b := by
  cases x with
  | error e => simp [bind, Except.bind]
  | ok a => simp [bind, Except.bind]

/-! ## Running a word in its stream (R18-R25, R59, R89) -/

section
variable {s s0 : State} {mine : Str → Bool} {tk : BitVec 4} (h : s.InStrand mine) (ht : takeTokens tk s = .ok s0)
include h ht

/-- A ready stream that executes a word runs its body on the state with the takes done, gives, and finishes (R24, R25). -/
theorem runWordM_of_inStrand (mark : Marking) (len : Nat) (body : State → State → Res Eff) :
    runWordM mark len mine tk body s = s.finish len ((body s s0).bind (giveAfter tk)) := by
  obtain ⟨hruns, hdue, hrot, hmine⟩ := h
  simp [runWordM, hruns, hdue, hrot, hmine, ht, bind, Except.bind]

/-- A word whose body traps takes that trap in the state before its takes (R59). -/
theorem runWordM_traps (mark : Marking) (len : Nat) {body : State → State → Res Eff} {cause : Nat} {info : Word}
    (hb : body s s0 = trap cause info) : runWordM mark len mine tk body s = s.takeTrap cause info := by
  rw [runWordM_of_inStrand h ht, hb]
  rfl

/-- A word whose body comes to a state gives its tokens there and retires (R24). -/
theorem runWordM_retires (mark : Marking) (len : Nat) {body : State → State → Res Eff} {t u : State}
    (hb : body s s0 = .ok (.next t)) (hg : giveTokens tk t = .ok u) : runWordM mark len mine tk body s = u.retire len := by
  rw [runWordM_of_inStrand h ht, hb]
  simp [Except.bind, giveAfter, hg, bind, pure, Except.pure, State.finish]

end

/-! ## What reading an operand leaves unchanged (R24, R75) -/

/-- A scalar register is read in the executing strand, whose streams stay as they are: at most a queue is popped (R75). -/
theorem readReg_keeps {r : BitVec 5} {s t : State} {v : Word} (h : readReg r s = .ok (v, t)) :
    t.cur = s.cur ∧ t.stream t.cur = s.stream s.cur := by
  have popped (hr : ¬ s.cur.rot = true) (q : List Word) (f : List Word → Strand) (hf : ∀ q k, (f q).get k = (s.strand s.cur).get k)
      (h : (do let (w, q) ← popScalar q; pure (w, s.setStrand s.cur (f q)) : Res (Word × State)) = .ok (v, t)) :
      t.cur = s.cur ∧ t.stream t.cur = s.stream s.cur := by
    cases q with
    | nil => cases h
    | cons w q =>
      cases h
      simp [State.stream, hr, hf]
  simp only [readReg] at h
  split at h
  · cases h; exact ⟨rfl, rfl⟩
  · split at h
    · cases h; exact ⟨rfl, rfl⟩
    · rename_i hr
      split at h <;> split at h
      · exact popped hr _ (fun q => { s.strand s.cur with qXA := q }) (fun q k => by cases k <;> rfl) h
      · cases h; exact ⟨rfl, rfl⟩
      · exact popped hr _ (fun q => { s.strand s.cur with qAX := q }) (fun q k => by cases k <;> rfl) h
      · cases h; exact ⟨rfl, rfl⟩
      · exact popped hr _ (fun q => { s.strand s.cur with qXD := q }) (fun q k => by cases k <;> rfl) h
      · cases h; exact ⟨rfl, rfl⟩

@[simp] theorem Strand.setTok_get (st : Strand) (f n : Nat) (k : Str) : (st.setTok f n).get k = st.get k := by
  unfold Strand.setTok; split <;> cases k <;> rfl

/-- A take leaves the streams as they are (R24). -/
theorem takeTok_keeps {f : Option Nat} {s t : State} (hr : s.cur.rot = false) (h : takeTok f s = .ok t) :
    t.cur = s.cur ∧ t.stream t.cur = s.stream s.cur := by
  cases f with
  | none => cases h; exact ⟨rfl, rfl⟩
  | some f =>
    simp only [takeTok] at h
    split at h
    · split at h <;> cases h
    · cases h
      simp [State.stream, hr]

/-- The takes of a word, from its left neighbour and then from its right one (R24). -/
theorem takeTokens_eq (tk : BitVec 4) (s : State) :
    takeTokens tk s = (if tk[3] then takeTok (takeLeft s.cur.str) s else pure s) >>= fun s1 =>
      if tk[2] then takeTok (takeRight s.cur.str) s1 else pure s1 := by
  by_cases h : tk[3] = true <;> simp only [takeTokens, h] <;> rfl

/-- The takes of a word leave the streams as they are (R24). -/
theorem takeTokens_keeps {tk : BitVec 4} {s t : State} (hr : s.cur.rot = false) (h : takeTokens tk s = .ok t) :
    t.cur = s.cur ∧ t.stream t.cur = s.stream s.cur := by
  have optional {b : Bool} {f : Option Nat} {x y : State} (hx : x.cur.rot = false)
      (hxy : (if b then takeTok f x else pure x) = .ok y) : y.cur = x.cur ∧ y.stream y.cur = x.stream x.cur := by
    cases b with
    | false => cases hxy; exact ⟨rfl, rfl⟩
    | true => exact takeTok_keeps hx hxy
  obtain ⟨x, hx, hxt⟩ := Res.bind_eq_ok.1 ((takeTokens_eq tk s).symm.trans h)
  obtain ⟨hc, hs⟩ := optional hr hx
  obtain ⟨hc', hs'⟩ := optional (hc ▸ hr) (hc ▸ hxt)
  exact ⟨hc'.trans hc, hs'.trans hs⟩

/-! ## Parts of a read of memory (R4) -/

/-- Part of the bytes of a read are the read of that part. -/
theorem Memory.readN_part (m : List Host.Cell) (h : Memory.wf m = true) {a n i k : Nat} (hk : i + k ≤ n) :
    Memory.readN m a n / 256 ^ i % 256 ^ k = Memory.readN m (a + i) k := by
  refine Nat.eq_of_bytes k (Nat.mod_lt _ (by positivity)) (Memory.readN_lt _ _ _) fun j hj => ?_
  rw [Memory.readN_byte m h hj, show 256 ^ k = 256 ^ j * 256 ^ (k - j) by rw [← pow_add]; congr 1; omega, Nat.mod_mul_right_div_self,
    Nat.mod_mod_of_dvd _ (dvd_pow_self 256 (by omega)), Nat.div_div_eq_div_mul, ← pow_add,
    Memory.readN_byte m h (show i + j < n by omega), Nat.add_assoc]

/-- A read of two adjacent ranges, the lower one lowest. -/
theorem Memory.readN_add (m : List Host.Cell) (h : Memory.wf m = true) (a n k : Nat) :
    Memory.readN m a (n + k) = Memory.readN m a n + 256 ^ n * Memory.readN m (a + n) k := by
  have low := Memory.readN_part m h (a := a) (n := n + k) (i := 0) (k := n) (by omega)
  have high := Memory.readN_part m h (a := a) (n := n + k) (i := n) (k := k) (by omega)
  have hlt : Memory.readN m a (n + k) / 256 ^ n < 256 ^ k :=
    Nat.div_lt_of_lt_mul (by rw [← pow_add]; exact Memory.readN_lt _ _ _)
  rw [pow_zero, Nat.div_one, Nat.add_zero] at low
  rw [Nat.mod_eq_of_lt hlt] at high
  rw [← low, ← high, Nat.mod_add_div]

/-! ## Where an address lies (R40, R41) -/

/-- Where an address lies depends on the dies and the crews alone. -/
theorem State.place_congr {s t : State} (hd : t.dies = s.dies) (hc : t.crews = s.crews) (die a : Nat) :
    t.place die a = s.place die a := by
  cases s; cases t; cases hd; cases hc; rfl

/-- Memory at an address is memory of the die itself. -/
theorem State.homePlace_of_place_mem {s : State} {die a : Nat} (h : s.place die a = .mem) :
    s.homePlace die (paOffset a) = .mem := by
  simp only [State.place] at h
  split at h
  · exact h
  · repeat' split at h
    all_goals cases h

end Sys2Proof.Machine
end

section
namespace Sys2Proof.Machine

/-! ## A turn of a step: the word at the pc, the event, and the faults of one cycle (R60, R70, R73, R189) -/

/-- A step takes the next turn and lets its agent act. -/
theorem step_eq (s : State) :
    step s = ((s.nextTurn).2.take (s.nextTurn).1).actFirst (s.nextTurn).1.act := rfl

section
variable {u : State} {a : Act} (ha : a = .rotation ∨ ∃ k, a = .stream k)
include ha

/-- An agent that runs words runs the word that its fetch brings. -/
theorem State.act_of_fetch_word {i : Instr} {t : State} (h : u.fetch = .word i t) : u.act a = exec i t := by
  rcases ha with rfl | ⟨k, rfl⟩ <;> simp only [State.act, h]

/-- A word that decode refuses brings about its event (R73). -/
theorem State.act_of_fetch_illegal {inp : List Nat} (h : u.fetch = .illegal inp) :
    u.act a = exec .illegalInstruction { u with inp := inp } := by
  rcases ha with rfl | ⟨k, rfl⟩ <;> simp only [State.act, h]

/-- A fetch that fails brings about its event (R307). -/
theorem State.act_of_fetch_fault {inp : List Nat} (h : u.fetch = .fault inp) :
    u.act a = exec .instructionFetchFault { u with inp := inp } := by
  rcases ha with rfl | ⟨k, rfl⟩ <;> simp only [State.act, h]

end

/-- No fault is reported before what a step comes to that has not faulted. -/
theorem State.firstFault_of_no_fault (u : State) (k j : Str) {o : Host.Outcome State Fault Refusal}
    (p : Host.Outcome State Fault Refusal) (h : ∀ t, o = .next t → u.faultsIn t = false) : u.firstFault k o j p = false := by
  cases o with
  | next t => cases p <;> simp [State.firstFault, h t rfl]
  | fault r => rfl
  | refused r => rfl

/-- An agent that faults in no cycle with another does what it does alone (R60). -/
theorem State.actFirst_of_alone (u : State) (a : Act) (h : u.Alone (u.act a)) : u.actFirst a = u.act a := by
  cases a with
  | event i => rfl
  | rotation => rfl
  | stream k =>
    rcases h with hr | hf
    · simp [State.actFirst, hr]
    · have keep : ∀ js : List Str, (js.foldl (fun (best : Str × Host.Outcome State Fault Refusal) j =>
          if u.firstFault best.1 best.2 j (({ u with cur := { u.cur with str := j } } : State).act (.stream j))
          then (j, ({ u with cur := { u.cur with str := j } } : State).act (.stream j)) else best) (k, u.act (.stream k)))
          = (k, u.act (.stream k)) := by
        intro js
        induction js with
        | nil => rfl
        | cons j r ih => simp only [List.foldl_cons, u.firstFault_of_no_fault k j _ hf, Bool.false_eq_true, if_false, ih]
      exact congrArg Prod.snd (keep u.rivals)

/-- Where no loop is open, nothing is held in the loop buffer (R189). -/
theorem State.buffer_of_no_loop (s : State) (a : Nat) (w : BitVec 32) (h : (s.stream s.cur).loops = []) : s.buffer a w = s := by
  simp [State.buffer, h]

/-- The decoder that an agent's words go through: a rotation program's, or that of its crew (R73, R353). -/
def State.executor (u : State) : Executor :=
  if u.cur.rot then .rotation else .polder (u.crew u.cur.die u.cur.polder).system

section
variable {u : State} (hruns : u.runs = true) (hlive : (u.die u.cur.die).live = true)
include hruns hlive

/-- A word that decode takes is fetched, and held in the loop buffer with its follow-on (R70, R189). -/
theorem State.fetch_of_decode_ok {w : BitVec 32} {i : Instr} {n : Nat} (hword : u.fetch32 u.pc.toNat = some w)
    (hdec : decode u.executor w (u.fetch32 (u.pc.toNat + 4)) = .ok i n) :
    u.fetch = .word i (if n = 2 then
        (u.buffer u.pc.toNat w).buffer (u.pc.toNat + 4) ((u.fetch32 (u.pc.toNat + 4)).getD 0)
      else u.buffer u.pc.toNat w) := by
  simp only [State.executor] at hdec
  simp [State.fetch, hruns, hlive, hword, hdec]

theorem State.fetch_of_decode_illegal {w v : BitVec 32} {r n : Nat} (hword : u.fetch32 u.pc.toNat = some w)
    (hdec : decode u.executor w (u.fetch32 (u.pc.toNat + 4)) = .illegal v r n) :
    u.fetch = .illegal [v.toNat, r, w.toNat, n] := by
  simp only [State.executor] at hdec
  simp [State.fetch, hruns, hlive, hword, hdec]

theorem State.fetch_of_decode_noFollow {w : BitVec 32} (hword : u.fetch32 u.pc.toNat = some w)
    (hdec : decode u.executor w (u.fetch32 (u.pc.toNat + 4)) = .noFollow) : u.fetch = .fault [u.pc.toNat + 4, 1] := by
  simp only [State.executor] at hdec
  simp [State.fetch, hruns, hlive, hword, hdec]

theorem State.fetch_outside_text (hnone : u.fetch32 u.pc.toNat = none) : u.fetch = .fault [u.pc.toNat] := by
  simp [State.fetch, hruns, hlive, hnone]

end

/-- The word at the pc is run (R189). -/
theorem step_runs_decoded_word : Claims.StepRunsTheDecodedWord := by
  intro s w i n t u x buffered hact hruns hlive hword hdec halone
  have hdo : u.act t.act = exec i buffered := State.act_of_fetch_word hact (State.fetch_of_decode_ok hruns hlive hword hdec)
  have hstep : step s = exec i buffered := by
    rw [step_eq, u.actFirst_of_alone t.act (hdo ▸ halone), hdo]
  refine ⟨hstep, fun hloops => ?_⟩
  have hbuf : buffered = u := by
    simp only [buffered, u.buffer_of_no_loop _ _ hloops, ite_self]
  rw [hstep, hbuf]

/-- The two events of decode and fetch (R70, R73, R307). -/
theorem step_takes_illegal_words : Claims.StepTakesIllegalWords := by
  intro s t u x hact hruns hlive halone
  have hstep : step s = u.act t.act := u.actFirst_of_alone t.act halone
  rw [hstep]
  exact ⟨fun w v r n hword hdec => State.act_of_fetch_illegal hact (State.fetch_of_decode_illegal hruns hlive hword hdec),
    fun w hword hdec => State.act_of_fetch_fault hact (State.fetch_of_decode_noFollow hruns hlive hword hdec),
    fun hnone => State.act_of_fetch_fault hact (State.fetch_outside_text hruns hlive hnone)⟩

/-- Of two streams that fault in one cycle, the one that R60 names. -/
theorem State.actFirst_of_two_faults (u a b : State) (k j : Str) (hr : u.rivals = [j])
    (ha : u.act (.stream k) = .next a) (hb : ({ u with cur := { u.cur with str := j } } : State).act (.stream j) = .next b)
    (fa : u.faultsIn a = true) (fb : u.faultsIn b = true) :
    u.actFirst (.stream k) = .next (if (u.strand u.cur).before j k then b else a) := by
  simp only [State.actFirst, hr, List.foldl_cons, List.foldl_nil, ha, hb, State.firstFault, fa, fb, Bool.true_and]
  split <;> rfl

/-- R60. -/
theorem step_reports_first_fault : Claims.SameCycleFaults := by
  intro s a b k j t u st hact hr ha hb fa fb
  have hstep : step s = .next (if st.before j k then b else a) := by
    rw [step_eq, show (s.nextTurn).1.act = _ from hact]
    exact u.actFirst_of_two_faults a b k j hr ha hb fa fb
  rw [hstep]
  refine ⟨fun h => ?_, fun h => ?_, fun e h => ?_, fun e h => ?_⟩
  · simp [Strand.before, h]
  · simp [Strand.before, Nat.lt_asymm h, (Nat.ne_of_gt h)]
  · rcases h with ⟨rfl, h⟩ | ⟨rfl, rfl⟩
    · cases k <;> simp_all [Strand.before]
    · simp [Strand.before, e]
  · rcases h with rfl | ⟨rfl, rfl⟩
    · cases j <;> simp [Strand.before, e]
    · simp [Strand.before, e]

/-- A turn of an event. -/
theorem step_performs_event : Claims.StepPerformsTheEvent := by
  intro s i t u hact
  have hstep : step s = if u.mayAct i then exec i u else .next u := by
    rw [step_eq, show (s.nextTurn).1.act = _ from hact]
    rfl
  exact ⟨fun h => by rw [hstep, if_pos h], fun h => by rw [hstep, if_neg (by simp [h])]⟩

/-- A byte below a number of whole bytes. -/
theorem toNat_append_byte {n : Nat} (x : BitVec n) (y : BitVec 8) : (x ++ y).toNat = 256 * x.toNat + y.toNat := by
  rw [BitVec.toNat_append, ← Nat.shiftLeft_add_eq_or_of_lt y.isLt, Nat.shiftLeft_eq, Nat.mul_comm]

/-- Four bytes read as one number are the bytes side by side, lowest address lowest (R4). -/
theorem State.readN_four (s : State) (hc : s.MemoryCanonical) (a : Nat) :
    BitVec.ofNat 32 (s.readN a 4) = s.byteAt (a + 3) ++ s.byteAt (a + 2) ++ s.byteAt (a + 1) ++ s.byteAt a := by
  have byte (i : Nat) (hi : i < 4) : s.readN a 4 / 256 ^ i % 256 = (s.byteAt (a + i)).toNat := Memory.readN_byte _ hc hi
  have hlt : s.readN a 4 < 256 ^ 4 := Memory.readN_lt _ _ _
  apply BitVec.eq_of_toNat_eq
  simp only [toNat_append_byte, BitVec.toNat_ofNat]
  rw [← byte 3 (by omega), ← byte 2 (by omega), ← byte 1 (by omega), ← show _ = (s.byteAt a).toNat from byte 0 (by omega)]
  omega

/-- The word at an address of a text (R4, R87, R189, R307). -/
theorem fetch_reads_text : Claims.FetchReadsTheText := by
  intro s a hc
  refine ⟨fun w hw => by simp [State.fetch32, hw], fun hnone => ⟨fun hout => ?_, fun hlo hhi hread => ?_⟩⟩
  · have : ¬ (s.text.1 ≤ a ∧ a + 4 ≤ s.text.1 + s.text.2) := by omega
    simp [State.fetch32, hnone, this]
  · obtain ⟨v, hv⟩ := Option.isSome_iff_exists.1 hread
    have hval : v = s.readN a 4 := by
      simp only [State.engineRead] at hv
      rw [if_neg (by decide), Option.ite_none_right_eq_some] at hv
      exact (Option.some.inj hv.2).symm
    simp [State.fetch32, hnone, hlo, hhi, hv, hval, s.readN_four hc a]

/-- Settles O4: a turn runs the word that its agent fetches, or the event it names. -/
theorem stepRunsTheDecodedWord : Obligations.StepRunsTheDecodedWord :=
  ⟨step_runs_decoded_word, step_takes_illegal_words, step_reports_first_fault, step_performs_event, fetch_reads_text⟩

end Sys2Proof.Machine
end

section
namespace Sys2Proof.Machine

/-! ## What a read of sectors comes to (R42, R130, R460) -/

/-- Reading the registers of a sector changes nothing (R460). -/
theorem readRegs_state (die idx mask : Nat) (s : State) : (readRegs readDieReg die idx mask s).2 = s := by
  refine List.foldlRecOn (motive := fun acc : Reply × State => acc.2 = s) _ _ rfl fun acc h i _ => ?_
  split <;> exact h

/-- Reading sectors changes nothing. -/
theorem readSectors_state (r : Reader) (held secs : List (Nat × Nat)) (s : State) :
    (readSectors readDieReg r held secs s).2 = s := by
  refine List.foldlRecOn (motive := fun acc : List (Nat × Reply) × State => acc.2 = s) _ _ rfl fun acc h e _ => ?_
  dsimp only
  split
  case h_3 => exact (readRegs_state _ _ _ _).trans h
  case h_6 => split <;> exact h
  all_goals exact h

/-- The first turn of a read, once nothing holds it back: it has its results at once, or asks the homes and stays (R53, R151). -/
def State.firstFetch (s0 : State) (rd : RegRead) (r : Reader) (wide : Bool) (ranges : List (Nat × Nat)) (data : List Nat)
    (s : State) : Res Fetch :=
  let back := if wide then s0.writeBackContext s0.cur else ([], s0)
  let asked := back.2.askSectors r [] (sectorsOf ranges)
  if back.1.isEmpty && asked.1.isEmpty then
    pure (.got (readSectors rd r [] (sectorsOf ranges) s).1 [] (readSectors rd r [] (sectorsOf ranges) s).2)
  else pure (.stay (asked.2.setPending { ids := back.1 ++ asked.1, data := data }))

/-- A word with nothing in progress waits for room, the scoreboard and SO accesses, in this order, and then reads (R39, R49). -/
theorem fetchRanges_first {s0 : State} (h : s0.pending = none) (rd : RegRead) (r : Reader) (wide room : Bool)
    (ranges : List (Nat × Nat)) (data : List Nat) (s : State) :
    fetchRanges rd r wide room ranges data s0 s =
      ((if (r.kind = 0 || r.acquire) && !room then hold .dataQueue else pure ()) >>= fun _ =>
        untilTrue (!s.scoreboardHolds ranges) >>= fun _ =>
        (if r.kind = 0 then untilTrue (!s0.soHeld) else pure ()) >>= fun _ =>
        s0.firstFetch rd r wide ranges data s) := by
  simp only [fetchRanges, h]
  by_cases hroom : ((decide (r.kind = 0) || r.acquire) && !room) = true
  · rw [if_pos hroom, if_pos hroom]
    rfl
  · rw [if_neg hroom, if_neg hroom]
    by_cases hk : r.kind = 0 <;> simp only [hk] <;> rfl

/-- The first turn of a read that has its results leaves the state as it is. -/
theorem State.firstFetch_got_state {r : Reader} {wide : Bool} {ranges : List (Nat × Nat)} {data : List Nat} {s0 s t : State}
    {rs : List (Nat × Reply)} {ids : List Nat}
    (h : s0.firstFetch readDieReg r wide ranges data s = .ok (.got rs ids t)) : t = s := by
  simp only [State.firstFetch] at h
  generalize (if wide then s0.writeBackContext s0.cur else ([], s0)) = back at h
  split at h
  · cases h
    exact readSectors_state _ _ _ _
  · cases h

/-- A fetch that has its results leaves the state as it is. -/
theorem fetchRanges_got_state {r : Reader} {wide room : Bool} {ranges : List (Nat × Nat)} {data : List Nat} {s0 s t : State}
    {rs : List (Nat × Reply)} {ids : List Nat}
    (h : fetchRanges readDieReg r wide room ranges data s0 s = .ok (.got rs ids t)) : t = s := by
  cases hp : s0.pending with
  | none =>
    rw [fetchRanges_first hp] at h
    obtain ⟨_, _, h⟩ := Res.bind_eq_ok.1 h
    obtain ⟨_, _, h⟩ := Res.bind_eq_ok.1 h
    obtain ⟨_, _, h⟩ := Res.bind_eq_ok.1 h
    exact State.firstFetch_got_state h
  | some p =>
    simp only [fetchRanges, hp] at h
    split at h
    · cases h
    · split at h
      · cases h
      · cases h
        exact readSectors_state _ _ _ _

/-- A fold that answers one result for each entry and keeps the state. -/
theorem foldl_results {α β σ : Type} {f : List β × σ → α → List β × σ} {g : α → β} {s : σ} {l : List α}
    (h : ∀ acc, ∀ e ∈ l, f (acc, s) e = (acc ++ [g e], s)) (acc : List β) : l.foldl f (acc, s) = (acc ++ l.map g, s) := by
  induction l generalizing acc with
  | nil => simp
  | cons e r ih =>
    rw [List.foldl_cons, h acc e (by simp), ih fun acc e he => h acc e (by simp [he])]
    simp

/-- A sector of this die's memory is read as it stands (R42). -/
theorem readSectors_mem (rd : RegRead) (r : Reader) (held : List (Nat × Nat)) {secs : List (Nat × Nat)} {s : State}
    (h : ∀ e ∈ secs, s.place r.die (128 * e.1) = .mem) :
    readSectors rd r held secs s = (secs.map fun e => (e.1, s.readHome r.die (128 * e.1) 128), s) := by
  unfold readSectors
  rw [foldl_results (g := fun e => (e.1, s.readHome r.die (128 * e.1) 128)) (fun acc e he => by simp [h e he])]
  rfl

/-- For sectors of this die's memory no request is made (R44). -/
theorem State.askSectors_mem (r : Reader) (held : List (Nat × Nat)) {secs : List (Nat × Nat)} {s : State}
    (h : ∀ e ∈ secs, s.place r.die (128 * e.1) = .mem) : s.askSectors r held secs = ([], s) := by
  refine List.foldlRecOn (motive := fun acc => acc = ([], s)) _ _ rfl fun acc hacc e he => ?_
  subst hacc
  simp [h e he]

end Sys2Proof.Machine
end

section
namespace Sys2Proof.Machine

/-! ## The sectors of a range and the bytes they came to (R4, R55, R130) -/

theorem look_isSome_of_mem {α : Type} {e : Nat × α} : ∀ {l : List (Nat × α)}, e ∈ l → (look e.1 l).isSome = true
  | (j, b) :: r, h => by
    rcases List.mem_cons.1 h with rfl | h
    · simp [look]
    · by_cases hj : j = e.1
      · simp [look, hj]
      · simpa [look, hj] using look_isSome_of_mem h

theorem look_map {α β : Type} (f : Nat → β) (k : Nat) : ∀ l : List (Nat × α),
    look k (l.map fun e => (e.1, f e.1)) = (look k l).map fun _ => f k
  | [] => rfl
  | (j, b) :: r => by
    by_cases hj : j = k
    · simp [look, hj]
    · simp [look, hj, look_map f k r]

theorem look_put_isSome {α : Type} (k j : Nat) (a : α) (l : List (Nat × α)) :
    (look j (put k a l)).isSome = true ↔ j = k ∨ (look j l).isSome = true := by
  by_cases h : k = j
  · simp [h]
  · rw [look_put_other h]
    simp [Ne.symm h]

/-- The sectors that a table records after a range is cut into it: those it held, and those of the range's bytes. -/
theorem look_addRange_isSome (k : Nat) : ∀ (fuel a n : Nat) (t : List (Nat × Nat)), (0 < n → n + a % 128 ≤ 128 * fuel) →
    ((look k (addRange fuel a n t)).isSome = true ↔
      (∃ x, a ≤ x ∧ x < a + n ∧ x / 128 = k) ∨ (look k t).isSome = true)
  | 0, a, n, t, h => by
    have hn : n = 0 := by omega
    subst hn
    simp only [addRange, add_zero]
    exact ⟨.inr, fun h => h.resolve_left fun ⟨x, h1, h2, _⟩ => by omega⟩
  | fuel + 1, a, n, t, h => by
    by_cases hn : n = 0
    · subst hn
      simp only [addRange, add_zero, if_true]
      exact ⟨.inr, fun h => h.resolve_left fun ⟨x, h1, h2, _⟩ => by omega⟩
    · simp only [addRange, if_neg hn]
      rw [look_addRange_isSome k fuel _ _ _ (by omega), look_put_isSome, ← or_assoc]
      refine or_congr_left ⟨?_, ?_⟩
      · rintro (⟨x, h1, h2, rfl⟩ | rfl)
        · exact ⟨x, by omega, by omega, rfl⟩
        · exact ⟨a, by omega, by omega, rfl⟩
      · rintro ⟨x, h1, h2, rfl⟩
        by_cases hx : x < a + min n (128 - a % 128)
        · exact .inr (by omega)
        · exact .inl ⟨x, by omega, by omega, rfl⟩

/-- The sectors of a range are those of its bytes (R130). -/
theorem look_sectorsOf_isSome (k a n : Nat) :
    (look k (sectorsOf [(a, n)])).isSome = true ↔ ∃ x, a ≤ x ∧ x < a + n ∧ x / 128 = k := by
  simp only [sectorsOf, List.foldl_cons, List.foldl_nil]
  rw [look_addRange_isSome k _ _ _ _ (by omega)]
  simp [look]

/-- The 8-byte words that a range touches (R55). -/
theorem mem_wordsOf {w a n : Nat} : w ∈ wordsOf a n ↔ 0 < n ∧ a / 8 ≤ w ∧ w ≤ (a + n - 1) / 8 := by
  unfold wordsOf
  split
  · simp; omega
  · simp only [List.mem_map, List.mem_range]
    constructor
    · rintro ⟨i, hi, rfl⟩; omega
    · rintro ⟨_, h1, h2⟩; exact ⟨w - a / 8, by omega, by omega⟩

theorem State.poisonIn_eq_none {s : State} {a n : Nat} : s.poisonIn a n = none ↔ ∀ w ∈ wordsOf a n, w ∉ s.poison := by
  simp [State.poisonIn]

/-- Bit `i` of marks packed from the lowest bit up. -/
theorem foldr_marks_bit (p : Nat → Bool) : ∀ (l : List Nat) (i : Nat),
    l.foldr (fun w acc => 2 * acc + (if p w then 1 else 0)) 0 / 2 ^ i % 2 = 1 → ∃ h : i < l.length, p l[i] = true
  | [], i, h => by simp at h
  | w :: r, 0, h => by
    refine ⟨by simp, ?_⟩
    simp only [List.foldr_cons, pow_zero, Nat.div_one] at h
    by_contra hp
    simp only [List.getElem_cons_zero] at hp
    rw [if_neg hp] at h
    omega
  | w :: r, i + 1, h => by
    rw [List.foldr_cons, Nat.pow_succ', ← Nat.div_div_eq_div_mul] at h
    have e : (2 * r.foldr (fun w acc => 2 * acc + (if p w then 1 else 0)) 0 + (if p w then 1 else 0)) / 2
        = r.foldr (fun w acc => 2 * acc + (if p w then 1 else 0)) 0 := by split <;> omega
    rw [e] at h
    obtain ⟨hi, hp⟩ := foldr_marks_bit p r i h
    exact ⟨by simpa using hi, by simpa using hp⟩

/-- A poison mark of a sector stands for a poisoned 8-byte word of it (R55, R381). -/
theorem State.poison_of_sector_bit {s : State} {k w : Nat} (h : s.poisonBits (128 * k) 128 / 2 ^ w % 2 = 1) :
    16 * k + w ∈ s.poison := by
  unfold State.poisonBits at h
  split at h
  · simp at h
  · obtain ⟨hi, hp⟩ := foldr_marks_bit _ _ _ h
    have hw : (wordsOf (128 * k) 128)[w] = 16 * k + w := by
      simp only [wordsOf, Nat.reduceEqDiff, if_false, List.getElem_map, List.getElem_range]
      omega
    rw [hw, List.contains_iff_mem] at hp
    exact hp

/-- Bytes of sectors that were read as they stand: no failure, no poison, and the data that memory holds (R4, R130). -/
theorem collect_of_memory {s : State} {rs : List (Nat × Reply)} (hc : s.MemoryCanonical) : ∀ (fuel a n : Nat),
    (0 < n → n + a % 128 ≤ 128 * fuel) →
    (∀ x, a ≤ x → x < a + n →
      look (x / 128) rs = some ⟨0, s.readN (128 * (x / 128)) 128, s.poisonBits (128 * (x / 128)) 128⟩) →
    (∀ w ∈ wordsOf a n, w ∉ s.poison) → collect rs fuel a n = ⟨0, 0, s.readN a n, none⟩
  | 0, a, n, hf, _, _ => by
    have hn : n = 0 := by omega
    subst hn
    rfl
  | fuel + 1, a, n, hf, hrs, hp => by
    by_cases hn : n = 0
    · subst hn
      rfl
    · have hpos : 0 < n := Nat.pos_of_ne_zero hn
      generalize hh : min n (128 - a % 128) = here
      have htail := collect_of_memory hc fuel (a + here) (n - here) (by omega)
        (fun x h1 h2 => hrs x (by omega) (by omega))
        (fun w hw => hp w (by rw [mem_wordsOf] at hw ⊢; omega))
      have hgood : ((wordsOf (a % 128) here).find? fun w => s.poisonBits (128 * (a / 128)) 128 / 2 ^ w % 2 = 1) = none := by
        rw [List.find?_eq_none]
        intro w hw hbit
        refine hp (16 * (a / 128) + w) ?_ (State.poison_of_sector_bit (by simpa using hbit))
        rw [mem_wordsOf] at hw ⊢
        omega
      have hdata : s.readN (128 * (a / 128)) 128 / 2 ^ (8 * (a % 128)) % 2 ^ (8 * here) = s.readN a here := by
        have := Memory.readN_part s.mem hc (a := 128 * (a / 128)) (n := 128) (i := a % 128) (k := here) (by omega)
        rw [Nat.div_add_mod] at this
        rw [pow_mul, pow_mul]
        exact this
      have hsum : s.readN a here + s.readN (a + here) (n - here) * 2 ^ (8 * here) = s.readN a n := by
        have := Memory.readN_add s.mem hc a here (n - here)
        rw [show here + (n - here) = n by omega] at this
        rw [pow_mul, Nat.mul_comm]
        exact this.symm
      simp [collect, hn, hh, hrs a le_rfl (by omega), htail, hgood, hdata, hsum]

/-- Memory of the die is read as it stands (R42). -/
theorem State.readHome_mem {s : State} {die a : Nat} (h : s.place die a = .mem) (n : Nat) :
    s.readHome die a n = ⟨0, s.readN a n, s.poisonBits a n⟩ := by
  simp [State.readHome, State.homePlace_of_place_mem h]

/-- What a range of this die's memory comes to from its sectors (R4, R44, R130). -/
theorem collectRange_sectors_mem {s : State} {die a n : Nat} (hc : s.MemoryCanonical)
    (hmem : ∀ x, a ≤ x → x < a + n → s.place die (128 * (x / 128)) = .mem) (hp : s.poisonIn a n = none) :
    collectRange ((sectorsOf [(a, n)]).map fun e => (e.1, s.readHome die (128 * e.1) 128)) a n = ⟨0, 0, s.readN a n, none⟩ := by
  refine collect_of_memory hc _ _ _ (by omega) (fun x h1 h2 => ?_) (State.poisonIn_eq_none.1 hp)
  obtain ⟨mask, hmask⟩ := Option.isSome_iff_exists.1 ((look_sectorsOf_isSome (x / 128) a n).2 ⟨x, h1, h2, rfl⟩)
  rw [look_map (fun k => s.readHome die (128 * k) 128), hmask, Option.map_some, State.readHome_mem (hmem x h1 h2)]

/-- A read that nothing holds back begins in its first turn (R25, R39, R49). -/
theorem fetchRanges_of_clear {s0 s : State} {rd : RegRead} {r : Reader} {wide room : Bool} {ranges : List (Nat × Nat)}
    {data : List Nat} (hpend : s0.pending = none) (hroom : r.kind = 0 ∨ r.acquire = true → room = true)
    (hheld : s.scoreboardHolds ranges = false) (hso : r.kind = 0 → s0.soHeld = false) :
    fetchRanges rd r wide room ranges data s0 s = s0.firstFetch rd r wide ranges data s := by
  have hnohold : ¬ ((decide (r.kind = 0) || r.acquire) && !room) = true := by
    simp only [Bool.and_eq_true, Bool.or_eq_true, decide_eq_true_eq, Bool.not_eq_true', not_and, Bool.not_eq_false]
    exact hroom
  rw [fetchRanges_first hpend, if_neg hnohold, hheld]
  split
  · rw [hso ‹_›]
    rfl
  · rfl

/-- Bytes of this die's memory are read as they stand (R4, R44, R130). -/
theorem local_reads : Claims.LocalReads := by
  intro s0 s1 kind acq room pa n data _ hsame hc hpend hheld hso hroom _ hplace hpoison
  obtain ⟨_, _, hdies, hcrews, _, _⟩ := hsame
  have hmem : ∀ x, pa ≤ x → x < pa + n → s0.place s0.cur.die (128 * (x / 128)) = .mem := fun x h1 h2 => by
    have := hplace (x - pa) (by omega)
    rwa [Nat.add_sub_cancel' h1, Nat.mul_comm] at this
  have hmem1 : ∀ x, pa ≤ x → x < pa + n → s1.place s0.cur.die (128 * (x / 128)) = .mem := fun x h1 h2 =>
    (State.place_congr hdies hcrews _ _).trans (hmem x h1 h2)
  have sectors {s : State} (h : ∀ x, pa ≤ x → x < pa + n → s.place s0.cur.die (128 * (x / 128)) = .mem) :
      ∀ e ∈ sectorsOf [(pa, n)], s.place s0.cur.die (128 * e.1) = .mem := fun e he => by
    obtain ⟨x, h1, h2, hx⟩ := (look_sectorsOf_isSome e.1 pa n).1 (look_isSome_of_mem he)
    exact hx ▸ h x h1 h2
  have hfirst : s0.firstFetch readDieReg (s0.reader kind acq) false [(pa, n)] data s1 =
      .ok (.got ((sectorsOf [(pa, n)]).map fun e => (e.1, s1.readHome s0.cur.die (128 * e.1) 128)) [] s1) := by
    have hask := State.askSectors_mem (s0.reader kind acq) [] (sectors hmem)
    have hread := readSectors_mem readDieReg (s0.reader kind acq) [] (sectors hmem1)
    simp only [State.firstFetch, Bool.false_eq_true, if_false, hask, hread]
    rfl
  refine ⟨_, ?_, collectRange_sectors_mem hc hmem1 hpoison⟩
  rw [fetchRanges_of_clear hpend hroom hheld hso, hfirst]

end Sys2Proof.Machine
end

section
namespace Sys2Proof.Machine

/-! ## Scalar loads through a handle (R53, R57, R127, R130, R131) -/

section
variable {s s0 : State} {tk : BitVec 4} (h : AWord s tk s0) (hacq : s.acquired = true)
include h hacq

/-- A load whose body traps takes that trap in the state before its takes (R59). -/
theorem runLoad_traps (mark : Marking) {body : State → State → Res Eff} {cause : Nat} {info : Word}
    (hb : body s s0 = trap cause info) : runLoad mark tk body s = s.takeTrap cause info :=
  runWordM_traps h.1 h.2 mark 1 (by simp only [hacq]; exact hb)

/-- A load whose body comes to a state gives its tokens there and retires (R24). -/
theorem runLoad_retires (mark : Marking) {body : State → State → Res Eff} {t u : State}
    (hb : body s s0 = .ok (.next t)) (hg : giveTokens tk t = .ok u) : runLoad mark tk body s = u.retire 1 :=
  runWordM_retires h.1 h.2 mark 1 (by simp only [hacq]; exact hb) hg

end

theorem handleCheck_invalid {h : Handle} (hv : h.valid = false) (n : Nat) (off : Int) (len : Nat) :
    handleCheck h n off len = trap 0x20 (BitVec.ofNat 64 n) := by
  simp [handleCheck, hv]

theorem handleCheck_outside {h : Handle} (hv : h.valid = true) (n : Nat) {off : Word} {len : Nat}
    (hp : pageBytes h.size < off.toNat + len) : handleCheck h n off.toNat len = trap 0x21 off := by
  have : (pageBytes h.size : Int) < (off.toNat : Int) + len := by exact_mod_cast hp
  simp [handleCheck, hv, this]

theorem handleCheck_inside {h : Handle} (hv : h.valid = true) (n : Nat) {off len : Nat}
    (hp : off + len ≤ pageBytes h.size) : handleCheck h n off len = .ok (h.base.toNat + off) := by
  have : ¬ ((off : Int) < 0 ∨ (pageBytes h.size : Int) < (off : Int) + len) := by
    push Not
    exact ⟨by omega, by exact_mod_cast hp⟩
  simp [handleCheck, hv, this]
  rfl

section
variable {s s0 s1 : State} {ra : BitVec 5} {off : Word} (hoff : readReg ra s0 = .ok (off, s1)) (rd : BitVec 5) (h : BitVec 3)
  (size : BitVec 2) (u stf : BitVec 1) (acq : Option (BitVec 3))
include hoff

/-- A load through an invalid handle traps (R131). -/
theorem scalarLoad_invalid (hv : (s0.handle h.toNat).valid = false) :
    scalarLoad rd h ra size u stf acq s s0 = trap 0x20 (BitVec.ofNat 64 h.toNat) := by
  simp only [scalarLoad, hoff, handleCheck_invalid hv]
  rfl

/-- A load outside the page of its handle traps (R131). -/
theorem scalarLoad_outside (hv : (s0.handle h.toNat).valid = true)
    (hp : pageBytes (s0.handle h.toNat).size < off.toNat + 2 ^ size.toNat) :
    scalarLoad rd h ra size u stf acq s s0 = trap 0x21 off := by
  simp only [scalarLoad, hoff, Res.ok_bind, Res.trap_bind, handleCheck_outside hv h.toNat hp]

/-- A load that has its bytes takes their result, writes it and lets its requests go (R53, R130). -/
theorem scalarLoad_of_got {rs : List (Nat × Reply)} {ids : List Nat} {t : State} (hv : (s0.handle h.toNat).valid = true)
    (hp : off.toNat + 2 ^ size.toNat ≤ pageBytes (s0.handle h.toNat).size)
    (hsplit : s0.bankSplit s0.cur.die ((s0.handle h.toNat).base.toNat + off.toNat) (2 ^ size.toNat) = none)
    (hgot : fetchRanges readDieReg (s0.reader (s0.handle h.toNat).kind acq.isSome) (acq.any dieScope) (s0.loadRoom rd)
      [((s0.handle h.toNat).base.toNat + off.toNat, 2 ^ size.toNat)] [] s s1 = .ok (.got rs ids t)) :
    scalarLoad rd h ra size u stf acq s s0 =
      loadResult (collectRange rs ((s0.handle h.toNat).base.toNat + off.toNat) (2 ^ size.toNat)) (2 ^ size.toNat) u stf t >>= fun r =>
        writeReg rd r.1 r.2 >>= fun x =>
          pure (.next (if acq.any dieScope then (x.forgetAll ids).invalidateContext (x.forgetAll ids).cur else x.forgetAll ids)) := by
  cases acq with
  | none =>
    simp only [Option.isSome_none, Option.any_none] at hgot
    simp only [scalarLoad, hoff, Res.ok_bind, Res.trap_bind, handleCheck_inside hv h.toNat hp, hsplit, Option.isSome_none, hgot]
    rfl
  | some scope =>
    simp only [Option.isSome_some, Option.any_some] at hgot
    simp only [scalarLoad, hoff, Res.ok_bind, Res.trap_bind, handleCheck_inside hv h.toNat hp, hsplit, Option.isSome_some, hgot]
    rfl

end

/-- The handle check of a load (R131). -/
theorem handle_checks : Claims.HandleChecks := by
  intro s s0 s1 tk rd h ra size u stf off hw hacq hoff hd
  exact ⟨fun hv => congrArg answer (runLoad_traps hw hacq _ (scalarLoad_invalid hoff rd h size u stf none hv)),
    fun hv hp => congrArg answer (runLoad_traps hw hacq _ (scalarLoad_outside hoff rd h size u stf none hv hp))⟩

/-- The bytes that a read came to are a number of so many bytes. -/
theorem collect_data_lt (rs : List (Nat × Reply)) : ∀ fuel a n : Nat, (collect rs fuel a n).data < 2 ^ (8 * n)
  | 0, _, _ => by simp [collect]
  | fuel + 1, a, n => by
    simp only [collect]
    split
    · simp
    · generalize hh : min n (128 - a % 128) = here
      have ih := collect_data_lt rs fuel (a + here) (n - here)
      have hpow : 2 ^ (8 * n) = 2 ^ (8 * (n - here)) * 2 ^ (8 * here) := by rw [← pow_add]; congr 1; omega
      have hlow := Nat.mod_lt (((look (a / 128) rs).getD ⟨4, 0, 0⟩).data / 2 ^ (8 * (a % 128))) (Nat.two_pow_pos (8 * here))
      have hhigh := Nat.mul_le_mul_right (2 ^ (8 * here)) (Nat.succ_le_of_lt ih)
      rw [Nat.succ_mul] at hhigh
      split <;> simp only <;> omega

/-- A loaded value extended to 64 bits: with zeros, or with its sign (R130). -/
theorem extendLoad_eq {v b : Nat} (hv : v < 2 ^ (8 * b)) (hb : 0 < b) (hb8 : b ≤ 8) (u : BitVec 1) :
    extendLoad v b u = if u = 1 then BitVec.ofNat 64 v else (BitVec.ofNat (8 * b) v).signExtend 64 := by
  by_cases hu : u = 1
  · simp [extendLoad, hu]
  · rw [if_neg hu]
    apply BitVec.eq_of_toNat_eq
    have hle : 2 ^ (8 * b) ≤ 2 ^ 64 := Nat.pow_le_pow_right (by norm_num) (by omega)
    simp only [extendLoad, hu, decide_false, Bool.false_or, decide_eq_true_eq, BitVec.toNat_signExtend, BitVec.toNat_setWidth,
      BitVec.msb_eq_decide, BitVec.toNat_ofNat, Nat.mod_eq_of_lt hv]
    by_cases hs : v < 2 ^ (8 * b - 1)
    · rw [if_pos hs, if_neg (by omega), BitVec.toNat_ofNat, Nat.add_zero]
    · rw [if_neg hs, if_pos (by omega), BitVec.toNat_ofNat]
      omega

theorem loadResult_poison {g : Got} {p : Nat} (h : g.poisonAt = some p) (b : Nat) (u stf : BitVec 1) (s : State) :
    loadResult g b u stf s = trap 0x08 (BitVec.ofNat 64 p) := by
  simp only [loadResult, h]

theorem loadResult_ok {g : Got} (h : g.poisonAt = none) (hs : g.status = 0) (b : Nat) (u stf : BitVec 1) (s : State) :
    loadResult g b u stf s = .ok (extendLoad g.data b u, s) := by
  simp only [loadResult, h, hs]
  rfl

theorem loadResult_traps {g : Got} (h : g.poisonAt = none) (hs : g.status ≠ 0) (b : Nat) (u : BitVec 1) (s : State) :
    loadResult g b u 0 s = trap (loadCause g.status) (BitVec.ofNat 64 g.failAt) := by
  simp [loadResult, h, hs]

theorem loadResult_status {g : Got} (h : g.poisonAt = none) (hs : g.status ≠ 0) (b : Nat) (u : BitVec 1) (s : State) :
    loadResult g b u 1 s = .ok (0, s.loadFailed s.cur g.status s.pc) := by
  simp [loadResult, h, hs]
  rfl

/-- Writing a register leaves the agent as it is. -/
theorem writeReg_cur {r : BitVec 5} {v : Word} {s t : State} (h : writeReg r v s = .ok t) : t.cur = s.cur := by
  have pushed {α : Type} {q : Res (List α)} {f : List α → Strand} (h : (q >>= fun l => pure (s.setStrand s.cur (f l))) = .ok t) :
      t.cur = s.cur := by
    obtain ⟨l, _, hl⟩ := Res.bind_eq_ok.1 h
    cases hl
    rfl
  simp only [writeReg] at h
  split at h
  · cases h; rfl
  · split at h
    · cases h; rfl
    · split at h
      · split at h
        · exact pushed h
        · cases h; rfl
      · split at h
        · exact pushed h
        · split at h
          · exact pushed h
          · cases h; rfl
      · cases h; rfl

@[simp] theorem State.forget_cur (s : State) (id : Nat) : (s.forget id).cur = s.cur := by
  unfold State.forget
  split
  · rfl
  · dsimp only
    repeat' split
    all_goals rfl

@[simp] theorem State.forgetAll_cur (s : State) (ids : List Nat) : (s.forgetAll ids).cur = s.cur :=
  List.foldlRecOn (motive := fun t : State => t.cur = s.cur) _ _ rfl fun t h id _ => (t.forget_cur id).trans h

/-- Scalar loads (R53, R57, R127, R130). -/
theorem scalar_loads : Claims.ScalarLoads := by
  intro s s0 s1 t tk rd h ra size u stf scope off rs ids hw hacq hoff hd b pa g v loads hv hp hsplit
  obtain ⟨⟨_, _, hrot, _⟩, htake⟩ := id hw
  have hcur : s1.cur = s.cur := (readReg_keeps hoff).1.trans (takeTokens_keeps hrot htake).1
  have hpc : s1.pc = s.pc := congrArg Stream.pc ((readReg_keeps hoff).2.trans (takeTokens_keeps hrot htake).2)
  have runs (i : Instr) (mark : Marking) (acq : Option (BitVec 3))
      (hi : exec i s = answer (runLoad mark tk (scalarLoad rd h ra size u stf acq) s)) : loads i acq.isSome (acq.any dieScope) := by
    intro hgot after
    have ht : t = s1 := fetchRanges_got_state hgot
    subst ht
    have hload := scalarLoad_of_got hoff rd h size u stf acq hv hp hsplit hgot
    -- a result that is written
    have retires (w : Word) (x : State) (hx : x.cur = s.cur) (hres : loadResult g b u stf t = .ok (w, x)) :
        Retires i s (((writeReg rd w x).map after).bind (giveTokens tk)) := by
      intro y hy
      cases hwrite : writeReg rd w x with
      | error e => rw [hwrite] at hy; cases hy
      | ok z =>
        rw [hwrite] at hy
        have hz : (z.forgetAll ids).cur = s.cur := by rw [State.forgetAll_cur, writeReg_cur hwrite, hx]
        have hbody : scalarLoad rd h ra size u stf acq s s0 = .ok (.next (after z)) := by
          rw [hload, hres]
          simp only [Res.ok_bind, hwrite, hz]
          rfl
        rw [hi, runLoad_retires hw hacq mark hbody hy]
        rfl
    have traps (cause : Nat) (info : Word) (hres : loadResult g b u stf t = trap cause info) :
        exec i s = .next (s.takeTrap cause info) := by
      rw [hi, runLoad_traps hw hacq mark (hload.trans (by rw [hres]; rfl))]
      rfl
    refine ⟨fun p hpo => traps _ _ (loadResult_poison hpo b u stf t), fun hpo hst => ?_, fun hpo hst hf => ?_, fun hpo hst hf => ?_⟩
    · have hb8 : b ≤ 8 := Nat.pow_le_pow_right (j := 3) (by norm_num) (by omega)
      have hext : extendLoad g.data b u = v := extendLoad_eq (collect_data_lt rs _ pa b) (Nat.two_pow_pos _) hb8 u
      exact hext ▸ retires _ _ hcur (loadResult_ok hpo hst b u stf t)
    · subst hf
      exact traps _ _ (loadResult_traps hpo hst b u t)
    · subst hf
      have := retires 0 (t.loadFailed t.cur g.status t.pc) hcur (loadResult_status hpo hst b u t)
      rwa [hcur, hpc] at this
  exact ⟨runs (.ld tk rd h ra size u stf) markLoad none rfl, runs (.ldAcq tk rd h ra size u stf scope) markLoadAcq (some scope) rfl⟩

/-- Settles O24: reads of this die's memory, loads through a handle, and the handle's checks. -/
theorem scalarLoadsAndHandleChecks : Obligations.ScalarLoadsAndHandleChecks :=
  ⟨local_reads, scalar_loads, handle_checks⟩

end Sys2Proof.Machine
end

section
namespace Sys2Proof.Machine

/-! ## The checks of a store through a handle (R37, R278, R288) -/

/-- A store word whose plan traps takes that trap in the state before its takes (R59). -/
theorem storeWord_traps {s s0 : State} {tk : BitVec 4} (h : DWord s tk s0) {kind : State → BitVec 2}
    {plan : State → State → Res (List Bytes × State)} {cause : Nat} {info : Word} (hp : plan s s0 = trap cause info) :
    storeWord tk kind plan s = s.takeTrap cause info :=
  runWordM_traps h.1 h.2 _ 1 (by simp only [hp]; rfl)

/-- A store word whose plan has its bytes, and that nothing holds back, hands them on, gives its tokens and retires (R277). -/
theorem storeWord_retires {s s0 t u : State} {tk : BitVec 4} (h : DWord s tk s0) {kind : State → BitVec 2}
    {plan : State → State → Res (List Bytes × State)} {bs : List Bytes} (hp : plan s s0 = .ok (bs, t))
    (hr : storeReady (kind s) (rangesOf bs) s = .ok ()) (hg : giveTokens tk (t.handOn (kind s) false bs) = .ok u) :
    storeWord tk kind plan s = u.retire 1 :=
  runWordM_retires h.1 h.2 _ 1 (by simp only [hp, Res.ok_bind, hr]; rfl) hg

section
variable {s s0 s1 s2 : State} {rs ra : BitVec 5} {v off : Word} (hv : readReg rs s0 = .ok (v, s1))
  (hoff : readReg ra s1 = .ok (off, s2)) (h : BitVec 3) (size : BitVec 2)
include hv hoff

/-- The value and the offset of a store are popped before its address is checked (R277). -/
theorem scalarStore_eq : scalarStore rs h ra size s0 =
    storeAt s0 (s0.handle (8 + h.toNat)) (8 + h.toNat) off.toNat (2 ^ size.toNat) off >>= fun pa =>
      pure ((pa, 2 ^ size.toNat, v.toNat % 2 ^ (8 * 2 ^ size.toNat)), s2) := by
  simp only [scalarStore, hv, hoff, Res.ok_bind, dHandle]

/-- A store whose address check traps takes that trap. -/
theorem st_traps {tk : BitVec 4} (hw : DWord s tk s0) {cause : Nat} {info : Word}
    (ht : storeAt s0 (s0.handle (8 + h.toNat)) (8 + h.toNat) off.toNat (2 ^ size.toNat) off = trap cause info) :
    exec (.st tk rs h ra size) s = .next (s.takeTrap cause info) :=
  congrArg answer (storeWord_traps hw (by rw [scalarStore_eq hv hoff, ht]; rfl))

end

theorem storeAt_of_check_trap {s : State} {h : Handle} {n len cause : Nat} {off : Int} {info i : Word}
    (hc : storeCheck s h n off len info = trap cause i) : storeAt s h n off len info = trap cause i := by
  simp only [storeAt, hc, Res.trap_bind]

theorem storeAt_of_split {s : State} {h : Handle} {n len pa u : Nat} {off : Int} {info : Word}
    (hc : storeCheck s h n off len info = .ok pa) (hs : s.bankSplit s.cur.die pa len = some u) :
    storeAt s h n off len info = trap 0x5C (BitVec.ofNat 64 u) := by
  simp only [storeAt, hc, Res.ok_bind, Res.trap_bind, hs]

/-- The checks of a store at an offset that is not negative, in their order (R278, R288). -/
theorem storeCheck_eq (s : State) (h : Handle) (n off len : Nat) (info : Word) :
    storeCheck s h n off len info =
      if h.valid = false then trap 0x58 (BitVec.ofNat 64 n)
      else if pageBytes h.size < off + len then trap 0x59 info
      else if h.wr = false ∨ h.seg = true then trap 0x5A (BitVec.ofNat 64 n)
      else if reservedAddr (h.base.toNat + off) = true ∨
          (paModule (h.base.toNat + off) < 4 ∧ paOffset (h.base.toNat + off) < 0x400000000) then
        trap 0x5D (BitVec.ofNat 64 (h.base.toNat + off + 2 * 2 ^ 56))
      else if s.place s.cur.die (h.base.toNat + off) = .unreach then
        trap 0x5D (BitVec.ofNat 64 (h.base.toNat + off + 2 ^ 56))
      else .ok (h.base.toNat + off) := by
  have page : ((off : Int) < 0 ∨ (pageBytes h.size : Int) < (off : Int) + (len : Nat)) ↔ pageBytes h.size < off + len := by omega
  simp only [storeCheck, Int.toNat_natCast, Bool.not_eq_true', Bool.or_eq_true, Bool.and_eq_true, decide_eq_true_eq, page]
  rfl

/-- The checks of a store, in their order (R37, R278, R288). -/
theorem store_checks : Claims.StoreChecks := by
  intro s s0 s1 s2 tk rs h ra size v off hw hv hoff hd pa traps inPage reserved
  have check {cause : Nat} {info : Word}
      (hc : storeCheck s0 hd (8 + h.toNat) off.toNat (2 ^ size.toNat) off = trap cause info) : traps cause info :=
    st_traps hv hoff h size hw (storeAt_of_check_trap hc)
  have valid (hv : hd.valid = true) : ¬ hd.valid = false := by simp [hv]
  have writable (hwr : hd.wr = true) (hseg : hd.seg = false) : ¬ (hd.wr = false ∨ hd.seg = true) := by simp [hwr, hseg]
  refine ⟨fun h1 => check ?_, fun h1 h2 => check ?_, fun h1 h2 h3 => check ?_, fun h1 h2 h3 h4 h5 => check ?_,
    fun h1 h2 h3 h4 h5 h6 => check ?_, fun u hc hs => st_traps hv hoff h size hw (storeAt_of_split hc hs)⟩
  · rw [storeCheck_eq, if_pos h1]
  · rw [storeCheck_eq, if_neg (valid h1), if_pos (Nat.not_le.1 h2)]
  · rw [storeCheck_eq, if_neg (valid h1), if_neg (Nat.not_lt.2 h2), if_pos h3]
  · rw [storeCheck_eq, if_neg (valid h1), if_neg (Nat.not_lt.2 h2), if_neg (writable h3 h4), if_pos h5]
  · rw [storeCheck_eq, if_neg (valid h1), if_neg (Nat.not_lt.2 h2), if_neg (writable h3 h4), if_neg h5, if_pos h6]

end Sys2Proof.Machine
end

section
namespace Sys2Proof.Machine

/-! ## A store into this die's memory (R4, R277, R285) -/

/-- A fold over steps that each succeed from the state they meet. -/
theorem foldl_succeeds {σ α : Type} {f : Nat × σ → α → Nat × σ} {g : σ → α → σ} {ready : σ → α → Prop}
    (hf : ∀ s e, ready s e → f (0, s) e = (0, g s e)) (hready : ∀ s e e', ready s e' → ready (g s e) e') :
    ∀ (l : List α) (s : σ), (∀ e ∈ l, ready s e) → l.foldl f (0, s) = (0, l.foldl g s)
  | [], _, _ => rfl
  | e :: r, s, h => by
    rw [List.foldl_cons, hf s e (h e (by simp)), List.foldl_cons]
    exact foldl_succeeds hf hready r _ fun e' he => hready _ _ _ (h e' (by simp [he]))

/-- Good data written piece by piece. -/
def State.writeEach (s : State) (ps : List (Nat × Nat × Nat)) : State := ps.foldl (fun s p => s.writeN p.1 p.2.2 p.2.1) s

/-- A store whose pieces all lie in this die's memory is performed at once (R285). -/
theorem State.handOn_mem (s : State) (kind : BitVec 2) (through : Bool) (a n v : Nat)
    (h : ∀ p ∈ cutPieces (n / 128 + 2) a n v, s.place s.cur.die p.1 = .mem) :
    s.handOn kind through [(a, n, v)] = s.writeEach (cutPieces (n / 128 + 2) a n v) := by
  have hfold := foldl_succeeds (f := fun (acc : Nat × State) b =>
      (if acc.1 = 0 then (acc.2.handPiece kind through s.reqNo a b).1 else acc.1, (acc.2.handPiece kind through s.reqNo a b).2))
    (g := fun s p => s.writeN p.1 p.2.2 p.2.1) (ready := fun t p => t.place t.cur.die p.1 = .mem)
    (fun t p hp => by simp [State.handPiece, hp]) (fun t p p' hp => (State.place_congr (by rfl) (by rfl) _ _).trans hp) _ s h
  simp only [State.handOn, List.flatMap_cons, List.flatMap_nil, List.append_nil, List.headD_cons]
  exact (congrArg (fun x : Nat × State => if x.1 = 0 then x.2
    else (x.2.quietStore s.myKey (some s.reqNo)).storeFailed s.myKey x.1 a) hfold).trans (if_pos rfl)

/-- The pieces of a range begin within it. -/
theorem cutPieces_bounds : ∀ (fuel a n v : Nat), ∀ p ∈ cutPieces fuel a n v, a ≤ p.1 ∧ p.1 < a + n
  | 0, _, _, _, p, hp => by simp [cutPieces] at hp
  | fuel + 1, a, n, v, p, hp => by
    simp only [cutPieces] at hp
    split at hp
    · simp at hp
    · rcases List.mem_cons.1 hp with rfl | hp
      · exact ⟨le_rfl, by simp only; omega⟩
      · have := cutPieces_bounds fuel _ _ _ p hp
        omega

/-- A write of bytes leaves all but memory and its poison as it is. -/
theorem State.writeEach_frame (ps : List (Nat × Nat × Nat)) (s : State) :
    ∃ m p, s.writeEach ps = { s with mem := m, poison := p } :=
  List.foldlRecOn (motive := fun t : State => ∃ m p, t = { s with mem := m, poison := p }) _ _ ⟨s.mem, s.poison, rfl⟩
    fun _ ⟨_, _, ht⟩ _ _ => ht ▸ ⟨_, _, rfl⟩

theorem State.mem_writeN_poison {s : State} {a v n w : Nat} :
    w ∈ (s.writeN a v n).poison ↔ w ∈ s.poison ∧ ¬ (a ≤ 8 * w ∧ 8 * w + 8 ≤ a + n) := by
  rw [State.writeN_poison]
  split
  · simp_all
  · simp only [clearPoison, List.mem_filter, Bool.not_eq_true', Bool.and_eq_false_iff, decide_eq_false_iff_not, not_and_or]

/-- A byte of a number cut to `k` bytes. -/
theorem Nat.byte_of_mod {v k i : Nat} (h : i < k) : v % 256 ^ k / 256 ^ i % 256 = v / 256 ^ i % 256 := by
  rw [show 256 ^ k = 256 ^ i * 256 ^ (k - i) by rw [← pow_add]; congr 1; omega, Nat.mod_mul_right_div_self,
    Nat.mod_mod_of_dvd _ (dvd_pow_self 256 (by omega))]

/-- Writing the pieces of a range writes its bytes, lowest address lowest, and no others; poison of the words written whole goes
(R4, R55). -/
theorem State.writeEach_cutPieces : ∀ (fuel a n v : Nat) (s : State), (0 < n → n + a % 128 ≤ 128 * fuel) →
    (∀ b, a ≤ b → b < a + n → (s.writeEach (cutPieces fuel a n v)).byteAt b = BitVec.ofNat 8 (v / 256 ^ (b - a))) ∧
    (∀ b, (b < a ∨ a + n ≤ b) → (s.writeEach (cutPieces fuel a n v)).byteAt b = s.byteAt b) ∧
    (s.MemoryCanonical → (s.writeEach (cutPieces fuel a n v)).MemoryCanonical) ∧
    (∀ w, w ∈ (s.writeEach (cutPieces fuel a n v)).poison → w ∈ s.poison ∧ ¬ (a ≤ 8 * w ∧ 8 * w + 8 ≤ a + n))
  | 0, a, n, v, s, hf => by
    have hn : n = 0 := by omega
    subst hn
    exact ⟨fun b h1 h2 => by omega, fun b _ => rfl, id, fun w hw => ⟨hw, by omega⟩⟩
  | fuel + 1, a, n, v, s, hf => by
    by_cases hn : n = 0
    · subst hn
      exact ⟨fun b h1 h2 => by omega, fun b _ => rfl, id, fun w hw => ⟨hw, by omega⟩⟩
    · generalize hh : min n (128 - a % 128) = here
      have hcut : s.writeEach (cutPieces (fuel + 1) a n v) =
          (s.writeN a (v % 2 ^ (8 * here)) here).writeEach (cutPieces fuel (a + here) (n - here) (v / 2 ^ (8 * here))) := by
        simp [cutPieces, hn, hh, State.writeEach]
      obtain ⟨hin, hout, hwf, hpo⟩ := State.writeEach_cutPieces fuel (a + here) (n - here) (v / 2 ^ (8 * here))
        (s.writeN a (v % 2 ^ (8 * here)) here) (by omega)
      rw [hcut]
      refine ⟨fun b h1 h2 => ?_, fun b hb => ?_, fun hc => hwf (State.writeN_wf s _ _ _ hc), fun w hw => ?_⟩
      · by_cases hb : b < a + here
        · rw [hout b (.inl hb)]
          refine (Memory.get_writeN_in h1 hb _).trans (BitVec.eq_of_toNat_eq ?_)
          rw [pow_mul]
          exact Nat.byte_of_mod (by omega)
        · rw [hin b (by omega) (by omega), pow_mul, Nat.div_div_eq_div_mul]
          norm_num
          rw [← pow_add]
          congr 3
          omega
      · rw [hout b (by omega)]
        exact Memory.get_writeN_out (by omega) _
      · obtain ⟨h1, h2⟩ := hpo w hw
        obtain ⟨h3, h4⟩ := State.mem_writeN_poison.1 h1
        exact ⟨h3, by omega⟩

/-- A store into this die's memory (R4, R277, R285). -/
theorem stores_write_memory : Claims.StoresWriteMemory := by
  intro s kind through a n v hc hn hmem t
  have ht : t = s.writeEach (cutPieces (n / 128 + 2) a n v) := State.handOn_mem s kind through a n v fun p hp => by
    obtain ⟨h1, h2⟩ := cutPieces_bounds _ _ _ _ p hp
    have := (hmem (p.1 - a) (by omega)).2
    rwa [Nat.add_sub_cancel' h1] at this
  obtain ⟨hin, hout, hwf, hpo⟩ := State.writeEach_cutPieces (n / 128 + 2) a n v s (by omega)
  obtain ⟨m, p, hframe⟩ := s.writeEach_frame (cutPieces (n / 128 + 2) a n v)
  rw [ht]
  refine ⟨?_, hout, by rw [hframe], by rw [hframe], by rw [hframe], by rw [hframe], fun w _ h1 h2 hw => (hpo w hw).2 ⟨h1, h2⟩⟩
  rw [pow_mul]
  refine Nat.eq_of_bytes n (Memory.readN_lt _ _ _) (Nat.mod_lt _ (by positivity)) fun i hi => ?_
  refine (Memory.readN_byte _ (hwf hc) hi).trans ?_
  rw [show Memory.get (a + i) _ = _ from hin (a + i) (by omega) (by omega), Nat.add_sub_cancel_left]
  exact (Nat.byte_of_mod hi).symm

end Sys2Proof.Machine
end

section
namespace Sys2Proof.Machine

/-! ## The store words (R277, R279-R281, R300, R301) -/

/-- A check that passes gives the address in the page (R278). -/
theorem storeCheck_ok {s : State} {h : Handle} {n len pa : Nat} {off : Int} {info : Word}
    (hc : storeCheck s h n off len info = .ok pa) : pa = h.base.toNat + off.toNat := by
  simp only [storeCheck] at hc
  repeat' split at hc
  all_goals cases hc
  rfl

theorem storeAt_ok {s : State} {h : Handle} {n len pa : Nat} {off : Int} {info : Word}
    (ha : storeAt s h n off len info = .ok pa) : pa = h.base.toNat + off.toNat := by
  obtain ⟨x, hx, hrest⟩ := Res.bind_eq_ok.1 ha
  split at hrest
  · cases hrest
  · cases hrest
    exact storeCheck_ok hx

/-- A list of steps that each come to a result comes to the list of the results. -/
theorem Res.mapM_ok {α β : Type} {f : α → Res β} {g : α → β} : ∀ {l : List α}, (∀ x ∈ l, f x = .ok (g x)) →
    l.mapM f = .ok (l.map g)
  | [], _ => rfl
  | x :: r, h => by
    rw [List.mapM_cons, h x (by simp), Res.mapM_ok (l := r) fun y hy => h y (by simp [hy])]
    rfl

theorem zipIdx_map_range {β γ : Type} (f : Nat → β) (g : β × Nat → γ) (n : Nat) :
    (((List.range n).map f).zipIdx.map g) = (List.range n).map fun i => g (f i, i) := by
  apply List.ext_getElem <;> simp

section
variable {s s0 : State} {tk : BitVec 4} (hw : DWord s tk s0)
include hw

/-- ST (R277). -/
theorem st_retires {rs ra : BitVec 5} {h : BitVec 3} {size : BitVec 2} {v off : Word} {s1 s2 : State} {pa : Nat}
    (hv : readReg rs s0 = .ok (v, s1)) (hoff : readReg ra s1 = .ok (off, s2))
    (hpa : storeAt s0 (s0.handle (8 + h.toNat)) (8 + h.toNat) off.toNat (2 ^ size.toNat) off = .ok pa)
    (hr : storeReady (s.handle (8 + h.toNat)).kind [(pa, 2 ^ size.toNat)] s = .ok ()) :
    Retires (.st tk rs h ra size) s (giveTokens tk (s2.handOn (s.handle (8 + h.toNat)).kind false
      [(pa, 2 ^ size.toNat, v.toNat % 2 ^ (8 * 2 ^ size.toNat))])) := fun u hu =>
  congrArg answer (storeWord_retires hw (bs := [(pa, _, _)]) (by rw [scalarStore_eq hv hoff, hpa]; rfl) hr hu)

/-- ST.REL: performed at once where nothing that it must follow is left, and else kept to be performed later (R301). -/
theorem stRel_retires {rs ra : BitVec 5} {h : BitVec 3} {size : BitVec 2} {scope : BitVec 3} {v off : Word} {s1 s2 : State} {pa : Nat}
    (hv : readReg rs s0 = .ok (v, s1)) (hoff : readReg ra s1 = .ok (off, s2))
    (hpa : storeAt s0 (s0.handle (8 + h.toNat)) (8 + h.toNat) off.toNat (2 ^ size.toNat) off = .ok pa)
    (hr : storeReady (s.handle (8 + h.toNat)).kind [(pa, 2 ^ size.toNat)] s = .ok ()) :
    Retires (.stRel tk rs h ra size scope) s (giveTokens tk
      (if s.releaseReady s.cur.die s.cur.polder s.cur.strand .d (s.stream s.cur).seq (s.stream s.cur).marks &&
          (!dieScope scope || (s.writeBackContext s.cur).1.isEmpty) then
        s2.handOn (s.handle (8 + h.toNat)).kind true [(pa, 2 ^ size.toNat, v.toNat % 2 ^ (8 * 2 ^ size.toNat))]
      else s2.addRelease false (s.handle (8 + h.toNat)).kind (pa, 2 ^ size.toNat, v.toNat % 2 ^ (8 * 2 ^ size.toNat))
        (dieScope scope) (s.stream s.cur))) := fun u hu =>
  congrArg answer (runWordM_retires hw.1 hw.2 _ 1
    (by simp only [scalarStore_eq hv hoff, hpa, Res.ok_bind, pure, Except.pure, dHandle, hr]) hu)

section
variable {q : BitVec 1} {h : BitVec 3} {ra : BitVec 5} {v : Vec} {off : Word} {s1 s2 : State}
  (hv : popVXD q.toNat s0 = .ok (v, s1)) (hoff : readReg ra s1 = .ok (off, s2))
include hv hoff

/-- STV (R279). -/
theorem stv_retires {pa : Nat} (hpa : storeAt s0 (s0.handle (8 + h.toNat)) (8 + h.toNat) off.toNat 512 off = .ok pa)
    (hr : storeReady (s.handle (8 + h.toNat)).kind [(pa, 512)] s = .ok ()) :
    Retires (.stv tk q h ra) s (giveTokens tk (s2.handOn (s.handle (8 + h.toNat)).kind false [(pa, 512, v.toNat)])) := fun u hu =>
  congrArg answer (storeWord_retires hw (bs := [(pa, _, _)])
    (by simp only [hv, hoff, hpa, Res.ok_bind, dHandle]; rfl) hr hu)

/-- STVS (R279). -/
theorem stvs_retires {width : BitVec 2} {rb : BitVec 5} {r : Word} {s3 : State} (hb : readReg rb s2 = .ok (r, s3)) {pa : Nat → Nat}
    (hpa : ∀ i : Nat, i < laneCount width → storeAt s0 (s0.handle (8 + h.toNat)) (8 + h.toNat)
      ((off.toNat : Int) + (i : Int) * r.toInt) (laneBytes width) (BitVec.ofNat 64 i) = .ok (pa i)) {bs : List Bytes}
    (hbs : bs = (List.range (laneCount width)).map fun i => (pa i, laneBytes width, elementBytes v (laneBytes width) i))
    (hr : storeReady (s.handle (8 + h.toNat)).kind (rangesOf bs) s = .ok ()) :
    Retires (.stvs tk q width h ra rb) s (giveTokens tk (s3.handOn (s.handle (8 + h.toNat)).kind false bs)) := fun u hu => by
  have hpas := Res.mapM_ok (g := pa) (l := List.range (laneCount width)) fun i hi => hpa i (List.mem_range.1 hi)
  refine congrArg answer (storeWord_retires hw (t := s3) ?_ hr hu)
  simp only [hv, hoff, hb, Res.ok_bind, dHandle] at hpas ⊢
  simp only [hpas, hbs, Res.ok_bind, zipIdx_map_range]
  rfl

/-- STVX (R279, R280). -/
theorem stvx_retires {width : BitVec 2} {rb : BitVec 5} {r : Word} {s3 : State} (hb : readReg rb s2 = .ok (r, s3)) {idx : List Nat}
    (hidx : storeList r.toNat (laneCount width) s0 = .ok idx) {pa : Nat × Nat → Nat}
    (hpa : ∀ e ∈ idx.zipIdx.filter fun e => e.1 ≠ 2 ^ 32 - 1, storeAt s0 (s0.handle (8 + h.toNat)) (8 + h.toNat)
      ((off.toNat + e.1 * laneBytes width : Nat) : Int) (laneBytes width) (BitVec.ofNat 64 e.2) = .ok (pa e)) {bs : List Bytes}
    (hbs : bs = (idx.zipIdx.filter fun e => e.1 ≠ 2 ^ 32 - 1).map fun e =>
      (pa e, laneBytes width, elementBytes v (laneBytes width) e.2))
    (hr : storeReady (s.handle (8 + h.toNat)).kind (rangesOf bs) s = .ok ()) :
    Retires (.stvx tk q width h ra rb) s (giveTokens tk (s3.handOn (s.handle (8 + h.toNat)).kind false bs)) := fun u hu => by
  have hstored := Res.mapM_ok (g := fun e => ((pa e, laneBytes width, elementBytes v (laneBytes width) e.2) : Bytes))
    (f := fun e : Nat × Nat => storeAt s0 (s0.handle (8 + h.toNat)) (8 + h.toNat) ((off.toNat + e.1 * laneBytes width : Nat) : Int)
      (laneBytes width) (BitVec.ofNat 64 e.2) >>= fun x => pure (x, laneBytes width, elementBytes v (laneBytes width) e.2))
    fun e he => by rw [hpa e he]; rfl
  refine congrArg answer (storeWord_retires hw (t := s3) ?_ hr hu)
  simp only [hv, hoff, hb, hidx, Res.ok_bind, dHandle] at hstored ⊢
  simp only [hstored, hbs, Res.ok_bind]
  rfl

end
end

/-- The store words (R277, R279-R281, R300, R301). -/
theorem store_words : Claims.StoreWords := by
  intro s s0 tk q width h ra rb rs size scope hw c k hd kind w n b elt stores
  constructor
  · intro v s1 off s2 hv hoff pa hpa bytes clear
    have hrel : storeReady kind [(pa, b)] s = .ok () → Retires (.stRel tk rs h ra size scope) s _ :=
      stRel_retires hw (scope := scope) hv hoff hpa
    have hclear : (s.releaseReady c.die c.polder c.strand .d k.seq k.marks &&
        (!dieScope scope || (s.writeBackContext c).1.isEmpty)) = true ↔ clear := by
      cases hs : dieScope scope <;> simp [clear, hs]
    refine ⟨storeAt_ok hpa, st_retires hw hv hoff hpa, fun hr hc => ?_, fun hr hc => ?_⟩
    · have := hrel hr
      rwa [if_pos (hclear.2 hc)] at this
    · have := hrel hr
      rwa [if_neg (fun hb => hc (hclear.1 hb))] at this
  · intro v s1 off s2 hv hoff
    refine ⟨fun pa hpa => stv_retires hw hv hoff hpa, fun r s3 hb => ⟨fun pa hpa => stvs_retires hw hv hoff hb hpa rfl, ?_⟩⟩
    intro idx hidx stored pa hpa
    exact stvx_retires hw hv hoff hb hidx hpa rfl

end Sys2Proof.Machine
end

section
namespace Sys2Proof.Machine

/-! ## Releases that have retired (R301, R305) -/

/-- The D stream of a strand. -/
def drainCtx (die polder strand : Nat) : Ctx := { die := die, polder := polder, strand := strand, str := .d, rot := false }

/-- A strand's oldest retired release is performed by its D stream: it leaves the list of those that wait. -/
def State.performOldest (s : State) (c : Ctx) (r : Release) (rest : List Release) : State :=
  { ({ s with cur := c }.setStrand c { (s.strand c) with rels := rest }).performRelease r with cur := s.cur }

section
variable {s : State} {die polder strand : Nat} (hp : polder < 64) (hs : strand < 4) {st : Strand} {r : Release} {rest : List Release}
  (hst : look (strandKey die polder strand) s.strands = some st) (hrels : st.rels = r :: rest)

theorem strandKey_die (hp : polder < 64) (hs : strand < 4) : strandKey die polder strand / 256 = die := by
  simp only [strandKey]; omega

theorem strandKey_polder (hp : polder < 64) (hs : strand < 4) : strandKey die polder strand / 4 % 64 = polder := by
  simp only [strandKey]; omega

theorem strandKey_strand (hs : strand < 4) : strandKey die polder strand % 4 = strand := by
  simp only [strandKey]; omega

include hp hs hst hrels

/-- While what the release must follow is left, it stays as it is (R301). -/
theorem State.advanceRelease_blocked (hwb : r.wb = none) (hc : s.releaseClear die polder strand .d r.seq r.marks r.upTo = false) :
    s.advanceRelease (strandKey die polder strand) = s := by
  simp only [State.advanceRelease, strandKey_die hp hs, strandKey_polder hp hs, strandKey_strand hs, hst, hrels, hwb,
    Option.getD_some]
  rw [if_pos (by simp [hc])]

/-- A release that has nothing left to follow and nothing to write back is performed (R301). -/
theorem State.advanceRelease_clear (hwb : r.wb = none) (hc : s.releaseClear die polder strand .d r.seq r.marks r.upTo = true)
    (hback : r.wide = true → (s.writeBackContext (drainCtx die polder strand)).1 = []) :
    s.advanceRelease (strandKey die polder strand) = s.performOldest (drainCtx die polder strand) r rest := by
  have hnone : (if r.wide then s.writeBackContext (drainCtx die polder strand) else ([], s)).1 = [] := by
    split
    · exact hback ‹_›
    · rfl
  simp only [State.advanceRelease, strandKey_die hp hs, strandKey_polder hp hs, strandKey_strand hs, hst, hrels, hwb,
    Option.getD_some]
  rw [if_neg (by simp [hc]), if_pos (by rw [← drainCtx, hnone]; rfl)]
  simp only [State.performOldest, drainCtx, State.strand, State.strand?, hst]
  rfl

omit hp hs in
/-- While a write-back of the release is on its way, it stays as it is (R53, R301). -/
theorem State.advanceRelease_waits {ids : List Nat} (hwb : r.wb = some ids) (hrep : s.allReplied ids = false) :
    s.advanceRelease (strandKey die polder strand) = s := by
  simp [State.advanceRelease, hst, hrels, hwb, hrep]

/-- A release whose write-backs have ended is performed (R53, R301). -/
theorem State.advanceRelease_written {ids : List Nat} (hwb : r.wb = some ids) (hrep : s.allReplied ids = true) :
    s.advanceRelease (strandKey die polder strand) = (s.forgetAll ids).performOldest (drainCtx die polder strand) r rest := by
  simp only [State.advanceRelease, strandKey_die hp hs, strandKey_polder hp hs, strandKey_strand hs, hst, hrels, hwb,
    Option.getD_some, hrep, if_true]
  rfl

end

/-- The oldest retired release of a strand (R301, R305). -/
theorem retired_releases : Claims.RetiredReleases := by
  intro s die polder strand st r rest hp hs key c clear performed hst hrels
  have hperf (x : State) (hx : x.cur = s.cur) : x.performOldest c r rest = performed x := by
    simp only [State.performOldest, performed, hx]
  refine ⟨fun hwb hc => ?_, fun hwb hc hback => ?_, fun ids hwb hrep => ?_, fun ids hwb hrep => ?_, fun x hx => ⟨fun ha => ?_, fun ha => ?_⟩⟩
  · exact State.advanceRelease_blocked hp hs hst hrels hwb (Bool.not_eq_true _ ▸ hc)
  · exact (State.advanceRelease_clear hp hs hst hrels hwb hc hback).trans (hperf s rfl)
  · exact State.advanceRelease_waits hst hrels hwb hrep
  · exact (State.advanceRelease_written hp hs hst hrels hwb hrep).trans (hperf _ (s.forgetAll_cur ids))
  · simp [State.performRelease, ha]
  · simp only [State.performRelease, ha, if_true, State.myCrew, State.myKey, hx]
    rfl

/-! ## Scratchpad stores (R281, R282) -/

section
variable {s s0 : State} {tk : BitVec 4} (hw : DWord s tk s0)
include hw

section
variable {ra rs : BitVec 5} {size : BitVec 2} {u v : Word} {s1 s2 : State} (hu : readReg ra s0 = .ok (u, s1))
  (hv : readReg rs s1 = .ok (v, s2))
include hu hv

/-- STP of an aligned value within the scratchpad (R281). -/
theorem stp_retires (hin : u.toNat + 2 ^ size.toNat ≤ s0.myCrew.scratchBytes) (hal : u.toNat % 2 ^ size.toNat = 0)
    (hr : storeReady 1 [(s0.scratchPa u.toNat, 2 ^ size.toNat)] s = .ok ()) :
    Retires (.stp tk ra rs size) s (giveTokens tk
      (s2.handOn 1 false [(s0.scratchPa u.toNat, 2 ^ size.toNat, v.toNat % 2 ^ (8 * 2 ^ size.toNat))])) := fun x hx => by
  refine congrArg answer (storeWord_retires hw (bs := [(s0.scratchPa u.toNat, _, _)]) (t := s2) ?_ hr hx)
  have : ¬ (s0.myCrew.scratchBytes < u.toNat + 2 ^ size.toNat ∨ u.toNat % 2 ^ size.toNat ≠ 0) := by omega
  rw [hu, Res.ok_bind]
  dsimp only
  rw [hv, Res.ok_bind]
  simp [this]
  rfl

/-- STP elsewhere traps (R281). -/
theorem stp_traps (hout : s0.myCrew.scratchBytes < u.toNat + 2 ^ size.toNat ∨ u.toNat % 2 ^ size.toNat ≠ 0) :
    exec (.stp tk ra rs size) s = .next (s.takeTrap 0x5B u) := by
  refine congrArg answer (storeWord_traps hw ?_)
  rw [hu, Res.ok_bind]
  dsimp only
  rw [hv, Res.ok_bind]
  simp [hout]
  rfl

end

section
variable {q : BitVec 1} {ra : BitVec 5} {u : Word} {x : Vec} {s1 s2 : State} (width : BitVec 2) (orient : BitVec 1)
  (hx : popVXD q.toNat s0 = .ok (x, s1)) (hu : readReg ra s1 = .ok (u, s2))
include hx hu

/-- STPV of a vector that has its bytes (R281, R282). -/
theorem stpv_retires {bs : List Bytes} (hbs : scratchStore width (orient = 1) u.toNat x s0 = .ok bs)
    (hr : storeReady 1 (rangesOf bs) s = .ok ()) :
    Retires (.stpv tk q width orient ra) s (giveTokens tk (s2.handOn 1 false bs)) := fun y hy => by
  refine congrArg answer (storeWord_retires hw (t := s2) ?_ hr hy)
  rw [hx, Res.ok_bind]
  dsimp only
  rw [hu, Res.ok_bind]
  dsimp only
  rw [hbs, Res.ok_bind]
  rfl

/-- STPV whose bytes fail a check traps (R281, R282). -/
theorem stpv_traps {cause : Nat} {info : Word} (hbs : scratchStore width (orient = 1) u.toNat x s0 = trap cause info) :
    exec (.stpv tk q width orient ra) s = .next (s.takeTrap cause info) := by
  refine congrArg answer (storeWord_traps hw ?_)
  rw [hx, Res.ok_bind]
  dsimp only
  rw [hu, Res.ok_bind]
  dsimp only
  rw [hbs, Res.trap_bind]

end
end

/-- A vector by rows within one format of the scratchpad is stored as it stands (R281). -/
theorem scratchStore_rows {width : BitVec 2} {u : Nat} {s : State} (hin : u + 512 ≤ s.myCrew.scratchBytes)
    (hal : u % max 1 (laneBytes width) = 0) (hfmt : s.myCrew.fmtCode (u / 65536) = s.myCrew.fmtCode ((u + 511) / 65536))
    (hsix : (s.myCrew.fmtOf (u / 65536)).sixBit = false) (x : Vec) :
    scratchStore width false u x s = .ok [(s.scratchPa u, 512, x.toNat)] := by
  simp [scratchStore, Nat.not_lt.2 hin, hal, hfmt, hsix]
  rfl

/-- A vector by rows beyond the scratchpad traps (R281). -/
theorem scratchStore_beyond {width : BitVec 2} {u : Nat} {s : State} (hout : s.myCrew.scratchBytes < u + 512) (x : Vec) :
    scratchStore width false u x s = trap 0x5B (BitVec.ofNat 64 u) := by
  simp [scratchStore, hout]

/-- Scratchpad stores (R281, R282). -/
theorem scratchpad_stores : Claims.ScratchpadStores := by
  intro s s0 s1 s2 tk q width orient ra rs size u v x hw b crew
  refine ⟨fun hu hv => ⟨fun hin hal hr => stp_retires hw hu hv hin hal hr, stp_traps hw hu hv⟩, fun hx hu =>
    ⟨fun bs hbs hr => stpv_retires hw width orient hx hu hbs hr, fun hin hal hfmt hsix => scratchStore_rows hin hal hfmt hsix x,
      fun hout ho => ?_⟩⟩
  subst ho
  have := stpv_traps hw width 0 hx hu (scratchStore_beyond (width := width) hout x)
  simpa using this

/-- Settles O35: the checks of a store, its words, its bytes in memory, and the releases that have retired. -/
theorem storesWriteTheirBytes : Obligations.StoresWriteTheirBytes :=
  ⟨store_checks, stores_write_memory, store_words, retired_releases, scratchpad_stores⟩

end Sys2Proof.Machine
end

section
namespace Sys2Proof.Machine

/-! ## The configuration header (R425, R426; log 7) -/

/-- A dword of the header as it is held: an entry that would be 0 is left out. -/
theorem look_stored {off : Nat} {c : List (Nat × BitVec 32)} (hr : risingFrom 0 c = true) (v : BitVec 32) :
    (look off (if v = 0 then unput off c else put off v c)).getD 0 = v := by
  split
  · rw [look_unput_self off c hr, ‹v = 0›]
    rfl
  · rw [look_put_self]
    rfl

/-- The configuration header (R425, R426; log 7). -/
theorem configuration_header : Claims.ConfigurationHeader := by
  intro s off
  refine ⟨fun hdown => congrArg answer ?_, fun hup hread => congrArg answer ?_, fun hup hwrite hrising => ?_⟩
  · exact if_pos (by simp [hdown])
  · exact (if_neg (by simp [hup])).trans (if_neg hread)
  · have hstored := look_stored (off := off) hrising (BitVec.ofNat 32 (s.inp.getD 2 0 &&& configBits off))
    exact ⟨_, congrArg answer ((if_neg (by simp [hup])).trans (if_pos hwrite)),
      congrArg (fun w : BitVec 32 => configFixed off + w.toNat) hstored, rfl, rfl, rfl⟩

/-! ## Reads through the BARs (R427-R429, R433) -/

/-- Nothing waits for a write of the host that clears a translation just where no die clears one (R393, R445). -/
theorem State.hostWaits_eq_false {s : State} : s.hostWaits = false ↔ ∀ d, d < 16 → s.clearingOf d hostOwner = false := by
  simp [State.hostWaits]

/-- The completion of a read of one aligned word: its bytes from the offset on, or 0 and a count where no register lies (R428). -/
def State.completeWord (s : State) (off len : Nat) : Option Nat → State
  | some w => s.complete 0 (w / 256 ^ (off % 8) % 256 ^ len)
  | none => s.unrequested.complete 0 0

/-- The bytes of BAR 4 that a read takes, as one number (R4, R429). -/
def State.readBar4 (s : State) (off len : Nat) : Nat :=
  ((List.range len).map fun i => bar4Address (off + i)).foldr (fun a acc => (a.elim 0 fun a => (s.byteAt a).toNat) + 256 * acc) 0

section
variable {s : State} (hup : s.host.linkUp = true) (hclear : s.hostWaits = false)
include hup hclear

/-- A misaligned read of a register is a completer abort (R428). -/
theorem barRead_misaligned (hbar : s.inp.getD 0 0 ≠ 4) (hal : barAligned (s.inp.getD 1 0) (min 4096 (s.inp.getD 2 0)) = false) :
    exec .inboundBarRead s = .next (s.complete 4 0) :=
  congrArg answer <| (if_neg (by simp [hup, hclear])).trans <| (if_neg hbar).trans <| if_pos (by rw [hal]; rfl)

/-- An aligned read of BAR 0 (R427, R428). -/
theorem barRead_register (hbar : s.inp.getD 0 0 ≠ 4) (hbar2 : s.inp.getD 0 0 ≠ 2)
    (hal : barAligned (s.inp.getD 1 0) (min 4096 (s.inp.getD 2 0)) = true) :
    exec .inboundBarRead s =
      .next (s.completeWord (s.inp.getD 1 0) (min 4096 (s.inp.getD 2 0)) (s.readBar0 (s.inp.getD 1 0 / 8 * 8))) := by
  refine congrArg answer <| (if_neg (by simp [hup, hclear])).trans <| (if_neg hbar).trans <|
    (if_neg (by rw [hal]; simp)).trans <| (if_neg hbar2).trans ?_
  cases s.readBar0 (s.inp.getD 1 0 / 8 * 8) <;> rfl

/-- An aligned read of a notify page (R428, R433). -/
theorem barRead_notifyPage (hbar : s.inp.getD 0 0 = 2)
    (hal : barAligned (s.inp.getD 1 0) (min 4096 (s.inp.getD 2 0)) = true) :
    exec .inboundBarRead s =
      .next (s.completeWord (s.inp.getD 1 0) (min 4096 (s.inp.getD 2 0)) (s.readBar2 (s.inp.getD 1 0 / 8 * 8))) := by
  refine congrArg answer <| (if_neg (by simp [hup, hclear])).trans <| (if_neg (by rw [hbar]; decide)).trans <|
    (if_neg (by rw [hal]; simp)).trans <| (if_pos hbar).trans ?_
  cases s.readBar2 (s.inp.getD 1 0 / 8 * 8) <;> rfl

/-- A read of memory that is all there, none of it poisoned (R429). -/
theorem barRead_memory (hbar : s.inp.getD 0 0 = 4)
    (hgood : ∀ i, i < min 4096 (s.inp.getD 2 0) → ∃ a, bar4Address (s.inp.getD 1 0 + i) = some a ∧ a / 8 ∉ s.poison) :
    exec .inboundBarRead s = .next (s.complete 0 (s.readBar4 (s.inp.getD 1 0) (min 4096 (s.inp.getD 2 0)))) := by
  refine congrArg answer <| (if_neg (by simp [hup, hclear])).trans <| (if_pos hbar).trans ?_
  have hall : ∀ x ∈ (List.range (min 4096 (s.inp.getD 2 0))).map fun i => bar4Address (s.inp.getD 1 0 + i),
      ∃ a, x = some a ∧ a / 8 ∉ s.poison := fun x hx => by
    obtain ⟨i, hi, rfl⟩ := List.mem_map.1 hx
    exact hgood i (List.mem_range.1 hi)
  have hsome : ((List.range (min 4096 (s.inp.getD 2 0))).map fun i => bar4Address (s.inp.getD 1 0 + i)).any Option.isNone = false :=
    List.any_eq_false.2 fun x hx => by
      obtain ⟨a, rfl, _⟩ := hall x hx
      simp
  dsimp only
  rw [hsome, if_neg (by simp), if_neg]
  · refine congrArg (s.complete 0) (congrArg (fun f => List.foldr f 0 _) ?_)
    funext a acc
    cases a <;> rfl
  · rw [List.any_eq_true]
    rintro ⟨x, hx, hbad⟩
    obtain ⟨a, rfl, ha⟩ := hall x hx
    simp [ha] at hbad

end

/-- Byte `i` of bytes packed lowest first. -/
theorem foldr_bytes_byte {α : Type} (f : α → Nat) (hf : ∀ x, f x < 256) : ∀ (l : List α) (i : Nat) (h : i < l.length),
    l.foldr (fun x acc => f x + 256 * acc) 0 / 256 ^ i % 256 = f l[i]
  | x :: r, 0, _ => by
    have := hf x
    simp only [List.foldr_cons, pow_zero, Nat.div_one, List.getElem_cons_zero]
    omega
  | x :: r, i + 1, h => by
    have := hf x
    rw [List.foldr_cons, Nat.pow_succ', ← Nat.div_div_eq_div_mul, show (f x + 256 * r.foldr (fun x acc => f x + 256 * acc) 0) / 256
      = r.foldr (fun x acc => f x + 256 * acc) 0 by omega]
    exact foldr_bytes_byte f hf r i (by simpa using h)

/-- A read of memory through BAR 4 gives the bytes there, lowest address lowest (R4, R429). -/
theorem State.readBar4_byte (s : State) {off len i a : Nat} (hi : i < len) (ha : bar4Address (off + i) = some a) :
    s.readBar4 off len / 256 ^ i % 256 = (s.byteAt a).toNat := by
  have hlt : ∀ x : Option Nat, (x.elim 0 fun a => (s.byteAt a).toNat) < 256 := fun x => by
    cases x with
    | none => exact Nat.zero_lt_succ _
    | some a => exact (s.byteAt a).isLt
  rw [State.readBar4, foldr_bytes_byte _ hlt _ i (by simpa using hi)]
  simp [ha]

/-- Reads through the BARs (R427-R429, R433). -/
theorem bar_reads : Claims.BarReads := by
  intro s bar off len q clear up
  have hwaits : clear ↔ s.hostWaits = false := State.hostWaits_eq_false.symm
  refine ⟨fun hdown => ⟨congrArg answer (if_pos (by simp [hdown])), congrArg answer (if_neg (by simp [hdown]))⟩,
    fun hup => congrArg answer (if_pos hup.1), fun hc => congrArg answer (if_pos ?_), fun hup hbar hal => ?_,
    fun hup hbar hbar2 hal => ?_, fun hup hbar hal hlen => ?_, fun hup hbar hgood => ?_⟩
  · have : s.hostWaits = true := by simpa using mt hwaits.2 hc
    simp [this]
  · exact barRead_misaligned hup.1 (hwaits.1 hup.2) hbar hal
  · have hread := barRead_register hup.1 (hwaits.1 hup.2) hbar hbar2 hal
    exact ⟨fun w hw => by rw [hread, hw]; rfl, fun hnone => by rw [hread, hnone]; rfl⟩
  · have hread := barRead_notifyPage hup.1 (hwaits.1 hup.2) hbar hal
    have hlen8 : min 4096 (s.inp.getD 2 0) = 8 := hlen
    have hal8 : off / 8 * 8 = off := by
      have : off % 8 = 0 := by simpa [barAligned, hlen8, len] using hal
      omega
    rw [hread, hlen8, show s.inp.getD 1 0 / 8 * 8 = off from hal8]
    have hmod : off % 8 = 0 := by omega
    have value {w : Nat} (hw : s.readBar2 off = some w) (hlt : w < 256 ^ 8) :
        (.next (s.completeWord off 8 (s.readBar2 off)) : Host.Outcome State Fault Refusal) = .next (s.complete 0 w) := by
      rw [hw, State.completeWord, hmod, pow_zero, Nat.div_one, Nat.mod_eq_of_lt hlt]
    refine ⟨fun h => value ?_ (by norm_num), fun h => value ?_ (by omega), fun h => value ?_ ?_, fun h => ?_⟩
    · simp [State.readBar2, h]
    · simp [State.readBar2, h, q]
    · simp [State.readBar2, h, q]
    · simp only [bitsOf]; omega
    · have hnone : s.readBar2 off = none := by
        simp only [State.readBar2]
        rw [if_neg (by omega), if_neg (by omega), if_neg (by omega)]
      rw [hnone]
      rfl
  · exact ⟨_, barRead_memory hup.1 (hwaits.1 hup.2) hbar hgood, fun i a hi ha => s.readBar4_byte hi ha⟩

end Sys2Proof.Machine
end

section
namespace Sys2Proof.Machine

/-! ## Writes through the BARs (R427-R429, R433) -/

section
variable {β : Type} {f : State → β → State} {addr : β → Option Nat} {val : β → Byte}
  (hout : ∀ s e x, addr e ≠ some x → (f s e).byteAt x = s.byteAt x)
include hout

/-- A fold over single writes leaves every byte that none of them names. -/
theorem byteAt_foldl_of_unnamed {x : Nat} : ∀ (l : List β) (s : State), (∀ e ∈ l, addr e ≠ some x) →
    (l.foldl f s).byteAt x = s.byteAt x
  | [], _, _ => rfl
  | e :: r, s, h => by
    rw [List.foldl_cons, byteAt_foldl_of_unnamed r _ fun e' he => h e' (by simp [he])]
    exact hout s e x (h e (by simp))

/-- A fold over single writes to different bytes writes each of them. -/
theorem byteAt_foldl_of_named (hin : ∀ s e a, addr e = some a → (f s e).byteAt a = val e) {e : β} {a : Nat} (ha : addr e = some a)
    {l : List β} (hp : l.Pairwise (fun e e' => ∀ a, addr e = some a → addr e' ≠ some a)) (he : e ∈ l) (s : State) :
    (l.foldl f s).byteAt a = val e := by
  induction l generalizing s with
  | nil => cases he
  | cons e' r ih =>
    obtain ⟨hfirst, hrest⟩ := List.pairwise_cons.1 hp
    rw [List.foldl_cons]
    rcases List.mem_cons.1 he with rfl | he
    · rw [byteAt_foldl_of_unnamed hout r _ fun e' h => hfirst e' h a ha, hin s e a ha]
    · exact ih hrest he _

end

/-- Offsets within the window of BAR 4 that reach the same byte are the same (R429). -/
theorem bar4Address_inj {x y a : Nat} (hx : bar4Address x = some a) (hy : bar4Address y = some a) : x % 2 ^ 34 = y % 2 ^ 34 := by
  have place {z : Nat} (hz : bar4Address z = some a) : a / 2 ^ 44 = z / 2 ^ 30 % 16 ∧
      (a % 2 ^ 44 = 0x400000000 + z % 2 ^ 30 ∧ z % 2 ^ 30 < 0x1BC00000 ∨
        a % 2 ^ 44 = 0x5E0000000 + z % 2 ^ 30 ∧ 0x20000000 ≤ z % 2 ^ 30) := by
    unfold bar4Address dieAddr at hz
    dsimp only at hz
    split at hz
    · have := Option.some.inj hz
      omega
    · split at hz
      · rename_i hsync
        simp only [Bool.and_eq_true, decide_eq_true_eq] at hsync
        have := Option.some.inj hz
        omega
      · cases hz
  have h1 := place hx
  have h2 := place hy
  omega

/-- One byte of a write through BAR 4, poisoned where the request was (R55, R429). -/
def State.writeBar4Byte (s : State) (poisoned : Bool) (off : Nat) (b : Nat × Nat) : State :=
  (bar4Address (off + b.2)).elim s fun a =>
    if poisoned then { s.writeN a (b.1 % 256) 1 with poison := addPoison a 1 (s.writeN a (b.1 % 256) 1).poison }
    else s.writeN a (b.1 % 256) 1

section
variable (s : State) {poisoned : Bool} {off : Nat} {b : Nat × Nat}

theorem State.writeBar4Byte_in {a : Nat} (h : bar4Address (off + b.2) = some a) :
    (s.writeBar4Byte poisoned off b).byteAt a = BitVec.ofNat 8 b.1 := by
  have hwritten : (s.writeN a (b.1 % 256) 1).byteAt a = BitVec.ofNat 8 b.1 := by
    refine (Memory.get_writeN_in le_rfl (by omega) _).trans (BitVec.eq_of_toNat_eq ?_)
    simp
  simp only [State.writeBar4Byte, h, Option.elim_some]
  split <;> exact hwritten

theorem State.writeBar4Byte_out {x : Nat} (h : bar4Address (off + b.2) ≠ some x) :
    (s.writeBar4Byte poisoned off b).byteAt x = s.byteAt x := by
  unfold State.writeBar4Byte
  cases ha : bar4Address (off + b.2) with
  | none => rfl
  | some a =>
    have hne : a ≠ x := fun e => h (e ▸ ha)
    have hkept : (s.writeN a (b.1 % 256) 1).byteAt x = s.byteAt x := Memory.get_writeN_out (by omega) _
    simp only [Option.elim_some]
    split <;> exact hkept

@[simp] theorem State.writeBar4Byte_dies : (s.writeBar4Byte poisoned off b).dies = s.dies := by
  unfold State.writeBar4Byte
  cases bar4Address (off + b.2) <;> cases poisoned <;> rfl

@[simp] theorem State.writeBar4Byte_crews : (s.writeBar4Byte poisoned off b).crews = s.crews := by
  unfold State.writeBar4Byte
  cases bar4Address (off + b.2) <;> cases poisoned <;> rfl

@[simp] theorem State.writeBar4Byte_strands : (s.writeBar4Byte poisoned off b).strands = s.strands := by
  unfold State.writeBar4Byte
  cases bar4Address (off + b.2) <;> cases poisoned <;> rfl

end

section
variable {s : State} (hup : s.host.linkUp = true) (hclear : s.hostWaits = false)
include hup hclear

/-- A misaligned write of a register is a completer abort (R428). -/
theorem barWrite_misaligned (hbar : s.inp.getD 0 0 ≠ 4) (hal : barAligned (s.inp.getD 1 0) ((s.inp.drop 3).take 512).length = false) :
    exec .inboundBarWrite s = .next (s.complete 4 0) :=
  congrArg answer <| (if_neg (by simp [hup, hclear])).trans <| (if_neg hbar).trans <| if_pos (by rw [hal]; rfl)

/-- An aligned write of a whole word of BAR 0 (R427, R428). -/
theorem barWrite_word (hbar : s.inp.getD 0 0 ≠ 4) (hbar2 : s.inp.getD 0 0 ≠ 2) (hlen : ((s.inp.drop 3).take 512).length = 8)
    (hal : s.inp.getD 1 0 % 8 = 0) :
    exec .inboundBarWrite s = .next (s.writeBar0 (s.inp.getD 1 0)
      (BitVec.ofNat 64 (((s.inp.drop 3).take 512).foldr (fun b acc => b % 256 + 256 * acc) 0)) (BitVec.allOnes 64)) := by
  refine congrArg answer <| (if_neg (by simp [hup, hclear])).trans <| (if_neg hbar).trans <|
    (if_neg (by rw [hlen]; simp only [barAligned, hal]; decide)).trans <| (if_neg hbar2).trans ?_
  have hcover : coverOf (fullMask 8 * 2 ^ 0) = BitVec.allOnes 64 := by decide
  rw [hlen, hal, hcover, show s.inp.getD 1 0 / 8 * 8 = s.inp.getD 1 0 by omega, pow_zero, Nat.mul_one]

/-- A write of the notify word of a page (R433, R437). -/
theorem barWrite_notify (hbar : s.inp.getD 0 0 = 2) (hal : barAligned (s.inp.getD 1 0) ((s.inp.drop 3).take 512).length = true)
    (hoff : s.inp.getD 1 0 % 4096 < 8) :
    exec .inboundBarWrite s = .next (s.notifyQueue (s.inp.getD 1 0 / 4096 % 256)) :=
  congrArg answer <| (if_neg (by simp [hup, hclear])).trans <| (if_neg (by rw [hbar]; decide)).trans <|
    (if_neg (by rw [hal]; simp)).trans <| (if_pos hbar).trans <| if_pos (by omega)

/-- A write through BAR 4 writes its bytes one by one; what else it changes is the poison of words and a count (R55, R428, R429). -/
theorem barWrite_memory (hbar : s.inp.getD 0 0 = 4) : ∃ t, exec .inboundBarWrite s = .next t ∧
    ∀ {γ : Type} (view : State → γ), (∀ u p h, view { u with poison := p, host := h } = view u) →
      view t = view (((s.inp.drop 3).take 512).zipIdx.foldl
        (fun u b => u.writeBar4Byte (decide (s.inp.getD 2 0 = 1)) (s.inp.getD 1 0) b) s) := by
  refine ⟨_, congrArg answer ((if_neg (by simp [hup, hclear])).trans (if_pos hbar)), fun view hview => ?_⟩
  split <;> rename_i hep <;> dsimp only <;> split
  all_goals
    refine (hview (List.foldl _ s _) _ _).trans (congrArg view (List.foldl_ext _ _ _ fun u b _ => ?_))
    unfold State.writeBar4Byte
    cases bar4Address (s.inp.getD 1 0 + b.2) <;> simp only [hep] <;> rfl

end

/-- Writes through the BARs (R393, R427-R429, R433, R437, R445). -/
theorem bar_writes : Claims.BarWrites := by
  intro s bar off bytes len up
  refine ⟨fun hdown => congrArg answer (if_pos ?_), fun hup hbar hal => barWrite_misaligned hup.1 hup.2 hbar hal,
    fun hup hbar hbar2 hlen hal => barWrite_word hup.1 hup.2 hbar hbar2 hlen hal,
    fun hup hbar hal hoff => barWrite_notify hup.1 hup.2 hbar hal hoff, fun hup hbar _ => ?_⟩
  · simp only [up, not_and_or, Bool.not_eq_true, Bool.not_eq_false] at hdown
    rcases hdown with h | h <;> simp [h]
  · obtain ⟨t, ht, hview⟩ := barWrite_memory hup.1 hup.2 hbar
    have hpairs : bytes.zipIdx.Pairwise fun e e' => ∀ a, bar4Address (off + e.2) = some a → bar4Address (off + e'.2) ≠ some a := by
      have hlen : bytes.length ≤ 512 := List.length_take_le _ _
      rw [List.pairwise_iff_getElem]
      intro i j hi hj hij a hia hja
      simp only [List.length_zipIdx, List.getElem_zipIdx, Nat.zero_add] at hi hj hia hja
      have := bar4Address_inj hia hja
      omega
    refine ⟨t, ht, fun i a hi ha => ?_, fun b hb => ?_, ?_, ?_, ?_⟩
    · have hmem : (bytes[i], i) ∈ bytes.zipIdx := by
        rw [List.mem_zipIdx_iff_getElem?]
        exact List.getElem?_eq_getElem hi
      rw [hview (fun u => u.byteAt a) fun _ _ _ => rfl, List.getD_eq_getElem _ _ hi]
      exact byteAt_foldl_of_named (addr := fun e : Nat × Nat => bar4Address (off + e.2)) (val := fun e => BitVec.ofNat 8 e.1)
        (fun u e x => u.writeBar4Byte_out) (fun u e x => u.writeBar4Byte_in) ha hpairs hmem s
    · rw [hview (fun u => u.byteAt b) fun _ _ _ => rfl]
      exact byteAt_foldl_of_unnamed (addr := fun e : Nat × Nat => bar4Address (off + e.2)) (fun u e x => u.writeBar4Byte_out)
        _ s fun e he => hb e.2 (List.snd_lt_of_mem_zipIdx he)
    · exact (hview State.dies fun _ _ _ => rfl).trans
        (List.foldlRecOn (motive := fun u : State => u.dies = s.dies) _ _ rfl fun u h e _ => by rw [u.writeBar4Byte_dies, h])
    · exact (hview State.crews fun _ _ _ => rfl).trans
        (List.foldlRecOn (motive := fun u : State => u.crews = s.crews) _ _ rfl fun u h e _ => by rw [u.writeBar4Byte_crews, h])
    · exact (hview State.strands fun _ _ _ => rfl).trans
        (List.foldlRecOn (motive := fun u : State => u.strands = s.strands) _ _ rfl fun u h e _ => by rw [u.writeBar4Byte_strands, h])

end Sys2Proof.Machine
end

section
namespace Sys2Proof.Machine

/-! ## Register writes (R393, R445, R460) -/

/-- A whole word written to fields that software writes. -/
theorem fieldWrite_whole (cur v rw : Word) : fieldWrite cur v (BitVec.allOnes 64) rw 0 = (cur &&& ~~~rw) ||| (rw &&& v) := by
  simp [fieldWrite, -BitVec.reduceAllOnes]

/-- A whole word written to a register all of whose bits software writes. -/
theorem fieldWrite_all (cur v : Word) : fieldWrite cur v (BitVec.allOnes 64) (BitVec.allOnes 64) 0 = v := by
  simp [fieldWrite, -BitVec.reduceAllOnes]

/-- A whole word written to bits that writing ones clears. -/
theorem fieldWrite_ones_clear (cur v : Word) : fieldWrite cur v (BitVec.allOnes 64) 0 (BitVec.allOnes 64) = cur &&& ~~~v := by
  simp [fieldWrite, -BitVec.reduceAllOnes]

/-- While an earlier write of the host clears a translation, a register write waits (R393, R445). -/
theorem registerWrite_waits {s : State} (h : s.hostWaits = true) : exec .registerWrite s = .next s :=
  congrArg answer (if_pos (by simp [h]))

/-- A register write to no register block takes nothing (R460). -/
theorem registerWrite_no_block {s : State} (h : 20 ≤ s.inp.getD 0 0) : exec .registerWrite s = .next s :=
  congrArg answer (if_pos (by simp only [h, decide_true, Bool.true_or]))

/-- A whole word written to the register block of a die, at the aligned word that holds the offset (R427, R460). -/
theorem registerWrite_die {s : State} (hd : s.inp.getD 0 0 < 16) (hin : s.inp.getD 1 0 < 0x1000000) (hwait : s.hostWaits = false) :
    exec .registerWrite s = .next (s.writeDieReg (s.inp.getD 0 0) (s.inp.getD 1 0 / 8 * 8) (BitVec.ofNat 64 (s.inp.getD 2 0))
      (BitVec.allOnes 64) (some hostOwner)) := by
  refine congrArg answer ((if_neg ?_).trans ?_)
  · rw [hwait, if_pos hd]
    simp only [Bool.or_false, Bool.or_eq_true, decide_eq_true_eq]
    omega
  · generalize hal : s.inp.getD 1 0 / 8 * 8 = off
    rw [if_pos hd, State.writeBar0, if_pos (by omega), show (s.inp.getD 0 0 * 0x1000000 + off) / 0x1000000 = s.inp.getD 0 0 by omega,
      show (s.inp.getD 0 0 * 0x1000000 + off) % 0x1000000 = off by omega]

/-- The first word of the host engine's block of BAR 0 is HECTL (R427, R430). -/
theorem State.writeBar0_hectl (s : State) (v cover : Word) :
    s.writeBar0 0x10000000 v cover = { s with host := { s.host with hectl := fieldWrite s.host.hectl v cover 3 0 } } := by
  have hread : s.readBar0 0x10000000 = some s.host.hectl.toNat := by
    rw [State.readBar0, if_neg (by omega), if_pos (by omega), Nat.sub_self, State.readHost]
    exact if_pos rfl
  rw [State.writeBar0, if_neg (by omega), hread, if_neg (by simp), if_pos (by omega), Nat.sub_self, State.writeHost]
  exact if_pos rfl

/-- The word at 0x10 of the sluice's block of BAR 0 is its scope, which takes no write while a program runs (R413, R427). -/
theorem State.writeBar0_scope (s : State) (v cover : Word) :
    s.writeBar0 0x10010010 v cover = if bitsOf s.sluice.ctl 62 62 = 1 || s.patching then s
      else { s with sluice := { s.sluice with scope := fieldWrite s.sluice.scope v cover (BitVec.allOnes 64) 0 } } := by
  have hread : s.readBar0 0x10010010 = some s.sluice.scope.toNat := by
    rw [State.readBar0, if_neg (by omega), if_neg (by omega), if_pos (by omega), show 0x10010010 - 0x10010000 = 0x10 by omega,
      State.readSluice]
    exact (if_neg (by omega)).trans ((if_neg (by omega)).trans (if_pos rfl))
  rw [State.writeBar0, if_neg (by omega), hread, if_neg (by simp), if_neg (by omega), if_pos (by omega),
    show 0x10010010 - 0x10010000 = 0x10 by omega, State.writeSluice]
  dsimp only
  rw [if_neg (by omega), if_neg (by omega), if_pos rfl]

section
variable {s : State} (hwait : s.hostWaits = false)
include hwait

/-- A whole word written to HECTL (R430, R460). -/
theorem registerWrite_hectl (hd : s.inp.getD 0 0 = 16) (hoff : s.inp.getD 1 0 = 0) :
    exec .registerWrite s = .next (s.writeBar0 0x10000000 (BitVec.ofNat 64 (s.inp.getD 2 0)) (BitVec.allOnes 64)) := by
  refine congrArg answer ((if_neg ?_).trans ?_)
  · rw [hd, hoff, hwait]
    decide
  · rw [hd, hoff, if_neg (by omega), if_pos rfl]

/-- A whole word written to the scope register of the sluice (R413, R460). -/
theorem registerWrite_scope (hd : s.inp.getD 0 0 = 17) (hoff : s.inp.getD 1 0 = 0x10) :
    exec .registerWrite s = .next (s.writeBar0 0x10010010 (BitVec.ofNat 64 (s.inp.getD 2 0)) (BitVec.allOnes 64)) := by
  refine congrArg answer ((if_neg ?_).trans ?_)
  · rw [hd, hoff, hwait]
    decide
  · rw [hd, hoff, if_neg (by omega), if_neg (by omega), if_pos rfl]

end

/-- An offset above the error log and below the translation table has no register that a write changes (R460; log 18). -/
theorem State.writeDieReg_no_register (s : State) (die : Nat) {off : Nat} (h1 : 0x7028 ≤ off) (h2 : off < 0x100000) (v cover : Word)
    (owner : Option Nat) : s.writeDieReg die off v cover owner = s := by
  unfold State.writeDieReg
  rw [if_neg (by omega), if_neg (by omega), if_neg (by omega), if_neg (by omega)]
  split
  · unfold State.writeError
    dsimp only
    rw [if_neg (by omega), if_neg (by omega), if_neg (by omega), if_neg (by omega)]
  · rw [if_neg (by simp; omega), if_neg (by simp; omega)]

/-- Register writes (R393, R445, R460). -/
theorem registers_written : Claims.RegistersWritten := by
  intro s d x v takes field
  refine ⟨registerWrite_waits, fun hd => ?_, fun hd hoff hwait => ?_, fun hd hoff hidle hpatch hwait => ?_, fun hd hoff hbusy => ?_,
    registerWrite_no_block⟩
  · have die {off : Nat} {y : Die} (hal : off % 8 = 0) (hin : off < 0x1000000)
        (hy : s.writeDieReg d off v (BitVec.allOnes 64) (some hostOwner) = s.setDie d y) : takes off y := fun hwait hoff => by
      subst hoff
      rw [registerWrite_die hd hin hwait, show s.inp.getD 1 0 / 8 * 8 = s.inp.getD 1 0 by omega]
      exact congrArg _ hy
    have whole (old m : Word) : fieldWrite old v (BitVec.allOnes 64) m 0 = field old m := fieldWrite_whole old v m
    refine ⟨die (by decide) (by decide) (congrArg (fun w => s.setDie d { x with rampctl := w }) (whole _ _)),
      die (by decide) (by decide) (congrArg (fun w => s.setDie d { x with frbase := w }) (whole _ _)),
      die (by decide) (by decide) (congrArg (fun w => s.setDie d { x with frctl := w }) (whole _ _)),
      die (by decide) (by decide) (congrArg (fun w => s.setDie d { x with remtimeout := w }) (whole _ _)),
      die (by decide) (by decide) (congrArg (fun w => s.setDie d { x with syncctl := w }) (whole _ _)),
      die (by decide) (by decide) (congrArg (fun w => s.setDie d { x with rptext := w }) (whole _ _)),
      die (by decide) (by decide) (congrArg (fun w => s.setDie d { x with rpentry := w }) (whole _ _)),
      die (by decide) (by decide) (congrArg (fun w => s.setDie d { x with congctl := w }) (whole _ _)),
      die (by decide) (by decide) (congrArg (fun w => s.setDie d { x with fbstat := w }) (fieldWrite_ones_clear _ _)),
      die (by decide) (by decide) (congrArg (fun w => s.setDie d { x with errBase := w }) (whole _ _)), fun off h1 h2 hoff => ?_⟩
    cases hwait : s.hostWaits with
    | true => exact registerWrite_waits hwait
    | false =>
      exact (registerWrite_die hd (by omega) hwait).trans
        (congrArg _ (s.writeDieReg_no_register d (by omega) (by omega) _ _ _))
  · rw [registerWrite_hectl hwait hd hoff, State.writeBar0_hectl, fieldWrite_whole]
  · rw [registerWrite_scope hwait hd hoff, State.writeBar0_scope, if_neg (by simp [hidle, hpatch]), fieldWrite_all]
  · cases hwait : s.hostWaits with
    | true => exact registerWrite_waits hwait
    | false =>
      rw [registerWrite_scope hwait hd hoff, State.writeBar0_scope, if_pos (by simpa using hbusy)]

/-- Settles O51: the configuration header, reads and writes through the BARs, and what a register takes of a write. -/
theorem hostReachesRegistersAndMemory : Obligations.HostReachesRegistersAndMemory :=
  ⟨configuration_header, bar_reads, bar_writes, registers_written⟩

end Sys2Proof.Machine
end

section
namespace Sys2Proof.Machine

/-! ## What a part of a word's body can come to -/

/-- Whatever a part of a word's body comes to has the property; where it waits or traps it comes to nothing. -/
def Res.All {α : Type} (Q : α → Prop) (r : Res α) : Prop := ∀ a, r = .ok a → Q a

namespace Res.All

variable {α β : Type} {Q R : α → Prop} {T : β → Prop}

theorem pure {a : α} (h : Q a) : Res.All Q (.ok a) := fun _ e => by cases e; exact h

theorem trap (cause : Nat) (info : Word) : Res.All Q (trap cause info) := nofun

theorem hold (w : Wait) : Res.All Q (hold w) := nofun

theorem bind {r : Res α} {f : α → Res β} (hr : r.All Q) (hf : ∀ a, Q a → (f a).All T) : (r >>= f).All T := fun b e => by
  obtain ⟨a, ha, hb⟩ := Res.bind_eq_ok.1 e
  exact hf a (hr a ha) b hb

theorem ite {c : Prop} [Decidable c] {x y : Res α} (hx : c → x.All Q) (hy : ¬ c → y.All Q) : (if c then x else y).All Q := by
  split
  · exact hx ‹_›
  · exact hy ‹_›

/-- A part about which nothing is asked. -/
theorem any (r : Res α) : r.All fun _ => True := fun _ _ => trivial

end Res.All

/-! ## Properties that the work of an agent on its own strand keeps -/

/-- The property stays as the executing agent changes its own strand, or its die's rotation program, and drops requests. -/
structure StrandStable (P : State → Prop) : Prop where
  strand : ∀ {s : State} (x : Strand), P s → P (s.setStrand s.cur x)
  rotation : ∀ {s : State} (x : Die), s.cur.rot = true → P s → P (s.setDie s.cur.die x)
  reqs : ∀ {s : State} (r : List (Nat × Req)), P s → P { s with reqs := r }
  raise : ∀ {s : State} (src : Nat), s.cur.rot = true → P s → P (s.raise s.cur.die src)

/-- The state that the body of a word comes to, before it is retired. -/
def Eff.state : Eff → State
  | .next s => s
  | .jump s _ => s
  | .stay s => s
  | .done s => s

section
variable {P : State → Prop} (hP : StrandStable P) {s : State}
include hP

theorem StrandStable.setStream (x : Stream) (h : P s) : P (s.setStream s.cur x) := by
  unfold State.setStream
  split
  · exact hP.rotation _ ‹_› h
  · exact hP.strand _ h

theorem StrandStable.forget (id : Nat) (h : P s) : P (s.forget id) := by
  unfold State.forget
  split
  · exact h
  · dsimp only
    (repeat' split) <;> exact hP.reqs _ h

theorem StrandStable.forgetAll (ids : List Nat) (h : P s) : P (s.forgetAll ids) :=
  List.foldlRecOn ids State.forget h fun _ hb _ _ => hP.forget _ hb

omit hP in
@[simp] theorem State.raise_cur (s : State) (die src : Nat) : (s.raise die src).cur = s.cur := by
  unfold State.raise State.sendMsi
  dsimp only
  (repeat' split) <;> rfl

/-- A property that the agent's own work keeps stays with who the agent is. -/
theorem StrandStable.and_cur (c : Ctx) : StrandStable fun t => P t ∧ t.cur = c where
  strand x h := ⟨hP.strand x h.1, h.2⟩
  rotation x hr h := ⟨hP.rotation x hr h.1, h.2⟩
  reqs r h := ⟨hP.reqs r h.1, h.2⟩
  raise src hr h := ⟨hP.raise src hr h.1, (State.raise_cur _ _ _).trans h.2⟩

/-! ### Registers, ports and tokens -/

theorem readReg_stable (r : BitVec 5) (h : P s) : (readReg r s).All (P ·.2) := by
  unfold readReg
  refine .ite (fun _ => .pure h) fun _ => .ite (fun _ => .pure h) fun _ => ?_
  dsimp only
  split
  all_goals exact .ite (fun _ => .bind (.any _) fun _ _ => .pure (hP.strand _ h)) fun _ => .pure h

theorem pushQueue_stable {α : Type} (k : Str) (num cap : Nat) (q : List α) (v : α) (f : List α → Strand) (h : P s) :
    (pushQueue s s.cur k num cap q v >>= fun q => pure (s.setStrand s.cur (f q)) : Res State).All P :=
  .bind (.any _) fun _ _ => .pure (hP.strand _ h)

theorem writeReg_stable (r : BitVec 5) (v : Word) (h : P s) : (writeReg r v s).All P := by
  unfold writeReg
  refine .ite (fun _ => .pure h) fun _ => .ite (fun hr => .pure (hP.rotation _ hr h)) fun _ => ?_
  dsimp only
  split
  · exact .ite (fun _ => pushQueue_stable hP _ _ _ _ _ _ h) fun _ => .pure (hP.strand _ h)
  · exact .ite (fun _ => pushQueue_stable hP _ _ _ _ _ _ h) fun _ =>
      .ite (fun _ => pushQueue_stable hP _ _ _ _ _ _ h) fun _ => .pure (hP.strand _ h)
  · exact .pure (hP.strand _ h)

theorem readVec_stable (v : BitVec 5) (h : P s) : (readVec v s).All (P ·.2) := by
  unfold readVec
  dsimp only
  split
  · exact .pure h
  · refine .ite (fun _ => ?_) fun _ => .ite (fun _ => ?_) fun _ => .pure h
    all_goals
      split
      · exact .hold _
      · exact .bind (.any _) fun _ _ => .pure (hP.strand _ h)

theorem writeVec_stable (v : BitVec 5) (x : Vec) (h : P s) : (writeVec v x s).All P := by
  unfold writeVec
  dsimp only
  split
  · exact .pure (hP.strand _ h)
  · exact .ite (fun _ => pushQueue_stable hP _ _ _ _ _ _ h) fun _ =>
      .ite (fun _ => pushQueue_stable hP _ _ _ _ _ _ h) fun _ => .pure h

theorem writePred_stable (p : Nat) (x : Pred) (h : P s) : P (writePred p x s) := by
  unfold writePred
  split
  · exact hP.strand _ h
  · exact h

theorem takeTok_stable (f : Option Nat) (h : P s) : (takeTok f s).All P := by
  cases f with
  | none => exact .pure h
  | some f => exact .ite (fun _ => .ite (fun _ => .trap _ _) fun _ => .hold _) fun _ => .pure (hP.strand _ h)

theorem giveTok_stable (f : Option Nat) (h : P s) : (giveTok f s).All P := by
  cases f with
  | none => exact .pure h
  | some f => exact .ite (fun _ => .hold _) fun _ => .pure (hP.strand _ h)

theorem takeTokens_stable (tk : BitVec 4) (h : P s) : (takeTokens tk s).All P := by
  rw [takeTokens_eq]
  exact .bind (.ite (fun _ => takeTok_stable hP _ h) fun _ => .pure h) fun _ h1 =>
    .ite (fun _ => takeTok_stable hP _ h1) fun _ => .pure h1

omit hP in
/-- The gives of a word, to its left neighbour and then to its right one (R24). -/
theorem giveTokens_eq (tk : BitVec 4) (s : State) :
    giveTokens tk s = (if tk[1] then giveTok (giveLeft s.cur.str) s else pure s) >>= fun s1 =>
      if tk[0] then giveTok (giveRight s.cur.str) s1 else pure s1 := by
  by_cases h : tk[1] = true <;> simp only [giveTokens, h] <;> rfl

theorem giveTokens_stable (tk : BitVec 4) (h : P s) : (giveTokens tk s).All P := by
  rw [giveTokens_eq]
  exact .bind (.ite (fun _ => giveTok_stable hP _ h) fun _ => .pure h) fun _ h1 =>
    .ite (fun _ => giveTok_stable hP _ h1) fun _ => .pure h1

theorem giveAfter_stable (tk : BitVec 4) (e : Eff) (h : P e.state) : (giveAfter tk e).All (P ·.state) := by
  cases e with
  | next s => exact .bind (giveTokens_stable hP tk h) fun _ h1 => .pure h1
  | jump s t => exact .bind (giveTokens_stable hP tk h) fun _ h1 => .pure h1
  | stay s => exact .pure h
  | done s => exact .pure h

/-! ### The run of a word -/

theorem State.stopRotation_stable (cause reason : Nat) (hr : s.cur.rot = true) (h : P s) :
    P (s.stopRotation s.cur.die cause reason) := by
  unfold State.stopRotation
  dsimp only
  split
  · exact hP.rotation _ hr h
  · exact hP.raise (s := s.setDie s.cur.die _) 1 hr (hP.rotation _ hr h)

theorem State.takeTrap_stable (cause : Nat) (info : Word) (h : P s) : P (s.takeTrap cause info) := by
  have dropped (ids : List Nat) (x : Strand) : P ((s.forgetAll ids).setStrand s.cur x) := by
    have := hP.strand x (hP.forgetAll ids h)
    rwa [State.forgetAll_cur] at this
  unfold State.takeTrap
  dsimp only
  split
  · exact State.stopRotation_stable hP _ _ ‹_› h
  · exact dropped _ _

theorem State.waitOn_stable (w : Wait) (h : P s) : P (s.waitOn w) := hP.setStream _ h
theorem State.retire_stable (len : Nat) (h : P s) : P (s.retire len) := hP.setStream _ h
theorem State.retireTo_stable (t : Word) (h : P s) : P (s.retireTo t) := hP.setStream _ h
theorem State.setPending_stable (p : Pend) (h : P s) : P (s.setPending p) := hP.setStream _ h
theorem State.passBy_stable (len : Nat) (mark : Marking) (h : P s) : P (s.passBy len mark) := hP.setStream _ h

theorem State.finish_stable (len : Nat) {r : Res Eff} (h : P s) (hr : r.All (P ·.state)) : P (s.finish len r) := by
  match r with
  | .error (.wait w) => exact State.waitOn_stable hP w h
  | .error (.trap cause info) => exact State.takeTrap_stable hP cause info h
  | .ok (.next t) => exact State.retire_stable hP len (hr _ rfl)
  | .ok (.jump t a) => exact State.retireTo_stable hP a (hr _ rfl)
  | .ok (.stay t) => exact hr _ rfl
  | .ok (.done t) => exact hr _ rfl

theorem State.takeReply_stable (r : Nat × Nat × Nat) (h : P s) : P (s.takeReply r) := by
  have taken (t : State) (ht : P t) (res : Res State) : res.All P →
      P (match res with
        | .ok s1 => s1
        | .error (.wait w) => s.waitOn w
        | .error (.trap cause info) => t.takeTrap cause info) := by
    intro hres
    match res with
    | .ok s1 => exact hres _ rfl
    | .error (.wait w) => exact State.waitOn_stable hP w h
    | .error (.trap cause info) => exact State.takeTrap_stable hP cause info ht
  have fails {α : Type} {Q : α → Prop} (status data : Nat) : (claimTrap status data : Res α).All Q ∧ (syncTrap status data : Res α).All Q :=
    ⟨by unfold claimTrap; split <;> exact .trap _ _, by unfold syncTrap; (repeat' split) <;> exact .trap _ _⟩
  have ht := hP.strand (if s.cur.str = .d then { s.strand s.cur with replyD := none } else { s.strand s.cur with reply := none }) h
  refine taken _ ht _ ?_
  exact .ite (fun _ => writeReg_stable hP _ _ ht) fun _ => .ite (fun _ => (fails _ _).1) fun _ => (fails _ _).2

/-- A word whose body keeps the property keeps it, also where it waits, passes by, takes a reply or takes a trap (R18-R25). -/
theorem runWordM_stable (mark : Marking) (len : Nat) (mine : Str → Bool) (tk : BitVec 4) {body : State → State → Res Eff} (h : P s)
    (hbody : ∀ s1, P s1 → (body s s1).All (P ·.state)) : P (runWordM mark len mine tk body s) := by
  unfold runWordM
  split
  · exact h
  · split
    · exact State.takeReply_stable hP _ h
    · split
      · exact State.passBy_stable hP _ _ h
      · exact State.finish_stable hP _ h (.bind (takeTokens_stable hP tk h) fun s1 h1 =>
          .bind (hbody s1 h1) fun e he => giveAfter_stable hP tk e he)

theorem runWord_stable (len : Nat) (mine : Str → Bool) (tk : BitVec 4) {body : State → State → Res Eff} (h : P s)
    (hbody : ∀ s1, P s1 → (body s s1).All (P ·.state)) : P (runWord len mine tk body s) :=
  runWordM_stable hP markNone len mine tk h hbody

variable {body : State → Res Eff}

theorem runLower_stable (sf : BitVec 2) (h : P s) (hbody : ∀ s1, P s1 → (body s1).All (P ·.state)) : P (runLower sf body s) :=
  runWord_stable hP _ _ _ h hbody
theorem runAll_stable (h : P s) (hbody : ∀ s1, P s1 → (body s1).All (P ·.state)) : P (runAll body s) :=
  runWord_stable hP _ _ _ h hbody
theorem runX_stable (tk : BitVec 4) (h : P s) (hbody : ∀ s1, P s1 → (body s1).All (P ·.state)) : P (runX tk body s) :=
  runWord_stable hP _ _ _ h hbody
theorem runA_stable (tk : BitVec 4) (h : P s) (hbody : ∀ s1, P s1 → (body s1).All (P ·.state)) : P (runA tk body s) :=
  runWord_stable hP _ _ _ h hbody
theorem runD_stable (tk : BitVec 4) (h : P s) (hbody : ∀ s1, P s1 → (body s1).All (P ·.state)) : P (runD tk body s) :=
  runWord_stable hP _ _ _ h hbody
theorem runLoad_stable (mark : Marking) (tk : BitVec 4) {body : State → State → Res Eff} (h : P s)
    (hbody : ∀ s1, P s1 → (body s s1).All (P ·.state)) : P (runLoad mark tk body s) :=
  runWordM_stable hP _ _ _ _ h fun s1 h1 => .bind (.any _) fun _ _ => hbody s1 h1

end

end Sys2Proof.Machine
end

section
namespace Sys2Proof.Machine

/-! ## The words that work on their strand alone (R83-R98, R160-R184) -/

section
variable {P : State → Prop} (hP : StrandStable P) {s : State} (h : P s)
include hP h

/-! ### Integer words, branches and loops -/

theorem alu_stable (f : Word → Word → Word) (sf : BitVec 2) (rd ra rb : BitVec 5) : P (alu f sf rd ra rb s) :=
  runLower_stable hP _ h fun _ h1 => .bind (readReg_stable hP _ h1) fun _ h2 => .bind (readReg_stable hP _ h2) fun _ h3 =>
    .bind (writeReg_stable hP _ _ h3) fun _ h4 => .pure h4

theorem aluImm_stable (f : Word → Word) (sf : BitVec 2) (rd ra : BitVec 5) : P (aluImm f sf rd ra s) :=
  runLower_stable hP _ h fun _ h1 => .bind (readReg_stable hP _ h1) fun _ h2 => .bind (writeReg_stable hP _ _ h2) fun _ h3 => .pure h3

theorem pushBranch_stable (v : Word) : (pushBranch v s).All P := by
  unfold pushBranch
  dsimp only
  exact .ite (fun _ => .hold _) fun _ => .pure (hP.strand _ h)

theorem popBranch_stable (ev : Str) : (popBranch ev s).All (P ·.2) := by
  unfold popBranch
  dsimp only
  split
  · exact .hold _
  · exact .pure (hP.strand _ h)

theorem throughBranch_stable (ev : BitVec 2) {value : State → Res (Word × State)} (hv : (value s).All (P ·.2)) :
    (throughBranch ev value s).All (P ·.2) :=
  .ite (fun _ => hv) fun _ => .ite (fun _ => .bind hv fun _ h1 => .bind (pushBranch_stable hP h1 _) fun _ h2 => .pure h2)
    fun _ => popBranch_stable hP h _

theorem branch_stable (ev : BitVec 2) (off : BitVec 13) {value : State → Res (Word × State)}
    (hv : ∀ s1, P s1 → (value s1).All (P ·.2)) : P (branch ev off value s) :=
  runAll_stable hP h fun s1 h1 => .bind (throughBranch_stable hP h1 ev (hv s1 h1)) fun _ h2 => .pure (by split <;> exact h2)

theorem compareBranch_stable (cond : Word → Word → Bool) (ev : BitVec 2) (offHi ra rb : BitVec 5) (offLo : BitVec 8) :
    P (compareBranch cond ev offHi ra rb offLo s) :=
  branch_stable hP h _ _ fun _ h1 => .bind (readReg_stable hP _ h1) fun _ h2 => .bind (readReg_stable hP _ h2) fun _ h3 => .pure h3

theorem jumpTarget_stable (ev : BitVec 2) (ra : BitVec 5) : (jumpTarget ev ra s).All (P ·.2) :=
  throughBranch_stable hP h _ (.bind (readReg_stable hP _ h) fun _ h1 => .ite (fun _ => .trap _ _) fun _ => .pure h1)

theorem loopBody_stable (body : BitVec 8) (count : BitVec 32) (takes : Bool) (s0 : State) :
    (loopBody body count takes s0 s).All (P ·.state) := by
  unfold loopBody
  dsimp only
  refine .ite (fun _ => ?_) fun _ => .ite (fun _ => .ite (fun _ => .trap _ _) fun _ => .hold _) fun _ => .pure (hP.setStream _ h)
  split
  · exact .pure (hP.setStream _ h)
  · exact .ite (fun _ => .pure h) fun _ => .pure (hP.setStream _ h)

theorem popCount_stable : (popCount s).All (P ·.2) := by
  unfold popCount
  dsimp only
  split
  · exact .hold _
  · exact .pure (hP.strand _ h)

theorem execLoopr_stable (ev : BitVec 2) (ra : BitVec 5) (body : BitVec 8) : ∃ t, execLoopr ev ra body s = .next t ∧ P t :=
  ⟨_, rfl, runAll_stable hP h fun _ h1 => .bind
    (throughBranch_stable hP h1 _ (.bind (readReg_stable hP _ h1) fun _ h2 => .ite (fun _ => .trap _ _) fun _ =>
      .ite (fun _ => .trap _ _) fun _ => .pure h2))
    fun _ h2 => loopBody_stable hP h2 _ _ _ _⟩

theorem execTagw_stable (sf : BitVec 2) (rd ra : BitVec 5) : ∃ t, execTagw sf rd ra s = .next t ∧ P t := by
  refine ⟨_, rfl, runLower_stable hP _ h fun s1 h1 => .bind (readReg_stable hP _ h1) fun _ h2 => ?_⟩
  have waits := State.setPending_stable hP { ids := [], data := [900, (s1.die s1.cur.die).rg.gen] } h1
  have written (v : Word) := Res.All.bind (writeReg_stable hP rd v h2) fun _ h3 => Res.All.pure (Q := (P ·.state)) (a := Eff.next _) h3
  refine .ite (fun _ => written _) fun _ => ?_
  split
  · exact .pure waits
  · exact .ite (fun _ => written _) fun _ => .pure waits

theorem execTok_stable (sf : BitVec 2) (tk : BitVec 4) : ∃ t, execTok sf tk s = .next t ∧ P t :=
  ⟨_, rfl, runWord_stable hP _ _ _ h fun _ h1 => .pure h1⟩

theorem spillPop_stable (n : Nat) : (spillPop n s).All (P ·.2) := by
  have take (a : Nat) (x : Stream) : Res.All (P ·.2) (match s.poisonIn a n with
      | some p => trap 0x08 (BitVec.ofNat 64 p)
      | none => pure (s.readN a n, s.setStream s.cur x) : Res (Nat × State)) := by
    split
    · exact .trap _ _
    · exact .pure (hP.setStream _ h)
  exact .ite (fun _ => take _ _) fun _ => .ite (fun _ => take _ _) fun _ => .trap _ _

theorem execPop_stable (sf : BitVec 2) (reg : BitVec 5) (cls : BitVec 2) : ∃ t, execPop sf reg cls s = .next t ∧ P t :=
  ⟨_, rfl, runLower_stable hP _ h fun _ h1 =>
    .ite (fun _ => .bind (spillPop_stable hP h1 _) fun _ h2 => .bind (writeReg_stable hP _ _ h2) fun _ h3 => .pure h3) fun _ =>
    .ite (fun _ => .bind (spillPop_stable hP h1 _) fun _ h2 => .bind (writeVec_stable hP _ _ h2) fun _ h3 => .pure h3) fun _ =>
    .ite (fun _ => .bind (spillPop_stable hP h1 _) fun _ h2 => .pure (writePred_stable hP _ _ h2)) fun _ =>
    .bind (spillPop_stable (hP.and_cur _) ⟨h1, rfl⟩ _) fun _ h2 => .pure (h2.2 ▸ hP.strand _ h2.1)⟩

theorem execSysr_stable (sf : BitVec 2) (rd : BitVec 5) (num : BitVec 13) : ∃ t, execSysr sf rd num s = .next t ∧ P t := by
  refine ⟨_, rfl, runLower_stable hP _ h fun _ h1 => ?_⟩
  split
  · exact .trap _ _
  · exact .bind (writeReg_stable hP _ _ h1) fun _ h2 => .pure h2

/-! ### Vector, predicate and floating-point words -/

theorem writeLanes_stable (b : Nat) (p : Pred) (vd : BitVec 5) (old : Vec) (xs : List Nat) : (writeLanes b p vd old xs s).All P :=
  writeVec_stable hP _ _ h

theorem drawX_stable (rm : Rm) (n : Nat) : P (drawX rm n s).2 := by
  unfold drawX
  split
  · exact hP.strand _ h
  · exact h

theorem readGroup_stable (k : Nat) (v : BitVec 5) : (readGroup v k s).All (P ·.2) := by
  induction k generalizing v s with
  | zero => exact .pure h
  | succ k ih => exact .bind (readVec_stable hP _ h) fun _ h1 => .bind (ih h1 _) fun _ h2 => .pure h2

theorem writeGroup_stable (xs : List Vec) (v : BitVec 5) : (writeGroup v xs s).All P := by
  induction xs generalizing v s with
  | nil => exact .pure h
  | cons x xs ih => exact .bind (writeVec_stable hP _ _ h) fun _ h1 => ih h1 _

theorem vecBin_stable (b : Nat) (vd va vb : BitVec 5) (pred : BitVec 4) (f : Nat → Nat → Nat) (tk : BitVec 4) :
    P (vecBin b vd va vb pred f tk s) :=
  runX_stable hP _ h fun _ h1 => .bind (readVec_stable hP _ h1) fun _ h2 => .bind (readVec_stable hP _ h2) fun _ h3 =>
    .bind (writeLanes_stable hP h3 _ _ _ _ _) fun _ h4 => .pure h4

theorem vecUn_stable (b : Nat) (vd va : BitVec 5) (pred : BitVec 4) (f : Nat → Nat) (tk : BitVec 4) :
    P (vecUn b vd va pred f tk s) :=
  runX_stable hP _ h fun _ h1 => .bind (readVec_stable hP _ h1) fun _ h2 => .bind (writeLanes_stable hP h2 _ _ _ _ _) fun _ h3 => .pure h3

theorem vecShift_stable (b : Nat) (vd va : BitVec 5) (f : Nat → Nat) (tk : BitVec 4) : P (vecShift b vd va f tk s) :=
  runX_stable hP _ h fun _ h1 => .bind (readVec_stable hP _ h1) fun _ h2 => .bind (writeVec_stable hP _ _ h2) fun _ h3 => .pure h3

theorem vecFloat_stable (ftype : BitVec 2) (vd va vb : BitVec 5) (pred : BitVec 4) (f : XVal → XVal → XVal → XVal) (tk : BitVec 4) :
    P (vecFloat ftype vd va vb pred f tk s) :=
  runX_stable hP _ h fun _ h1 => .bind (readVec_stable hP _ h1) fun _ h2 => .bind (readVec_stable hP _ h2) fun _ h3 =>
    .bind (writeLanes_stable hP (drawX_stable hP h3 _ _) _ _ _ _ _) fun _ h4 => .pure h4

theorem reduce_stable (sd va pn : BitVec 5) (f : Pred → Vec → Word) (tk : BitVec 4) : P (reduce sd va pn f tk s) :=
  runX_stable hP _ h fun _ h1 => .bind (readVec_stable hP _ h1) fun _ h2 => .bind (writeReg_stable hP _ _ h2) fun _ h3 => .pure h3

theorem scalarFloat_stable (sd sa sb : BitVec 5) (f : State → Nat → Nat → Nat) (tk : BitVec 4) : P (scalarFloat sd sa sb f tk s) :=
  runX_stable hP _ h fun _ h1 => .bind (readReg_stable hP _ h1) fun _ h2 => .bind (readReg_stable hP _ h2) fun _ h3 =>
    .bind (writeReg_stable hP _ _ h3) fun _ h4 => .pure h4

theorem execVcvt_stable (tk : BitVec 4) (vd va : BitVec 5) (srcf dstf : BitVec 4) (rm : BitVec 3) :
    ∃ t, execVcvt tk vd va srcf dstf rm s = .next t ∧ P t :=
  ⟨_, rfl, runX_stable hP _ h fun _ h1 => .ite
    (fun _ => .bind (readVec_stable hP _ h1) fun _ h2 => .bind (writeGroup_stable hP (drawX_stable hP h2 _ _) _ _) fun _ h3 => .pure h3)
    (fun _ => .bind (readGroup_stable hP h1 _ _) fun _ h2 => .bind (writeVec_stable hP _ _ (drawX_stable hP h2 _ _)) fun _ h3 => .pure h3)⟩

theorem execVqdx_stable (tk : BitVec 4) (dx8 : BitVec 1) (vd va vb : BitVec 5) : ∃ t, execVqdx tk dx8 vd va vb s = .next t ∧ P t := by
  refine ⟨_, rfl, runX_stable hP _ h fun _ h1 => .bind (readGroup_stable hP h1 _ _) fun _ h2 => ?_⟩
  have drawn := drawX_stable hP h2
  dsimp only
  generalize hr : drawX _ 512 _ = r
  have h3 : P r.2 := hr ▸ drawn _ _
  exact .bind (writeVec_stable hP _ _ h3) fun _ h4 => .bind (writeVec_stable hP _ _ h4) fun _ h5 => .pure h5

theorem execCqpush_stable (tk : BitVec 4) (va : BitVec 5) (pn : BitVec 4) : ∃ t, execCqpush tk va pn s = .next t ∧ P t :=
  ⟨_, rfl, runX_stable hP _ h fun _ h1 => .bind (readVec_stable hP _ h1) fun _ h2 => .ite (fun _ => .trap _ _) fun _ =>
    .ite (fun _ => .hold _) fun _ => .pure (hP.strand _ h2)⟩

/-- A word of the integer, branch, loop, token, system-read or vector blocks comes to a next state, and keeps what the work of its
strand keeps (R83-R98, R160-R184). -/
theorem exec_stable_of_strandOnly (i : Instr) (hi : strandOnly i = true) : ∃ t, exec i s = .next t ∧ P t := by
  cases i with
  | add | sub | and | or | xor | sll | srl | sra | mul | mulhu | mulh | slt | sltu | min | max | minu | maxu =>
    exact ⟨_, rfl, alu_stable hP h _ _ _ _ _⟩
  | addi | slti | andi | ori | xori | slli | srli | srai => exact ⟨_, rfl, aluImm_stable hP h _ _ _ _⟩
  | lui => exact ⟨_, rfl, runLower_stable hP _ h fun _ h1 => .bind (writeReg_stable hP _ _ h1) fun _ h2 => .pure h2⟩
  | beq | bne | blt | bge | bltu | bgeu => exact ⟨_, rfl, compareBranch_stable hP h _ _ _ _ _ _⟩
  | bpany | bpnone => exact ⟨_, rfl, branch_stable hP h _ _ fun _ h1 => .pure h1⟩
  | j => exact ⟨_, rfl, runAll_stable hP h fun _ h1 => .pure h1⟩
  | jal => exact ⟨_, rfl, runAll_stable hP h fun _ h1 => .bind (writeReg_stable hP _ _ h1) fun _ h2 => .pure h2⟩
  | jr => exact ⟨_, rfl, runAll_stable hP h fun _ h1 => .bind (jumpTarget_stable hP h1 _ _) fun _ h2 => .pure h2⟩
  | jalr => exact ⟨_, rfl, runAll_stable hP h fun _ h1 => .bind (jumpTarget_stable hP h1 _ _) fun _ h2 => .bind (writeReg_stable hP _ _ h2) fun _ h3 => .pure h3⟩
  | loopi => exact ⟨_, rfl, runAll_stable hP h fun _ h1 => loopBody_stable hP h1 _ _ _ _⟩
  | loopr => exact execLoopr_stable hP h _ _ _
  | loopq => exact ⟨_, rfl, runAll_stable hP h fun _ h1 => .bind (popCount_stable hP h1) fun _ h2 => loopBody_stable hP h2 _ _ _ _⟩
  | tagw => exact execTagw_stable hP h _ _ _
  | tok => exact execTok_stable hP h _ _
  | pop => exact execPop_stable hP h _ _ _
  | trap => exact ⟨_, rfl, runLower_stable hP _ h fun _ _ => .trap _ _⟩
  | sysr => exact execSysr_stable hP h _ _ _
  | vadd | vsub | vmul | vand | vor | vxor | vfnsb => exact ⟨_, rfl, vecBin_stable hP h _ _ _ _ _ _ _⟩
  | vslli | vsrli | vsrai => exact ⟨_, rfl, vecShift_stable hP h _ _ _ _ _⟩
  | vmov | vnot | vneg | vpopc | vclz | vbrev | vfabs | vexp2 | vlog2 | vrcp | vrsqrt | vtanh | vsigm =>
    exact ⟨_, rfl, vecUn_stable hP h _ _ _ _ _ _⟩
  | vfadd | vfsub | vfmul | vfma => exact ⟨_, rfl, vecFloat_stable hP h _ _ _ _ _ _ _⟩
  | vcmp => exact ⟨_, rfl, runX_stable hP _ h fun _ h1 => .bind (readVec_stable hP _ h1) fun _ h2 => .bind (readVec_stable hP _ h2) fun _ h3 =>
      .pure (writePred_stable hP _ _ h3)⟩
  | vsel => exact ⟨_, rfl, runX_stable hP _ h fun _ h1 => .bind (readVec_stable hP _ h1) fun _ h2 => .bind (readVec_stable hP _ h2) fun _ h3 =>
      .bind (writeLanes_stable hP h3 _ _ _ _ _) fun _ h4 => .pure h4⟩
  | vcvt => exact execVcvt_stable hP h _ _ _ _ _ _
  | vbcast => exact ⟨_, rfl, runX_stable hP _ h fun _ h1 => .bind (readReg_stable hP _ h1) fun _ h2 => .bind (writeVec_stable hP _ _ h2) fun _ h3 => .pure h3⟩
  | vext => exact ⟨_, rfl, runX_stable hP _ h fun _ h1 => .bind (readVec_stable hP _ h1) fun _ h2 => .bind (readReg_stable hP _ h2) fun _ h3 =>
      .bind (writeReg_stable hP _ _ h3) fun _ h4 => .pure h4⟩
  | vperm | vhist => exact ⟨_, rfl, runX_stable hP _ h fun _ h1 => .bind (readVec_stable hP _ h1) fun _ h2 => .bind (readVec_stable hP _ h2) fun _ h3 =>
      .bind (writeVec_stable hP _ _ h3) fun _ h4 => .pure h4⟩
  | vrsum | vrmax | vfrsum | vfrmax => exact ⟨_, rfl, reduce_stable hP h _ _ _ _ _⟩
  | vqdx => exact execVqdx_stable hP h _ _ _ _ _
  | vdqdx => exact ⟨_, rfl, runX_stable hP _ h fun _ h1 => .bind (readVec_stable hP _ h1) fun _ h2 =>
      .bind (readVec_stable hP _ h2) fun _ h3 => .bind (writeGroup_stable hP h3 _ _) fun _ h4 => .pure h4⟩
  | fadd | fsub | fmul | fmin | fmax | fcmp => exact ⟨_, rfl, scalarFloat_stable hP h _ _ _ _ _⟩
  | fcvtif | fcvtfi => exact ⟨_, rfl, runX_stable hP _ h fun _ h1 => .bind (readReg_stable hP _ h1) fun _ h2 => .bind (writeReg_stable hP _ _ h2) fun _ h3 => .pure h3⟩
  | vthr | vxrep => exact ⟨_, rfl, runX_stable hP _ h fun _ h1 => .bind (readVec_stable hP _ h1) fun _ h2 =>
      .bind (readVec_stable hP _ h2) fun _ h3 => .bind (writeVec_stable hP _ _ h3) fun _ h4 => .pure (writePred_stable hP _ _ h4)⟩
  | vgatew => exact ⟨_, rfl, runX_stable hP _ h fun _ h1 => .bind (readVec_stable hP _ h1) fun _ h2 =>
      .bind (writeVec_stable hP _ _ h2) fun _ h3 => .pure (writePred_stable hP _ _ h3)⟩
  | cqpush => exact execCqpush_stable hP h _ _ _
  | _ => cases hi

end

end Sys2Proof.Machine
end

section
namespace Sys2Proof.Machine

/-! ## Words that change nothing but their own strand (R18-R25) -/

theorem OnlyStrand.refl (s : State) : OnlyStrand s s := ⟨fun _ => rfl, rfl, rfl, rfl, rfl, fun _ _ => rfl⟩

/-- A change of the executing strand is one of that strand alone. -/
theorem OnlyStrand.setStrand {s t : State} (h : OnlyStrand s t) (x : Strand) : OnlyStrand s (t.setStrand t.cur x) := by
  obtain ⟨hb, hp, hd, hc, hcur, hs⟩ := h
  refine ⟨hb, hp, hd, hc, hcur, fun k hk => ?_⟩
  rw [State.setStrand_strands, hcur, look_put_other (Ne.symm hk)]
  exact hs k hk

theorem onlyStrand_stable {s : State} (hr : s.cur.rot = false) : StrandStable (OnlyStrand s) where
  strand x h := h.setStrand x
  rotation x hrot h := by simp [h.2.2.2.2.1, hr] at hrot
  reqs r h := h
  raise src hrot h := by simp [h.2.2.2.2.1, hr] at hrot

/-- The words of a strand's own blocks leave memory, the other strands, the crews and the dies as they are (R18-R25). -/
theorem strand_words_frame : Claims.StrandWordsFrame := fun i s t hi hr ht => by
  obtain ⟨u, hu, h⟩ := exec_stable_of_strandOnly (onlyStrand_stable hr) (OnlyStrand.refl s) i hi
  rw [hu] at ht
  cases ht
  exact h

/-- Settles O57: whatever a word of these blocks comes to, only its own strand differs. -/
theorem strandWordsChangeOnlyTheirStrand : Obligations.StrandWordsChangeOnlyTheirStrand := strand_words_frame

end Sys2Proof.Machine
end

section
namespace Sys2Proof.Machine

/-! ## Poison and good data (R55; log 15) -/

theorem State.mem_writeMasked_poison {s : State} {a v mask n w : Nat} :
    w ∈ (s.writeMasked a v mask n).poison ↔
      w ∈ s.poison ∧ ¬ (a ≤ 8 * w ∧ 8 * w + 8 ≤ a + n ∧ mask / 2 ^ (8 * w - a) % 256 = 255) := by
  simp only [State.writeMasked, List.mem_filter, Bool.not_eq_true', Bool.and_eq_false_iff, decide_eq_false_iff_not, not_and_or, or_assoc]

/-- Settles O59: good data clears the poison of the words that it covers whole, and of no other. -/
theorem goodDataReplacesPoison : Obligations.GoodDataReplacesPoison := fun _ _ _ _ _ =>
  ⟨State.mem_writeN_poison, fun _ => State.mem_writeMasked_poison⟩

/-! ## The machine right after reset (R64, R152, R258, R335, R352, R405, R413, R430) -/

theorem State.reset_die {d : Nat} (h : d < 16) : State.reset.die d = Die.reset := by
  simp [State.die, State.reset, h]

/-- The registers of a die whose reset values their tables print. -/
theorem State.reset_dieReg {d : Nat} (h : d < 16) : State.reset.dieReg d 0x1000 = 1 ∧ State.reset.dieReg d 0x1008 = 0x80000064 ∧
    State.reset.dieReg d 0x1010 = 0x800000000000012C ∧ State.reset.dieReg d 0x2020 = 64 ∧ State.reset.dieReg d 0x3000 = 100 ∧
    State.reset.dieReg d 0x5000 = 0x00000100000C0200 ∧ State.reset.dieReg d 0x5100 = 0x0000100000000001 := by
  simp [State.dieReg, State.readTask, State.readAccess, State.readFabric, State.reset_die h, Die.reset, Link.reset, TaskEngine.reset]

/-- Settles O60: reset lists nothing in memory, has no crew and no strand, and gives the registers their reset values. -/
theorem resetStateIsAsStated : Obligations.ResetStateIsAsStated :=
  ⟨State.reset_memory_wf, rfl, rfl, rfl, fun _ => State.reset_dieReg, rfl, rfl, rfl, rfl, rfl⟩

end Sys2Proof.Machine
end

section
namespace Sys2Proof.Machine

/-! ## Registers, ports and tokens: what a read or a write does, and all that it changes (R23, R24, R74, R75, R78, R89) -/

section
variable {s : State} {r : BitVec 5}

/-- Register 31 is a popping port in every stream; register 0 aside, the others read their value (R74, R75). -/
theorem readReg_rotation (hr : s.cur.rot = true) (h0 : r ≠ 0) : readReg r s = .ok ((s.die s.cur.die).rotStream.regs[r.toNat], s) := by
  simp only [readReg, h0, hr, if_false, if_true]
  rfl

theorem readReg_plain (hr : s.cur.rot = false) (h0 : r ≠ 0) (h31 : r ≠ 31) :
    readReg r s = .ok (((s.strand s.cur).get s.cur.str).regs[r.toNat], s) := by
  simp only [readReg, h0, hr, h31, if_false, Bool.false_eq_true]
  split <;> simp only [Strand.get, *] <;> rfl

end

/-- Reads of a scalar register: register 0, the popping port, and the others (R74, R75). -/
theorem register_reads : Claims.RegisterReads := fun s r => by
  refine ⟨rfl, readReg_rotation, readReg_plain, fun hr => ?_⟩
  have port (k : Str) (hk : s.cur.str = k) : readReg 31 s = (match k with
      | .a => popScalar (s.strand s.cur).qXA >>= fun e => pure (e.1, s.setStrand s.cur { s.strand s.cur with qXA := e.2 })
      | .x => popScalar (s.strand s.cur).qAX >>= fun e => pure (e.1, s.setStrand s.cur { s.strand s.cur with qAX := e.2 })
      | .d => popScalar (s.strand s.cur).qXD >>= fun e => pure (e.1, s.setStrand s.cur { s.strand s.cur with qXD := e.2 })) := by
    simp only [readReg, hr, hk]
    cases k <;> rfl
  refine ⟨fun hk w q hq => ?_, fun hk w q hq => ?_, fun hk w q hq => ?_, ?_⟩
  · rw [port _ hk, hq]; rfl
  · rw [port _ hk, hq]; rfl
  · rw [port _ hk, hq]; rfl
  · rintro (⟨hk, hq⟩ | ⟨hk, hq⟩ | ⟨hk, hq⟩) <;> rw [port _ hk, hq] <;> rfl

/-- A push into a queue with room adds the entry at its end, and waits while the queue is full (R75, R78). -/
theorem pushQueue_off {α : Type} {s : State} {c : Ctx} (hd : (s.crew c.die c.polder).debug = false) (k : Str) (num cap : Nat)
    (q : List α) (v : α) :
    pushQueue s c k num cap q v = if cap ≤ q.length then .error (.wait .dataQueue) else .ok (q ++ [v]) := by
  simp only [pushQueue, State.deadPush, hd, Bool.false_and]
  rfl

/-- Writes of a scalar register with the hazard detector off: register 0, the pushing ports, and the others (R74, R75, R78). -/
theorem register_writes : Claims.RegisterWrites := fun s r v hr hd => by
  have plain : r ≠ 0 → (s.cur.str = .d ∨ r ≠ 31) → (s.cur.str = .x → r ≠ 30) → writeReg r v s =
      .ok (s.setStrand s.cur ((s.strand s.cur).set s.cur.str
        { (s.strand s.cur).get s.cur.str with regs := ((s.strand s.cur).get s.cur.str).regs.set r.toNat v r.isLt })) := by
    intro h0 h31 h30
    simp only [writeReg, h0, hr, if_false, Bool.false_eq_true]
    split
    · rename_i hk; simp_all [Strand.set, Strand.get, pure, Except.pure]
    · rename_i hk; simp_all [Strand.set, Strand.get, pure, Except.pure]
    · rename_i hk; simp_all [Strand.set, Strand.get, pure, Except.pure]
  have room {k : Str} {num : Nat} {q : List Word} (hl : q.length < 16) :
      pushQueue s s.cur k num 16 q v = .ok (q ++ [v]) := by rw [pushQueue_off hd, if_neg (Nat.not_le.2 hl)]
  have full {k : Str} {num : Nat} {q : List Word} (hl : 16 ≤ q.length) :
      pushQueue s s.cur k num 16 q v = .error (.wait .dataQueue) := by rw [pushQueue_off hd, if_pos hl]
  refine ⟨rfl, plain, fun hk hl => ?_, fun hk hl => ?_, fun hk hl => ?_, fun hk hl => ?_, fun hk hl => ?_, fun hk hl => ?_⟩
  iterate 3 · simp only [writeReg, hr, hk, room hl]; rfl
  iterate 3 · simp only [writeReg, hr, hk, full hl]; rfl

/-! ## Within the strand -/

/-- The state differs from another at most in the executing strand, which is `u`. -/
def StrandIs (s t : State) (u : Strand) : Prop := t.strand s.cur = u ∧ OnlyStrand s t

theorem strandIs_self (s : State) : StrandIs s s (s.strand s.cur) := ⟨rfl, OnlyStrand.refl s⟩

theorem strandIs_setStrand (s : State) (u : Strand) : StrandIs s (s.setStrand s.cur u) u :=
  ⟨s.strand_setStrand _ _, (OnlyStrand.refl s).setStrand u⟩

theorem StrandIs.setStrand {s t : State} {u : Strand} (h : StrandIs s t u) (x : Strand) : StrandIs s (t.setStrand t.cur x) x := by
  obtain ⟨-, ho⟩ := h
  refine ⟨?_, ho.setStrand x⟩
  obtain ⟨-, -, -, -, hcur, -⟩ := ho
  rw [← hcur, State.strand_setStrand]

/-- A register file with one register written: every other one keeps its value. -/
theorem vector_set_other {α : Type} {n i : Nat} (v : Vector α n) (x : α) (hi : i < n) (k : Fin n) (hk : k.val ≠ i) :
    (v.set i x hi).get k = v.get k := by
  simp [Vector.get_eq_getElem, Ne.symm hk]

section
variable {s : State}

theorem readReg_frame (hr : s.cur.rot = false) (r : BitVec 5) : (readReg r s).All fun e =>
    ∃ a b c, StrandIs s e.2 { s.strand s.cur with qAX := a, qXA := b, qXD := c } := by
  have self : ∃ a b c, StrandIs s s { s.strand s.cur with qAX := a, qXA := b, qXD := c } := ⟨_, _, _, strandIs_self s⟩
  unfold readReg
  simp only [hr, Bool.false_eq_true, if_false]
  refine .ite (fun _ => .pure self) fun _ => ?_
  split
  all_goals exact .ite (fun _ => .bind (.any _) fun _ _ => .pure ⟨_, _, _, strandIs_setStrand s _⟩) fun _ => .pure self

theorem writeReg_frame (hr : s.cur.rot = false) (r : BitVec 5) (v : Word) : (writeReg r v s).All fun t =>
    (s.cur.str = .a → ∃ rs q, StrandIs s t { s.strand s.cur with a := { (s.strand s.cur).a with regs := rs }, qAX := q } ∧
      ∀ k : Fin 32, k.val ≠ r.toNat → rs.get k = (s.strand s.cur).a.regs.get k) ∧
    (s.cur.str = .x → ∃ rs p q, StrandIs s t { s.strand s.cur with x := { (s.strand s.cur).x with regs := rs }, qXA := p, qXD := q } ∧
      ∀ k : Fin 32, k.val ≠ r.toNat → rs.get k = (s.strand s.cur).x.regs.get k) ∧
    (s.cur.str = .d → ∃ rs, StrandIs s t { s.strand s.cur with d := { (s.strand s.cur).d with regs := rs } } ∧
      ∀ k : Fin 32, k.val ≠ r.toNat → rs.get k = (s.strand s.cur).d.regs.get k) := by
  have set := strandIs_setStrand s
  have other := fun (st : Stream) => vector_set_other st.regs v r.isLt
  unfold writeReg
  simp only [hr, Bool.false_eq_true, if_false]
  refine .ite (fun _ => .pure ⟨fun _ => ⟨_, _, strandIs_self s, fun _ _ => rfl⟩, fun _ => ⟨_, _, _, strandIs_self s, fun _ _ => rfl⟩,
    fun _ => ⟨_, strandIs_self s, fun _ _ => rfl⟩⟩) fun _ => ?_
  split
  · rename_i hk
    simp only [hk, reduceCtorEq, false_implies, true_implies, and_true]
    exact .ite (fun _ => .bind (.any _) fun _ _ => .pure ⟨_, _, set _, fun _ _ => rfl⟩) fun _ => .pure ⟨_, _, set _, other _⟩
  · rename_i hk
    simp only [hk, reduceCtorEq, false_implies, true_implies, and_true, true_and]
    exact .ite (fun _ => .bind (.any _) fun _ _ => .pure ⟨_, _, _, set _, fun _ _ => rfl⟩) fun _ =>
      .ite (fun _ => .bind (.any _) fun _ _ => .pure ⟨_, _, _, set _, fun _ _ => rfl⟩) fun _ => .pure ⟨_, _, _, set _, other _⟩
  · rename_i hk
    simp only [hk, reduceCtorEq, false_implies, true_implies, true_and]
    exact .pure ⟨_, set _, other _⟩

theorem readVec_frame (r : BitVec 5) : (readVec r s).All fun e =>
    ∃ p a b, StrandIs s e.2 { s.strand s.cur with p := p, vAX0 := a, vAX1 := b } ∧ (r.toNat < 28 → p = (s.strand s.cur).p) := by
  have masked (e : VEntry) (a b : List VEntry) : ∃ p, writeMask e { s.strand s.cur with vAX0 := a, vAX1 := b } =
      { s.strand s.cur with p := p, vAX0 := a, vAX1 := b } := by
    unfold writeMask
    split
    · exact ⟨_, rfl⟩
    · exact ⟨_, rfl⟩
  have popped (h : ¬ r.toNat < 28) (e : VEntry) (a b : List VEntry) :
      ∃ p c d, StrandIs s (s.setStrand s.cur (writeMask e { s.strand s.cur with vAX0 := a, vAX1 := b }))
        { s.strand s.cur with p := p, vAX0 := c, vAX1 := d } ∧ (r.toNat < 28 → p = (s.strand s.cur).p) := by
    obtain ⟨p, hp⟩ := masked e a b
    exact ⟨p, a, b, hp ▸ strandIs_setStrand s _, fun hlt => absurd hlt h⟩
  have self : ∃ p a b, StrandIs s s { s.strand s.cur with p := p, vAX0 := a, vAX1 := b } ∧ (r.toNat < 28 → p = (s.strand s.cur).p) :=
    ⟨_, _, _, strandIs_self s, fun _ => rfl⟩
  unfold readVec
  dsimp only
  split
  · exact .pure self
  · rename_i h
    refine .ite (fun _ => ?_) fun _ => .ite (fun _ => ?_) fun _ => .pure self
    all_goals
      split
      · exact .hold _
      · exact .bind (.any _) fun _ _ => .pure (popped h _ _ _)

theorem writeVec_frame (r : BitVec 5) (v : Vec) : (writeVec r v s).All fun t =>
    ∃ vs a b, StrandIs s t { s.strand s.cur with v := vs, vXD0 := a, vXD1 := b } ∧
      ∀ k : Fin 28, k.val ≠ r.toNat → vs.get k = (s.strand s.cur).v.get k := by
  have set := strandIs_setStrand s
  unfold writeVec
  dsimp only
  split
  · exact .pure ⟨_, _, _, set _, vector_set_other _ _ _⟩
  · exact .ite (fun _ => .bind (.any _) fun _ _ => .pure ⟨_, _, _, set _, fun _ _ => rfl⟩) fun _ =>
      .ite (fun _ => .bind (.any _) fun _ _ => .pure ⟨_, _, _, set _, fun _ _ => rfl⟩) fun _ =>
      .pure ⟨_, _, _, strandIs_self s, fun _ _ => rfl⟩

theorem writePred_frame (p : Nat) (x : Pred) : ∃ ps, StrandIs s (writePred p x s) { s.strand s.cur with p := ps } ∧
    ∀ k : Fin 12, k.val ≠ p → ps.get k = (s.strand s.cur).p.get k := by
  unfold writePred
  split
  · exact ⟨_, strandIs_setStrand s _, vector_set_other _ _ _⟩
  · exact ⟨_, strandIs_self s, fun _ _ => rfl⟩

/-- The state differs from another at most in the token counts of the executing strand. -/
def TokensOnly (s t : State) : Prop :=
  ∃ a b c d, StrandIs s t { s.strand s.cur with tokAX := a, tokXA := b, tokXD := c, tokDX := d }

theorem TokensOnly.setTok {s t : State} (h : TokensOnly s t) (f n : Nat) :
    TokensOnly s (t.setStrand t.cur ((t.strand t.cur).setTok f n)) := by
  obtain ⟨a, b, c, d, h⟩ := h
  have hst : t.strand t.cur = { s.strand s.cur with tokAX := a, tokXA := b, tokXD := c, tokDX := d } := by
    obtain ⟨hst, -, -, -, -, hcur, -⟩ := h
    rw [hcur, hst]
  rw [hst]
  unfold Strand.setTok
  split
  all_goals exact ⟨_, _, _, _, h.setStrand _⟩

theorem takeTok_frame {t : State} (h : TokensOnly s t) (f : Option Nat) : (takeTok f t).All (TokensOnly s) := by
  cases f with
  | none => exact .pure h
  | some f => exact .ite (fun _ => .ite (fun _ => .trap _ _) fun _ => .hold _) fun _ => .pure (h.setTok _ _)

theorem giveTok_frame {t : State} (h : TokensOnly s t) (f : Option Nat) : (giveTok f t).All (TokensOnly s) := by
  cases f with
  | none => exact .pure h
  | some f => exact .ite (fun _ => .hold _) fun _ => .pure (h.setTok _ _)

theorem tokens_frame (tk : BitVec 4) : (takeTokens tk s).All (TokensOnly s) ∧ (giveTokens tk s).All (TokensOnly s) := by
  have self : TokensOnly s s := ⟨_, _, _, _, strandIs_self s⟩
  rw [takeTokens_eq, giveTokens_eq]
  exact ⟨.bind (.ite (fun _ => takeTok_frame self _) fun _ => .pure self) fun _ h1 => .ite (fun _ => takeTok_frame h1 _) fun _ => .pure h1,
    .bind (.ite (fun _ => giveTok_frame self _) fun _ => .pure self) fun _ h1 => .ite (fun _ => giveTok_frame h1 _) fun _ => .pure h1⟩

end

/-- What an access of the registers, the tokens and a retirement leave as it was within the strand. -/
theorem register_frames : Claims.RegisterFrames := fun s t hr => by
  refine ⟨fun r v h => readReg_frame hr r _ h, fun r v h => writeReg_frame hr r v _ h, fun r v h => readVec_frame r _ h,
    fun r v h => writeVec_frame r v _ h, fun p x h => h ▸ writePred_frame p x, fun tk h => ?_, fun n h => ?_⟩
  · rcases h with h | h
    · exact (tokens_frame tk).1 _ h
    · exact (tokens_frame tk).2 _ h
  · subst h
    refine ⟨(s.stream s.cur).advance n, ?_, ?_, ?_, ?_⟩
    · simp only [State.retire, State.setStream_strand _ hr]
      exact strandIs_setStrand s _
    all_goals simp [State.stream_strand _ hr]

/-- Settles O9: reads, writes and frames of registers, ports and tokens. -/
theorem registersReadAndWrite : Obligations.RegistersReadAndWrite := ⟨register_reads, register_writes, register_frames⟩

end Sys2Proof.Machine
end

section
namespace Sys2Proof.Machine

/-! ## Hardware loops (R22, R89) -/

/-- A word for all three streams runs its body and finishes, where its agent is ready (R18, R21). -/
theorem runAll_of_ready {s : State} (h : s.Ready fun _ => true) (body : State → Res Eff) : runAll body s = s.finish 1 (body s) := by
  obtain ⟨hruns, hdue, -⟩ := h
  have none_taken : takeTokens 0 s = .ok s := rfl
  simp only [runAll, runWord, runWordM, hruns, hdue, none_taken, Bool.not_true, Bool.and_false, Bool.false_eq_true, if_false, Res.ok_bind]
  cases body s with
  | error e => rfl
  | ok e => cases e <;> rfl

theorem State.InStrand.ready {s : State} {mine : Str → Bool} (h : s.InStrand mine) : s.Ready mine := by
  obtain ⟨hruns, hdue, -, hmine⟩ := h
  exact ⟨hruns, hdue, .inr hmine⟩

theorem State.wordsOn_natCast (s : State) (n : Nat) : s.wordsOn n = s.pc + BitVec.ofNat 64 (4 * n) := by
  simp only [State.wordsOn]
  congr 1

theorem State.wordsOn_loopLast (s : State) (body : BitVec 8) : s.wordsOn (body.toNat + 1) = loopLast s body := by
  exact_mod_cast s.wordsOn_natCast (body.toNat + 1)

/-- Levels in which a new body nests, and levels in which it does not (R89). -/
theorem nestingBad_eq_false {ls : List Loop} {last : Word} (hlen : ls.length < 3)
    (hin : ∀ l r, ls = l :: r → last.toNat ≤ l.stop.toNat) : nestingBad ls last = false := by
  cases ls with
  | nil => rfl
  | cons l r => simp only [nestingBad, Bool.or_eq_false_iff, decide_eq_false_iff_not, Nat.not_le, Nat.not_lt]; exact ⟨hlen, hin l r rfl⟩

theorem nestingBad_eq_true {ls : List Loop} {last : Word} (h : 3 ≤ ls.length ∨ ∃ l r, ls = l :: r ∧ l.stop.toNat < last.toNat) :
    nestingBad ls last = true := by
  rcases h with h | ⟨l, r, rfl, h⟩
  · simp [nestingBad, h]
  · simp [nestingBad, h]

section
variable {s s1 : State} {body : BitVec 8} {count : BitVec 32} {takes : Bool}

/-- A word whose body comes down to opening a level opens it, or skips its body at a count of 0 (R89). -/
theorem opensLoop_of_loopBody {i : Instr} (hi : exec i s = .next (s.finish 1 (loopBody body count takes s s1)))
    (hpc : (s1.stream s1.cur).pc = s.pc) : OpensLoop i s s1 body count := by
  have hnext : s.wordsOn 1 = (s1.stream s1.cur).pc + 4 := by rw [hpc]; exact s.wordsOn_natCast 1
  refine ⟨fun h0 hin => ?_, fun l r h0 hl hlt => ?_, fun h0 hlen hin => ?_⟩ <;>
    simp only [State.wordsOn_loopLast] at * <;> rw [hi, loopBody]
  · rw [if_pos h0]
    cases hls : (s1.stream s1.cur).loops with
    | nil => rfl
    | cons l r => dsimp only; rw [if_neg (Nat.not_lt.2 (hin l r hls))]; rfl
  · rw [if_pos h0, hl]
    exact congrArg (fun r => Host.Outcome.next (s.finish 1 r)) (if_pos hlt)
  · rw [if_neg h0, nestingBad_eq_false hlen hin, hnext]
    rfl

/-- A level that does not nest traps where the stream takes the trap (R89). -/
theorem loopBody_traps (hc : count ≠ 0) (hdeep : nestingBad (s1.stream s1.cur).loops (loopLast s body) = true) :
    loopBody body count true s s1 = trap 0x03 (loopLast s body) := by
  rw [loopBody, if_neg hc, hdeep]
  rfl

end

theorem Strand.get_bq (st : Strand) (q : Vector (List Word) 6) (k : Str) : { st with bq := q }.get k = st.get k := by cases k <;> rfl

/-- The evaluator's push leaves its streams as they are (R86). -/
theorem shareBranch_keeps {v : Word} {s t : State} (h : shareBranch v s = .ok t) :
    t.cur = s.cur ∧ t.stream t.cur = s.stream s.cur := by
  unfold shareBranch at h
  split at h
  · cases h; exact ⟨rfl, rfl⟩
  · rename_i hr
    unfold pushBranch at h
    dsimp only at h
    split at h
    · cases h
    · cases h
      refine ⟨rfl, ?_⟩
      simp only [State.setStrand_cur, State.stream, hr, if_false, State.strand_setStrand, Bool.false_eq_true, Strand.get_bq]

theorem popBranch_keeps {ev : Str} {v : Word} {s t : State} (hr : s.cur.rot = false) (h : popBranch ev s = .ok (v, t)) :
    t.stream t.cur = s.stream s.cur := by
  unfold popBranch at h
  dsimp only at h
  split at h
  · cases h
  · cases h
    simp only [State.setStrand_cur, State.stream, hr, if_false, State.strand_setStrand, Bool.false_eq_true, Strand.get_bq]

@[simp] theorem Strand.trimCq_get (st : Strand) (k : Str) : st.trimCq.get k = st.get k := by cases k <;> rfl

/-- A stream's read of cq moves its own read pointer on, and nothing else of its stream (R22). -/
theorem popCount_stream {n : BitVec 32} {s t : State} (hr : s.cur.rot = false) (h : popCount s = .ok (n, t)) :
    t.stream t.cur = { s.stream s.cur with cqPos := (s.stream s.cur).cqPos + 1 } := by
  unfold popCount at h
  dsimp only at h
  split at h
  · cases h
  · cases h
    simp [State.stream_strand _ hr]

section
variable {s s1 : State} {ev : BitVec 2} {ra : BitVec 5} {n : Word} {body : BitVec 8}

/-- The evaluator's LOOPR takes its count from its register, traps a count of 2^32 or a level that does not nest, and shares the
count (R86, R89). -/
theorem loopr_of_evaluates (h : s.Ready fun _ => true) (hev : s.Evaluates ev) (hra : readReg ra s = .ok (n, s1)) :
    exec (.loopr ev ra body) s = .next (s.finish 1
      ((if 2 ^ 32 ≤ n.toNat then trap 0x04 n
        else if n ≠ 0 && nestingBad (s.stream s.cur).loops (loopLast s body) then trap 0x03 (loopLast s body)
        else shareBranch n s1) >>= fun s2 => loopBody body (n.setWidth 32) (s.cur.rot || s.cur.str = strOf ev) s s2)) := by
  obtain ⟨hcur, -⟩ := readReg_keeps hra
  refine congrArg Host.Outcome.next ((runAll_of_ready h _).trans (congrArg _ ?_))
  simp only [throughBranch, hra, Res.ok_bind]
  by_cases hr : s.cur.rot = true
  · simp only [hr, if_true, shareBranch, hcur]
    split
    · rfl
    · split <;> rfl
  · have hstr : s.cur.str = strOf ev := hev.resolve_left hr
    simp only [hr, hstr, if_true, if_false, shareBranch, hcur, Bool.false_eq_true]
    split
    · rfl
    · split
      · rfl
      · simp only [pure, Except.pure, Res.ok_bind]
        cases pushBranch n s1 <;> rfl

/-- Another stream's LOOPR takes the count from its branch queue (R86, R89). -/
theorem loopr_of_follows (h : s.InStrand fun _ => true) (hstr : s.cur.str ≠ strOf ev) (hpop : popBranch (strOf ev) s = .ok (n, s1)) :
    exec (.loopr ev ra body) s = .next (s.finish 1 (loopBody body (n.setWidth 32) (s.cur.rot || s.cur.str = strOf ev) s s1)) := by
  refine congrArg Host.Outcome.next ((runAll_of_ready h.ready _).trans (congrArg _ ?_))
  obtain ⟨-, -, hr, -⟩ := h
  simp only [throughBranch, hr, hstr, if_false, Bool.false_eq_true, hpop, Res.ok_bind]

theorem loopq_of_count {m : BitVec 32} (h : s.Ready fun _ => true) (hpop : popCount s = .ok (m, s1)) :
    exec (.loopq body) s = .next (s.finish 1 (loopBody body m (s.cur.str = .x) s s1)) := by
  refine congrArg Host.Outcome.next ((runAll_of_ready h _).trans (congrArg _ ?_))
  simp only [hpop, Res.ok_bind]

theorem loopi_of_ready (h : s.Ready fun _ => true) (count : BitVec 15) :
    exec (.loopi count body) s = .next (s.finish 1 (loopBody body (count.setWidth 32) (s.cur.rot || s.cur.str = .x) s s)) :=
  congrArg Host.Outcome.next (runAll_of_ready h _)

end

/-- The loop words open levels with their counts (R22, R89). -/
theorem loop_words : Claims.LoopWords := fun s s1 body => by
  refine ⟨fun count h => ?_, fun ev ra n s2 h hev hra hn hshare => ?_, fun ev ra n h hstr hpop => ?_, fun n h hpop => ?_⟩
  · exact opensLoop_of_loopBody (loopi_of_ready h count) rfl
  · obtain ⟨-, hs1⟩ := readReg_keeps hra
    obtain ⟨-, hs2⟩ := shareBranch_keeps hshare
    have hpc : (s2.stream s2.cur).pc = s.pc := congrArg Stream.pc (hs2.trans hs1)
    by_cases hdeep : (n ≠ 0 && nestingBad (s.stream s.cur).loops (loopLast s body)) = true
    · rw [Bool.and_eq_true, decide_eq_true_eq] at hdeep
      obtain ⟨hn0, hbad⟩ := hdeep
      have hc : n.setWidth 32 ≠ 0#32 := fun h0 => hn0 (BitVec.eq_of_toNat_eq (by
        have hzero := congrArg BitVec.toNat h0
        rwa [BitVec.toNat_setWidth, Nat.mod_eq_of_lt hn] at hzero))
      refine ⟨fun h0 => absurd h0 hc, fun _ _ h0 => absurd h0 hc, fun _ hlen hin => ?_⟩
      rw [hs2, hs1] at hlen hin
      rw [State.wordsOn_loopLast] at hin
      rw [nestingBad_eq_false hlen hin] at hbad
      cases hbad
    · refine opensLoop_of_loopBody (takes := s.cur.rot || s.cur.str = strOf ev) ((loopr_of_evaluates h hev hra).trans ?_) hpc
      rw [if_neg (Nat.not_le.2 hn), if_neg hdeep, hshare]
      rfl
  · obtain ⟨-, -, hr, -⟩ := id h
    exact opensLoop_of_loopBody (loopr_of_follows h hstr hpop) (congrArg Stream.pc (popBranch_keeps hr hpop))
  · obtain ⟨-, -, hr, -⟩ := id h
    exact opensLoop_of_loopBody (loopq_of_count h.ready hpop) (by rw [popCount_stream hr hpop]; rfl)

/-- Counts and levels that the loop words refuse (R89). -/
theorem loop_traps : Claims.LoopTraps := fun s s1 body h => by
  simp only [State.wordsOn_loopLast]
  refine ⟨fun ev ra n hev hra => ⟨fun hn => ?_, fun hn hn0 hdeep => ?_⟩, fun count hx hc hdeep => ?_, fun n hr hx hpop hn hdeep => ?_⟩
  · rw [loopr_of_evaluates h hev hra, if_pos hn]
    rfl
  · rw [loopr_of_evaluates h hev hra, if_neg (Nat.not_le.2 hn), nestingBad_eq_true hdeep, if_pos (by simpa using hn0)]
    rfl
  · have hc : count.setWidth 32 ≠ 0#32 := by bv_omega
    have ht : (s.cur.rot || decide (s.cur.str = .x)) = true := by simpa using hx
    rw [loopi_of_ready h, ht, loopBody_traps hc (nestingBad_eq_true hdeep)]
    rfl
  · have hdeep : nestingBad (s1.stream s1.cur).loops (loopLast s body) = true := by
      rw [popCount_stream hr hpop]
      exact nestingBad_eq_true hdeep
    rw [loopq_of_count h hpop, decide_eq_true hx, loopBody_traps hn hdeep]
    rfl

/-! ## The count queue (R22) -/

/-- What trimming leaves of cq where nothing is set aside: the entries that some read pointer has not passed (R22). -/
theorem Strand.trimCq_eq {st : Strand} (h : st.setAside = none) :
    let low := min st.a.cqPos (min st.x.cqPos st.d.cqPos)
    st.cqBase ≤ low → low ≤ st.cqBase + st.cq.length →
      st.trimCq = { st with cq := st.cq.drop (low - st.cqBase), cqBase := low } := by
  intro low h1 h2
  have hn : min (low - st.cqBase) st.cq.length = low - st.cqBase := by omega
  have hb : st.cqBase + (low - st.cqBase) = low := by omega
  simp only [Strand.trimCq, h, List.foldl_nil]
  rw [hn, hb]

/-- Trimming a queue within whose entries every read pointer lies leaves the entries from the lowest pointer on (R22). -/
theorem Strand.trimCq_drops {st : Strand} (h : st.setAside = none)
    (hpos : ∀ j, st.cqBase ≤ (st.get j).cqPos ∧ (st.get j).cqPos ≤ st.cqBase + st.cq.length) :
    st.trimCq.cqBase = min st.a.cqPos (min st.x.cqPos st.d.cqPos) ∧
      st.trimCq.cqBase + st.trimCq.cq.length = st.cqBase + st.cq.length ∧
      ∀ j, st.trimCq.cqBase ≤ j → st.trimCq.cq[j - st.trimCq.cqBase]? = st.cq[j - st.cqBase]? := by
  have ha := hpos .a
  have hx := hpos .x
  have hd := hpos .d
  simp only [Strand.get] at ha hx hd
  have heq := Strand.trimCq_eq h
  dsimp only at heq
  rw [heq (by omega) (by omega)]
  refine ⟨rfl, ?_, fun j hj => ?_⟩
  · simp only [List.length_drop]
    omega
  · simp only [List.getElem?_drop] at hj ⊢
    congr 1
    omega

theorem count_queue : Claims.CountQueue := fun s hr => by
  refine ⟨fun hnone => ?_, fun n hside hpos hsome => ?_⟩
  · simp only [popCount, hnone]
    rfl
  · refine ⟨_, by simp only [popCount, hsome]; rfl, (OnlyStrand.refl s).setStrand _, ?_⟩
    obtain ⟨hlt, -⟩ := List.getElem?_eq_some_iff.1 hsome
    have hin := hpos s.cur.str
    simp only [State.strand_setStrand, Strand.trimCq_get]
    have hdrops := Strand.trimCq_drops (st := (s.strand s.cur).set s.cur.str { (s.strand s.cur).get s.cur.str with cqPos := ((s.strand s.cur).get s.cur.str).cqPos + 1 })
      ((Strand.set_setAside _ _ _).trans hside) fun j => by
        rw [Strand.set_cq, Strand.set_cqBase]
        by_cases hj : j = s.cur.str
        · rw [hj, Strand.get_set_self]
          exact ⟨by dsimp only; omega, by dsimp only; omega⟩
        · rw [Strand.get_set_other _ (Ne.symm hj)]
          exact hpos j
    rw [Strand.set_cq, Strand.set_cqBase] at hdrops
    exact ⟨Strand.get_set_self _ _ _, fun j hj => Strand.get_set_other _ (Ne.symm hj) _, hdrops⟩

/-! ## The step at a loop's end (R89) -/

theorem State.stream_setStream_cur {s : State} (h : s.cur.rot = true → s.cur.die < 16) (k : Stream) :
    (s.setStream s.cur k).stream s.cur = k := by
  by_cases hr : s.cur.rot = true
  · exact State.stream_setStream _ (h hr) _
  · simp [State.setStream, State.stream, hr]

section
variable {st : Stream} {l : Loop} {r : List Loop}

theorem Stream.advance_outside (h : st.loops = l :: r) (hne : l.stop ≠ st.pc) :
    (st.advance 1).pc = st.pc + 4 ∧ (st.advance 1).loops = l :: r := by
  simp [Stream.advance, h, loopEnd, hne]

theorem Stream.advance_round (h : st.loops = l :: r) (heq : l.stop = st.pc) (hlc : 1 < l.lc.toNat) :
    (st.advance 1).pc = l.start ∧ (st.advance 1).loops = { l with lc := l.lc - 1 } :: r := by
  simp [Stream.advance, h, loopEnd, heq, hlc]

theorem Stream.advance_last (h : st.loops = l :: r) (heq : l.stop = st.pc) (hlc : l.lc.toNat ≤ 1) :
    (st.advance 1).pc = ({ st with loops := r }.advance 1).pc ∧
      (st.advance 1).loops = ({ st with loops := r }.advance 1).loops := by
  simp [Stream.advance, h, loopEnd, heq, Nat.not_lt.2 hlc]

end

theorem loop_end_step : Claims.LoopEndStep := fun s st l r hdie =>
  ⟨⟨State.stream_setStream_cur hdie _, fun _ => State.stream_setStream_cur hdie _⟩,
    fun h => by simp [Stream.advance, h, loopEnd],
    Stream.advance_outside, Stream.advance_round, Stream.advance_last⟩

/-- Settles O12: the loop words come down to one body, which opens a level, skips it or refuses it; cq loses the entries below its
lowest read pointer; and the loop-end step follows the list of levels. -/
theorem hardwareLoops : Obligations.HardwareLoops := ⟨loop_words, loop_traps, count_queue, loop_end_step⟩

end Sys2Proof.Machine
end

section
namespace Sys2Proof.Machine

/-! ## Memory through folds -/

/-- The canonical form as a test whose arguments the kernel compares before it evaluates it. -/
def Memory.isCanonical (m : List Host.Cell) : Bool := Memory.wf m

theorem State.writeN_canonical (s : State) (a v n : Nat) (h : Memory.isCanonical s.mem = true) : Memory.isCanonical (s.writeN a v n).mem = true :=
  State.writeN_wf s a v n h

theorem State.writeMasked_canonical (s : State) (a v mask n : Nat) (h : Memory.isCanonical s.mem = true) :
    Memory.isCanonical (s.writeMasked a v mask n).mem = true := State.writeMasked_wf s a v mask n h

theorem foldl_mem {α : Type} {f : State → α → State} (hf : ∀ t a, (f t a).mem = t.mem) (l : List α) (s : State) :
    (l.foldl f s).mem = s.mem :=
  List.foldlRecOn (motive := fun t => t.mem = s.mem) l f rfl fun t ht a _ => (hf t a).trans ht

theorem foldl_snd_mem {α β : Type} {f : β × State → α → β × State} (hf : ∀ t a, (f t a).2.mem = t.2.mem) (l : List α)
    (b : β × State) : (l.foldl f b).2.mem = b.2.mem :=
  List.foldlRecOn (motive := fun t => t.2.mem = b.2.mem) l f rfl fun t ht a _ => (hf t a).trans ht

theorem foldl_canonical {α : Type} {f : State → α → State} (hf : ∀ t a, Memory.isCanonical t.mem = true → Memory.isCanonical (f t a).mem = true)
    (l : List α) {s : State} (h : Memory.isCanonical s.mem = true) : Memory.isCanonical (l.foldl f s).mem = true :=
  List.foldlRecOn (motive := fun t => Memory.isCanonical t.mem = true) l f h fun t ht a _ => hf t a ht

/-- The same with the state after each step named: the kernel then compares states and not their memories. -/
theorem foldl_canonical_of_eq {α : Type} {f : State → α → State}
    (hf : ∀ t a u, f t a = u → Memory.isCanonical t.mem = true → Memory.isCanonical u.mem = true)
    (l : List α) {s : State} (h : Memory.isCanonical s.mem = true) : Memory.isCanonical (l.foldl f s).mem = true :=
  foldl_canonical (fun t a ht => hf t a _ rfl ht) l h

theorem foldl_snd_canonical {α β : Type} {f : β × State → α → β × State}
    (hf : ∀ t a, Memory.isCanonical t.2.mem = true → Memory.isCanonical (f t a).2.mem = true) (l : List α) {b : β × State}
    (h : Memory.isCanonical b.2.mem = true) : Memory.isCanonical (l.foldl f b).2.mem = true :=
  List.foldlRecOn (motive := fun t => Memory.isCanonical t.2.mem = true) l f h fun t ht a _ => hf t a ht

theorem canonical_ite {c : Prop} [Decidable c] {s t : State} (hs : c → Memory.isCanonical s.mem = true)
    (ht : ¬ c → Memory.isCanonical t.mem = true) : Memory.isCanonical (if c then s else t).mem = true := by
  split
  · exact hs ‹_›
  · exact ht ‹_›

/-! ## Interrupts, requests and the remote cache: what they leave of memory -/

@[simp] theorem State.sendMsi_keeps_mem (s : State) (v : Nat) : (s.sendMsi v).mem = s.mem := by
  unfold State.sendMsi
  dsimp only
  (repeat' split) <;> rfl

@[simp] theorem State.raise_keeps_mem (s : State) (die src : Nat) : (s.raise die src).mem = s.mem := by
  unfold State.raise
  dsimp only
  (repeat' split) <;> simp

theorem State.errorEvent_canonical (s : State) (die kind engine polder addr detail : Nat) (h : Memory.isCanonical s.mem = true) :
    Memory.isCanonical (s.errorEvent die kind engine polder addr detail).mem = true := by
  unfold State.errorEvent
  grind [State.writeN_canonical, State.setDie_mem, State.raise_keeps_mem]

@[simp] theorem State.markWords_keeps_mem (s : State) (a n mask poison : Nat) : (s.markWords a n mask poison).mem = s.mem := by
  unfold State.markWords
  exact foldl_mem (fun _ _ => by grind) _ _

theorem State.writeHome_canonical (s : State) (die a n data mask poison : Nat) (h : Memory.isCanonical s.mem = true) :
    Memory.isCanonical (s.writeHome die a n data mask poison).2.mem = true := by
  unfold State.writeHome
  split <;> simp [h, State.writeMasked_canonical]

@[simp] theorem State.respond_keeps_mem (s : State) (die : Nat) (p : Packet) (kind : Nat) (rep : Reply) :
    (s.respond die p kind rep).mem = s.mem := rfl

@[simp] theorem State.leave_keeps_mem (s : State) (id : Nat) (r : Req) : (s.leave id r).mem = s.mem := by
  unfold State.leave
  dsimp only
  (repeat' split) <;> rfl

@[simp] theorem State.pump_keeps_mem (s : State) : s.pump.mem = s.mem := by
  unfold State.pump
  exact foldl_mem (fun _ _ => by grind [State.leave_keeps_mem]) _ _

@[simp] theorem State.forget_keeps_mem (s : State) (id : Nat) : (s.forget id).mem = s.mem := by
  unfold State.forget
  dsimp only
  (repeat' split) <;> rfl

@[simp] theorem State.forgetAll_keeps_mem (s : State) (ids : List Nat) : (s.forgetAll ids).mem = s.mem := by
  unfold State.forgetAll
  exact foldl_mem (fun _ _ => by grind [State.forget_keeps_mem]) _ _

@[simp] theorem State.storeFailed_keeps_mem (s : State) (key status addr : Nat) : (s.storeFailed key status addr).mem = s.mem := by
  unfold State.storeFailed
  split <;> rfl

@[simp] theorem State.syncFailed_keeps_mem (s : State) (key status : Nat) : (s.syncFailed key status).mem = s.mem := by
  unfold State.syncFailed
  split <;> rfl

@[simp] theorem State.quietStore_keeps_mem (s : State) (key : Nat) (group : Option Nat) : (s.quietStore key group).mem = s.mem := rfl

theorem State.conclude_canonical (s : State) (id : Nat) (rep : Reply) (h : Memory.isCanonical s.mem = true) : Memory.isCanonical (s.conclude id rep).mem = true := by
  unfold State.conclude
  dsimp only
  (repeat' split) <;> simp [h, State.errorEvent_canonical]

theorem State.request_canonical (s : State) (r : Req) (h : Memory.isCanonical s.mem = true) : Memory.isCanonical (s.request r).2.mem = true := by
  unfold State.request
  dsimp only
  (repeat' split) <;> simp [h, State.conclude_canonical]

theorem State.writeBack_canonical (s : State) (die idx : Nat) (c : Sector) (strand : Option Nat) (h : Memory.isCanonical s.mem = true) :
    Memory.isCanonical (s.writeBack die idx c strand).2.mem = true := by
  unfold State.writeBack
  split <;> simp [h, State.request_canonical]

theorem State.writeBackAll_canonical (s : State) (die : Nat) (which : Nat → Nat → Bool) (strand : Option Nat) (h : Memory.isCanonical s.mem = true) :
    Memory.isCanonical (s.writeBackAll die which strand).2.mem = true := by
  unfold State.writeBackAll
  grind [foldl_canonical, foldl_snd_canonical, foldl_mem, foldl_snd_mem, State.writeBack_canonical]

theorem State.flush_canonical (s : State) (die : Nat) (which : Nat → Nat → Bool) (strand : Option Nat) (h : Memory.isCanonical s.mem = true) :
    Memory.isCanonical (s.flush die which strand).2.mem = true := by
  unfold State.flush
  simp [h, State.writeBackAll_canonical]

@[simp] theorem State.invalidate_keeps_mem (s : State) (die : Nat) (which : Nat → Nat → Bool) : (s.invalidate die which).mem = s.mem := rfl

theorem State.evictFor_canonical (s : State) (die idx : Nat) (h : Memory.isCanonical s.mem = true) : Memory.isCanonical (s.evictFor die idx).mem = true := by
  unfold State.evictFor
  dsimp only
  (repeat' split) <;> simp [h, State.writeBackAll_canonical]

theorem State.sectorFor_canonical (s : State) (die idx context : Nat) (h : Memory.isCanonical s.mem = true) :
    Memory.isCanonical (s.sectorFor die idx context).2.mem = true := by
  unfold State.sectorFor
  dsimp only
  (repeat' split) <;> simp [h, State.writeBack_canonical]

theorem State.putSector_canonical (s : State) (die idx : Nat) (c : Sector) (h : Memory.isCanonical s.mem = true) :
    Memory.isCanonical (s.putSector die idx c).mem = true := by
  unfold State.putSector
  simp [h, State.evictFor_canonical]

theorem State.cacheStore_canonical (s : State) (die a n v context : Nat) (h : Memory.isCanonical s.mem = true) :
    Memory.isCanonical (s.cacheStore die a n v context).mem = true := by
  unfold State.cacheStore
  simp [h, State.sectorFor_canonical, State.putSector_canonical]

theorem State.cacheFill_canonical (s : State) (die a context : Nat) (r : Reply) (h : Memory.isCanonical s.mem = true) :
    Memory.isCanonical (s.cacheFill die a context r).mem = true := by
  unfold State.cacheFill
  simp [h, State.sectorFor_canonical, State.putSector_canonical]

theorem State.deliver_canonical (s : State) (id : Nat) (rep : Reply) (h : Memory.isCanonical s.mem = true) : Memory.isCanonical (s.deliver id rep).mem = true := by
  unfold State.deliver
  dsimp only
  (repeat' split) <;> simp [h, State.conclude_canonical, State.cacheFill_canonical]

@[simp] theorem State.restTag_keeps_mem (s : State) (r : Req) : (s.restTag r).mem = s.mem := by
  unfold State.restTag
  split <;> rfl

end Sys2Proof.Machine
end

section
namespace Sys2Proof.Machine

/-! ## Sectors, loads and copies: what they leave of memory -/

theorem State.setSixBit_canonical (s : State) (base e v : Nat) (h : Memory.isCanonical s.mem = true) : Memory.isCanonical (s.setSixBit base e v).mem = true := by
  unfold State.setSixBit
  grind [State.writeN_canonical]

theorem State.askSectors_canonical (s : State) (r : Reader) (held secs : List (Nat × Nat)) (h : Memory.isCanonical s.mem = true) :
    Memory.isCanonical (s.askSectors r held secs).2.mem = true := by
  unfold State.askSectors
  grind [foldl_canonical, foldl_snd_canonical, foldl_mem, foldl_snd_mem, State.request_canonical, State.sectorFor_canonical]

theorem readRegs_keeps_mem {rd : RegRead} (hrd : ∀ s die a, (rd s die a).2.mem = s.mem) (die idx mask : Nat) (s : State) :
    (readRegs rd die idx mask s).2.mem = s.mem :=
  foldl_snd_mem (fun _ _ => by split <;> simp [hrd]) _ _

theorem readSectors_keeps_mem {rd : RegRead} (hrd : ∀ s die a, (rd s die a).2.mem = s.mem) (r : Reader) (held secs : List (Nat × Nat))
    (s : State) : (readSectors rd r held secs s).2.mem = s.mem :=
  foldl_snd_mem (fun _ _ => by dsimp only; (repeat' split) <;> simp [readRegs_keeps_mem hrd]) _ _

@[simp] theorem State.loadFailed_keeps_mem (s : State) (c : Ctx) (status : Nat) (pc : Word) : (s.loadFailed c status pc).mem = s.mem := rfl

theorem State.writeBackContext_canonical (s : State) (c : Ctx) (h : Memory.isCanonical s.mem = true) : Memory.isCanonical (s.writeBackContext c).2.mem = true := by
  unfold State.writeBackContext
  simp [h, State.flush_canonical]

@[simp] theorem State.invalidateContext_keeps_mem (s : State) (c : Ctx) : (s.invalidateContext c).mem = s.mem := rfl

@[simp] theorem State.setCopy_keeps_mem (s : State) (die polder i : Nat) (e : CopyCmd) : (s.setCopy die polder i e).mem = s.mem := rfl

@[simp] theorem State.endCopy_keeps_mem (s : State) (die polder i status : Nat) : (s.endCopy die polder i status).mem = s.mem := by
  unfold State.endCopy
  exact foldl_mem (fun _ _ => by grind [State.setCrew_mem, State.forgetAll_keeps_mem]) _ _

@[simp] theorem State.unitLanded_keeps_mem (s : State) (die polder i unit : Nat) (poisoned : Bool) :
    (s.unitLanded die polder i unit poisoned).mem = s.mem := by
  unfold State.unitLanded
  grind [State.setCrew_mem, State.endCopy_keeps_mem]

theorem State.writePieces_canonical (s : State) (die polder : Nat) (direct poisoned : Bool) (ps : List (Nat × Nat × Nat)) (h : Memory.isCanonical s.mem = true) :
    Memory.isCanonical (s.writePieces die polder direct poisoned ps).2.2.mem = true := by
  unfold State.writePieces
  dsimp only
  split
  · exact h
  · refine List.foldlRecOn (motive := fun t : Nat × List Nat × State => Memory.isCanonical t.2.2.mem = true) ps _ h fun t ht p _ => ?_
    split
    · split <;> exact State.writeN_canonical _ _ _ _ ht
    · exact State.request_canonical _ _ ht

theorem State.writeUnit_canonical (s : State) (die polder i j : Nat) (u : UnitData) (h : Memory.isCanonical s.mem = true) :
    Memory.isCanonical (s.writeUnit die polder i j u).mem = true := by
  unfold State.writeUnit
  grind [foldl_canonical, foldl_snd_canonical, foldl_mem, foldl_snd_mem, State.setSixBit_canonical, State.setCopy_keeps_mem, State.endCopy_keeps_mem,
    State.unitLanded_keeps_mem, State.writePieces_canonical]

theorem State.unitRead_canonical (s : State) (die polder i j : Nat) (ids : List Nat) (rs : List (Nat × Reply)) (h : Memory.isCanonical s.mem = true) :
    Memory.isCanonical (s.unitRead die polder i j ids rs).mem = true := by
  unfold State.unitRead
  dsimp only
  (repeat' split) <;> simp [h, State.writeUnit_canonical]

theorem State.landUnit_canonical (s : State) (die polder i j : Nat) (h : Memory.isCanonical s.mem = true) :
    Memory.isCanonical (s.landUnit die polder i j).mem = true := by
  have hask := State.askSectors_canonical s (copyReader s die polder) [] (sectorsOf (s.unitSources die polder ((s.crew die polder).copyAt i) j)) h
  unfold State.landUnit
  dsimp only
  (repeat' split) <;>
    simp [h, hask, State.writeUnit_canonical, State.unitRead_canonical, readSectors_keeps_mem]

@[simp] theorem State.resumeCopies_keeps_mem (s : State) (die seg : Nat) : (s.resumeCopies die seg).mem = s.mem := by
  unfold State.resumeCopies
  exact foldl_mem (fun _ _ => by grind [State.setCrew_mem]) _ _

@[simp] theorem State.endCopies_keeps_mem (s : State) (die status : Nat) (which : CopyCmd → Bool) :
    (s.endCopies die status which).mem = s.mem := by
  unfold State.endCopies
  grind [foldl_mem, foldl_snd_mem, State.endCopy_keeps_mem]

@[simp] theorem State.revokeCopies_keeps_mem (s : State) (die entry : Nat) : (s.revokeCopies die entry).mem = s.mem := by
  unfold State.revokeCopies
  simp

@[simp] theorem State.cancelCopy_keeps_mem (s : State) (die polder i : Nat) : (s.cancelCopy die polder i).mem = s.mem := by
  unfold State.cancelCopy
  grind [foldl_mem, foldl_snd_mem, State.forgetAll_keeps_mem, State.setCopy_keeps_mem, State.endCopy_keeps_mem]

/-! ### The words of agents -/

/-- Memory's canonical form stays as an agent changes its own strand. -/
theorem memory_stable : StrandStable fun s => Memory.isCanonical s.mem = true where
  strand _ h := h
  rotation _ _ h := h
  reqs _ h := h
  raise src _ h := by simpa using h

/-- So does what memory holds. -/
theorem mem_stable (m : List Host.Cell) : StrandStable fun s => s.mem = m where
  strand _ h := h
  rotation _ _ h := h
  reqs _ h := h
  raise src _ h := by simpa using h

section
variable {s : State} (h : Memory.isCanonical s.mem = true)
include h

theorem writeResult_canonical (rd : BitVec 5) (v : Word) : (writeResult rd v s).All (Memory.isCanonical ·.mem = true) :=
  .ite (fun _ => .pure h) fun _ => writeReg_stable memory_stable _ _ h

theorem failResult_canonical (rd : BitVec 5) (status data : Nat) : (failResult rd status data s).All (Memory.isCanonical ·.mem = true) :=
  .ite (fun _ => .pure h) fun _ => .ite (fun _ => .trap _ _) fun _ => .ite (fun _ => .trap _ _) fun _ => .trap _ _

theorem spillPush_canonical (v n : Nat) : (spillPush v n s).All (Memory.isCanonical ·.mem = true) := by
  unfold spillPush
  refine .ite (fun _ => .ite (fun _ => .trap _ _) fun _ => .pure ?_) fun _ => .pure ?_ <;>
    simpa using State.writeN_canonical _ _ _ _ h

theorem endStream_canonical : (endStream s).All (Memory.isCanonical ·.mem = true) := by
  unfold endStream
  dsimp only
  split
  · exact .trap _ _
  · exact .trap _ _
  · exact .pure (by simpa using h)

theorem issueCopy_canonical (e : CopyCmd) : (issueCopy e s).All (Memory.isCanonical ·.mem = true) := by
  unfold issueCopy
  dsimp only
  split
  · exact .hold _
  · exact .pure h

theorem copyRegs_canonical (rd ra rb : BitVec 5) : (copyRegs rd ra rb s).All (Memory.isCanonical ·.2.2.2.mem = true) :=
  .bind (readReg_stable memory_stable _ h) fun _ h1 => .bind (readReg_stable memory_stable _ h1) fun _ h2 =>
    .bind (readReg_stable memory_stable _ h2) fun _ h3 => .pure h3

theorem planCpy_canonical (scol sc : BitVec 1) (rd ra rb : BitVec 5) : (planCpy scol sc rd ra rb s).All (Memory.isCanonical ·.2.2.mem = true) :=
  .bind (copyRegs_canonical h _ _ _) fun _ h1 => .pure h1

theorem copyRing_canonical (tk : BitVec 4) (scol : BitVec 1) (ring : BitVec 3) (rp : Option (BitVec 5)) (ra rb : BitVec 5) :
    Memory.isCanonical (copyRing tk scol ring rp ra rb s).mem = true := by
  refine runA_stable memory_stable _ h fun s1 h1 => .ite (fun _ => .bind (Q := fun _ => False) (.hold _) nofun) fun _ =>
    .bind (Q := fun r : Option Word × State => Memory.isCanonical r.2.mem = true) ?_ fun _ h2 =>
    .bind (readReg_stable memory_stable _ h2) fun _ h3 => .bind (readReg_stable memory_stable _ h3) fun _ h4 =>
    .bind (.any _) fun _ _ => .bind (issueCopy_canonical h4 _) fun _ h5 => .pure h5
  cases rp with
  | some rp => exact .bind (readReg_stable memory_stable _ h1) fun _ h2 => .pure h2
  | none => exact .pure h1

end

end Sys2Proof.Machine
end

section
namespace Sys2Proof.Machine

/-! ## Matrix commands: what they leave of memory -/

theorem enqueueMat_canonical (word : BitVec 32) (val1 val2 : Word) {s : State} (h : Memory.isCanonical s.mem = true) :
    (enqueueMat word val1 val2 s).All (Memory.isCanonical ·.mem = true) :=
  .ite (fun _ => .hold _) fun _ => .pure h

theorem rowPair_canonical (rs : BitVec 5) {s : State} (h : Memory.isCanonical s.mem = true) : (rowPair rs s).All (Memory.isCanonical ·.2.mem = true) :=
  .bind (readReg_stable memory_stable _ h) fun _ h1 => .ite (fun _ => .trap _ _) fun _ => .pure h1

theorem matrixWord_canonical (tk : BitVec 4) (word : BitVec 32) {values : State → Res (Word × Word × State)}
    (hvalues : ∀ s, Memory.isCanonical s.mem = true → (values s).All (Memory.isCanonical ·.2.2.mem = true)) (s : State) (h : Memory.isCanonical s.mem = true) :
    Memory.isCanonical (matrixWord tk word values s).mem = true :=
  runX_stable memory_stable _ h fun s1 h1 => .bind (hvalues s1 h1) fun _ h2 => .bind (.any _) fun _ _ =>
    .bind (enqueueMat_canonical _ _ _ h2) fun _ h3 => .pure h3

theorem State.writeTile_canonical (s : State) (die polder t z : Nat) (fill : Bool) (h : Memory.isCanonical s.mem = true) :
    Memory.isCanonical (s.writeTile die polder t z fill).mem = true := by
  unfold State.writeTile
  grind [State.writeN_canonical, State.setCrew_mem]

theorem State.slabStep_canonical (s : State) (die polder : Nat) (u : Bool) (a : MatActive) (n : Nat) (h : Memory.isCanonical s.mem = true) :
    Memory.isCanonical (s.slabStep die polder u a n).mem = true := by
  unfold State.slabStep
  dsimp only
  (repeat' split) <;> simp [h, State.writeTile_canonical]

end Sys2Proof.Machine
end

section
namespace Sys2Proof.Machine

/-! ## Sync commands: what they leave of memory -/

@[simp] theorem State.setTe_keeps_mem (s : State) (die : Nat) (t : TaskEngine) : (s.setTe die t).mem = s.mem := rfl

@[simp] theorem State.stopGang_keeps_mem (s : State) (die : Nat) (r : Run) : (s.stopGang die r).mem = s.mem := by
  unfold State.stopGang
  grind [foldl_mem, foldl_snd_mem, State.forgetAll_keeps_mem]

@[simp] theorem State.cancelGang_keeps_mem (s : State) (c : Ctx) : (s.cancelGang c).mem = s.mem := by
  unfold State.cancelGang
  simp

@[simp] theorem State.setRg_keeps_mem (s : State) (die : Nat) (r : RingEngine) : (s.setRg die r).mem = s.mem := rfl

@[simp] theorem State.sendCtl_keeps_mem (s : State) (die : Nat) (c : RingCtl) : (s.sendCtl die c).mem = s.mem := by
  unfold State.sendCtl
  dsimp only
  (repeat' split) <;> rfl

@[simp] theorem State.sendMirror_keeps_mem (s : State) (die : Nat) : (s.sendMirror die).mem = s.mem := by
  unfold State.sendMirror
  split <;> simp

@[simp] theorem State.renewMirrors_keeps_mem (s : State) (die : Nat) : (s.renewMirrors die).mem = s.mem := by
  unfold State.renewMirrors
  exact foldl_mem (fun _ _ => by grind [State.setRg_keeps_mem]) _ _

theorem State.syncReplyTo_canonical (s : State) (die : Nat) (o : Origin) (rep : Reply) (h : Memory.isCanonical s.mem = true) :
    Memory.isCanonical (s.syncReplyTo die o rep).mem = true := by
  unfold State.syncReplyTo
  split <;> simp [h, State.deliver_canonical]

@[simp] theorem State.refuse_keeps_mem (s : State) (die : Nat) : (s.refuse die).mem = s.mem := rfl

theorem State.registerWaiter_canonical (s : State) (die : Nat) (o : Origin) (kind object value : Nat) (h : Memory.isCanonical s.mem = true) :
    Memory.isCanonical (s.registerWaiter die o kind object value).mem = true := by
  unfold State.registerWaiter
  dsimp only
  (repeat' split) <;> simp [h, State.syncReplyTo_canonical]

theorem State.wake_canonical (s : State) (die object : Nat) (which : Waiter → Bool) (h : Memory.isCanonical s.mem = true) :
    Memory.isCanonical (s.wake die object which).mem = true := by
  unfold State.wake
  exact foldl_canonical (fun _ _ h => by grind [State.setDie_mem, State.syncReplyTo_canonical]) _ h

theorem State.fireCounter_canonical (s : State) (die a : Nat) (h : Memory.isCanonical s.mem = true) : Memory.isCanonical (s.fireCounter die a).mem = true := by
  unfold State.fireCounter
  grind [State.writeN_canonical, State.setDie_mem]

theorem State.evalCounter_canonical (s : State) (die a : Nat) (h : Memory.isCanonical s.mem = true) : Memory.isCanonical (s.evalCounter die a).mem = true := by
  unfold State.evalCounter
  dsimp only
  (repeat' split) <;> simp [h, State.wake_canonical, State.fireCounter_canonical]

theorem State.writeSemWaiters_canonical (s : State) (die a : Nat) (h : Memory.isCanonical s.mem = true) :
    Memory.isCanonical (s.writeSemWaiters die a).mem = true := by
  unfold State.writeSemWaiters
  grind [State.writeN_canonical]

theorem State.writeSigWaiters_canonical (s : State) (die a : Nat) (h : Memory.isCanonical s.mem = true) :
    Memory.isCanonical (s.writeSigWaiters die a).mem = true := by
  unfold State.writeSigWaiters
  grind [State.writeN_canonical]

@[simp] theorem State.releaseConts_keeps_mem (s : State) (die a n : Nat) : (s.releaseConts die a n).mem = s.mem := rfl

theorem State.semGrant_canonical (s : State) (die a fuel value : Nat) (h : Memory.isCanonical s.mem = true) :
    Memory.isCanonical (s.semGrant die a fuel value).2.mem = true := by
  induction fuel generalizing s value with
  | zero => exact h
  | succ fuel ih =>
    unfold State.semGrant
    split
    · exact h
    · split
      · exact h
      · exact ih _ _ (State.syncReplyTo_canonical _ _ _ _ h)

@[simp] theorem State.noteCounter_keeps_mem (s : State) (die a : Nat) : (s.noteCounter die a).mem = s.mem := rfl

theorem State.objectPerform_canonical (s : State) (die op a v1 v2 w0 w1 : Nat) (o : Origin) (h : Memory.isCanonical s.mem = true) :
    Memory.isCanonical (s.objectPerform die op a v1 v2 w0 w1 o).mem = true := by
  unfold State.objectPerform
  grind [State.writeN_canonical, State.syncReplyTo_canonical, State.registerWaiter_canonical, State.wake_canonical, State.evalCounter_canonical, State.writeSemWaiters_canonical,
    State.writeSigWaiters_canonical, State.releaseConts_keeps_mem, State.semGrant_canonical, State.noteCounter_keeps_mem]

theorem State.syncPerform_canonical (s : State) (die op a v1 v2 : Nat) (o : Origin) (h : Memory.isCanonical s.mem = true) :
    Memory.isCanonical (s.syncPerform die op a v1 v2 o).mem = true := by
  unfold State.syncPerform
  grind [State.writeN_canonical, State.errorEvent_canonical, State.syncReplyTo_canonical, State.objectPerform_canonical]

theorem State.sendSync_canonical (s : State) (die polder context op a v1 v2 : Nat) (purpose : Purpose) (h : Memory.isCanonical s.mem = true) :
    Memory.isCanonical (s.sendSync die polder context op a v1 v2 purpose).2.mem = true := by
  unfold State.sendSync
  split <;> simp [h, State.request_canonical, State.syncPerform_canonical]

section
variable {s : State} (h : Memory.isCanonical s.mem = true)
include h

theorem syncResult_canonical (rd : BitVec 5) (r : Reply) : (syncResult rd r s).All (Memory.isCanonical ·.mem = true) :=
  .ite (fun _ => writeResult_canonical h _ _) fun _ => failResult_canonical h _ _ _

theorem syncEnqueue_canonical (word : BitVec 32) (at_ : SyncAt) (op v1 v2 : Nat) (release wide : Bool) :
    (syncEnqueue word at_ op v1 v2 release wide s).All (Memory.isCanonical ·.mem = true) := .pure h

theorem State.setPending_canonical (p : Pend) : Memory.isCanonical (s.setPending p).mem = true := by
  simpa [State.setPending] using h

/-- A returning sync word keeps memory's form in what it sends and in what it does with the reply (R259, R260). -/
theorem syncReturning_canonical (at_ : SyncAt) (op v1 v2 : Nat) (release acquire wide : Bool) {finish : Reply → State → Res State}
    (hfinish : ∀ r t, Memory.isCanonical t.mem = true → (finish r t).All (Memory.isCanonical ·.mem = true)) {s0 : State} (h0 : Memory.isCanonical s0.mem = true) :
    (syncReturning at_ op v1 v2 release acquire wide finish s0 s).All (Memory.isCanonical ·.state.mem = true) := by
  have hsend : ∀ t : State, Memory.isCanonical t.mem = true →
      Memory.isCanonical (t.sendSync s0.cur.die s0.cur.polder s0.myCrew.context op at_.pa v1 v2 .plain).2.mem = true :=
    fun t ht => State.sendSync_canonical _ _ _ _ _ _ _ _ _ ht
  have hcomplete : ∀ r t, Memory.isCanonical t.mem = true → (do
      let t1 ← finish r t
      pure (.next (if acquire && wide then t1.invalidateContext s0.cur else t1)) : Res Eff).All (Memory.isCanonical ·.state.mem = true) :=
    fun r t ht => .bind (hfinish r t ht) fun _ h1 => .pure (by simp only [Eff.state]; split <;> simpa using h1)
  have hgo : ∀ a b : State, Memory.isCanonical a.mem = true → Memory.isCanonical b.mem = true → Res.All (Memory.isCanonical ·.state.mem = true) (
      let (id, tb) := b.sendSync s0.cur.die s0.cur.polder s0.myCrew.context op at_.pa v1 v2 .plain
      match tb.replyOf id with
      | some r =>
        if r.status = 0 then (do
          let t1 ← finish r (tb.forget id)
          pure (.next (if acquire && wide then t1.invalidateContext s0.cur else t1)) : Res Eff)
        else
          let (id, ta) := a.sendSync s0.cur.die s0.cur.polder s0.myCrew.context op at_.pa v1 v2 .plain
          pure (.stay (ta.setPending { ids := [id], data := at_.held 1 }))
      | none =>
        let (id, ta) := a.sendSync s0.cur.die s0.cur.polder s0.myCrew.context op at_.pa v1 v2 .plain
        pure (.stay (ta.setPending { ids := [id], data := at_.held 1 }))) := by
    intro a b ha hb
    dsimp only
    split
    · refine .ite (fun _ => hcomplete _ _ (by simpa using hsend b hb)) fun _ => .pure ?_
      exact State.setPending_canonical (hsend a ha) _
    · exact .pure (State.setPending_canonical (hsend a ha) _)
  unfold syncReturning
  dsimp only
  split
  · refine .bind (.any _) fun _ _ => .ite (fun _ => .bind (.any _) fun _ _ => ?_) fun _ => ?_
    all_goals refine .bind (.any _) fun _ _ => .ite (fun _ => .bind (.any _) fun _ _ => ?_) fun _ => ?_
    all_goals
      refine .ite (fun _ => hgo _ _ h0 h) fun _ => .pure (State.setPending_canonical ?_ _)
      split
      · exact State.writeBackContext_canonical _ _ h0
      · exact h0
  · refine .ite (fun _ => .ite (fun _ => hgo _ _ (by simpa using h0) (by simpa using h)) fun _ => .pure h0) fun _ => ?_
    split
    · exact .pure h0
    · exact hcomplete _ _ (by simpa using h)

theorem objectReturning_canonical (tk : BitVec 4) (op : Nat) (acquire : Bool) (rd ra : BitVec 5) (rb : Option (BitVec 5)) :
    Memory.isCanonical (objectReturning tk op acquire rd ra rb s).mem = true := by
  refine runWordM_stable memory_stable _ _ _ _ h fun s1 h1 => .bind (readReg_stable memory_stable _ h1) fun _ h2 =>
    .bind (Q := fun r : Word × State => Memory.isCanonical r.2.mem = true) ?_ fun _ h3 => .bind (.any _) fun _ _ =>
    syncReturning_canonical h3 _ _ _ _ _ _ _ (fun r t ht => syncResult_canonical ht rd r) h
  cases rb with
  | some rb => exact readReg_stable memory_stable _ h2
  | none => exact .pure h2

theorem objectQueued_canonical (tk fn : BitVec 4) (op : Nat) (ra rb : BitVec 5) : Memory.isCanonical (objectQueued tk fn op ra rb s).mem = true :=
  runWordM_stable memory_stable _ _ _ _ h fun _ h1 => .bind (.any _) fun _ _ => .bind (readReg_stable memory_stable _ h1) fun _ h2 =>
    .bind (readReg_stable memory_stable _ h2) fun _ h3 => .bind (.any _) fun _ _ => .bind (syncEnqueue_canonical h3 _ _ _ _ _ _ _) fun _ h4 => .pure h4

end

end Sys2Proof.Machine
end

section
namespace Sys2Proof.Machine

/-! ## The task engine: what they leave of memory -/

theorem State.signalUpdate_canonical (s : State) (die a : Nat) (f : Nat → Nat) (op v1 v2 : Nat) (h : Memory.isCanonical s.mem = true) :
    Memory.isCanonical (s.signalUpdate die a f op v1 v2).mem = true := by
  unfold State.signalUpdate
  grind [State.writeN_canonical, State.errorEvent_canonical, State.request_canonical]

theorem State.report_canonical (s : State) (die signal code word cause n : Nat) (h : Memory.isCanonical s.mem = true) :
    Memory.isCanonical (s.report die signal code word cause n).mem = true := by
  unfold State.report
  split <;> simp [h, State.signalUpdate_canonical]

theorem State.decrement_canonical (s : State) (die signal : Nat) (h : Memory.isCanonical s.mem = true) : Memory.isCanonical (s.decrement die signal).mem = true := by
  unfold State.decrement
  grind [State.signalUpdate_canonical]

@[simp] theorem State.endUnmade_keeps_mem (s : State) (die polder : Nat) : (s.endUnmade die polder).mem = s.mem := by
  unfold State.endUnmade
  exact foldl_mem (fun _ _ => by grind [State.endCopy_keeps_mem]) _ _

@[simp] theorem State.pushReady_keeps_mem (s : State) (die : Nat) (w : ReadyWork) (queue ts : Nat) :
    (s.pushReady die w queue ts).mem = s.mem := rfl

@[simp] theorem State.newLaunch_keeps_mem (s : State) (die : Nat) (r : LaunchRec) (queue job since : Nat) (host : Option Nat) (node : Option (Nat × Nat)) :
    (s.newLaunch die r queue job since host node).2.mem = s.mem := by
  unfold State.newLaunch
  dsimp only
  (repeat' split) <;> rfl

@[simp] theorem State.hostRetired_keeps_mem (s : State) (host : Option Nat) (lost : Bool) (sent : Option Nat) :
    (s.hostRetired host lost sent).mem = s.mem := by
  unfold State.hostRetired
  dsimp only
  (repeat' split) <;> rfl

theorem State.copyRange_canonical (s : State) (src dst n : Nat) (h : Memory.isCanonical s.mem = true) : Memory.isCanonical (s.copyRange src dst n).mem = true := by
  unfold State.copyRange
  grind [State.writeN_canonical]

theorem State.fillViews_canonical (s : State) (die origin : Nat) (r : LaunchRec) (h : Memory.isCanonical s.mem = true) :
    Memory.isCanonical (s.fillViews die origin r).mem = true := by
  unfold State.fillViews
  exact foldl_canonical (fun _ _ h => by grind [State.writeN_canonical]) _ h

theorem State.mergeViews_canonical (s : State) (r : LaunchRec) (dst src : Nat) (h : Memory.isCanonical s.mem = true) {t : State}
    (ht : s.mergeViews r dst src = some t) : Memory.isCanonical t.mem = true := by
  unfold State.mergeViews at ht
  split at ht
  · cases ht
  · cases ht
    exact foldl_canonical (fun _ _ h => State.writeN_canonical _ _ _ _ h) _ h

theorem State.advance_canonical (s : State) (die t fuel : Nat) (h : Memory.isCanonical s.mem = true) : Memory.isCanonical (s.advance die t fuel).mem = true := by
  induction fuel generalizing s with
  | zero => exact h
  | succ fuel ih =>
    unfold State.advance
    dsimp only
    split
    · exact h
    · split
      · exact h
      · split
        · exact ih _ h
        · exact ih _ h
        · split
          · exact ih _ h
          · rename_i hmerge
            have hmerged := State.mergeViews_canonical _ _ _ _ h hmerge
            exact ih _ hmerged
      · exact ih _ h

theorem State.joinNow_canonical (s : State) (die t origin : Nat) (h : Memory.isCanonical s.mem = true) :
    Memory.isCanonical (s.joinNow die t origin).2.mem = true := by
  have hmerged : ∀ o : Option State, (∀ u, o = some u → Memory.isCanonical u.mem = true) → Memory.isCanonical (o.getD s).mem = true := by
    intro o ho
    cases o with
    | none => exact h
    | some u => exact ho u rfl
  refine hmerged _ fun u hu => ?_
  split at hu
  · cases hu
    exact h
  · exact State.mergeViews_canonical _ _ _ _ h hu

@[simp] theorem State.startRequest_keeps_mem (s : State) (die q tag seq : Nat) : (s.startRequest die q tag seq).mem = s.mem := by
  unfold State.startRequest
  dsimp only
  (repeat' split) <;> rfl

@[simp] theorem State.requestNext_keeps_mem (s : State) (die q : Nat) : (s.requestNext die q).mem = s.mem := by
  unfold State.requestNext
  dsimp only
  (repeat' split) <;> simp

@[simp] theorem State.requestEnd_keeps_mem (s : State) (die q : Nat) : (s.requestEnd die q).mem = s.mem := by
  unfold State.requestEnd
  dsimp only
  (repeat' split) <;> simp

@[simp] theorem State.tagDispatch_keeps_mem (s : State) (die seg rotation seq : Nat) : (s.tagDispatch die seg rotation seq).mem = s.mem := by
  unfold State.tagDispatch
  exact foldl_mem (fun _ _ => by grind [State.setTe_keeps_mem, State.startRequest_keeps_mem]) _ _

@[simp] theorem State.closeSlot_keeps_mem (s : State) (die l : Nat) : (s.closeSlot die l).mem = s.mem := by
  unfold State.closeSlot
  simp

theorem State.finishTask_canonical (s : State) (die t : Nat) (h : Memory.isCanonical s.mem = true) : Memory.isCanonical (s.finishTask die t).mem = true := by
  unfold State.finishTask
  dsimp only
  (repeat' split) <;> simp [h, State.report_canonical, State.advance_canonical]

theorem State.discardChild_canonical (s : State) (die i : Nat) (h : Memory.isCanonical s.mem = true) : Memory.isCanonical (s.discardChild die i).mem = true := by
  unfold State.discardChild
  simp [h, State.finishTask_canonical]

theorem State.cancelDescendants_canonical (s : State) (die t : Nat) (h : Memory.isCanonical s.mem = true) :
    Memory.isCanonical (s.cancelDescendants die t).mem = true := by
  unfold State.cancelDescendants
  exact foldl_canonical (fun _ _ h => by grind [State.setTe_keeps_mem, State.discardChild_canonical]) _ h

@[simp] theorem State.freeChunkAt_keeps_mem (s : State) (die a : Nat) : (s.freeChunkAt die a).mem = s.mem := rfl

theorem State.discardCont_canonical (s : State) (die t chunk : Nat) (h : Memory.isCanonical s.mem = true) :
    Memory.isCanonical (s.discardCont die t chunk).mem = true := by
  unfold State.discardCont
  dsimp only
  (repeat' split) <;> simp [h, State.finishTask_canonical]

theorem State.discardReady_canonical (s : State) (die : Nat) (r : Machine.Ready) (h : Memory.isCanonical s.mem = true) :
    Memory.isCanonical (s.discardReady die r).mem = true := by
  unfold State.discardReady
  dsimp only
  split
  · exact State.report_canonical _ _ _ _ _ _ _ h
  · exact State.discardChild_canonical _ _ _ h
  · exact State.discardCont_canonical _ _ _ _ h
  · exact State.report_canonical _ _ _ _ _ _ _ (by simpa using h)

theorem State.endGraph_canonical (s : State) (die l code word : Nat) (h : Memory.isCanonical s.mem = true) :
    Memory.isCanonical (s.endGraph die l code word).mem = true := by
  unfold State.endGraph
  dsimp only
  (repeat' split) <;> simp [h, State.report_canonical]

theorem State.cancelPoint_canonical (s : State) (die context job : Nat) (h : Memory.isCanonical s.mem = true) :
    Memory.isCanonical (s.cancelPoint die context job).2.mem = true := by
  unfold State.cancelPoint
  dsimp only
  split
  · exact h
  · split
    · exact h
    · refine foldl_canonical (fun t l ht => ?_) _ (foldl_canonical (fun t r ht => ?_) _ h)
      · split
        · exact ht
        · split
          · exact State.endGraph_canonical _ _ _ _ _ ht
          · split
            · simpa using ht
            · exact ht
      · split
        · exact State.discardReady_canonical _ _ _ ht
        · exact ht

@[simp] theorem State.placeRun_keeps_mem (s : State) (die t : Nat) (cont : Option Nat) (o : Nat) :
    (s.placeRun die t cont o).mem = s.mem := by
  unfold State.placeRun
  grind [foldl_mem, foldl_snd_mem, State.setCrew_mem, State.setTe_keeps_mem]

@[simp] theorem State.placeGangs_keeps_mem (s : State) (die l : Nat) (os : List Nat) : (s.placeGangs die l os).mem = s.mem := by
  unfold State.placeGangs
  exact foldl_mem (fun _ _ => by grind [State.setTe_keeps_mem, State.placeRun_keeps_mem]) _ _

theorem State.restoreCrew_canonical (s : State) (die base : Nat) (x : SavedCrew) (polder : Nat) (h : Memory.isCanonical s.mem = true) :
    Memory.isCanonical (s.restoreCrew die base x polder).mem = true := by
  unfold State.restoreCrew
  grind [foldl_canonical, foldl_snd_canonical, foldl_mem, foldl_snd_mem, State.setCrew_mem, State.endUnmade_keeps_mem, State.copyRange_canonical]

theorem State.restoreRuns_canonical (s : State) (die restore l : Nat) (rs : List (Nat × Nat)) (h : Memory.isCanonical s.mem = true) :
    Memory.isCanonical (s.restoreRuns die restore l rs).mem = true := by
  unfold State.restoreRuns
  grind [foldl_canonical, foldl_snd_canonical, foldl_mem, foldl_snd_mem, State.setTe_keeps_mem, State.restoreCrew_canonical]

theorem State.absorbConts_canonical (s : State) (die : Nat) (h : Memory.isCanonical s.mem = true) : Memory.isCanonical (s.absorbConts die).mem = true := by
  unfold State.absorbConts
  exact foldl_canonical (fun _ _ h => by grind [State.setDie_mem, State.pushReady_keeps_mem, State.discardCont_canonical]) _ h

@[simp] theorem State.assignSlots_keeps_mem (s : State) (die : Nat) : (s.assignSlots die).mem = s.mem := by
  unfold State.assignSlots
  exact foldl_mem (fun _ _ => by grind [State.setTe_keeps_mem]) _ _

@[simp] theorem State.teResume_keeps_mem (s : State) (die : Nat) : (s.teResume die).mem = s.mem := by
  refine foldl_mem (fun t e => ?_) _ _
  dsimp only
  (repeat' split) <;> simp

@[simp] theorem State.keep_keeps_mem (s : State) (ids : List Nat) : (s.keep ids).mem = s.mem := rfl

/-- A step that goes on after a write-back keeps memory's form where what it records and what it goes on with do (R333). -/
theorem State.afterWriteBack_canonical (s : State) (die context : Nat) (wb : Option (List Nat)) {set : State → Option (List Nat) → State}
    {go : State → State} (hset : ∀ t o, Memory.isCanonical t.mem = true → Memory.isCanonical (set t o).mem = true)
    (hgo : ∀ t, Memory.isCanonical t.mem = true → Memory.isCanonical (go t).mem = true) (h : Memory.isCanonical s.mem = true) :
    Memory.isCanonical (s.afterWriteBack die context wb set go).mem = true := by
  have hflush := State.flush_canonical s die (fun _ x => x = context) none h
  unfold State.afterWriteBack
  split
  · split
    · exact hgo _ (hset _ _ (by simpa using h))
    · exact h
  · dsimp only
    split
    · exact hgo _ h
    · exact hset _ _ (by simpa using hflush)

theorem State.startRun_canonical (s : State) (die id : Nat) (h : Memory.isCanonical s.mem = true) : Memory.isCanonical (s.startRun die id).mem = true := by
  unfold State.startRun
  grind [foldl_canonical, foldl_snd_canonical, foldl_mem, foldl_snd_mem, State.invalidate_keeps_mem, State.setTe_keeps_mem, State.copyRange_canonical,
    State.fillViews_canonical, State.freeChunkAt_keeps_mem]

theorem State.writeCont_canonical (s : State) (die task key : Nat) (st : Strand) (w : Waitc) (h : Memory.isCanonical s.mem = true) :
    Memory.isCanonical (s.writeCont die task key st w).mem = true := by
  unfold State.writeCont
  grind [State.writeN_canonical, State.setDie_mem, State.errorEvent_canonical, State.syncFailed_keeps_mem, State.writeSigWaiters_canonical,
    State.freeChunkAt_keeps_mem]

@[simp] theorem State.freeRun_keeps_mem (s : State) (die id : Nat) : (s.freeRun die id).mem = s.mem := rfl

theorem State.endRun_canonical (s : State) (die id : Nat) (h : Memory.isCanonical s.mem = true) : Memory.isCanonical (s.endRun die id).mem = true := by
  unfold State.endRun
  grind [State.setTe_keeps_mem, State.copyRange_canonical, State.joinNow_canonical, State.finishTask_canonical, State.cancelDescendants_canonical,
    State.freeRun_keeps_mem]

@[simp] theorem State.enqueue_keeps_mem (s : State) (die q addr : Nat) (host : Option Nat) : (s.enqueue die q addr host).2.mem = s.mem := by
  unfold State.enqueue
  dsimp only
  (repeat' split) <;> rfl

@[simp] theorem State.setGraph_keeps_mem (s : State) (die l : Nat) (g : Graph) : (s.setGraph die l g).mem = s.mem := rfl

@[simp] theorem State.sendToken_keeps_mem (s : State) (die l n : Nat) : (s.sendToken die l n).mem = s.mem := by
  unfold State.sendToken
  dsimp only
  (repeat' split) <;> rfl

@[simp] theorem State.graphIdle_keeps_mem (s : State) (die l : Nat) : (s.graphIdle die l).mem = s.mem := by
  unfold State.graphIdle
  grind [State.setGraph_keeps_mem]

@[simp] theorem State.nodeDone_keeps_mem (s : State) (die : Nat) (node : Option (Nat × Nat)) : (s.nodeDone die node).mem = s.mem := by
  unfold State.nodeDone
  grind [foldl_mem, foldl_snd_mem, State.setGraph_keeps_mem, State.sendToken_keeps_mem, State.graphIdle_keeps_mem]

theorem State.reject_canonical (s : State) (die : Nat) (r : LaunchRec) (code word : Nat) (host : Option Nat) (node : Option (Nat × Nat)) (h : Memory.isCanonical s.mem = true) :
    Memory.isCanonical (s.reject die r code word host node).mem = true := by
  unfold State.reject
  split <;> simp [h, State.report_canonical, State.decrement_canonical]

theorem State.rejectUnread_canonical (s : State) (die addr : Nat) (host : Option Nat) (node : Option (Nat × Nat)) (h : Memory.isCanonical s.mem = true) :
    Memory.isCanonical (s.rejectUnread die addr host node).mem = true := by
  unfold State.rejectUnread
  simp [h, State.errorEvent_canonical]

@[simp] theorem State.preemptDone_keeps_mem (s : State) (die status : Nat) : (s.preemptDone die status).mem = s.mem := rfl

@[simp] theorem State.dropPend_keeps_mem (s : State) (c : Ctx) (p : Pend) : (s.dropPend c p).mem = s.mem := by
  unfold State.dropPend
  simp

@[simp] theorem State.abandonLoad_keeps_mem (s : State) (c : Ctx) (p : Pend) : (s.abandonLoad c p).mem = s.mem := by
  have hstable := mem_stable s.mem
  unfold State.abandonLoad
  dsimp only
  split
  · simp
  · split
    · simp
    · rename_i takes _ x y t hpops
      refine (State.forgetAll_keeps_mem _ _).trans ?_
      have hread : Res.All (fun r : Word × Word × State => r.2.2.mem = s.mem) (.ok (x, y, t)) := by
        rw [← hpops]
        refine .ite (fun _ => .bind (takeTok_stable hstable _ rfl) ?_) fun _ => .bind (Q := (State.mem · = s.mem)) (.pure rfl) ?_
        all_goals
          refine fun _ h1 => .bind (readReg_stable hstable _ h1) fun _ h2 => ?_
          split
          · exact .bind (readReg_stable hstable _ h2) fun _ h3 => .pure h3
          · exact .bind (Q := fun r : Word × State => r.2.mem = s.mem) (.pure h2) fun _ h3 => .pure h3
      exact hread _ rfl

@[simp] theorem State.settle_keeps_mem (s : State) (c : Ctx) : (s.settle c).mem = s.mem := by
  unfold State.settle
  dsimp only
  (repeat' split) <;> simp

@[simp] theorem State.stopStrand_keeps_mem (s : State) (die polder k : Nat) : (s.stopStrand die polder k).mem = s.mem := by
  unfold State.stopStrand
  dsimp only
  (repeat' split) <;> simp

@[simp] theorem State.stopCopies_keeps_mem (s : State) (die polder : Nat) : (s.stopCopies die polder).mem = s.mem := by
  unfold State.stopCopies
  simp

@[simp] theorem State.stopFamily_keeps_mem (s : State) (die l : Nat) : (s.stopFamily die l).mem = s.mem := by
  unfold State.stopFamily
  grind [foldl_mem, foldl_snd_mem, State.setCrew_mem, State.stopStrand_keeps_mem, State.stopCopies_keeps_mem]

@[simp] theorem State.preemptStop_keeps_mem (s : State) (die : Nat) (save : Bool) : (s.preemptStop die save).mem = s.mem := by
  unfold State.preemptStop
  dsimp only
  (repeat' split) <;> simp

@[simp] theorem State.continueCrew_keeps_mem (s : State) (die polder : Nat) (ws : List Nat) :
    (s.continueCrew die polder ws).mem = s.mem := by
  unfold State.continueCrew
  grind [foldl_mem, foldl_snd_mem, State.setCrew_mem, State.endUnmade_keeps_mem]

@[simp] theorem State.continueAll_keeps_mem (s : State) (die l : Nat) : (s.continueAll die l).mem = s.mem := by
  unfold State.continueAll
  exact foldl_mem (fun _ _ => by grind [State.setTe_keeps_mem, State.continueCrew_keeps_mem]) _ _

@[simp] theorem State.preemptResume_keeps_mem (s : State) (die : Nat) : (s.preemptResume die).mem = s.mem := by
  unfold State.preemptResume
  grind [foldl_mem, foldl_snd_mem, State.setCrew_mem, State.setTe_keeps_mem, State.preemptDone_keeps_mem, State.continueAll_keeps_mem]

theorem State.orphan_canonical (s : State) (die context key : Nat) (st : Strand) (h : Memory.isCanonical s.mem = true) :
    Memory.isCanonical (s.orphan die context key st).mem = true := by
  unfold State.orphan
  exact foldl_canonical (fun _ _ h => by grind [State.setDie_mem, State.flush_canonical]) _ h

theorem State.preemptDiscard_canonical (s : State) (die : Nat) (h : Memory.isCanonical s.mem = true) : Memory.isCanonical (s.preemptDiscard die).mem = true := by
  unfold State.preemptDiscard
  grind [foldl_canonical, foldl_snd_canonical, foldl_mem, foldl_snd_mem, State.setDie_mem, State.setTe_keeps_mem, State.sendMirror_keeps_mem,
    State.report_canonical, State.decrement_canonical, State.hostRetired_keeps_mem, State.nodeDone_keeps_mem, State.preemptDone_keeps_mem,
    State.orphan_canonical]

@[simp] theorem State.withdrawWaiters_keeps_mem (s : State) (die l : Nat) : (s.withdrawWaiters die l).mem = s.mem := by
  unfold State.withdrawWaiters
  grind [foldl_mem, foldl_snd_mem, State.settle_keeps_mem]

theorem State.saveCrew_canonical (s : State) (die base : Nat) (x : Nat × Nat × Nat) (off : Nat) (h : Memory.isCanonical s.mem = true) :
    Memory.isCanonical (s.saveCrew die base x off).mem = true := by
  unfold State.saveCrew
  grind [State.writeN_canonical, State.setTe_keeps_mem, State.copyRange_canonical]

theorem State.saveFamily_canonical (s : State) (die l : Nat) (h : Memory.isCanonical s.mem = true) : Memory.isCanonical (s.saveFamily die l).mem = true := by
  unfold State.saveFamily
  grind [foldl_canonical, foldl_snd_canonical, foldl_mem, foldl_snd_mem, State.writeN_canonical, State.saveCrew_canonical]

@[simp] theorem State.writeSnap_keeps_mem (s : State) (die : Nat) (v : Word) : (s.writeSnap die v).mem = s.mem := by
  unfold State.writeSnap
  dsimp only
  (repeat' split) <;> rfl

end Sys2Proof.Machine
end

section
namespace Sys2Proof.Machine

/-! ## The ring engine: what they leave of memory -/

@[simp] theorem State.setSeg_keeps_mem (s : State) (die i : Nat) (w : Word) : (s.setSeg die i w).mem = s.mem := by
  unfold State.setSeg
  split <;> rfl

@[simp] theorem State.showSeg_keeps_mem (s : State) (die i : Nat) : (s.showSeg die i).mem = s.mem := by
  unfold State.showSeg
  simp

@[simp] theorem State.retainOnly_keeps_mem (s : State) (die n : Nat) : (s.retainOnly die n).mem = s.mem := by
  unfold State.retainOnly
  exact foldl_mem (fun _ _ => by grind [State.setRg_keeps_mem, State.showSeg_keeps_mem]) _ _

@[simp] theorem State.trimFreeboard_keeps_mem (s : State) (die : Nat) : (s.trimFreeboard die).mem = s.mem := by
  unfold State.trimFreeboard
  simp

@[simp] theorem State.ringEvent_keeps_mem (s : State) (die kind seg detail : Nat) : (s.ringEvent die kind seg detail).mem = s.mem := by
  unfold State.ringEvent
  dsimp only
  (repeat' split) <;> rfl

@[simp] theorem State.ringCount_keeps_mem (s : State) (die hi lo : Nat) : (s.ringCount die hi lo).mem = s.mem := rfl

@[simp] theorem State.raiseTag_keeps_mem (s : State) (die i rot : Nat) : (s.raiseTag die i rot).mem = s.mem := by
  unfold State.raiseTag
  dsimp only
  (repeat' split) <;> simp

@[simp] theorem State.startNext_keeps_mem (s : State) (die : Nat) : (s.startNext die).mem = s.mem := by
  unfold State.startNext
  dsimp only
  (repeat' split) <;> rfl

@[simp] theorem State.unqueue_keeps_mem (s : State) (die i : Nat) : (s.unqueue die i).mem = s.mem := by
  unfold State.unqueue
  dsimp only
  (repeat' split) <;> simp

@[simp] theorem State.enqueueSeg_keeps_mem (s : State) (die i : Nat) : (s.enqueueSeg die i).mem = s.mem := by
  unfold State.enqueueSeg
  simp

theorem State.storeSeg_canonical (s : State) (die i payload crc : Nat) (h : Memory.isCanonical s.mem = true) :
    Memory.isCanonical (s.storeSeg die i payload crc).mem = true := by
  unfold State.storeSeg
  grind [State.writeN_canonical, State.setRg_keeps_mem]

@[simp] theorem State.dropEnd_keeps_mem (s : State) (die i : Nat) : (s.dropEnd die i).mem = s.mem := by
  unfold State.dropEnd
  grind [foldl_mem, foldl_snd_mem, State.setRg_keeps_mem, State.ringEvent_keeps_mem]

@[simp] theorem State.dropHere_keeps_mem (s : State) (die i : Nat) : (s.dropHere die i).mem = s.mem := by
  unfold State.dropHere
  simp

@[simp] theorem State.takeDrop_keeps_mem (s : State) (die i origin : Nat) : (s.takeDrop die i origin).mem = s.mem := by
  unfold State.takeDrop
  split <;> simp

@[simp] theorem State.reportLost_keeps_mem (s : State) (die i reason : Nat) : (s.reportLost die i reason).mem = s.mem := by
  unfold State.reportLost
  simp

@[simp] theorem State.setRepair_keeps_mem (s : State) (die : Nat) (p : Repair) : (s.setRepair die p).mem = s.mem := by
  unfold State.setRepair
  grind [foldl_mem, foldl_snd_mem, State.setRg_keeps_mem, State.ringEvent_keeps_mem, State.startNext_keeps_mem]

@[simp] theorem State.repairLost_keeps_mem (s : State) (die i reason : Nat) : (s.repairLost die i reason).mem = s.mem := by
  unfold State.repairLost
  dsimp only
  (repeat' split) <;> simp

@[simp] theorem State.arrived_keeps_mem (s : State) (die i rot : Nat) (dropped : Bool) : (s.arrived die i rot dropped).mem = s.mem := by
  unfold State.arrived
  dsimp only
  (repeat' split) <;> simp

theorem State.insertRebuilt_canonical (s : State) (die fuel x : Nat) (h : Memory.isCanonical s.mem = true) :
    Memory.isCanonical (s.insertRebuilt die fuel x).mem = true := by
  induction fuel generalizing s x with
  | zero => exact h
  | succ fuel ih =>
    unfold State.insertRebuilt
    dsimp only
    split
    · exact h
    · split
      · exact h
      · exact ih _ _ (by simp [h, State.storeSeg_canonical])

@[simp] theorem State.foundBad_keeps_mem (s : State) (die i : Nat) : (s.foundBad die i).mem = s.mem := by
  unfold State.foundBad
  simp

@[simp] theorem State.queueSeg_keeps_mem (s : State) (die i : Nat) : (s.queueSeg die i).mem = s.mem := by
  unfold State.queueSeg
  dsimp only
  (repeat' split) <;> simp

theorem State.takeFrame_canonical (s : State) (die : Nat) (f0 : Frame) (damaged ingress : Bool) (h : Memory.isCanonical s.mem = true) :
    Memory.isCanonical (s.takeFrame die f0 damaged ingress).mem = true := by
  unfold State.takeFrame
  grind [State.setRg_keeps_mem, State.setSeg_keeps_mem, State.retainOnly_keeps_mem, State.ringEvent_keeps_mem, State.ringCount_keeps_mem,
    State.startNext_keeps_mem, State.storeSeg_canonical, State.dropEnd_keeps_mem, State.arrived_keeps_mem, State.insertRebuilt_canonical,
    State.foundBad_keeps_mem, State.queueSeg_keeps_mem]

theorem State.passEnd_canonical (s : State) (die : Nat) (j : RingJob) (h : Memory.isCanonical s.mem = true) : Memory.isCanonical (s.passEnd die j).mem = true := by
  unfold State.passEnd
  dsimp only
  (repeat' split) <;> simp [h, State.storeSeg_canonical]

theorem State.foldAll_canonical (s : State) (die : Nat) (f : Frame) (h : Memory.isCanonical s.mem = true) : Memory.isCanonical (s.foldAll die f).mem = true := by
  unfold State.foldAll
  exact foldl_canonical (fun _ _ h => by grind [State.setRg_keeps_mem, State.repairLost_keeps_mem, State.passEnd_canonical]) _ h

@[simp] theorem State.takeLost_keeps_mem (s : State) (die i origin : Nat) : (s.takeLost die i origin).mem = s.mem := by
  unfold State.takeLost
  split <;> simp

@[simp] theorem State.abandonJobs_keeps_mem (s : State) (die : Nat) : (s.abandonJobs die).mem = s.mem := by
  unfold State.abandonJobs
  exact foldl_mem (fun _ _ => by grind [State.setRg_keeps_mem, State.ringEvent_keeps_mem, State.reportLost_keeps_mem]) _ _

@[simp] theorem State.holdHere_keeps_mem (s : State) (die : Nat) : (s.holdHere die).mem = s.mem := by
  unfold State.holdHere
  simp

theorem State.foldl_request_canonical (q : State → Nat → Req) (l : List Nat) (s : State) (h : Memory.isCanonical s.mem = true) :
    Memory.isCanonical (l.foldl (fun t e => (t.request (q t e)).2) s).mem = true :=
  foldl_canonical (fun _ _ ht => State.request_canonical _ _ ht) _ h

theorem State.sendHolds_canonical (s : State) (die : Nat) (r : RingHold) (h : Memory.isCanonical s.mem = true) :
    Memory.isCanonical (s.sendHolds die r).mem = true := State.foldl_request_canonical _ _ _ h

theorem State.holdRing_canonical (s : State) (die : Nat) (r : RingHold) (h : Memory.isCanonical s.mem = true) :
    Memory.isCanonical (s.holdRing die r).mem = true :=
  State.sendHolds_canonical _ _ _ (by simpa using h)

@[simp] theorem State.takeHold_keeps_mem (s : State) (die arg : Nat) : (s.takeHold die arg).mem = s.mem := by
  unfold State.takeHold
  dsimp only
  (repeat' split) <;> simp

@[simp] theorem State.failRing_keeps_mem (s : State) (die : Nat) (failed : List Nat) : (s.failRing die failed).mem = s.mem := by
  unfold State.failRing
  grind [foldl_mem, foldl_snd_mem, State.setRg_keeps_mem, State.ringEvent_keeps_mem, State.ringCount_keeps_mem]

theorem State.writeLosses_canonical (s : State) (die : Nat) (h : Memory.isCanonical s.mem = true) : Memory.isCanonical (s.writeLosses die).mem = true := by
  unfold State.writeLosses
  grind [foldl_canonical, foldl_snd_canonical, foldl_mem, foldl_snd_mem, State.writeN_canonical, State.raise_keeps_mem, State.setRg_keeps_mem,
    State.ringEvent_keeps_mem]

@[simp] theorem State.foldl_setRg_mem (l : List Nat) (f : State → Nat → RingEngine) (s : State) :
    (l.foldl (fun t e => t.setRg e (f t e)) s).mem = s.mem := foldl_mem (fun _ _ => by simp) l s

@[simp] theorem State.foldl_reportLost_mem (l : List Nat) (die reason : Nat) (s : State) :
    (l.foldl (fun t i => t.reportLost die i reason) s).mem = s.mem := foldl_mem (fun _ _ => by simp) l s

theorem State.ringFails_canonical (s : State) (die : Nat) (linkOnly : Bool) (h : Memory.isCanonical s.mem = true) :
    Memory.isCanonical (s.ringFails die linkOnly).mem = true := by
  unfold State.ringFails
  dsimp only
  (repeat' split) <;> simp [h, State.sendHolds_canonical, State.holdRing_canonical, State.writeLosses_canonical]

@[simp] theorem State.setBypass_keeps_mem (s : State) (die : Nat) (b : Bool) : (s.setBypass die b).mem = s.mem := rfl

@[simp] theorem State.clearRing_keeps_mem (s : State) (die : Nat) : (s.clearRing die).mem = s.mem := by
  unfold State.clearRing
  exact foldl_mem (fun _ _ => by grind [State.setRg_keeps_mem, State.showSeg_keeps_mem]) _ _

@[simp] theorem State.foldl_showSeg_mem (l : List Nat) (u : Nat) (s : State) : (l.foldl (fun t i => t.showSeg u i) s).mem = s.mem :=
  foldl_mem (fun _ _ => by simp) l s

@[simp] theorem State.repairRing_keeps_mem (s : State) (die target : Nat) (told : List Nat) :
    (s.repairRing die target told).mem = s.mem := by
  unfold State.repairRing
  extract_lets w u lost n s1 back s2 order p alive s3 s4 survivors m s5 s6
  clear_value u
  have h1 : s1.mem = s.mem := by
    unfold s1
    split <;> simp
  have h2 : s2.mem = s1.mem := by
    unfold s2
    split <;> simp
  have h5 : s5.mem = s4.mem := foldl_mem (fun t e => by dsimp only; (repeat' split) <;> simp) _ _
  have h6 : s6.mem = s5.mem := by
    dsimp only [s6]
    split <;> simp
  calc (alive.foldl (fun (s : State) e => s.startNext e) s6).mem = s5.mem := (foldl_mem (fun _ _ => by simp) _ _).trans h6
    _ = s3.mem := h5.trans (by simp [s4])
    _ = s2.mem := by simp [s3]
    _ = s.mem := h2.trans h1

@[simp] theorem State.runRing_keeps_mem (s : State) (die : Nat) : (s.runRing die).mem = s.mem := by
  unfold State.runRing
  exact foldl_mem (fun _ _ => by grind [State.setRg_keeps_mem, State.startNext_keeps_mem]) _ _

@[simp] theorem State.startRotation_keeps_mem (s : State) (die : Nat) : (s.startRotation die).mem = s.mem := rfl

theorem ringWord_canonical (rd : BitVec 5) {body : Nat → State → Res (Nat × State)}
    (hbody : ∀ die s, Memory.isCanonical s.mem = true → (body die s).All (Memory.isCanonical ·.2.mem = true)) (s : State) (h : Memory.isCanonical s.mem = true) :
    Memory.isCanonical (ringWord rd body s).mem = true :=
  runWord_stable memory_stable _ _ _ h fun _ h1 => .bind (hbody _ _ h1) fun _ h2 => .bind (writeReg_stable memory_stable _ _ h2) fun _ h3 =>
    .pure h3

end Sys2Proof.Machine
end

section
namespace Sys2Proof.Machine

/-! ## Task words, loads and translations: what they leave of memory -/

theorem taskWord_canonical (mark : Marking) (tk : BitVec 4) {body : State → State → Res Eff} (s : State) (h : Memory.isCanonical s.mem = true)
    (hbody : ∀ t, Memory.isCanonical t.mem = true → (body s t).All (Memory.isCanonical ·.state.mem = true)) :
    Memory.isCanonical (taskWord mark tk body s).mem = true :=
  runWordM_stable memory_stable _ _ _ _ h fun _ h1 => .bind (.any _) fun _ _ => .bind (.any _) fun _ _ => hbody _ h1

theorem State.spawnNow_canonical (s : State) (c : Ctx) (job template arg : Nat) (h : Memory.isCanonical s.mem = true) :
    Memory.isCanonical (s.spawnNow c job template arg).2.mem = true := by
  unfold State.spawnNow
  dsimp only
  (repeat' split) <;> simp [h, State.rejectUnread_canonical]

@[simp] theorem State.rqsetNow_keeps_mem (s : State) (die : Nat) (a b : Word) : (s.rqsetNow die a b).2.mem = s.mem := by
  unfold State.rqsetNow
  dsimp only
  (repeat' split) <;> simp

@[simp] theorem readDieReg_keeps_mem (s : State) (die off : Nat) : (readDieReg s die off).2.mem = s.mem := rfl

/-- The state that a fetch of ranges comes to. -/
def Fetch.state : Fetch → State
  | .stay t => t
  | .got _ _ t => t

section
variable {s0 s : State} (h0 : Memory.isCanonical s0.mem = true) (h : Memory.isCanonical s.mem = true)
include h

theorem pushVector_canonical (q : Nat) (e : VEntry) : (pushVector q e s).All (Memory.isCanonical ·.mem = true) :=
  .bind (.any _) fun _ _ => .pure h

theorem deliverVector_canonical (lanes : List Lane) (width : BitVec 2) (w q : Nat) (statp : BitVec 4) :
    (deliverVector lanes width w q statp s).All (Memory.isCanonical ·.mem = true) := by
  refine .bind (.any _) fun r _ => pushVector_canonical ?_ _ _
  split
  · exact h
  · exact h

theorem vloadSources_canonical (v : VLoad) : (vloadSources v s).All (Memory.isCanonical ·.2.2.mem = true) := by
  refine .bind (readReg_stable memory_stable _ h) fun _ h1 => .ite (fun _ => .bind (.any _) fun _ _ => .pure h1) fun _ =>
    .bind (readReg_stable memory_stable _ h1) fun _ h2 => .ite (fun _ => .bind (.any _) fun _ _ => .pure h2) fun _ =>
    .ite (fun _ => .trap _ _) fun _ => .bind (.any _) fun _ _ => .pure h2

include h0

/-- A read of ranges keeps memory's form, whether it completes or stays (R53). -/
theorem fetchRanges_canonical (r : Reader) (wide room : Bool) (ranges : List (Nat × Nat)) (data : List Nat) :
    (fetchRanges readDieReg r wide room ranges data s0 s).All (Memory.isCanonical ·.state.mem = true) := by
  have hback : Memory.isCanonical (if wide then s0.writeBackContext s0.cur else ([], s0)).2.mem = true := by
    split
    · exact State.writeBackContext_canonical _ _ h0
    · exact h0
  have hread : ∀ (held secs : List (Nat × Nat)), Memory.isCanonical (readSectors readDieReg r held secs s).2.mem = true :=
    fun held secs => (congrArg _ (readSectors_keeps_mem readDieReg_keeps_mem r held secs s)).trans h
  unfold fetchRanges
  dsimp only
  split
  · refine .ite (fun _ => .bind (Q := fun _ => False) (.hold _) nofun) fun _ => .bind (.any _) fun _ _ => ?_
    refine .ite (fun _ => .bind (.any _) fun _ _ => ?_) fun _ => ?_
    all_goals
      refine .ite (fun _ => .pure (hread _ _)) fun _ => .pure (State.setPending_canonical ?_ _)
      exact State.askSectors_canonical _ _ _ _ hback
  · refine .ite (fun _ => .pure ?_) fun _ => .ite (fun _ => .pure h0) fun _ => .pure (hread _ _)
    exact State.setPending_canonical (State.askSectors_canonical _ _ _ _ h0) _

theorem vectorLoad_canonical (v : VLoad) (complete : Bool) :
    (vectorLoad v complete s0 s).All (Memory.isCanonical ·.state.mem = true) := by
  refine .bind (.any _) fun _ _ => .bind (vloadSources_canonical h v) fun _ h1 => ?_
  dsimp only
  split
  · exact .bind (Q := fun _ => False) (.trap _ _) nofun
  · refine .bind (fetchRanges_canonical h0 h1 _ _ _ _ _) fun fetched hf => ?_
    cases fetched with
    | stay t => exact .pure hf
    | got rs ids t =>
      refine .ite (fun _ => .bind (.any _) fun _ _ => .bind (deliverVector_canonical hf _ _ _ _ _) fun _ h2 => .pure ?_) fun _ =>
        .ite (fun _ => .pure h0) fun _ => .pure (State.setPending_canonical h0 _)
      simp only [Eff.state]
      (repeat' split) <;> simpa using h2

end

theorem vectorLoadWord_canonical (mark : Marking) (v : VLoad) (s : State) (h : Memory.isCanonical s.mem = true) :
    Memory.isCanonical (vectorLoadWord mark v s).mem = true :=
  runLoad_stable memory_stable _ _ h fun _ h1 => vectorLoad_canonical h h1 v false

@[simp] theorem State.setHandle_keeps_mem (s : State) (n : Nat) (h : Handle) : (s.setHandle n h).mem = s.mem := rfl

/-- The record unit. Its function, and not an application of it, is unfolded: compared with its body, the kernel would evaluate the
place of the record area. -/
theorem State.faultRecord_canonical (s : State) (c : Ctx) (context va : Nat) (h : Memory.isCanonical s.mem = true) :
    Memory.isCanonical (s.faultRecord c context va).2.mem = true := by
  generalize hr : s.faultRecord c context va = r
  generalize hf : State.faultRecord = f at hr
  delta State.faultRecord at hf
  subst hf
  beta_reduce at hr
  extract_lets +onlyGivenNames d at hr
  generalize d.faultArea c.die = area at hr
  obtain ⟨n, base⟩ := area
  dsimp only at hr
  split at hr
  · subst hr
    exact State.writeN_canonical _ _ _ _ (State.writeN_canonical _ _ _ _ h)
  · split at hr
    · subst hr
      refine (congrArg Memory.isCanonical (State.raise_keeps_mem _ _ _)).trans ?_
      exact State.writeN_canonical _ _ _ _ (State.writeN_canonical _ _ _ _ (State.writeN_canonical _ _ _ _
        (State.writeN_canonical _ _ _ _ h)))
    · subst hr
      exact h

theorem State.closeRecord_canonical (s : State) (die k : Nat) (h : Memory.isCanonical s.mem = true) :
    Memory.isCanonical (s.closeRecord die k).mem = true := by
  generalize hr : s.closeRecord die k = r
  generalize hf : State.closeRecord = f at hr
  delta State.closeRecord at hf
  subst hf
  beta_reduce at hr
  generalize (s.die die).faultArea die = area at hr
  obtain ⟨n, base⟩ := area
  dsimp only at hr
  split at hr
  · subst hr
    exact h
  · subst hr
    exact State.writeN_canonical _ _ _ _ h

theorem State.prefetch_canonical (s : State) (r : Reader) (idx : Nat) (h : Memory.isCanonical s.mem = true) : Memory.isCanonical (s.prefetch r idx).mem = true := by
  unfold State.prefetch
  dsimp only
  (repeat' split) <;> simp [h, State.request_canonical, State.sectorFor_canonical]

@[simp] theorem fetchEntry_keeps_mem (x : AffineStream) (r : Res (VEntry × Option Nat)) (q : Nat) (s : State) :
    (fetchEntry x r q s).mem = s.mem := by
  unfold fetchEntry
  dsimp only
  (repeat' split) <;> simp

theorem fetchVector_canonical (x : AffineStream) (k q : Nat) (s : State) (h : Memory.isCanonical s.mem = true) :
    Memory.isCanonical (fetchVector x k q s).mem = true := by
  unfold fetchVector
  grind [State.setStrand_mem, State.askSectors_canonical, readSectors_keeps_mem, readDieReg_keeps_mem, fetchEntry_keeps_mem]

end Sys2Proof.Machine
end

section
namespace Sys2Proof.Machine

/-! ## Configuration registers: what they leave of memory -/

@[simp] theorem State.revoke_keeps_mem (s : State) (die k : Nat) : (s.revoke die k).mem = s.mem := by
  unfold State.revoke
  simp

@[simp] theorem State.stopRotation_keeps_mem (s : State) (die reason cause : Nat) : (s.stopRotation die reason cause).mem = s.mem := by
  simp [State.stopRotation, apply_ite State.mem]

@[simp] theorem State.dropInvals_keeps_mem (s : State) (die : Nat) (which : Inval → Bool) : (s.dropInvals die which).mem = s.mem :=
  foldl_mem (fun _ _ => by split <;> simp) _ _

theorem State.sendInval_canonical (s : State) (die : Nat) (v : Inval) (h : Memory.isCanonical s.mem = true) :
    Memory.isCanonical (s.sendInval die v).mem = true := by
  have hsent := State.request_canonical s
    { Req.blank die 64 3 4 (v.holder * 2 ^ 44) 0 0 with op := v.size, arg := v.base, owner := some 0 } h
  generalize hr : s.sendInval die v = r
  generalize hf : State.sendInval = f at hr
  delta State.sendInval at hf
  subst hf
  beta_reduce at hr
  generalize s.request _ = sent at hr hsent
  obtain ⟨id, s1⟩ := sent
  dsimp only at hr hsent
  split at hr <;> subst hr <;> simpa using hsent

theorem State.clearEntry_canonical (s : State) (die k : Nat) (w0 w1 : Word) (owner : Option Nat) (h : Memory.isCanonical s.mem = true) :
    Memory.isCanonical (s.clearEntry die k w0 w1 owner).mem = true := by
  generalize hr : s.clearEntry die k w0 w1 owner = r
  unfold State.clearEntry at hr
  dsimp only at hr
  rw [← hr, State.revoke_keeps_mem]
  refine foldl_canonical_of_eq (fun t v u hu ht => ?_) _ (by rwa [State.setDie_mem])
  rw [← hu]
  exact State.sendInval_canonical _ _ _ ht

theorem State.writeEntry_canonical (s : State) (die k word : Nat) (v : Word) (owner : Option Nat) (h : Memory.isCanonical s.mem = true) :
    Memory.isCanonical (s.writeEntry die k word v owner).mem = true := by
  unfold State.writeEntry
  dsimp only
  (repeat' split) <;> simp [h, State.clearEntry_canonical]

@[simp] theorem State.qpush_keeps_mem (s : State) (die q a : Nat) : (s.qpush die q a).mem = s.mem := by
  unfold State.qpush
  dsimp only
  (repeat' split) <;> simp

@[simp] theorem State.jobClear_keeps_mem (s : State) (die v : Nat) : (s.jobClear die v).mem = s.mem := rfl

theorem State.writeTask_canonical (s : State) (die off : Nat) (v cover : Word) (h : Memory.isCanonical s.mem = true) :
    Memory.isCanonical (s.writeTask die off v cover).mem = true := by
  unfold State.writeTask
  dsimp only
  iterate 5 refine canonical_ite (fun _ => by simpa using h) fun _ => ?_
  refine canonical_ite (fun _ => ?_) fun _ => ?_
  · (repeat' split) <;> simp [h, State.preemptDiscard_canonical]
  · simp [h, apply_ite State.mem]

theorem State.writeAccess_canonical (s : State) (die off : Nat) (v cover : Word) (h : Memory.isCanonical s.mem = true) :
    Memory.isCanonical (s.writeAccess die off v cover).mem = true := by
  unfold State.writeAccess
  dsimp only
  iterate 3 refine canonical_ite (fun _ => h) fun _ => ?_
  refine canonical_ite (fun _ => State.closeRecord_canonical _ _ _ h) fun _ => ?_
  simp [h, apply_ite State.mem]

@[simp] theorem State.writeRing_keeps_mem (s : State) (die off : Nat) (v cover : Word) : (s.writeRing die off v cover).mem = s.mem := by
  simp [State.writeRing, apply_ite State.mem]

@[simp] theorem State.writeFabric_keeps_mem (s : State) (die off : Nat) (v cover : Word) : (s.writeFabric die off v cover).mem = s.mem := by
  unfold State.writeFabric
  dsimp only
  (repeat' split) <;> rfl

@[simp] theorem State.writeError_keeps_mem (s : State) (die off : Nat) (v cover : Word) : (s.writeError die off v cover).mem = s.mem := by
  unfold State.writeError
  dsimp only
  (repeat' split) <;> rfl

theorem State.writeDieReg_canonical (s : State) (die off : Nat) (v cover : Word) (owner : Option Nat) (h : Memory.isCanonical s.mem = true) :
    Memory.isCanonical (s.writeDieReg die off v cover owner).mem = true := by
  unfold State.writeDieReg
  dsimp only
  (repeat' split) <;> simp [h, State.writeEntry_canonical, State.writeTask_canonical, State.writeAccess_canonical]

end Sys2Proof.Machine
end

section
namespace Sys2Proof.Machine

/-! ## The fabric engine: what they leave of memory -/

@[simp] theorem State.countFabric_keeps_mem (s : State) (die hi lo n : Nat) : (s.countFabric die hi lo n).mem = s.mem := rfl

@[simp] theorem State.giveBack_keeps_mem (s : State) (die inl : Nat) (response : Bool) : (s.giveBack die inl response).mem = s.mem := by
  unfold State.giveBack
  split <;> rfl

@[simp] theorem State.watchFlows_keeps_mem (s : State) (die : Nat) : (s.watchFlows die).mem = s.mem := rfl

@[simp] theorem State.launchFlit_keeps_mem (s : State) (die l mask bytes : Nat) : (s.launchFlit die l mask bytes).mem = s.mem := by
  unfold State.launchFlit
  dsimp only
  (repeat' split) <;> rfl

@[simp] theorem State.sendSequenced_keeps_mem (s : State) (die l ftype sop : Nat) (slots : List Nat) :
    (s.sendSequenced die l ftype sop slots).mem = s.mem := by
  unfold State.sendSequenced
  simp

@[simp] theorem State.sendIdle_keeps_mem (s : State) (die l : Nat) : (s.sendIdle die l).mem = s.mem := by
  unfold State.sendIdle
  simp

theorem State.nextPacket_keeps_mem (s : State) (die l : Nat) {r : Packet × State} (h : s.nextPacket die l = some r) : r.2.mem = s.mem := by
  unfold State.nextPacket at h
  dsimp only at h
  split at h
  · cases h
    simp
  · split at h
    · cases h
    · split at h
      · cases h
      · cases h
        simp

@[simp] theorem State.fillSlots_keeps_mem (s : State) (die l n : Nat) : (s.fillSlots die l n).2.2.mem = s.mem := by
  induction n generalizing s with
  | zero => rfl
  | succ n ih =>
    unfold State.fillSlots
    dsimp only
    split
    · simp [ih]
    · split
      · rfl
      · rename_i hnext
        simpa [ih] using State.nextPacket_keeps_mem _ _ _ hnext

@[simp] theorem State.dropLate_keeps_mem (s : State) (die : Nat) : (s.dropLate die).mem = s.mem := by
  unfold State.dropLate
  dsimp only
  split
  · rfl
  · exact (foldl_mem (fun _ _ => by simp) _ _).trans (by simp)

@[simp] theorem State.countRelock_keeps_mem (s : State) (die l peer : Nat) : (s.countRelock die l peer).mem = s.mem := rfl

@[simp] theorem State.relockEnd_keeps_mem (s : State) (die l peer : Nat) (fresh : Bool) (expected : Option Nat) :
    (s.relockEnd die l peer fresh expected).mem = s.mem := by
  unfold State.relockEnd
  split <;> rfl

@[simp] theorem State.relockLink_keeps_mem (s : State) (die l : Nat) (fresh : Bool) : (s.relockLink die l fresh).mem = s.mem := by
  unfold State.relockLink
  dsimp only
  (repeat' split) <;> simp

@[simp] theorem State.raiseLink_keeps_mem (s : State) (d l : Nat) : (s.raiseLink d l).mem = s.mem := rfl

@[simp] theorem State.noticeAside_keeps_mem (s : State) (die dest : Nat) : (s.noticeAside die dest).mem = s.mem := by
  unfold State.noticeAside
  dsimp only
  split
  · rfl
  · split
    · rfl
    · exact foldl_mem (fun _ _ => by (repeat' split) <;> simp) _ _

@[simp] theorem State.takePacket_keeps_mem (s : State) (die l : Nat) (p : Packet) : (s.takePacket die l p).mem = s.mem := by
  unfold State.takePacket
  dsimp only
  (repeat' split) <;> simp

@[simp] theorem State.takeSlot_keeps_mem (s : State) (die l : Nat) (begins : Bool) (v : Nat) : (s.takeSlot die l begins v).mem = s.mem := by
  unfold State.takeSlot
  dsimp only
  (repeat' split) <;> simp

@[simp] theorem State.acceptFlit_keeps_mem (s : State) (die l : Nat) (h : FlitHeader) (payload : Nat) :
    (s.acceptFlit die l h payload).mem = s.mem := by
  unfold State.acceptFlit
  dsimp only
  split
  · simp
  · exact (foldl_mem (fun _ _ => by simp) _ _).trans (by simp)

@[simp] theorem State.setAside_keeps_mem (s : State) (die dest : Nat) : (s.setAside die dest).mem = s.mem := by
  unfold State.setAside
  dsimp only
  (repeat' split) <;> rfl

@[simp] theorem State.handBack_keeps_mem (s : State) (die l j : Nat) : (s.handBack die l j).2.mem = s.mem := by
  unfold State.handBack
  dsimp only
  (repeat' split) <;> rfl

@[simp] theorem State.laneCounts_keeps_mem (s : State) (die l j n : Nat) : (s.laneCounts die l j n).mem = s.mem := by
  unfold State.laneCounts
  dsimp only
  (repeat' split) <;> simp

@[simp] theorem State.dropInbox_keeps_mem (s : State) (die n : Nat) : (s.dropInbox die n).mem = s.mem := by
  unfold State.dropInbox
  dsimp only
  (repeat' split) <;> simp

theorem State.serve_canonical (s : State) (kind : Nat) {perform : Nat → Packet → State → State}
    (hperform : ∀ die p t, Memory.isCanonical t.mem = true → Memory.isCanonical (perform die p t).mem = true)
    (h : Memory.isCanonical s.mem = true) : Memory.isCanonical (s.serve kind perform).mem = true := by
  unfold State.serve
  dsimp only
  split
  · exact h
  · split
    · exact h
    · split
      · simpa using h
      · split
        · simpa using h
        · exact hperform _ _ _ (by simpa using h)

theorem State.toHost_canonical (s : State) (die : Nat) (p : Packet) (kind : Nat) (h : Memory.isCanonical s.mem = true) :
    Memory.isCanonical (s.toHost die p kind).mem = true := by
  unfold State.toHost
  split <;> simp [h, State.request_canonical]

theorem State.clearFilled_canonical (s : State) (die target base bytes : Nat) (h : Memory.isCanonical s.mem = true) :
    Memory.isCanonical (s.clearFilled die target base bytes).mem = true := by
  refine foldl_canonical (fun t e ht => ?_) _ h
  dsimp only
  split
  · exact State.clearEntry_canonical _ _ _ _ _ _ ht
  · exact ht

@[simp] theorem State.answerCleared_keeps_mem (s : State) (die : Nat) : (s.answerCleared die).mem = s.mem :=
  foldl_mem (fun _ _ => by simp) _ _

theorem State.beginClearing_canonical (s : State) (die : Nat) (p : Packet) (h : Memory.isCanonical s.mem = true) :
    Memory.isCanonical (s.beginClearing die p).mem = true := by
  unfold State.beginClearing
  simp [h, State.flush_canonical, State.clearFilled_canonical]

theorem State.takeResponse_canonical (s : State) (kind : Nat) (h : Memory.isCanonical s.mem = true) : Memory.isCanonical (s.takeResponse kind).mem = true := by
  unfold State.takeResponse
  dsimp only
  (repeat' split) <;> simp [h, State.deliver_canonical]

theorem State.resendInvals_canonical (s : State) (die : Nat) (due : Inval → Bool) (h : Memory.isCanonical s.mem = true) :
    Memory.isCanonical (s.resendInvals die due).mem = true := by
  refine foldl_canonical_of_eq (fun t v u hu ht => ?_) _ ?_
  · rw [← hu]
    exact State.sendInval_canonical _ _ _ ht
  · rw [foldl_mem (fun t v => by split <;> simp) _ _, State.setDie_mem]
    exact h

theorem fabricWord_canonical (tk : BitVec 4) {body : State → State → Res Eff} (s : State) (h : Memory.isCanonical s.mem = true)
    (hbody : ∀ t, Memory.isCanonical t.mem = true → (body s t).All (Memory.isCanonical ·.state.mem = true)) :
    Memory.isCanonical (fabricWord tk body s).mem = true :=
  runWordM_stable memory_stable _ _ _ _ h fun _ h1 => .bind (.any _) fun _ _ => hbody _ h1

@[simp] theorem State.fillNow_keeps_mem (s : State) (die k target : Nat) (r : Reply) (raced : Bool) :
    (s.fillNow die k target r raced).2.mem = s.mem := by
  unfold State.fillNow
  dsimp only
  (repeat' split) <;> rfl

end Sys2Proof.Machine
end

section
namespace Sys2Proof.Machine

/-! ## The sluice, the host engine and the management controller: what they leave of memory -/

theorem State.with_sluice_mem (s : State) (x : Sluice) : { s with sluice := x }.mem = s.mem := rfl

theorem State.with_host_mem (s : State) (x : HostEngine) : { s with host := x }.mem = s.mem := rfl

@[simp] theorem State.endSluice_keeps_mem (s : State) (status reason bad : Nat) : (s.endSluice status reason bad).mem = s.mem :=
  State.with_sluice_mem _ _

theorem State.freezeDie_canonical (s : State) (scope : List Nat) (d : Nat) (h : Memory.isCanonical s.mem = true) :
    Memory.isCanonical (s.freezeDie scope d).mem = true := by
  unfold State.freezeDie
  dsimp only
  rw [foldl_mem (fun t l => by (repeat' split) <;> simp) _ _, State.setDie_mem]
  exact State.writeBackAll_canonical _ _ _ _ (by simpa using h)

theorem State.sluiceGo_canonical (s0 : State) (offers : List (Nat × Word)) (farEpoch : Nat) (h : Memory.isCanonical s0.mem = true) :
    Memory.isCanonical (s0.sluiceGo offers farEpoch).mem = true := by
  have hs : ∀ b : Bool, Memory.isCanonical
      (if b then s0 else { s0 with sluice := { s0.sluice with offers := offers, farEpoch := farEpoch } }).mem = true := by
    intro b
    cases b <;> exact h
  unfold State.sluiceGo
  extract_lets busy asked s x scope set
  replace hs : Memory.isCanonical s.mem = true := hs busy
  have hset : ∀ w, Memory.isCanonical (set w).mem = true := fun w => (congrArg _ (State.with_sluice_mem s _)).trans hs
  split
  · exact hset _
  · split
    · exact hset _
    · split
      · exact hset _
      · refine foldl_canonical_of_eq (fun t d u hu ht => ?_) _ ((congrArg _ (State.with_sluice_mem s _)).trans hs)
        rw [← hu]
        exact State.freezeDie_canonical _ _ _ ht

theorem State.releaseHeld_canonical (s : State) (dies : List Nat) (h : Memory.isCanonical s.mem = true) :
    Memory.isCanonical (s.releaseHeld dies).mem = true := by
  unfold State.releaseHeld
  rw [State.pump_keeps_mem]
  refine foldl_canonical (fun t e ht => ?_) _ ?_
  · split
    · exact State.deliver_canonical _ _ _ ht
    · exact ht
  · rw [foldl_mem (fun t d => by simp) _ _]
    exact h

@[simp] theorem State.ringChanged_keeps_mem (s : State) (d : Nat) : (s.ringChanged d).mem = s.mem := by
  unfold State.ringChanged
  simp

theorem State.groupChanged_canonical (s : State) (d : Nat) (h : Memory.isCanonical s.mem = true) :
    Memory.isCanonical (s.groupChanged d).mem = true := by
  unfold State.groupChanged
  rw [State.dropInvals_keeps_mem]
  refine foldl_canonical (fun t e ht => ?_) _ ?_
  · split
    · exact ht
    · exact State.errorEvent_canonical _ _ _ _ _ _ _ ht
  · rw [State.setDie_mem]
    refine foldl_canonical (fun t e ht => ?_) _ h
    dsimp only
    split
    · exact State.clearEntry_canonical _ _ _ _ _ _ ht
    · exact ht

@[simp] theorem State.publishDie_keeps_mem (s : State) (f : Nat → Word) (epoch d : Nat) : (s.publishDie f epoch d).mem = s.mem := rfl

@[simp] theorem State.patchLink_keeps_mem (s : State) (f : Nat → Word) (boot : Bool) (failed : List Nat) (d l : Nat) :
    (s.patchLink f boot failed d l).mem = s.mem := by
  unfold State.patchLink
  dsimp only
  (repeat' split) <;> simp

theorem State.publishMaps_canonical (s : State) (scope : List Nat) (new : Nat → Word) (epoch : Nat) (boot : Bool) (failed : List Nat)
    (h : Memory.isCanonical s.mem = true) : Memory.isCanonical (s.publishMaps scope new epoch boot failed).mem = true := by
  unfold State.publishMaps
  refine State.releaseHeld_canonical _ _ (foldl_canonical (fun t d ht => ?_) _ ?_)
  · split
    · exact State.groupChanged_canonical _ _ ht
    · exact ht
  · rw [foldl_mem (fun t d => by split <;> simp) _ _, foldl_mem (fun t d => by split <;> simp) _ _,
      foldl_mem (fun t d => foldl_mem (fun _ _ => by simp) _ _) _ _, foldl_mem (fun t d => by simp) _ _]
    exact h

theorem State.publish_canonical (s : State) (failed : List Nat) (h : Memory.isCanonical s.mem = true) :
    Memory.isCanonical (s.publish failed).mem = true := by
  unfold State.publish
  dsimp only
  rw [State.with_sluice_mem, State.endSluice_keeps_mem]
  exact State.publishMaps_canonical _ _ _ _ _ _ h

theorem State.publishIfDone_canonical (s : State) (h : Memory.isCanonical s.mem = true) : Memory.isCanonical s.publishIfDone.mem = true := by
  unfold State.publishIfDone
  dsimp only
  (repeat' split) <;> simp [h, State.publish_canonical]

theorem State.writeSluice_canonical (s : State) (off : Nat) (v cover : Word) (h : Memory.isCanonical s.mem = true) :
    Memory.isCanonical (s.writeSluice off v cover).mem = true := by
  unfold State.writeSluice
  dsimp only
  (repeat' split) <;> simp [h, State.sluiceGo_canonical]

@[simp] theorem State.complete_keeps_mem (s : State) (status data : Nat) : (s.complete status data).mem = s.mem := rfl

@[simp] theorem State.flushMsi_keeps_mem (s : State) : s.flushMsi.mem = s.mem := rfl

@[simp] theorem State.setUq_keeps_mem (s : State) (u : Nat) (q : UserQueue) : (s.setUq u q).mem = s.mem := rfl

@[simp] theorem State.writeUqctl_keeps_mem (s : State) (u : Nat) (v cover : Word) : (s.writeUqctl u v cover).mem = s.mem := rfl

@[simp] theorem State.writeHost_keeps_mem (s : State) (off : Nat) (v cover : Word) : (s.writeHost off v cover).mem = s.mem := by
  unfold State.writeHost
  dsimp only
  (repeat' split) <;> rfl

@[simp] theorem State.writeMsix_keeps_mem (s : State) (off : Nat) (v cover : Word) : (s.writeMsix off v cover).mem = s.mem := rfl

@[simp] theorem State.writeMailbox_keeps_mem (s : State) (off : Nat) (v cover : Word) : (s.writeMailbox off v cover).mem = s.mem := by
  unfold State.writeMailbox
  dsimp only
  (repeat' split) <;> simp

@[simp] theorem State.unrequested_keeps_mem (s : State) : s.unrequested.mem = s.mem := State.with_host_mem _ _

theorem State.writeBar0_canonical (s : State) (off : Nat) (v cover : Word) (h : Memory.isCanonical s.mem = true) :
    Memory.isCanonical (s.writeBar0 off v cover).mem = true := by
  unfold State.writeBar0
  grind [State.writeDieReg_canonical, State.writeSluice_canonical, State.writeHost_keeps_mem, State.writeMsix_keeps_mem, State.writeMailbox_keeps_mem,
    State.unrequested_keeps_mem]

@[simp] theorem State.notifyQueue_keeps_mem (s : State) (u : Nat) : (s.notifyQueue u).mem = s.mem := rfl

theorem State.endPacket_canonical (s : State) (u status : Nat) (h : Memory.isCanonical s.mem = true) : Memory.isCanonical (s.endPacket u status).mem = true := by
  unfold State.endPacket
  grind [State.writeN_canonical, State.errorEvent_canonical, State.setUq_keeps_mem]

theorem State.hostWrite_canonical (s : State) (key : Option Nat) (a n data mask poison : Nat) (h : Memory.isCanonical s.mem = true) :
    Memory.isCanonical (s.hostWrite key a n data mask poison).mem = true := by
  unfold State.hostWrite
  grind [State.writeN_canonical, State.writeMasked_canonical, State.markWords_keeps_mem]

theorem State.hostPerform_canonical (s : State) (r : Req) (h : Memory.isCanonical s.mem = true) : Memory.isCanonical (s.hostPerform r).2.mem = true := by
  unfold State.hostPerform
  grind [State.writeN_canonical]

@[simp] theorem State.lateCompletion_keeps_mem (s : State) : s.lateCompletion.mem = s.mem := State.with_host_mem _ _

@[simp] theorem State.loseHost_keeps_mem (s : State) : s.loseHost.mem = s.mem := rfl

section
variable {run : List Nat → State → Nat × List Nat × State}
  (hrun : ∀ bytes t, Memory.isCanonical t.mem = true → Memory.isCanonical (run bytes t).2.2.mem = true)
include hrun

theorem State.runCommand_canonical (s : State) (code : Nat) (bytes : List Nat) (h : Memory.isCanonical s.mem = true) :
    Memory.isCanonical (s.runCommand code bytes run).2.2.mem = true := by
  unfold State.runCommand
  split
  · exact h
  · exact hrun _ _ h

end

@[simp] theorem State.endCommand_keeps_mem (s : State) (status : Nat) (resp : List Nat) : (s.endCommand status resp).mem = s.mem := by
  unfold State.endCommand
  simp

theorem State.command_canonical {run : List Nat → State → Nat × List Nat × State}
    (hrun : ∀ bytes t, Memory.isCanonical t.mem = true → Memory.isCanonical (run bytes t).2.2.mem = true) (s : State) (code : Nat)
    (port : List Nat) (mine ready : List Nat → Bool) (h : Memory.isCanonical s.mem = true) :
    Memory.isCanonical (s.command code port mine ready run).mem = true := by
  unfold State.command
  dsimp only
  (repeat' split) <;> simp [h, State.runCommand_canonical hrun]

@[simp] theorem State.relockAll_keeps_mem (s : State) (all : Bool) : (s.relockAll all).mem = s.mem :=
  foldl_mem (fun _ _ => by dsimp only; (repeat' split) <;> simp) _ _

theorem State.fence_canonical (s : State) (d : Nat) (h : Memory.isCanonical s.mem = true) : Memory.isCanonical (s.fence d).mem = true := by
  unfold State.fence
  dsimp only
  split
  · exact h
  · rw [foldl_mem (fun _ _ => by simp) _ _, State.setDie_mem]
    split
    · split
      · exact h
      · exact State.ringFails_canonical _ _ _ h
    · exact h

/-- Part of a memory in canonical form is in canonical form. -/
theorem Memory.isCanonical_filter (p : Host.Cell → Bool) {m : List Host.Cell} (h : Memory.isCanonical m = true) :
    Memory.isCanonical (m.filter p) = true := Memory.wf_filter p m h

theorem State.resetDie_canonical (s : State) (d : Nat) (h : Memory.isCanonical s.mem = true) :
    Memory.isCanonical (s.resetDie d).mem = true := by
  unfold State.resetDie
  extract_lets mine link cut s1
  have h1 : s1.mem = s.mem := foldl_mem (fun t e => foldl_mem (fun u l => by dsimp only [cut]; split <;> simp) _ _) _ _
  have hkept := Memory.isCanonical_filter (fun c => !mine c.1) h
  rw [← h1] at hkept
  rw [State.setDie_mem]
  clear_value s1
  exact hkept

theorem State.bootWork_canonical (s : State) (k far : Nat) (h : Memory.isCanonical s.mem = true) : Memory.isCanonical (s.bootWork k far).mem = true := by
  unfold State.bootWork
  dsimp only
  (repeat' split) <;> simp [h, State.publishMaps_canonical]

theorem State.bootAside_canonical (s : State) (k t : Nat) (h : Memory.isCanonical s.mem = true) : Memory.isCanonical (s.bootAside k t).mem = true := by
  unfold State.bootAside
  dsimp only
  (repeat' split) <;> simp [h, State.fence_canonical, State.bootWork_canonical]

theorem State.bootFrom_canonical (s : State) (steps : List (Nat × Nat)) (h : Memory.isCanonical s.mem = true) :
    Memory.isCanonical (s.bootFrom steps).mem = true := by
  induction steps generalizing s with
  | nil => exact h
  | cons e r ih =>
    unfold State.bootFrom
    dsimp only
    split
    · exact ih _ h
    · split
      · exact h
      · split
        · exact State.bootAside_canonical _ _ _ h
        · exact ih _ (State.bootAside_canonical _ _ _ h)

theorem State.restart_canonical (s : State) (h : Memory.isCanonical s.mem = true) : Memory.isCanonical s.restart.mem = true :=
  State.bootFrom_canonical _ _ (Memory.isCanonical_filter _ h)

@[simp] theorem State.setCap_keeps_mem (s : State) (d n : Nat) : (s.setCap d n).mem = s.mem := rfl

theorem State.powerRecord_canonical (s : State) (d : Nat) (h : Memory.isCanonical s.mem = true) : Memory.isCanonical (s.powerRecord d).mem = true := by
  unfold State.powerRecord
  simp [h, State.errorEvent_canonical]

theorem State.tickDie_canonical (s : State) (hungry : Bool) (d tenths : Nat) (h : Memory.isCanonical s.mem = true) :
    Memory.isCanonical (s.tickDie hungry d tenths).mem = true := by
  have hcap : ∀ (t : State) (n : Nat), Memory.isCanonical t.mem = true → Memory.isCanonical ((t.setCap d n).powerRecord d).mem = true :=
    fun t n ht => State.powerRecord_canonical _ _ (by simpa using ht)
  unfold State.tickDie
  extract_lets x cur s1 c1 m held c2 since s2 s3
  have h1 : Memory.isCanonical s1.mem = true := by
    unfold s1
    split
    · exact hcap _ _ h
    · exact h
  split
  · exact h
  · split
    · split
      · exact State.fence_canonical _ _ (hcap _ _ h1)
      · exact hcap _ _ h1
    · split
      · exact h1
      · simpa using h1

end Sys2Proof.Machine
end

section
namespace Sys2Proof.Machine

/-! ## Stores, drains and releases: what they leave of memory -/

theorem State.handPiece_canonical (s : State) (kind : BitVec 2) (through : Bool) (group first : Nat) (b : Bytes)
    (h : Memory.isCanonical s.mem = true) : Memory.isCanonical (s.handPiece kind through group first b).2.mem = true := by
  obtain ⟨a, n, v⟩ := b
  have hsector := State.sectorFor_canonical s s.cur.die (a / 128) s.myCrew.context h
  unfold State.handPiece
  dsimp only
  split
  · exact State.writeN_canonical _ _ _ _ h
  · exact foldl_canonical (fun _ _ ht => State.writeDieReg_canonical _ _ _ _ _ _ ht) _ h
  · exact h
  · exact h
  · exact h
  · split
    · exact State.cacheStore_canonical _ _ _ _ _ _ h
    · refine State.request_canonical _ _ ?_
      (repeat' split) <;> simp [hsector, State.cacheStore_canonical]

theorem State.handOn_canonical (s : State) (kind : BitVec 2) (through : Bool) (bs : List Bytes) (h : Memory.isCanonical s.mem = true) :
    Memory.isCanonical (s.handOn kind through bs).mem = true := by
  have hpieces : ∀ ps : List Bytes, Memory.isCanonical (ps.foldl (fun (acc : Nat × State) b =>
      let (st, s1) := acc.2.handPiece kind through s.reqNo (bs.headD (0, 0, 0)).1 b
      (if acc.1 = 0 then st else acc.1, s1)) (0, s)).2.mem = true := fun ps =>
    foldl_snd_canonical (fun acc b ht => by dsimp only; exact State.handPiece_canonical _ _ _ _ _ _ ht) _ h
  unfold State.handOn
  dsimp only
  split
  · exact hpieces _
  · simpa using hpieces _

theorem storeWord_canonical (tk : BitVec 4) (kind : State → BitVec 2) {plan : State → State → Res (List Bytes × State)} (s : State)
    (h : Memory.isCanonical s.mem = true)
    (hplan : ∀ t, Memory.isCanonical t.mem = true → (plan s t).All (Memory.isCanonical ·.2.mem = true)) :
    Memory.isCanonical (storeWord tk kind plan s).mem = true :=
  runWordM_stable memory_stable _ _ _ _ h fun _ h1 => .bind (hplan _ h1) fun _ h2 => .bind (.any _) fun _ _ =>
    .pure (State.handOn_canonical _ _ _ _ h2)

theorem scalarStore_canonical (rs : BitVec 5) (hn : BitVec 3) (ra : BitVec 5) (size : BitVec 2) {s : State}
    (h : Memory.isCanonical s.mem = true) : (scalarStore rs hn ra size s).All (Memory.isCanonical ·.2.mem = true) :=
  .bind (readReg_stable memory_stable _ h) fun _ h1 => .bind (readReg_stable memory_stable _ h1) fun _ h2 => .bind (.any _) fun _ _ =>
    .pure h2

theorem popVXD_canonical (q : Nat) {s : State} (h : Memory.isCanonical s.mem = true) :
    (popVXD q s).All (Memory.isCanonical ·.2.mem = true) := by
  refine .ite (fun _ => .trap _ _) fun _ => ?_
  split
  · exact .hold _
  · exact .pure h

@[simp] theorem State.addRelease_keeps_mem (s : State) (amax : Bool) (kind : BitVec 2) (b : Bytes) (wide : Bool) (k : Stream) :
    (s.addRelease amax kind b wide k).mem = s.mem := rfl

theorem DrainOps.writeSix_canonical (d : DrainOps) (s : State) (codes : List (List Nat)) (h : Memory.isCanonical s.mem = true) :
    Memory.isCanonical (d.writeSix s codes).mem = true := by
  unfold DrainOps.writeSix
  split
  · exact h
  · exact foldl_canonical (fun _ _ ht => foldl_canonical (fun _ _ ht => State.setSixBit_canonical _ _ _ _ ht) _ ht) _ h

theorem State.performRelease_canonical (s : State) (r : Release) (h : Memory.isCanonical s.mem = true) : Memory.isCanonical (s.performRelease r).mem = true := by
  unfold State.performRelease
  split <;> simp [h, State.sendSync_canonical, State.handOn_canonical]

theorem State.advanceRelease_canonical (s : State) (key : Nat) (h : Memory.isCanonical s.mem = true) :
    Memory.isCanonical (s.advanceRelease key).mem = true := by
  unfold State.advanceRelease
  extract_lets c st
  split
  · exact h
  · rename_i r rest _
    extract_lets perform
    have hperform : ∀ t : State, Memory.isCanonical t.mem = true → Memory.isCanonical (perform t).mem = true :=
      fun t ht => State.performRelease_canonical _ _ (by simpa using ht)
    split
    · split
      · exact hperform _ (by simpa using h)
      · exact h
    · split
      · exact h
      · split
        split
        · exact hperform _ h
        · rename_i hwb _
          rw [State.setStrand_mem]
          split at hwb
          · have hback := State.writeBackContext_canonical s c h
            rwa [hwb] at hback
          · cases hwb
            exact h

theorem State.advanceOrphans_canonical (s : State) (die : Nat) (h : Memory.isCanonical s.mem = true) :
    Memory.isCanonical (s.advanceOrphans die).mem = true := by
  refine foldl_canonical (fun t e ht => ?_) _ h
  dsimp only
  split
  · exact ht
  · exact State.performRelease_canonical _ _ (by simpa using ht)

theorem State.advanceReleases_canonical (s : State) (h : Memory.isCanonical s.mem = true) : Memory.isCanonical s.advanceReleases.mem = true :=
  foldl_canonical (fun _ _ ht => State.advanceOrphans_canonical _ _ ht) _
    (foldl_canonical (fun _ _ ht => State.advanceRelease_canonical _ _ ht) _ h)

@[simp] theorem State.enterTree_keeps_mem (s : State) (object want : Nat) : (s.enterTree object want).2.mem = s.mem := rfl

@[simp] theorem State.nextTurn_keeps_mem (s : State) : s.nextTurn.2.mem = s.mem := by
  unfold State.nextTurn
  split <;> rfl

@[simp] theorem State.pass_keeps_mem (s : State) (dt : Nat) : (s.pass dt).mem = s.mem := rfl

theorem State.take_canonical (s : State) (t : Turn) (h : Memory.isCanonical s.mem = true) : Memory.isCanonical (s.take t).mem = true := by
  unfold State.take
  split <;> simp [h, State.advanceReleases_canonical]

end Sys2Proof.Machine
end

section
namespace Sys2Proof.Machine

/-! ## What an instruction leaves of memory -/

/-- The instruction comes to a next state, and memory keeps its canonical form. -/
def KeepsCanonical (s : State) (o : Host.Outcome State Fault Refusal) : Prop :=
  ∃ t, o = .next t ∧ (Memory.isCanonical s.mem = true → Memory.isCanonical t.mem = true)

/-- An instruction that answers with a state. -/
theorem KeepsCanonical.answer {s t : State} (h : Memory.isCanonical s.mem = true → Memory.isCanonical t.mem = true) :
    KeepsCanonical s (answer t) := ⟨t, rfl, h⟩

end Sys2Proof.Machine
end

section
namespace Sys2Proof.Machine

namespace KeepsCanonical

section
variable {s : State} (tk : BitVec 4) {body : State → Res Eff}
  (hbody : ∀ s1, Memory.isCanonical s1.mem = true → (body s1).All (Memory.isCanonical ·.state.mem = true))
include hbody

theorem lower (sf : BitVec 2) : KeepsCanonical s (Machine.answer (runLower sf body s)) := .answer fun h => runLower_stable memory_stable sf h hbody
theorem all : KeepsCanonical s (Machine.answer (runAll body s)) := .answer fun h => runAll_stable memory_stable h hbody
theorem x : KeepsCanonical s (Machine.answer (runX tk body s)) := .answer fun h => runX_stable memory_stable tk h hbody
theorem a : KeepsCanonical s (Machine.answer (runA tk body s)) := .answer fun h => runA_stable memory_stable tk h hbody
theorem d : KeepsCanonical s (Machine.answer (runD tk body s)) := .answer fun h => runD_stable memory_stable tk h hbody
end

/-- A word whose body may also look at the state in which its tokens are not yet taken. -/
theorem word {s : State} (len : Nat) (mine : Str → Bool) (tk : BitVec 4) {body : State → State → Res Eff}
    (hbody : ∀ s1, Memory.isCanonical s.mem = true → Memory.isCanonical s1.mem = true →
      (body s s1).All (Memory.isCanonical ·.state.mem = true)) :
    KeepsCanonical s (Machine.answer (runWord len mine tk body s)) :=
  .answer fun h => runWord_stable memory_stable len mine tk h fun s1 => hbody s1 h

theorem wordM {s : State} (mark : Marking) (len : Nat) (mine : Str → Bool) (tk : BitVec 4) {body : State → State → Res Eff}
    (hbody : ∀ s1, Memory.isCanonical s.mem = true → Memory.isCanonical s1.mem = true →
      (body s s1).All (Memory.isCanonical ·.state.mem = true)) :
    KeepsCanonical s (Machine.answer (runWordM mark len mine tk body s)) :=
  .answer fun h => runWordM_stable memory_stable mark len mine tk h fun s1 => hbody s1 h

end KeepsCanonical

namespace Res.All

variable {α β : Type} {T : β → Prop}

/-- A check that traps where it fails, in front of the rest of the body. -/
theorem passing {c : Prop} [Decidable c] {cause : Nat} {info : Word} {f : α → Res β} {y : Res β} (hy : ¬ c → y.All T) :
    (if c then Machine.trap cause info >>= f else y).All T := .ite (fun _ => .bind (Q := fun _ => False) (.trap _ _) nofun) hy

/-- A condition that the word waits for, in front of the rest of the body. -/
theorem ready {c : Prop} [Decidable c] {w : Wait} {f : α → Res β} {y : Res β} (hy : ¬ c → y.All T) :
    (if c then Machine.hold w >>= f else y).All T := .ite (fun _ => .bind (Q := fun _ => False) (.hold _) nofun) hy

end Res.All

/-! ### Control words -/

/-- A register that is written and then kept. -/
theorem writeReg_next_canonical (rd : BitVec 5) (v : Word) {s : State} (h : Memory.isCanonical s.mem = true) {k : State → Res Eff}
    (hk : ∀ t, k t = .ok (.next t)) : (writeReg rd v s >>= k).All (Memory.isCanonical ·.state.mem = true) :=
  .bind (writeReg_stable memory_stable rd v h) fun t ht => hk t ▸ .pure ht

theorem execPush_keeps (sf : BitVec 2) (reg : BitVec 5) (cls : BitVec 2) (s : State) : KeepsCanonical s (execPush sf reg cls s) :=
  .lower (sf := sf) fun _ h1 => .bind (Q := (Memory.isCanonical ·.2.2.mem = true))
    (.ite (fun _ => .bind (readReg_stable memory_stable _ h1) fun _ h2 => .pure h2)
      fun _ => .ite (fun _ => .bind (readVec_stable memory_stable _ h1) fun _ h2 => .pure h2)
      fun _ => .ite (fun _ => .pure h1) fun _ => .pure h1)
    fun p h2 => .bind (spillPush_canonical (s := p.2.2) h2 p.1 p.2.1) fun _ h3 => .pure (a := Eff.next _) h3

theorem execEret_keeps (s : State) : KeepsCanonical s (execEret s) := .all fun _ h1 =>
  .ite (fun _ => .ite (fun _ => .trap _ _) fun _ => .hold _) fun _ => .ite (fun _ => .pure (by simpa [Eff.state] using h1))
    fun _ => .pure (memory_stable.strand _ h1)

theorem execExit_keeps (s : State) : KeepsCanonical s (execExit s) := .all fun _ h1 =>
  .ite (fun hr => .pure (State.stopRotation_stable memory_stable 0 0 hr h1)) fun _ => .bind (endStream_canonical h1) fun _ h2 => .pure h2

theorem execIllegalInstruction_keeps (s : State) : KeepsCanonical s (execIllegalInstruction s) := .word _ _ _ fun _ _ _ => .trap _ _

theorem execInstructionFetchFault_keeps (s : State) : KeepsCanonical s (execInstructionFetchFault s) := .word _ _ _ fun _ _ _ => .trap _ _

/-! ### Copy words -/

section
variable (tk : BitVec 4) (rd ra rb : BitVec 5) (s : State)

theorem execCpy_keeps (scol sc : BitVec 1) : KeepsCanonical s (execCpy tk scol sc rd ra rb s) := .a tk fun _ h1 =>
  .bind (planCpy_canonical h1 _ _ _ _ _) fun _ h2 => .bind (.any _) fun _ _ => .bind (issueCopy_canonical h2 _) fun _ h3 => .pure h3

theorem execCpyg_keeps : KeepsCanonical s (execCpyg tk rd ra rb s) := .a tk fun _ h1 =>
  .bind (copyRegs_canonical h1 _ _ _) fun _ h2 => .bind (.any _) fun _ _ => .bind (issueCopy_canonical h2 _) fun _ h3 => .pure h3

theorem execCpymeta_keeps : KeepsCanonical s (execCpymeta tk rd ra rb s) := .a tk fun _ h1 =>
  .bind (copyRegs_canonical h1 _ _ _) fun _ h2 => .bind (.any _) fun _ _ => .bind (issueCopy_canonical h2 _) fun _ h3 => .pure h3

theorem execCpyq_keeps : KeepsCanonical s (execCpyq tk ra rb s) := .a tk fun _ h1 =>
  .bind (readReg_stable memory_stable _ h1) fun _ h2 => .bind (readReg_stable memory_stable _ h2) fun _ h3 =>
    .bind (.any _) fun _ _ => .bind (issueCopy_canonical h3 _) fun _ h4 => .pure h4

theorem execCmerge_keeps (op : BitVec 4) : KeepsCanonical s (execCmerge tk op rd ra rb s) := .a tk fun _ h1 =>
  .bind (copyRegs_canonical h1 _ _ _) fun _ h2 => .bind (.any _) fun _ _ => .bind (issueCopy_canonical h2 _) fun _ h3 => .pure h3

theorem execBfmt_keeps (bank : BitVec 7) (code : BitVec 8) : KeepsCanonical s (execBfmt tk bank code s) := .a tk fun _ h1 =>
  .bind (.any _) fun _ _ => .bind (issueCopy_canonical h1 _) fun _ h2 => .pure h2

theorem execCcancel_keeps : KeepsCanonical s (execCcancel tk rd ra s) := .word _ _ tk fun s1 h0 h1 =>
  .bind (readReg_stable memory_stable _ h1) fun r h2 => by
    dsimp only
    have canceled (l : List Nat) (t : State) (ht : Memory.isCanonical t.mem = true) :
        Memory.isCanonical (l.foldl (fun t i => t.cancelCopy s1.cur.die s1.cur.polder i) t).mem = true := by
      rw [foldl_mem (fun t i => State.cancelCopy_keeps_mem t _ _ i)]; exact ht
    split
    · exact .ite (fun _ => .pure h0) fun _ => writeReg_next_canonical _ _ h2 fun _ => rfl
    · exact .ite (fun _ => .pure (State.setPending_canonical (canceled _ _ h0) _))
        fun _ => writeReg_next_canonical _ _ (canceled _ _ h2) fun _ => rfl

theorem execCstat_keeps : KeepsCanonical s (execCstat tk rd ra s) := .a tk fun _ h1 =>
  .bind (readReg_stable memory_stable _ h1) fun _ h2 => .passing fun _ => writeReg_next_canonical _ _ h2 fun _ => rfl

end

theorem execCopySuspend_keeps (s : State) : KeepsCanonical s (execCopySuspend s) := .answer fun h => by
  have dropped (l : List Flight) : (l.foldl (fun s f => s.forgetAll f.ids) s).mem = s.mem :=
    foldl_mem (fun t f => State.forgetAll_keeps_mem t f.ids) l s
  split
  · exact h
  · dsimp only
    split
    · exact h
    · split
      · exact h
      · rw [State.setCopy_keeps_mem, dropped]; exact h

theorem execCopyEngineReset_keeps (s : State) : KeepsCanonical s (execCopyEngineReset s) := .answer fun h => by
  split
  · exact h
  · rename_i crew _
    refine State.errorEvent_canonical _ _ _ _ _ _ _ ?_
    rw [foldl_mem (f := fun t i => if (crew.copyAt i).state = .free then t else t.endCopy s.cur.die s.cur.polder i 11)
      fun t i => by split <;> simp]
    exact h

/-! ### Predicate words that also ask for nothing -/

section
variable (tk : BitVec 4) (s : State)

theorem execPlog_keeps (pd pa pb : BitVec 4) (op : BitVec 2) : KeepsCanonical s (execPlog tk pd pa pb op s) := .x tk fun _ h1 =>
  .pure (writePred_stable memory_stable _ _ h1)

theorem execPcnt_keeps (sd : BitVec 5) (pa : BitVec 4) : KeepsCanonical s (execPcnt tk sd pa s) := .x tk fun _ h1 =>
  writeReg_next_canonical _ _ h1 fun _ => rfl

theorem execVtop_keeps (pd : BitVec 4) (va : BitVec 5) : KeepsCanonical s (execVtop tk pd va s) := .x tk fun _ h1 =>
  .bind (readVec_stable memory_stable _ h1) fun _ h2 => .pure (writePred_stable memory_stable _ _ h2)

theorem execPtov_keeps (vd : BitVec 5) (pa : BitVec 4) : KeepsCanonical s (execPtov tk vd pa s) := .x tk fun _ h1 =>
  .bind (writeVec_stable memory_stable _ _ h1) fun _ h2 => .pure h2

/-! ### Matrix words -/

theorem noValues_canonical (s : State) (h : Memory.isCanonical s.mem = true) : (noValues s).All (Memory.isCanonical ·.2.2.mem = true) := .pure h

theorem execMma_keeps (u fill : BitVec 1) (td : BitVec 4) (ringA ringB : BitVec 3) (oa ob : BitVec 1) (ms : BitVec 2) (ks : BitVec 5) :
    KeepsCanonical s (execMma tk u fill td ringA ringB oa ob ms ks s) := .answer fun h => matrixWord_canonical tk _ noValues_canonical s h

theorem execMmas_keeps (u fill : BitVec 1) (td : BitVec 4) (ringA ringB : BitVec 3) (oa ob : BitVec 1) (ms : BitVec 2) (ks : BitVec 5) :
    KeepsCanonical s (execMmas tk u fill td ringA ringB oa ob ms ks s) := .answer fun h => matrixWord_canonical tk _ noValues_canonical s h

theorem execMmag_keeps (u fill : BitVec 1) (td : BitVec 4) (ringB : BitVec 3) (ob : BitVec 1) (ms : BitVec 2) (ks : BitVec 5) :
    KeepsCanonical s (execMmag tk u fill td ringB ob ms ks s) := .answer fun h => matrixWord_canonical tk _ noValues_canonical s h

theorem execMctlZero_keeps (u : BitVec 1) (tile : BitVec 4) (fill : BitVec 1) : KeepsCanonical s (execMctlZero tk u tile fill s) :=
  .answer fun h => matrixWord_canonical tk _ noValues_canonical s h

theorem execMctlMode_keeps (u : BitVec 1) (ms : BitVec 2) (sa sb : BitVec 5) : KeepsCanonical s (execMctlMode tk u ms sa sb s) :=
  .answer fun h => matrixWord_canonical tk _ (fun _ h1 => .bind (readReg_stable memory_stable _ h1) fun _ h2 =>
    .bind (readReg_stable memory_stable _ h2) fun _ h3 => .ite (fun _ => .trap _ _) fun _ => .ite (fun _ => .trap _ _) fun _ => .pure h3) s h

theorem execMctlRing_keeps (u : BitVec 1) (ring : BitVec 3) (sa : BitVec 5) : KeepsCanonical s (execMctlRing tk u ring sa s) :=
  .answer fun h => matrixWord_canonical tk _ (fun _ h1 => .bind (readReg_stable memory_stable _ h1) fun _ h2 =>
    .ite (fun _ => .trap _ _) fun _ => .pure h2) s h

theorem execMctlPop_keeps (u : BitVec 1) (ring : BitVec 3) (sa : BitVec 5) : KeepsCanonical s (execMctlPop tk u ring sa s) :=
  .answer fun h => matrixWord_canonical tk _ (fun _ h1 => .bind (readReg_stable memory_stable _ h1) fun _ h2 =>
    .ite (fun _ => .trap _ _) fun _ => .pure h2) s h

theorem execMctlWait_keeps (rd : BitVec 5) : KeepsCanonical s (execMctlWait tk rd s) := .word _ _ tk fun _ h0 h1 =>
  .ite (fun _ => .pure (by simpa [Eff.state] using h0)) fun _ => writeReg_next_canonical _ _ h1 fun _ => rfl

theorem execCpym_keeps (scol sc : BitVec 1) (rd ra rb : BitVec 5) (follow : BitVec 32) :
    KeepsCanonical s (execCpym tk scol sc rd ra rb follow s) := .wordM _ _ _ tk fun _ _ h1 =>
  .bind (planCpy_canonical h1 _ _ _ _ _) fun _ h2 => .bind (.any _) fun _ _ => .bind (.any _) fun _ _ =>
    .bind (issueCopy_canonical h2 _) fun _ h3 => .pure (by simpa [Eff.state] using h3)

theorem execVtileRd_keeps (vd : BitVec 5) (tile : BitVec 4) (rs : BitVec 5) (clr : BitVec 1) :
    KeepsCanonical s (execVtileRd tk vd tile rs clr s) := .wordM _ _ _ tk fun _ _ h1 =>
  .bind (rowPair_canonical rs h1) fun _ h2 => .ready fun _ => .bind (.any _) fun _ _ => .passing fun _ =>
    .bind (writeVec_stable memory_stable _ _ h2) fun _ h3 => .pure (by simp only [Eff.state]; split <;> simpa using h3)

theorem execVtileWr_keeps (va : BitVec 5) (tile : BitVec 4) (rs : BitVec 5) (fill : BitVec 1) :
    KeepsCanonical s (execVtileWr tk va tile rs fill s) := .wordM _ _ _ tk fun _ _ h1 =>
  .bind (readVec_stable memory_stable _ h1) fun _ h2 => .bind (rowPair_canonical rs h2) fun _ h3 => .ready fun _ => .bind (.any _) fun _ _ =>
    .pure (by simp only [Eff.state]; split <;> simpa using State.writeN_canonical _ _ _ _ h3)

end

end Sys2Proof.Machine
end

section
namespace Sys2Proof.Machine

/-! ### Sync words and sync engine steps -/

section
variable (tk : BitVec 4) (s : State)

theorem execAtom_keeps (rd ra : BitVec 5) (op : BitVec 4) (w64 : BitVec 1) (ord : BitVec 2) (scope : BitVec 3) :
    KeepsCanonical s (execAtom tk rd ra op w64 ord scope s) := .wordM _ _ _ tk fun _ h0 h1 =>
  .bind (readReg_stable memory_stable _ h1) fun _ h2 => .bind (readReg_stable memory_stable _ h2) fun _ h3 => .bind (.any _) fun _ _ =>
    syncReturning_canonical h3 _ _ _ _ _ _ _ (fun r _ ht => syncResult_canonical ht rd r) h0

theorem execAcas_keeps (rd ra : BitVec 5) (w64 : BitVec 1) (ord : BitVec 2) (scope : BitVec 3) :
    KeepsCanonical s (execAcas tk rd ra w64 ord scope s) := .wordM _ _ _ tk fun _ h0 h1 =>
  .bind (readReg_stable memory_stable _ h1) fun _ h2 => .bind (readReg_stable memory_stable _ h2) fun _ h3 =>
    .bind (readReg_stable memory_stable _ h3) fun _ h4 => .bind (.any _) fun _ _ =>
    syncReturning_canonical h4 _ _ _ _ _ _ _ (fun r _ ht => syncResult_canonical ht rd r) h0

theorem execRed_keeps (rd ra : BitVec 5) (op : BitVec 4) (w64 : BitVec 1) (ord : BitVec 2) (scope : BitVec 3) :
    KeepsCanonical s (execRed tk rd ra op w64 ord scope s) := .wordM _ _ _ tk fun _ _ h1 =>
  .bind (.any _) fun _ _ => .bind (readReg_stable memory_stable _ h1) fun _ h2 => .bind (readReg_stable memory_stable _ h2) fun _ h3 =>
    .bind (.any _) fun _ _ => .bind (syncEnqueue_canonical h3 _ _ _ _ _ _ _) fun _ h4 => .pure h4

theorem execCarm_keeps (ra rb rc : BitVec 5) : KeepsCanonical s (execCarm tk ra rb rc s) := .wordM _ _ _ tk fun _ _ h1 =>
  .bind (.any _) fun _ _ => .bind (readReg_stable memory_stable _ h1) fun _ h2 => .bind (readReg_stable memory_stable _ h2) fun _ h3 =>
    .bind (readReg_stable memory_stable _ h3) fun _ h4 => .bind (.any _) fun _ _ => .passing fun _ => .passing fun _ => .passing fun _ =>
    .bind (syncEnqueue_canonical h4 _ _ _ _ _ _ _) fun _ h5 => .pure h5

theorem execWaitc_keeps (ra rb rc : BitVec 5) : KeepsCanonical s (execWaitc tk ra rb rc s) := .wordM _ _ _ tk fun s1 h0 h1 => by
  refine .ite (fun _ => .pure ?_) fun _ => .bind (readReg_stable memory_stable _ h1) fun _ h2 =>
    .bind (readReg_stable memory_stable _ h2) fun _ h3 => .bind (readReg_stable memory_stable _ h3) fun r h4 =>
    .bind (.any _) fun _ _ => .passing fun _ => .passing fun _ => .passing fun _ => ?_
  · simpa [Eff.state] using h0
  · dsimp only
    split
    · exact .pure (State.takeTrap_stable memory_stable _ _ (by simpa using h0))
    · rename_i chunk _
      have hset (x : Strand) (d : Die) : Memory.isCanonical ((r.2.setDie s1.cur.die d).setStrand s1.cur x).mem = true := by simpa using h4
      exact .bind (giveTokens_stable memory_stable tk (hset _ _)) fun _ h5 => .bind (endStream_canonical h5) fun _ h6 =>
        .pure (by simpa [Eff.state] using h6)

end

section
variable (s : State)

theorem execSyncWaitLimit_keeps : KeepsCanonical s (execSyncWaitLimit s) := .answer fun h => by
  split
  · exact h
  · split
    · exact h
    · exact State.syncReplyTo_canonical _ _ _ _ (by simpa using h)

theorem execSyncEngineReset_keeps : KeepsCanonical s (execSyncEngineReset s) := .answer fun h => by
  refine State.errorEvent_canonical _ _ _ _ _ _ _ ?_
  refine foldl_canonical (fun t a ht => ?_) _ (foldl_canonical (fun t c ht => State.deliver_canonical _ _ _ ht) _ ?_)
  · split
    · exact State.evalCounter_canonical _ _ _ ht
    · exact ht
  · rw [State.setDie_mem]
    exact foldl_canonical (fun t w ht => State.syncReplyTo_canonical _ _ _ _ (by simpa using ht)) _ h

/-! ### Task engine steps -/

/-- What a dispatch of ready work leaves of memory. -/
theorem State.dispatch_canonical (die : Nat) (r : Machine.Ready) (h : Memory.isCanonical s.mem = true) {crews : Nat} {t : State}
    (ht : s.dispatch die r = some (crews, t)) : Memory.isCanonical t.mem = true := by
  have placed {f : Nat → Nat × State} {o : Option Nat} (hf : ∀ x, (f x).2.mem = s.mem) (ho : o.map f = some (crews, t)) :
      Memory.isCanonical t.mem = true := by
    obtain ⟨a, -, ha⟩ := Option.map_eq_some_iff.1 ho
    rw [← show (f a).2 = t by rw [ha], hf]
    exact h
  unfold State.dispatch at ht
  extract_lets +onlyGivenNames te drop at ht
  have hdrop : (drop s).mem = s.mem := State.setTe_keeps_mem _ _ _
  split at ht
  · extract_lets +onlyGivenNames x w hgt at ht
    split at ht
    · split at ht
      · cases ht
        exact hdrop ▸ h
      · extract_lets +onlyGivenNames rec0 ids ids2 place at ht
        obtain ⟨a, -, ha⟩ := Option.map_eq_some_iff.1 ht
        cases ha
        exact State.restoreRuns_canonical _ _ _ _ _ h
    · extract_lets +onlyGivenNames n at ht
      split at ht
      · cases ht
      · split at ht
        · cases ht
        · extract_lets +onlyGivenNames s1 at ht
          cases ht
          split
          · exact (State.placeGangs_keeps_mem _ _ _ _).symm ▸ h
          · exact (show (drop s1).mem = s.mem from (State.setTe_keeps_mem _ _ _).trans (State.placeGangs_keeps_mem _ _ _ _)) ▸ h
  · exact placed (fun o => (State.placeRun_keeps_mem _ _ _ _ _).trans hdrop) ht
  · exact placed (fun o => (State.placeRun_keeps_mem _ _ _ _ _).trans hdrop) ht
  · split at ht
    · cases ht
    · exact placed (fun o => (State.placeRun_keeps_mem _ _ _ _ _).trans ((State.setTe_keeps_mem _ _ _).trans hdrop)) ht

theorem execTaskDispatch_keeps : KeepsCanonical s (execTaskDispatch s) := .answer fun h => by
  have h1 : Memory.isCanonical ((s.absorbConts s.cur.die).assignSlots s.cur.die).mem = true := by
    simpa using State.absorbConts_canonical _ _ h
  dsimp only
  split
  · simpa using h
  · split
    · exact h1
    · split
      · exact h1
      · split
        · exact h1
        · rename_i hd
          simpa using State.dispatch_canonical _ _ _ h1 hd

theorem execGangStart_keeps : KeepsCanonical s (execGangStart s) := .answer fun h => by
  dsimp only
  split
  · exact h
  · split
    · exact h
    · exact State.afterWriteBack_canonical _ _ _ _ (fun t o ht => by simpa using ht)
        (fun t ht => foldl_canonical (fun u i hu => State.startRun_canonical _ _ _ hu) _ ht) h

theorem execStrandEnd_keeps : KeepsCanonical s (execStrandEnd s) := .answer fun h => by
  split
  · exact h
  · rename_i st _
    extract_lets +onlyGivenNames id te r crew
    split
    · exact h
    · extract_lets s1 crew1 ended s2 te2 r2 key
      have h1 : Memory.isCanonical s1.mem = true := by
        simp only [s1]
        split
        · split <;> simpa using h
        · exact h
      clear_value s1
      split
      · exact h1
      · have hended (t : State) : (ended t).mem = t.mem := State.setCrew_mem _ _ _ _
        have h2 : Memory.isCanonical s2.mem = true := hended s1 ▸ h1
        clear_value ended s2
        split
        · exact h2
        · extract_lets setWb
          split
          · exact ((State.setTe_keeps_mem _ _ _).trans (State.freeChunkAt_keeps_mem _ _ _)).symm ▸ h2
          · split
            · exact h1
            · exact State.afterWriteBack_canonical _ _ _ _ (fun t o ht => ht)
                (fun t ht => State.writeCont_canonical _ _ _ _ _ _ (hended t ▸ ht)) h1

theorem execTaskEnd_keeps : KeepsCanonical s (execTaskEnd s) := .answer fun h => by
  dsimp only
  split
  · exact h
  · split
    · exact h
    · exact State.afterWriteBack_canonical _ _ _ _ (fun t o ht => by simpa using ht)
        (fun t ht => State.endRun_canonical _ _ _ ht) h

theorem execQpush_keeps : KeepsCanonical s (execQpush s) := by
  unfold execQpush
  extract_lets die q
  have hq := State.enqueue_keeps_mem s die q (s.inp.getD 1 0 % 2 ^ 52) none
  generalize s.enqueue die q (s.inp.getD 1 0 % 2 ^ 52) none = p at hq ⊢
  obtain ⟨r, s1⟩ := p
  refine .answer fun h => ?_
  change s1.mem = s.mem at hq
  dsimp only
  split <;> simpa [hq] using h

theorem execOverlapWordRead_keeps : KeepsCanonical s (execOverlapWordRead s) := .answer fun h => by
  split
  · split
    · exact h
    · split <;> simpa using h
  · exact h

theorem execTriggerTake_keeps : KeepsCanonical s (execTriggerTake s) := .answer fun h => by
  split
  · exact h
  · split
    · exact h
    · extract_lets w1 s1
      have h1 : Memory.isCanonical s1.mem = true := State.writeN_canonical _ _ _ _ (by simpa using h)
      split
      · exact State.rejectUnread_canonical _ _ _ _ _ h1
      · split
        · exact State.reject_canonical _ _ _ _ _ _ _ h1
        · rw [State.newLaunch_keeps_mem]
          exact h1

theorem execTaskEngineReset_keeps : KeepsCanonical s (execTaskEngineReset s) := .answer fun h => by
  refine State.errorEvent_canonical _ _ _ _ _ _ _ ?_
  rw [foldl_mem fun t e => ?_, State.setTe_keeps_mem]
  · exact h
  · dsimp only
    split
    · rfl
    · split
      · rfl
      · exact State.forgetAll_keeps_mem _ _

/-! ### Ring engine steps -/

theorem execSegmentArrival_keeps : KeepsCanonical s (execSegmentArrival s) := .answer fun h => by
  split
  · exact State.takeFrame_canonical _ _ _ _ _ (by simpa using h)
  · split
    · split
      · exact State.takeFrame_canonical _ _ _ _ _ h
      · exact h
    · exact h

theorem execDropRecord_keeps : KeepsCanonical s (execDropRecord s) := .answer fun h => by
  split
  · simpa using h
  · split
    · split <;> simpa using h
    · exact h

theorem execLostRecord_keeps : KeepsCanonical s (execLostRecord s) := .answer fun h => by
  split
  · simpa using h
  · split
    · split <;> simpa using h
    · exact h

theorem execRingResume_keeps : KeepsCanonical s (execRingResume s) := .answer fun h => by
  have events (t : State) (die : Nat) (l : List Nat) :
      (l.foldl (fun (s : State) e => s.ringEvent e 6 0 (s.die die).ringPos) t).mem = t.mem :=
    foldl_mem (fun _ _ => State.ringEvent_keeps_mem _ _ _ _ _) l t
  split
  · split <;> simpa using h
  · split
    · simpa using h
    · split
      · exact h
      · split
        · rw [events, State.renewMirrors_keeps_mem, State.runRing_keeps_mem, State.setBypass_keeps_mem]
          exact h
        all_goals simpa using h

theorem execRingEngineReset_keeps : KeepsCanonical s (execRingEngineReset s) := .answer fun h => by
  refine State.errorEvent_canonical _ _ _ _ _ _ _ ?_
  have stopped : Memory.isCanonical (if (s.die s.cur.die).rprunning then s.stopRotation s.cur.die 0x68 0 else s).mem = true := by
    split <;> simpa using h
  generalize (if (s.die s.cur.die).rprunning then s.stopRotation s.cur.die 0x68 0 else s) = u at stopped ⊢
  split
  · exact State.holdRing_canonical _ _ _ stopped
  · simpa using stopped

theorem execRingEngineRestartTimeout_keeps : KeepsCanonical s (execRingEngineRestartTimeout s) := .answer fun h => by
  split
  · exact h
  · split
    · exact h
    · split
      · exact h
      · split
        · exact h
        · exact State.ringFails_canonical _ _ _ h

end

/-! ### Ring words -/

section
variable (rd ra rb : BitVec 5) (s : State)

theorem execRinj_keeps : KeepsCanonical s (execRinj rd ra rb s) := .answer fun h => ringWord_canonical rd (fun die _ h1 =>
  .bind (readReg_stable memory_stable _ h1) fun _ h2 => .bind (readReg_stable memory_stable _ h2) fun _ h3 =>
    .bind (.any _) fun _ _ => .bind (.any _) fun _ _ => .ite (fun _ => .pure h3) fun _ => .ite (fun _ => .pure h3) fun _ =>
    .ite (fun _ => .pure h3) fun _ => .ite (fun _ => .pure h3) fun _ => .ite (fun _ => .pure h3) fun _ =>
    .pure (State.takeFrame_canonical _ _ _ _ _ (by simpa using h3))) s h

theorem execRdrop_keeps : KeepsCanonical s (execRdrop rd ra s) := .answer fun h => ringWord_canonical rd (fun die _ h1 =>
  .bind (readReg_stable memory_stable _ h1) fun _ h2 => .bind (.any _) fun _ _ => .ite (fun _ => .pure h2) fun _ =>
    .ite (fun _ => .pure h2) fun _ => .pure (by
      rw [apply_ite State.mem, State.takeDrop_keeps_mem, State.sendCtl_keeps_mem, ite_self, State.unqueue_keeps_mem]
      exact h2)) s h

theorem execRkeep_keeps : KeepsCanonical s (execRkeep rd ra rb s) := .answer fun h => ringWord_canonical rd (fun die _ h1 =>
  .bind (readReg_stable memory_stable _ h1) fun _ h2 => .bind (readReg_stable memory_stable _ h2) fun _ h3 =>
    .bind (.any _) fun _ _ => .bind (.any _) fun _ _ => .ite (fun _ => .pure h3) fun _ => .ite (fun _ => .pure h3) fun _ =>
    .ite (fun _ => .ite (fun _ => .pure h3) fun _ => .pure (by simpa using h3)) fun _ =>
    .ite (fun _ => .ite (fun _ => .pure h3) fun _ => .ite (fun _ => .pure h3) fun _ =>
      .ite (fun _ => .pure (by simpa using h3)) fun _ => .pure (by simpa using h3)) fun _ =>
    .ite (fun _ => .pure (by simpa using h3)) fun _ => .ite (fun _ => .pure h3) fun _ => .ite (fun _ => .pure h3) fun _ =>
      .pure (by simpa using h3)) s h

theorem execRfwd_keeps : KeepsCanonical s (execRfwd rd ra s) := .answer fun h => ringWord_canonical rd (fun die _ h1 =>
  .bind (readReg_stable memory_stable _ h1) fun _ h2 => .bind (.any _) fun _ _ => .ite (fun _ => .pure h2) fun _ =>
    .pure (by simpa using h2)) s h

theorem execRhold_keeps : KeepsCanonical s (execRhold rd ra s) := .answer fun h => ringWord_canonical rd (fun die _ h1 =>
  .bind (readReg_stable memory_stable _ h1) fun _ h2 => .bind (.any _) fun _ _ => .pure (by simpa using h2)) s h

theorem execRtag_keeps : KeepsCanonical s (execRtag rd ra rb s) := .answer fun h => ringWord_canonical rd (fun die _ h1 =>
  .bind (readReg_stable memory_stable _ h1) fun _ h2 => .bind (readReg_stable memory_stable _ h2) fun _ h3 =>
    .bind (.any _) fun _ _ => .bind (.any _) fun _ _ => .ite (fun _ => .ite (fun _ => .pure (by simpa using h3))
      fun _ => .pure (by simpa using h3)) fun _ => .pure (by simpa using h3)) s h

theorem execRpar_keeps : KeepsCanonical s (execRpar rd ra rb s) := .answer fun h => ringWord_canonical rd (fun die _ h1 =>
  .bind (readReg_stable memory_stable _ h1) fun _ h2 => .bind (readReg_stable memory_stable _ h2) fun _ h3 =>
    .bind (.any _) fun _ _ => .ite (fun _ => .pure h3) fun _ => .bind (.any _) fun _ _ => .ite (fun _ => .pure h3) fun _ =>
    .pure (by simpa using h3)) s h

theorem execRbyp_keeps : KeepsCanonical s (execRbyp rd ra s) := .answer fun h => ringWord_canonical rd (fun die s1 h1 =>
  .bind (readReg_stable memory_stable _ h1) fun r h2 => .bind (.any _) fun _ _ =>
    .ite (fun _ => .ite (fun _ => .pure h2) fun _ => .pure (State.holdRing_canonical _ _ _ h2)) fun _ =>
    .ite (fun _ => .pure h2) fun _ => .ite (fun _ => .pure h2) fun _ => .ite (fun _ => .pure h2) fun _ => by
      have h3 := State.holdRing_canonical r.2 die { kind := 1, target := die, since := s1.cycle } h2
      generalize r.2.holdRing die { kind := 1, target := die, since := s1.cycle } = u at h3 ⊢
      refine .pure ?_
      rw [State.startNext_keeps_mem, foldl_mem (fun t i => State.showSeg_keeps_mem t die i), State.setRg_keeps_mem]
      exact h3) s h

theorem execRstat_keeps : KeepsCanonical s (execRstat rd ra s) := .answer fun h => ringWord_canonical rd (fun die s1 h1 => by
  refine .bind (readReg_stable memory_stable _ h1) fun p h2 => ?_
  obtain ⟨a, s2⟩ := p
  dsimp only
  refine .ite (fun _ => .bind (.any _) fun _ _ => ?_) fun _ => ?_
  all_goals
    refine .ite (fun _ => ?_) fun _ => .ite (fun _ => .pure h2) fun _ => .ite (fun _ => .pure h2) fun _ => .ite (fun _ => .pure h2) fun _ =>
      .ite (fun _ => .pure h2) fun _ => .pure h2
    split
    · exact .pure ((State.setRg_keeps_mem _ _ _).symm ▸ h2)
    · exact .ite (fun _ => .hold _) fun _ => .pure h2) s h

end

end Sys2Proof.Machine
end

section
namespace Sys2Proof.Machine

/-! ### Task words -/

section
variable (tk : BitVec 4) (rd ra rb : BitVec 5) (s : State)

theorem writeResult_next_canonical (v : Word) {s : State} (h : Memory.isCanonical s.mem = true) {k : State → Res Eff}
    (hk : ∀ t, Memory.isCanonical t.mem = true → (k t).All (Memory.isCanonical ·.state.mem = true)) :
    (writeResult rd v s >>= k).All (Memory.isCanonical ·.state.mem = true) :=
  .bind (writeResult_canonical h rd v) hk

/-- A task word that stays for what it has sent. -/
theorem State.taskWaits_canonical (s : State) (kind : Nat) (more ids : List Nat) (h : Memory.isCanonical s.mem = true) :
    Memory.isCanonical (s.taskWaits kind more ids).state.mem = true := State.setPending_canonical h _

theorem execSpawn_keeps : KeepsCanonical s (execSpawn tk rd ra rb s) := .answer fun h => taskWord_canonical markSync tk s h fun t ht => by
  have go (c : Ctx) (job template arg : Nat) (u : State) (hu : Memory.isCanonical u.mem = true) :
      (writeResult rd (BitVec.ofNat 64 (u.spawnNow c job template arg).1) (u.spawnNow c job template arg).2 >>= fun s5 =>
        pure (if s.stopPoint c then Eff.done (s5.cancelGang c) else .next s5) : Res Eff).All (Memory.isCanonical ·.state.mem = true) :=
    writeResult_next_canonical rd _ (State.spawnNow_canonical _ _ _ _ _ hu) fun v hv => .pure (by split <;> simpa [Eff.state] using hv)
  refine .bind (readReg_stable memory_stable _ ht) fun _ h1 => .bind (readReg_stable memory_stable _ h1) fun _ h2 =>
    .bind (readReg_stable memory_stable _ h2) fun _ h3 => .passing fun _ => .passing fun _ => ?_
  dsimp only
  split
  · exact .ite (fun _ => go _ _ _ _ _ (by simpa using h3)) fun _ => .pure h
  · refine .bind (.any _) fun _ _ => ?_
    exact .ite (fun _ => go _ _ _ _ _ h3) fun _ => .pure (State.taskWaits_canonical _ _ _ _ (State.writeBackContext_canonical _ _ h))

theorem execEndt_keeps : KeepsCanonical s (execEndt tk s) := .answer fun h => taskWord_canonical markSync tk s h fun _ ht =>
  .ite (fun _ => .pure (by simpa [Eff.state] using ht)) fun _ => .bind (giveTokens_stable memory_stable tk ht) fun _ h1 =>
    .bind (endStream_canonical h1) fun _ h2 => .pure h2

theorem execCheck_keeps : KeepsCanonical s (execCheck tk rd s) := .answer fun h => taskWord_canonical markSync tk s h fun _ ht =>
  .ite (fun _ => writeResult_next_canonical rd _ ht fun _ h1 => .pure (by simpa [Eff.state] using h1))
    fun _ => writeResult_next_canonical rd _ ht fun _ h1 => .pure h1

theorem execJoin_keeps : KeepsCanonical s (execJoin tk rd s) := .answer fun h => taskWord_canonical markSyncAcq tk s h fun t ht => by
  have go (c : Ctx) (i origin : Nat) (u : State) (hu : Memory.isCanonical u.mem = true) :
      (writeResult rd (BitVec.ofNat 64 (u.joinNow c.die i origin).1) ((u.joinNow c.die i origin).2.invalidateContext c) >>= fun s2 =>
        pure (.next s2) : Res Eff).All (Memory.isCanonical ·.state.mem = true) :=
    writeResult_next_canonical rd _ (by simpa using State.joinNow_canonical _ _ _ _ hu) fun _ hv => .pure hv
  have waits (c : Ctx) := State.taskWaits_canonical _ 1000 [] (s.writeBackContext c).1 (State.writeBackContext_canonical s c h)
  dsimp only
  split
  · exact .ite (fun _ => .ite (fun _ => go _ _ _ _ (by simpa using ht)) fun _ => .pure h) fun _ => .ite (fun _ => .pure h) fun _ =>
      .ite (fun _ => go _ _ _ _ ht) fun _ => .pure (waits _)
  · exact .ite (fun _ => .pure (State.taskWaits_canonical _ _ _ _ h)) fun _ => .ite (fun _ => go _ _ _ _ ht) fun _ => .pure (waits _)

theorem execLaunch_keeps : KeepsCanonical s (execLaunch tk rd ra rb s) := .answer fun h => taskWord_canonical markSync tk s h fun _ ht =>
  .bind (readReg_stable memory_stable _ ht) fun _ h1 => .bind (readReg_stable memory_stable _ h1) fun _ h2 =>
    .passing fun _ => .passing fun _ => .passing fun _ => by
      split
      rename_i hp
      exact writeResult_next_canonical rd _ ((congrArg (·.2.mem) hp).symm.trans (State.enqueue_keeps_mem _ _ _ _ _) ▸ h2)
        fun _ h3 => .pure h3

omit s in
/-- The state of a pair that an operation answers with. -/
theorem canonical_of_eq_mk {α : Type} {p : α × State} {a : α} {t : State} (hp : p = (a, t)) (h : Memory.isCanonical p.2.mem = true) :
    Memory.isCanonical t.mem = true := by rw [hp] at h; exact h

theorem execJcancel_keeps : KeepsCanonical s (execJcancel tk rd ra s) := by
  refine .answer fun h => taskWord_canonical markSync tk s h fun t ht => ?_
  refine .bind (readReg_stable memory_stable _ ht) fun p h1 => ?_
  split
  rename_i j s1
  extract_lets context start rest
  have hstart (u : State) (hu : Memory.isCanonical u.mem = true) : Memory.isCanonical (start u).2.2.mem = true := by
    rw [show start u = List.foldl _ (0, [], u) (List.range 16) from rfl]
    refine List.foldlRecOn (motive := fun acc : Nat × List Nat × State => Memory.isCanonical acc.2.2.mem = true) _ _ hu
      fun acc hacc d _ => ?_
    split
    rename_i full ids v
    split
    · split
      rename_i hp
      exact canonical_of_eq_mk hp (State.cancelPoint_canonical _ _ _ _ hacc)
    · split
      rename_i hp
      exact canonical_of_eq_mk hp (State.request_canonical _ _ hacc)
  refine .passing fun _ => ?_
  simp only [rest]
  clear rest
  clear_value start
  split
  · refine .ite (fun _ => writeResult_next_canonical rd _ (hstart _ h1) fun _ h2 => .pure h2) fun _ => ?_
    exact .pure (State.taskWaits_canonical _ _ _ _ (hstart _ h))
  · exact .ite (fun _ => .pure h) fun _ => writeResult_next_canonical rd _ (by simpa using h1) fun _ h2 => .pure h2

theorem execTinfo_keeps : KeepsCanonical s (execTinfo tk rd ra s) := .answer fun h => taskWord_canonical markSync tk s h fun _ ht =>
  .bind (readReg_stable memory_stable _ ht) fun _ h1 => .passing fun _ => writeResult_next_canonical rd _ h1 fun _ h2 => .pure h2

theorem execRqset_keeps : KeepsCanonical s (execRqset tk rd ra rb s) := .answer fun h => taskWord_canonical markSync tk s h fun _ ht => by
  refine .bind (readReg_stable memory_stable _ ht) fun _ h1 => .bind (readReg_stable memory_stable _ h1) fun _ h2 => ?_
  dsimp only
  split
  · exact .ite (fun _ => .pure h) fun _ => writeResult_next_canonical rd _ h2 fun _ h3 => .pure h3
  · refine .passing fun _ => ?_
    split <;> [skip; (split <;> [skip; refine .passing fun _ => ?_])]
    all_goals
      refine .ite (fun _ => .ite (fun _ => ?_) fun _ => ?_) fun _ => ?_
      · exact writeResult_next_canonical rd _ (by simpa using h2) fun _ h3 => .pure h3
      · exact .pure (State.taskWaits_canonical _ _ _ _ (by simpa using h))
      · exact writeResult_next_canonical rd _ (by simpa using h2) fun _ h3 => .pure h3

/-! ### Load words -/

section
variable {s0 s : State} (h0 : Memory.isCanonical s0.mem = true) (h : Memory.isCanonical s.mem = true)
include h

theorem loadResult_canonical (g : Got) (b : Nat) (u stf : BitVec 1) : (loadResult g b u stf s).All (Memory.isCanonical ·.2.mem = true) := by
  unfold loadResult
  split
  · exact .trap _ _
  · exact .ite (fun _ => .ite (fun _ => .trap _ _) fun _ => .pure (by simpa using h)) fun _ => .pure h

include h0 in
theorem scalarLoad_canonical (hn : BitVec 3) (size : BitVec 2) (u stf : BitVec 1) (acq : Option (BitVec 3)) :
    (scalarLoad rd hn ra size u stf acq s0 s).All (Memory.isCanonical ·.state.mem = true) := by
  refine .bind (readReg_stable memory_stable _ h) fun _ h1 => .bind (.any _) fun _ _ => ?_
  dsimp only
  split
  · exact .bind (Q := fun _ => False) (.trap _ _) nofun
  · refine .bind (fetchRanges_canonical h0 h1 _ _ _ _ _) fun fetched hf => ?_
    cases fetched with
    | stay t => exact .pure hf
    | got rs ids t =>
      exact .bind (loadResult_canonical hf _ _ _ _) fun _ h2 => .bind (writeReg_stable memory_stable _ _ h2) fun _ h3 => .pure (by
        simp only [Eff.state]
        (repeat' split) <;> simpa using h3)

end

theorem execLd_keeps (h : BitVec 3) (size : BitVec 2) (u stf : BitVec 1) : KeepsCanonical s (execLd tk rd h ra size u stf s) :=
  .answer fun h0 => runLoad_stable memory_stable _ _ h0 fun _ h1 => scalarLoad_canonical rd ra h0 h1 _ _ _ _ _

theorem execLdAcq_keeps (h : BitVec 3) (size : BitVec 2) (u stf : BitVec 1) (scope : BitVec 3) :
    KeepsCanonical s (execLdAcq tk rd h ra size u stf scope s) :=
  .answer fun h0 => runLoad_stable memory_stable _ _ h0 fun _ h1 => scalarLoad_canonical rd ra h0 h1 _ _ _ _ _

theorem execVectorLoadComplete_keeps : KeepsCanonical s (execVectorLoadComplete s) := .answer fun h => by
  have h' : Memory.isCanonical { s with cur := { s.cur with str := .a, rot := false } }.mem = true := h
  split
  · exact h
  · exact runWord_stable memory_stable _ _ _ h' fun _ h1 => vectorLoad_canonical h' h1 _ _

theorem execLdp_keeps (size : BitVec 2) (u : BitVec 1) : KeepsCanonical s (execLdp tk rd ra size u s) :=
  .answer fun h => runLoad_stable memory_stable _ _ h fun _ h1 => .bind (readReg_stable memory_stable _ h1) fun _ h2 =>
    .bind (.any _) fun _ _ => .passing fun _ => .bind (.any _) fun _ _ => .bind (.any _) fun _ _ =>
    writeReg_next_canonical rd _ h2 fun _ => rfl

theorem execLdpv_keeps (q : BitVec 1) (width : BitVec 2) (orient : BitVec 1) : KeepsCanonical s (execLdpv tk q width orient ra s) :=
  .answer fun h => runLoad_stable memory_stable _ _ h fun _ h1 => .bind (.any _) fun _ _ => .bind (readReg_stable memory_stable _ h1)
    fun _ h2 => .bind (.any _) fun _ _ => .bind (pushVector_canonical h2 _ _) fun _ h3 => .pure h3

theorem execLdpvg_keeps (q : BitVec 1) (width : BitVec 2) : KeepsCanonical s (execLdpvg tk q width ra rb s) :=
  .answer fun h => runLoad_stable memory_stable _ _ h fun _ h1 => .bind (.any _) fun _ _ => .bind (readReg_stable memory_stable _ h1)
    fun _ h2 => .bind (readReg_stable memory_stable _ h2) fun _ h3 => .bind (.any _) fun _ _ => .bind (.any _) fun _ _ =>
    .bind (.any _) fun _ _ => .bind (pushVector_canonical h3 _ _) fun _ h4 => .pure h4

/-! ### Translation words and load streams -/

theorem execXlate_keeps (hn : BitVec 4) : KeepsCanonical s (execXlate tk rd hn ra s) := .a tk fun _ h1 => by
  refine .bind (readReg_stable memory_stable _ h1) fun _ h2 => ?_
  have named (v : Word) (x : Handle) : _ := writeReg_next_canonical rd v ((State.setHandle_keeps_mem _ hn.toNat x).symm ▸ h2)
    (k := fun t => pure (.next t)) fun _ => rfl
  refine .ite (fun _ => named _ _) fun _ => ?_
  split <;> exact named _ _

theorem execHtest_keeps (hn : BitVec 4) : KeepsCanonical s (execHtest tk rd hn s) := .a tk fun _ h1 =>
  writeReg_next_canonical rd _ h1 fun _ => rfl

theorem execHrel_keeps (hn : BitVec 4) : KeepsCanonical s (execHrel tk hn s) := .a tk fun _ h1 =>
  .pure ((State.setHandle_keeps_mem _ _ _).symm ▸ h1)

theorem execHmov_keeps (hn hm : BitVec 4) : KeepsCanonical s (execHmov tk hn hm s) := .a tk fun _ h1 =>
  .pure ((State.setHandle_keeps_mem _ _ _).symm ▸ h1)

theorem execPreq_keeps : KeepsCanonical s (execPreq tk rd ra s) := .a tk fun _ h1 =>
  .bind (readReg_stable memory_stable _ h1) fun _ h2 => by
    dsimp only
    refine writeReg_next_canonical rd _ ?_ fun _ => rfl
    split
    · exact h2
    · split
      · exact h2
      · exact State.faultRecord_canonical _ _ _ _ h2

theorem execPref_keeps (h : BitVec 3) (len : BitVec 2) : KeepsCanonical s (execPref tk h ra len s) := .a tk fun _ h1 =>
  .bind (readReg_stable memory_stable _ h1) fun _ h2 => .ite (fun _ => .pure h2) fun _ =>
    .pure (foldl_canonical (fun _ _ ht => State.prefetch_canonical _ _ _ ht) _ h2)

theorem execScbq_keeps (space : BitVec 1) : KeepsCanonical s (execScbq tk rd ra rb space s) := .a tk fun _ h1 =>
  .bind (readReg_stable memory_stable _ h1) fun _ h2 => .bind (readReg_stable memory_stable _ h2) fun _ h3 =>
    writeReg_next_canonical rd _ h3 fun _ => rfl

theorem execScbwait_keeps : KeepsCanonical s (execScbwait tk ra s) := .word _ _ tk fun _ h0 h1 =>
  .bind (readReg_stable memory_stable _ h1) fun _ h2 => .ite (fun _ => .pure (State.setPending_canonical h0 _)) fun _ => .pure h2

variable (q : BitVec 1)

theorem execSbind_keeps : KeepsCanonical s (execSbind tk q ra s) :=
  .answer fun h => runLoad_stable memory_stable _ _ h fun _ h1 => .bind (readReg_stable memory_stable _ h1) fun _ h2 =>
    .passing fun _ => .bind (.any _) fun _ _ => .bind (.any _) fun _ _ => by
      dsimp only
      split
      · exact .trap _ _
      · exact .pure (by simpa [Eff.state] using h2)

theorem execSunbind_keeps : KeepsCanonical s (execSunbind tk q s) := .word _ _ tk fun _ h0 h1 => by
  dsimp only
  split
  · exact .pure h1
  · exact .ite (fun _ => .pure (memory_stable.strand _ h0)) fun _ => .pure (memory_stable.strand _ h1)

theorem execSbget_keeps : KeepsCanonical s (execSbget tk q rd s) := .a tk fun _ h1 => writeReg_next_canonical rd _ h1 fun _ => rfl

theorem execSbadv_keeps : KeepsCanonical s (execSbadv tk q ra s) := .a tk fun _ h1 =>
  .bind (readReg_stable memory_stable _ h1) fun _ h2 => by
    dsimp only
    split
    · exact .trap _ _
    · exact .pure (by simpa [Eff.state] using h2)

theorem execSbwait_keeps : KeepsCanonical s (execSbwait tk q s) := .a tk fun _ h1 => by
  split
  · exact .pure h1
  · exact .ite (fun _ => .pure h1) fun _ => .hold _

end

end Sys2Proof.Machine
end

section
namespace Sys2Proof.Machine

/-! ### Fabric engine steps -/

section
variable (s : State)

theorem execTagRestEnd_keeps : KeepsCanonical s (execTagRestEnd s) := .answer fun h => by
  split
  · exact h
  · split
    · exact h
    · rw [State.pump_keeps_mem]
      exact h

theorem execLinkRelockComplete_keeps : KeepsCanonical s (execLinkRelockComplete s) := .answer fun h => by
  split
  · exact h
  · split
    · exact h
    · split <;> simpa using h

theorem State.arriving_keeps_mem {die l : Nat} {sent : Nat} {t : State} (ht : s.arriving die l = some (sent, t)) : t.mem = s.mem := by
  unfold State.arriving at ht
  dsimp only at ht
  split at ht
  · cases ht
  · split at ht
    · obtain ⟨v, -, hv⟩ := Option.map_eq_some_iff.1 ht
      rw [← (Prod.mk.inj hv).2]
    · split at ht
      · cases ht
      · rw [← (Prod.mk.inj (Option.some.inj ht)).2, State.setLink_mem]

theorem execFlitReceive_keeps : KeepsCanonical s (execFlitReceive s) := .answer fun h => by
  split
  · exact h
  · rename_i sent s0 hs
    have h0 : Memory.isCanonical s0.mem = true := (State.arriving_keeps_mem s hs).symm ▸ h
    have linked (l : Nat) (x : Link) : Memory.isCanonical (s0.setLink s.cur.die l x).mem = true := by simpa using h0
    refine canonical_ite (fun _ => h0) fun _ => canonical_ite (fun _ => linked _ _) fun _ => canonical_ite (fun _ => linked _ _) fun _ =>
      canonical_ite (fun _ => linked _ _) fun _ => ?_
    dsimp only
    split
    · rw [State.acceptFlit_keeps_mem]
      exact h0
    · refine canonical_ite (fun _ => linked _ _) fun _ => ?_
      rw [State.relockLink_keeps_mem, State.setLink_mem]
      exact h0

theorem execCongestionDetect_keeps : KeepsCanonical s (execCongestionDetect s) := .answer fun h => by
  split
  · exact h
  · split <;> simpa using h

theorem execSetAsideRelease_keeps : KeepsCanonical s (execSetAsideRelease s) := .answer fun h => by
  split
  · exact h
  · split <;> simpa using h

theorem execLaneThresholdCross_keeps : KeepsCanonical s (execLaneThresholdCross s) := .answer fun h => by
  split
  · exact h
  · rw [foldl_mem fun t j => ?_]
    · exact h
    · dsimp only
      split <;> simp

theorem execReadRequest_keeps : KeepsCanonical s (execReadRequest s) := .answer fun h => State.serve_canonical s 0 (fun die p t ht => by
  split
  · exact State.toHost_canonical _ _ _ _ ht
  · simpa using ht) h

theorem execWriteRequest_keeps : KeepsCanonical s (execWriteRequest s) := .answer fun h => State.serve_canonical s 1 (fun die p t ht => by
  split
  · exact State.toHost_canonical _ _ _ _ ht
  · dsimp only
    rw [State.respond_keeps_mem]
    split
    · exact State.writeHome_canonical _ _ _ _ _ _ _ ht
    · exact ht) h

theorem execSyncCommandRequest_keeps : KeepsCanonical s (execSyncCommandRequest s) := .answer fun h =>
  State.serve_canonical s 2 (fun die p t ht => by
    dsimp only
    split
    · exact State.toHost_canonical _ _ _ _ ht
    · split
      · simpa using ht
      · split
        · split
          · simpa using ht
          · split
            · rw [State.respond_keeps_mem]
              exact State.errorEvent_canonical _ _ _ _ _ _ _ ht
            · rw [State.respond_keeps_mem]
              exact State.writeN_canonical _ _ _ _ ht
        · exact State.syncPerform_canonical _ _ _ _ _ _ _ ht) h

theorem execTranslationRequest_keeps : KeepsCanonical s (execTranslationRequest s) := .answer fun h =>
  State.serve_canonical s 3 (fun die p t ht => by
    dsimp only
    split <;> simpa using ht) h

theorem execEngineNotice_keeps : KeepsCanonical s (execEngineNotice s) := .answer fun h => State.serve_canonical s 5 (fun die p t ht => by
  split
  · split
    rename_i hp
    rw [State.respond_keeps_mem]
    exact canonical_of_eq_mk hp (State.cancelPoint_canonical _ _ _ _ ht)
  · split <;> simpa using ht) h

theorem execFabricEngineReset_keeps : KeepsCanonical s (execFabricEngineReset s) := .answer fun h => by
  refine State.errorEvent_canonical _ _ _ _ _ _ _ (State.resendInvals_canonical _ _ _ ?_)
  refine foldl_canonical (fun t e ht => State.deliver_canonical _ _ _ (by simpa using ht)) _ ?_
  rw [foldl_mem (fun t (e : Packet × Nat) => State.giveBack_keeps_mem t s.cur.die e.2 false), State.setDie_mem,
    foldl_mem (f := fun t l => if (t.link s.cur.die l).up then t.relockLink s.cur.die l false else t) fun t l => by split <;> simp]
  exact h

end

/-! ### Fabric words -/

section
variable (tk : BitVec 4) (rd ra rb : BitVec 5) (s : State)

theorem execFxfill_keeps : KeepsCanonical s (execFxfill tk rd ra rb s) := .answer fun h => fabricWord_canonical tk s h fun t ht => by
  refine .bind (readReg_stable memory_stable _ ht) fun _ h1 => ?_
  split
  refine .bind (readReg_stable memory_stable _ h1) fun _ h2 => ?_
  split
  extract_lets +onlyGivenNames target k
  split
  · refine .passing fun _ => .passing fun _ => .passing fun _ => .ite (fun _ => ?_) fun _ => ?_
    · exact writeResult_next_canonical rd _ h2 fun _ h3 => .pure h3
    · split
      rename_i hp
      exact .pure (State.setPending_canonical (canonical_of_eq_mk hp (State.request_canonical _ _ h)) _)
  · extract_lets +onlyGivenNames id
    split
    · exact .pure h
    · extract_lets +onlyGivenNames raced
      split
      rename_i hp
      refine writeResult_next_canonical rd _ ?_ fun _ h3 => .pure h3
      rw [State.forget_keeps_mem]
      exact canonical_of_eq_mk hp ((State.fillNow_keeps_mem _ _ _ _ _ _).symm ▸ h2)

theorem execFkey_keeps : KeepsCanonical s (execFkey tk rd ra s) := .answer fun h => fabricWord_canonical tk s h fun t ht => by
  refine .bind (readReg_stable memory_stable _ ht) fun _ h1 => ?_
  split
  refine .passing fun _ => ?_
  dsimp -iota -proj only
  split
  rename_i hp
  refine writeResult_next_canonical rd _ (canonical_of_eq_mk hp ?_) fun _ h2 => .pure h2
  (repeat' split) <;> simpa using h1

theorem execFlane_keeps : KeepsCanonical s (execFlane tk rd ra rb s) := .answer fun h => fabricWord_canonical tk s h fun t ht => by
  refine .bind (readReg_stable memory_stable _ ht) fun _ h1 => ?_
  split
  refine .bind (readReg_stable memory_stable _ h1) fun _ h2 => ?_
  split
  refine .passing fun _ => .passing fun _ => ?_
  dsimp -iota -proj only
  split
  rename_i hp
  refine writeResult_next_canonical rd _ (canonical_of_eq_mk hp ?_) fun _ h3 => .pure h3
  split
  · exact h2
  · split
    · exact h2
    · split
      · split
        rename_i hr
        exact canonical_of_eq_mk hr ((State.handBack_keeps_mem _ _ _ _).symm ▸ h2)
      · split
        · exact h2
        · simpa using h2

end

/-! ### SLUICE, host and management steps -/

section
variable (s : State)

theorem execSluiceDrainComplete_keeps : KeepsCanonical s (execSluiceDrainComplete s) := .answer fun h => by
  split
  · exact h
  · rw [State.with_sluice_mem, foldl_mem fun t d => foldl_mem (fun t l => ?_) _ _]
    · exact h
    · dsimp only
      split <;> simp

theorem execSluiceDrainTimeout_keeps : KeepsCanonical s (execSluiceDrainTimeout s) := .answer fun h => by
  split
  · exact h
  · rw [State.endSluice_keeps_mem]
    refine State.releaseHeld_canonical _ _ ?_
    rw [foldl_mem fun t d => foldl_mem (fun t l => State.setLink_mem _ _ _ _) _ _]
    exact h

theorem execPathRelockComplete_keeps : KeepsCanonical s (execPathRelockComplete s) := .answer fun h => by
  split
  · exact h
  · split
    · exact h
    · exact State.publishIfDone_canonical _ h

theorem execInboundBarRead_keeps : KeepsCanonical s (execInboundBarRead s) := .answer fun h => by
  have done (t : State) (status data : Nat) (ht : t.mem = s.mem) : Memory.isCanonical (t.complete status data).mem = true :=
    (State.complete_keeps_mem t status data).trans ht ▸ h
  have word (r : Option Nat) (f : Nat → Nat) : Memory.isCanonical (match r with
      | some w => s.complete 0 (f w)
      | none => s.unrequested.complete 0 0).mem = true := by
    split
    · exact done _ _ _ rfl
    · exact done _ _ _ (State.unrequested_keeps_mem s)
  refine canonical_ite (fun _ => h) fun _ => canonical_ite (fun _ => done _ _ _ ?_) fun _ => canonical_ite (fun _ => done _ _ _ rfl) fun _ =>
    canonical_ite (fun _ => word _ _) fun _ => word _ _
  split
  · exact State.unrequested_keeps_mem s
  · rfl

theorem execInboundBarWrite_keeps : KeepsCanonical s (execInboundBarWrite s) := .answer fun h => by
  refine canonical_ite (fun _ => h) fun _ => canonical_ite (fun _ => ?_) fun _ => canonical_ite (fun _ => ?_) fun _ =>
    canonical_ite (fun _ => ?_) fun _ => State.writeBar0_canonical _ _ _ _ h
  · extract_lets +onlyGivenNames s1 whole s2
    have h1 : Memory.isCanonical s1.mem = true := by
      refine foldl_canonical (fun t b ht => ?_) _ h
      split
      · exact canonical_ite (fun _ => State.writeN_canonical _ _ _ _ ht) fun _ => State.writeN_canonical _ _ _ _ ht
      · exact ht
    have h2 : Memory.isCanonical s2.mem = true := h1
    refine canonical_ite (fun _ => ?_) fun _ => h2
    rw [State.unrequested_keeps_mem]
    exact h2
  · rw [State.complete_keeps_mem]
    exact h
  · refine canonical_ite (fun _ => ?_) fun _ => canonical_ite (fun _ => h) fun _ => ?_
    · rw [State.notifyQueue_keeps_mem]
      exact h
    · rw [State.unrequested_keeps_mem]
      exact h

theorem execRegisterWrite_keeps : KeepsCanonical s (execRegisterWrite s) := .answer fun h =>
  canonical_ite (fun _ => h) fun _ => State.writeBar0_canonical _ _ _ _ h

theorem execCancelPacket_keeps : KeepsCanonical s (execCancelPacket s) := .answer fun h => by
  split
  · exact h
  · split
    · exact State.endPacket_canonical _ _ _ h
    · extract_lets +onlyGivenNames job
      split
      rename_i hp
      refine State.endPacket_canonical _ _ _ (canonical_of_eq_mk hp ?_)
      refine foldl_snd_canonical (fun acc d hacc => ?_) _ h
      split
      · exact hacc
      · split
        rename_i hc
        exact canonical_of_eq_mk hc (State.cancelPoint_canonical _ _ _ _ hacc)

theorem execPcieCompletionTimeout_keeps : KeepsCanonical s (execPcieCompletionTimeout s) := .answer fun h => by
  split
  · exact h
  · split
    · exact State.deliver_canonical _ _ _ h
    · exact h

theorem execIdentity_keeps : KeepsCanonical s (execIdentity s) := .answer fun h =>
  State.command_canonical (fun _ _ ht => by split <;> exact ht) s 1 _ _ _ h

theorem execAttest_keeps : KeepsCanonical s (execAttest s) := .answer fun h =>
  State.command_canonical (fun _ _ ht => by split <;> exact ht) s 2 _ _ _ h

theorem execKeyset_keeps : KeepsCanonical s (execKeyset s) := .answer fun h =>
  State.command_canonical (fun _ _ ht => by split <;> exact ht) s 3 _ _ _ h

theorem execKeyclr_keeps : KeepsCanonical s (execKeyclr s) := .answer fun h =>
  State.command_canonical (fun _ _ ht => by split <;> exact ht) s 4 _ _ _ h

theorem execCtxbind_keeps : KeepsCanonical s (execCtxbind s) := .answer fun h =>
  State.command_canonical (fun _ _ ht => by dsimp only; split <;> exact ht) s 5 _ _ _ h

theorem execDomkey_keeps : KeepsCanonical s (execDomkey s) := .answer fun h =>
  State.command_canonical (fun _ t ht => by
    split
    · exact ht
    · rw [State.relockAll_keeps_mem]
      exact ht) s 6 _ _ _ h

theorem execJournalRead_keeps : KeepsCanonical s (execJournalRead s) := .answer fun h =>
  State.command_canonical (fun _ _ ht => by split <;> exact ht) s 7 _ _ _ h

theorem execFwstage_keeps : KeepsCanonical s (execFwstage s) := .answer fun h =>
  State.command_canonical (fun _ _ ht => by
    extract_lets off total piece m cells staged m1
    split
    · exact ht
    · split
      · exact ht
      · split <;> exact ht) s 8 _ _ _ h

theorem execFenceDie_keeps : KeepsCanonical s (execFenceDie s) := .answer fun h =>
  State.command_canonical (fun _ _ ht => by
    split
    · exact ht
    · exact State.fence_canonical _ _ ht) s 9 _ _ _ h

theorem execUnfenceDie_keeps : KeepsCanonical s (execUnfenceDie s) := .answer fun h =>
  State.command_canonical (fun _ _ ht => by split <;> exact ht) s 9 _ _ _ h

theorem execDiereset_keeps : KeepsCanonical s (execDiereset s) := .answer fun h =>
  State.command_canonical (fun _ _ ht => by
    dsimp only
    split
    · exact ht
    · split
      · exact ht
      · exact State.resetDie_canonical _ _ ht) s 10 _ _ _ h

theorem execPwrcap_keeps : KeepsCanonical s (execPwrcap s) := .answer fun h =>
  State.command_canonical (fun _ _ ht => by split <;> exact ht) s 11 _ _ _ h

theorem execTelem_keeps : KeepsCanonical s (execTelem s) := .answer fun h =>
  State.command_canonical (fun _ _ ht => by split <;> exact ht) s 12 _ _ _ h

theorem execBootStep_keeps : KeepsCanonical s (execBootStep s) := .answer fun h => by
  split
  · exact h
  · split
    · exact State.bootFrom_canonical _ _ (State.bootWork_canonical _ _ _ h)
    · split
      · exact State.bootAside_canonical _ _ _ h
      · exact State.bootFrom_canonical _ _ (State.bootAside_canonical _ _ _ h)

theorem execPowerThermalTick_keeps : KeepsCanonical s (execPowerThermalTick s) := .answer fun h =>
  foldl_canonical (fun _ _ ht => State.tickDie_canonical _ _ _ _ ht) _ h

theorem execCorrectedErrorThreshold_keeps : KeepsCanonical s (execCorrectedErrorThreshold s) := by
  unfold execCorrectedErrorThreshold
  extract_lets +onlyGivenNames die k d
  split
  extract_lets +onlyGivenNames s1 s2
  refine ⟨_, rfl, fun h => ?_⟩
  have h1 : Memory.isCanonical s1.mem = true := (State.setDie_mem _ _ _).symm ▸ h
  clear_value s1
  refine foldl_canonical (fun t a ht => ?_) _ ?_
  · exact State.errorEvent_canonical { t with poison := addPoison a 1 t.poison } _ _ _ _ _ _ ht
  · exact canonical_ite (fun _ => State.errorEvent_canonical _ _ _ _ _ _ _ h1) fun _ => h1

theorem execTaskEngineResumeTimeout_keeps : KeepsCanonical s (execTaskEngineResumeTimeout s) := .answer fun h => by
  split
  · exact h
  · split
    · exact State.fence_canonical _ _ h
    · exact h

end

/-! ### Store words and drains -/

section
variable (tk : BitVec 4) (rd ra rb rs : BitVec 5) (q : BitVec 1) (s : State)

theorem execSt_keeps (h : BitVec 3) (size : BitVec 2) : KeepsCanonical s (execSt tk rs h ra size s) := .answer fun h0 =>
  storeWord_canonical tk _ s h0 fun _ h1 => .bind (scalarStore_canonical rs h ra size h1) fun _ h2 => .pure h2

theorem execStRel_keeps (h : BitVec 3) (size : BitVec 2) (scope : BitVec 3) : KeepsCanonical s (execStRel tk rs h ra size scope s) :=
  .wordM _ _ _ tk fun _ _ h1 => .bind (scalarStore_canonical rs h ra size h1) fun _ h2 => .bind (.any _) fun _ _ => .pure (by
    simp only [Eff.state]
    split
    · exact State.handOn_canonical _ _ _ _ h2
    · simpa using h2)

theorem execStv_keeps (h : BitVec 3) : KeepsCanonical s (execStv tk q h ra s) := .answer fun h0 =>
  storeWord_canonical tk _ s h0 fun _ h1 => .bind (popVXD_canonical _ h1) fun _ h2 => .bind (readReg_stable memory_stable _ h2) fun _ h3 =>
    .bind (.any _) fun _ _ => .pure h3

theorem execStvs_keeps (width : BitVec 2) (h : BitVec 3) : KeepsCanonical s (execStvs tk q width h ra rb s) := .answer fun h0 =>
  storeWord_canonical tk _ s h0 fun _ h1 => .bind (popVXD_canonical _ h1) fun _ h2 => .bind (readReg_stable memory_stable _ h2) fun _ h3 =>
    .bind (readReg_stable memory_stable _ h3) fun _ h4 => .bind (.any _) fun _ _ => .pure h4

theorem execStvx_keeps (width : BitVec 2) (h : BitVec 3) : KeepsCanonical s (execStvx tk q width h ra rb s) := .answer fun h0 =>
  storeWord_canonical tk _ s h0 fun _ h1 => .bind (popVXD_canonical _ h1) fun _ h2 => .bind (readReg_stable memory_stable _ h2) fun _ h3 =>
    .bind (readReg_stable memory_stable _ h3) fun _ h4 => .bind (.any _) fun _ _ => .bind (.any _) fun _ _ => .pure h4

theorem execStp_keeps (size : BitVec 2) : KeepsCanonical s (execStp tk ra rs size s) := .answer fun h0 =>
  storeWord_canonical tk _ s h0 fun _ h1 => .bind (readReg_stable memory_stable _ h1) fun _ h2 =>
    .bind (readReg_stable memory_stable _ h2) fun _ h3 => .passing fun _ => .pure h3

theorem execStpv_keeps (width : BitVec 2) (orient : BitVec 1) : KeepsCanonical s (execStpv tk q width orient ra s) := .answer fun h0 =>
  storeWord_canonical tk _ s h0 fun _ h1 => .bind (popVXD_canonical _ h1) fun _ h2 => .bind (readReg_stable memory_stable _ h2) fun _ h3 =>
    .bind (.any _) fun _ _ => .pure h3

theorem execDbind_keeps : KeepsCanonical s (execDbind tk q ra s) := .wordM _ _ _ tk fun _ _ h1 =>
  .bind (readReg_stable memory_stable _ h1) fun _ h2 => .passing fun _ => .passing fun _ => .bind (.any _) fun _ _ =>
    .bind (.any _) fun _ _ => by
      dsimp only
      split
      · exact .trap _ _
      · exact .pure (by simpa [Eff.state] using h2)

theorem execDunbind_keeps : KeepsCanonical s (execDunbind tk q s) := .wordM _ _ _ tk fun _ _ h1 => by
  split
  · exact .pure h1
  · split
    · exact .trap _ _
    · exact .hold _

theorem execDrainStreamWrite_keeps : KeepsCanonical s (execDrainStreamWrite s) := by
  unfold execDrainStreamWrite
  extract_lets +onlyGivenNames me c q t
  refine .answer fun h => ?_
  split
  · exact h
  · split
    · refine canonical_ite (fun _ => h) fun _ => ?_
      extract_lets -underBinder res
      have hres : Res.All (Memory.isCanonical ·.mem = true) res := by
        refine .bind (.any _) fun _ _ => ?_
        split
        refine .bind (.any _) fun _ _ => .pure (State.handOn_canonical _ _ _ _ ?_)
        rw [State.setStrand_mem]
        exact h
      clear_value res
      split
      · exact hres _ rfl
      · exact h
      · rw [State.setStrand_mem]
        refine canonical_ite (fun _ => ?_) fun _ => h
        rw [State.storeFailed_keeps_mem]
        exact h
    · exact h

theorem drainAtomic_canonical (d : DrainOps) (m : Nat) (ids : Option (List Nat)) (s0 s : State) (h0 : Memory.isCanonical s0.mem = true)
    (h : Memory.isCanonical s.mem = true) : (drainAtomic d m ids s0 s).All (Memory.isCanonical ·.state.mem = true) := by
  unfold drainAtomic
  extract_lets +onlyGivenNames c k send
  have hsend (t : State) (ht : Memory.isCanonical t.mem = true) : Memory.isCanonical (send t).mem = true :=
    State.sendSync_canonical _ _ _ _ _ _ _ _ _ ht
  clear_value send
  split
  · refine .ite (fun _ => .pure h) fun _ => .ite (fun _ => .pure h0) fun _ => ?_
    have hback : Memory.isCanonical (if dieScope d.ascope then s0.writeBackContext c else ([], s0)).2.mem = true := by
      split
      · exact State.writeBackContext_canonical _ _ h0
      · exact h0
    split
    rename_i hp
    exact .ite (fun _ => .pure (hsend _ h)) fun _ => .pure (State.setPending_canonical (canonical_of_eq_mk hp hback) _)
  · refine .ite (fun _ => .pure (hsend _ ?_)) fun _ => .pure h0
    rw [State.forgetAll_keeps_mem]
    exact h

theorem execDrain_keeps (tile : BitVec 4) (rc rx : BitVec 5) : KeepsCanonical s (execDrain tk tile rc ra rx s) := .wordM _ _ _ tk fun t h0 h1 => by
  extract_lets +onlyGivenNames c n d begun
  clear_value begun
  split
  · exact drainAtomic_canonical _ _ _ _ _ h0 h1
  · extract_lets -underBinder w rest
    have hrest (u : Unit) : (rest u).All (Memory.isCanonical ·.state.mem = true) := by
      refine .bind (.any _) fun _ _ => ?_
      extract_lets +onlyGivenNames crew
      refine .ite (fun _ => .ite (fun _ => .pure h0) fun _ => .pure ?_) fun _ => ?_
      · simp only [Eff.state, State.setStream_mem]
        exact h0
      · extract_lets +onlyGivenNames a
        refine .passing fun _ => ?_
        extract_lets +onlyGivenNames kind as
        split
        extract_lets +onlyGivenNames bs
        refine .bind (.any _) fun _ _ => ?_
        extract_lets +onlyGivenNames fill
        have hfill (u : State) (hu : Memory.isCanonical u.mem = true) : Memory.isCanonical (fill u).mem = true := by
          refine DrainOps.writeSix_canonical _ _ _ (State.handOn_canonical _ _ _ _ ?_)
          rw [State.setStrand_mem, State.setCrew_mem]
          exact hu
        clear_value fill
        exact .ite (fun _ => .pure (State.setPending_canonical (hfill _ h0) _)) fun _ => .pure (hfill _ h1)
    clear_value rest
    split
    · exact .bind (Q := fun _ => False) (.trap _ _) nofun
    · exact hrest ()

theorem execClaim_keeps : KeepsCanonical s (execClaim tk rd ra rb s) := .wordM _ _ _ tk fun t h0 h1 => by
  extract_lets +onlyGivenNames c k
  refine .bind (readReg_stable memory_stable _ h1) fun _ h2 => ?_
  split
  refine .bind (readReg_stable memory_stable _ h2) fun _ h3 => ?_
  split
  extract_lets +onlyGivenNames enter
  have henter (pa : Nat) (u : State) (hu : Memory.isCanonical u.mem = true) : (enter pa u).All (Memory.isCanonical ·.state.mem = true) := by
    exact .pure (State.setPending_canonical ((State.enterTree_keeps_mem _ _ _).symm ▸ hu) _)
  clear_value enter
  split
  · refine .bind (.any _) fun pa _ => .bind (.any _) fun _ _ => .bind (.any _) fun _ _ => ?_
    have sent (u : State) (ids : List Nat) (hu : Memory.isCanonical u.mem = true) :
        Res.All (Memory.isCanonical ·.state.mem = true)
          (if ids.isEmpty then enter pa s else pure (.stay (u.setPending { ids := ids, data := [0] }))) :=
      .ite (fun _ => henter _ _ h0) fun _ => .pure (State.setPending_canonical hu _)
    refine .ite (fun _ => .bind (.any _) fun _ _ => ?_) fun _ => ?_
    all_goals
      split
      rename_i hp
      exact sent _ _ (canonical_of_eq_mk hp (State.writeBackContext_canonical _ _ h0))
  · refine .ite (fun _ => .bind (.any _) fun _ _ => .ite (fun _ => henter _ _ ?_) fun _ => .pure h0) fun _ => ?_
    · rw [State.forgetAll_keeps_mem]
      exact h0
    · split
      · exact .pure h0
      · extract_lets +onlyGivenNames s3
        have hs3 : Memory.isCanonical s3.mem = true := (State.forgetAll_keeps_mem _ _).symm ▸ h3
        clear_value s3
        have answered (r : Reply) : (if r.status = 0 then writeResult rd (BitVec.ofNat 64 r.data) s3
            else if (s3.crew c.die c.polder).halted then
              pure (s3.setStrand c { s3.strand c with replyD := some (rd.toNat, r.data, claimStatus r) })
            else claimTrap (claimStatus r) r.data : Res State).All (Memory.isCanonical ·.mem = true) :=
          .ite (fun _ => writeResult_canonical hs3 _ _) fun _ => .ite (fun _ => .pure ((State.setStrand_mem _ _ _).symm ▸ hs3)) fun _ => by
            unfold claimTrap
            split <;> exact .trap _ _
        refine .bind (answered _) fun u hu => .pure ?_
        simp only [Eff.state, State.invalidateContext_keeps_mem]
        exact hu

theorem execClaimWindowClose_keeps : KeepsCanonical s (execClaimWindowClose s) := .answer fun h => by
  refine canonical_ite (fun _ => h) fun _ => ?_
  extract_lets +onlyGivenNames s1 all w0 w1
  have h1 : Memory.isCanonical s1.mem = true := (State.setDie_mem _ _ _).symm ▸ h
  have hall (t : State) (r : Reply) (ht : Memory.isCanonical t.mem = true) : Memory.isCanonical (all t r).mem = true :=
    foldl_canonical (fun _ _ hu => State.deliver_canonical _ _ _ hu) _ ht
  clear_value s1 all
  split
  · exact hall _ _ (State.errorEvent_canonical _ _ _ _ _ _ _ h1)
  · refine canonical_ite (fun _ => hall _ _ h1) fun _ => canonical_ite (fun _ => hall _ _ h1) fun _ => ?_
    extract_lets +onlyGivenNames capacity
    split
    rename_i hp
    refine State.writeN_canonical _ _ _ _ (canonical_of_eq_mk hp ?_)
    exact foldl_snd_canonical (fun _ _ hu => State.deliver_canonical _ _ _ hu) _ h1

end

/-! ### System registers, fences and the watchdog -/

section
variable (s : State)

theorem writeSystem_keeps_mem {n : Nat} {v : Word} {t : State} (ht : writeSystem n v s = some t) : t.mem = s.mem := by
  unfold writeSystem at ht
  dsimp only at ht
  split at ht
  all_goals cases ht
  all_goals simp

theorem execSysw_keeps (sf : BitVec 2) (ra : BitVec 5) (num : BitVec 13) : KeepsCanonical s (execSysw sf ra num s) :=
  .lower (sf := sf) fun _ h1 => .bind (readReg_stable memory_stable _ h1) fun _ h2 => .ite (fun _ => .trap _ _) fun _ => by
    split
    · exact .trap _ _
    · rename_i ht
      exact .pure ((writeSystem_keeps_mem _ ht).symm ▸ h2)

theorem execFenceX_keeps (scope : BitVec 3) (p1 p2 : BitVec 8) : KeepsCanonical s (execFenceX scope p1 p2 s) := .word _ _ _ fun _ h0 _ => by
  extract_lets +onlyGivenNames c st k release look
  have hrelease (t : State) (ht : Memory.isCanonical t.mem = true) : (release t).All (Memory.isCanonical ·.state.mem = true) := by
    refine .pure ?_
    simp only [Eff.state, State.setStrand_mem]
    split
    · rw [State.invalidateContext_keeps_mem]
      exact ht
    · exact ht
  have hlook (t : State) (ht : Memory.isCanonical t.mem = true) : (look t).All (Memory.isCanonical ·.state.mem = true) := by
    have hback : Memory.isCanonical (if dieScope scope then t.writeBackContext c else ([], t)).2.mem = true := by
      split
      · exact State.writeBackContext_canonical _ _ ht
      · exact ht
    refine .ite (fun _ => .pure ht) fun _ => ?_
    split
    rename_i hp
    refine .ite (fun _ => hrelease _ ht) fun _ => .pure ?_
    simp only [Eff.state, State.setStrand_mem]
    exact canonical_of_eq_mk hp hback
  clear_value look release
  refine .ite (fun _ => .pure ?_) fun _ => .ite (fun _ => .pure h0) fun _ => ?_
  · simp only [Eff.state, State.setStream_mem]
    split
    · rw [State.forgetAll_keeps_mem]
      exact h0
    · exact h0
  · split
    · refine .ite (fun _ => .pure h0) fun _ => ?_
      have h1 (ids : List Nat) : Memory.isCanonical (s.forgetAll ids).mem = true := (State.forgetAll_keeps_mem _ _).symm ▸ h0
      exact .ite (fun _ => hrelease _ (h1 _)) fun _ => hlook _ ((State.setStrand_mem _ _ _).symm ▸ h1 _)
    · exact hlook _ h0

theorem execStallWatchdogTrap_keeps : KeepsCanonical s (execStallWatchdogTrap s) := .answer fun h => by
  split
  · dsimp only
    split
    · exact h
    · exact canonical_ite (fun _ => h) fun _ => State.takeTrap_stable memory_stable _ _ h
  · exact h

end

end Sys2Proof.Machine
end

section
namespace Sys2Proof.Machine

/-! ### Steps whose parts all keep memory canonical -/

theorem execCpyr_keeps (tk : BitVec 4) (scol : BitVec 1) (ring : BitVec 3) (ra rb : BitVec 5) (s : State) : KeepsCanonical s (execCpyr tk scol ring ra rb s) :=
  .answer fun h => by simp [h, copyRing_canonical]

theorem execCpyrAt_keeps (tk : BitVec 4) (scol : BitVec 1) (ring : BitVec 3) (rp ra rb : BitVec 5) (s : State) : KeepsCanonical s (execCpyrAt tk scol ring rp ra rb s) :=
  .answer fun h => by simp [h, copyRing_canonical]

theorem execCopyUnitLand_keeps (s : State) : KeepsCanonical s (execCopyUnitLand s) := by
  refine .answer fun h => ?_
  split <;> simp [h, State.landUnit_canonical]

theorem execCopyCommandStart_keeps (s : State) : KeepsCanonical s (execCopyCommandStart s) := by
  refine .answer fun h => ?_
  dsimp only
  (repeat' split) <;> simp [h]

theorem execBfmtPerform_keeps (s : State) : KeepsCanonical s (execBfmtPerform s) := by
  refine .answer fun h => ?_
  dsimp only
  (repeat' split) <;> simp [h]

theorem execMatrixCommandStart_keeps (s : State) : KeepsCanonical s (execMatrixCommandStart s) := by
  refine .answer fun h => ?_
  dsimp only
  (repeat' split) <;> simp [h]

theorem execRingConfigEffect_keeps (s : State) : KeepsCanonical s (execRingConfigEffect s) := by
  refine .answer fun h => ?_
  dsimp only
  (repeat' split) <;> simp [h]

theorem execTileAcquire_keeps (s : State) : KeepsCanonical s (execTileAcquire s) := by
  refine .answer fun h => ?_
  dsimp only
  (repeat' split) <;> simp [h]

theorem execSlabStepIssue_keeps (s : State) : KeepsCanonical s (execSlabStepIssue s) := by
  refine .answer fun h => ?_
  dsimp only
  (repeat' split) <;> simp [h, State.slabStep_canonical]

theorem execMmagLengthReread_keeps (s : State) : KeepsCanonical s (execMmagLengthReread s) := by
  refine .answer fun h => ?_
  dsimp only
  (repeat' split) <;> simp [h]

theorem execMatrixCommandRetire_keeps (s : State) : KeepsCanonical s (execMatrixCommandRetire s) := by
  refine .answer fun h => ?_
  dsimp only
  (repeat' split) <;> simp [h, State.writeTile_canonical]

theorem execFollowOnHandoff_keeps (s : State) : KeepsCanonical s (execFollowOnHandoff s) := by
  refine .answer fun h => ?_
  dsimp only
  (repeat' split) <;> simp [h]

theorem execMatrixEngineReset_keeps (s : State) : KeepsCanonical s (execMatrixEngineReset s) := by
  refine .answer fun h => ?_
  split <;> simp [h, State.errorEvent_canonical]

theorem execBara_keeps (tk : BitVec 4) (rd ra : BitVec 5) (s : State) : KeepsCanonical s (execBara tk rd ra s) :=
  .answer fun h => by simp [h, objectReturning_canonical]

theorem execBarw_keeps (tk : BitVec 4) (rd ra rb : BitVec 5) (s : State) : KeepsCanonical s (execBarw tk rd ra rb s) :=
  .answer fun h => by simp [h, objectReturning_canonical]

theorem execCwait_keeps (tk : BitVec 4) (rd ra rb : BitVec 5) (s : State) : KeepsCanonical s (execCwait tk rd ra rb s) :=
  .answer fun h => by simp [h, objectReturning_canonical]

theorem execSemp_keeps (tk : BitVec 4) (rd ra : BitVec 5) (s : State) : KeepsCanonical s (execSemp tk rd ra s) :=
  .answer fun h => by simp [h, objectReturning_canonical]

theorem execCarr_keeps (tk : BitVec 4) (ra rb : BitVec 5) (s : State) : KeepsCanonical s (execCarr tk ra rb s) :=
  .answer fun h => by simp [h, objectQueued_canonical]

theorem execSemv_keeps (tk : BitVec 4) (ra rb : BitVec 5) (s : State) : KeepsCanonical s (execSemv tk ra rb s) :=
  .answer fun h => by simp [h, objectQueued_canonical]

theorem execSignal_keeps (tk : BitVec 4) (ra rb : BitVec 5) (s : State) : KeepsCanonical s (execSignal tk ra rb s) :=
  .answer fun h => by simp [h, objectQueued_canonical]

theorem execSyncCommandSend_keeps (s : State) : KeepsCanonical s (execSyncCommandSend s) := by
  refine .answer fun h => ?_
  dsimp only
  (repeat' split) <;> simp [h, State.flush_canonical, State.sendSync_canonical]

theorem execJobclr_keeps (s : State) : KeepsCanonical s (execJobclr s) :=
  .answer fun h => h

theorem execRecordAdmission_keeps (s : State) : KeepsCanonical s (execRecordAdmission s) := by
  refine .answer fun h => ?_
  dsimp only
  (repeat' split) <;> simp [h, State.reject_canonical, State.rejectUnread_canonical]

theorem execLaunchRetire_keeps (s : State) : KeepsCanonical s (execLaunchRetire s) := by
  refine .answer fun h => ?_
  dsimp only
  (repeat' split) <;> simp [h, State.decrement_canonical]

theorem execGraphNodeFire_keeps (s : State) : KeepsCanonical s (execGraphNodeFire s) := by
  refine .answer fun h => ?_
  dsimp only
  (repeat' split) <;> simp [h, State.endGraph_canonical, State.reject_canonical, State.rejectUnread_canonical]

theorem execRampFillerIssue_keeps (s : State) : KeepsCanonical s (execRampFillerIssue s) := by
  refine .answer fun h => ?_
  split <;> simp [h]

theorem execRampWindowEnd_keeps (s : State) : KeepsCanonical s (execRampWindowEnd s) := by
  refine .answer fun h => ?_
  split <;> simp [h]

theorem execPreemptGo_keeps (s : State) : KeepsCanonical s (execPreemptGo s) :=
  .answer fun h => by simp [h]

theorem execPreemptHold_keeps (s : State) : KeepsCanonical s (execPreemptHold s) :=
  .answer fun h => by simp [h]

theorem execPreemptResume_keeps (s : State) : KeepsCanonical s (execPreemptResume s) :=
  .answer fun h => by simp [h]

theorem execPreemptDiscard_keeps (s : State) : KeepsCanonical s (execPreemptDiscard s) :=
  .answer fun h => by simp [h, State.preemptDiscard_canonical]

theorem execPreemptStopComplete_keeps (s : State) : KeepsCanonical s (execPreemptStopComplete s) := by
  refine .answer fun h => ?_
  dsimp only
  (repeat' split) <;> simp [h, State.saveFamily_canonical]

theorem execSnapdataWrite_keeps (s : State) : KeepsCanonical s (execSnapdataWrite s) :=
  .answer fun h => by simp [h]

theorem execSegmentForwardComplete_keeps (s : State) : KeepsCanonical s (execSegmentForwardComplete s) := by
  refine .answer fun h => ?_
  dsimp only
  (repeat' split) <;> simp [h, State.foldAll_canonical]

theorem execMirrorUpdate_keeps (s : State) : KeepsCanonical s (execMirrorUpdate s) := by
  refine .answer fun h => ?_
  dsimp only
  (repeat' split) <;> simp [h]

theorem execRingFailureDetect_keeps (s : State) : KeepsCanonical s (execRingFailureDetect s) :=
  .answer fun h => by simp [h, State.ringFails_canonical]

theorem execRpctlStart_keeps (s : State) : KeepsCanonical s (execRpctlStart s) :=
  .answer fun h => h

theorem execRpctlStop_keeps (s : State) : KeepsCanonical s (execRpctlStop s) := by
  refine .answer fun h => ?_
  split <;> simp [h]

theorem execLdv_keeps (tk : BitVec 4) (q : BitVec 1) (width : BitVec 2) (h : BitVec 3) (ra : BitVec 5) (statp : BitVec 4) (s : State) : KeepsCanonical s (execLdv tk q width h ra statp s) :=
  .answer fun h => by simp [h, vectorLoadWord_canonical]

theorem execLdvAcq_keeps (tk : BitVec 4) (q : BitVec 1) (width : BitVec 2) (h : BitVec 3) (ra : BitVec 5) (scope : BitVec 3) (statp : BitVec 4) (s : State) : KeepsCanonical s (execLdvAcq tk q width h ra scope statp s) :=
  .answer fun h => by simp [h, vectorLoadWord_canonical]

theorem execLdvs_keeps (tk : BitVec 4) (q : BitVec 1) (width : BitVec 2) (h : BitVec 3) (ra rb : BitVec 5) (statp : BitVec 4) (s : State) : KeepsCanonical s (execLdvs tk q width h ra rb statp s) :=
  .answer fun h => by simp [h, vectorLoadWord_canonical]

theorem execLdvg_keeps (tk : BitVec 4) (q : BitVec 1) (width : BitVec 2) (h : BitVec 3) (ra rb : BitVec 5) (statp : BitVec 4) (s : State) : KeepsCanonical s (execLdvg tk q width h ra rb statp s) :=
  .answer fun h => by simp [h, vectorLoadWord_canonical]

theorem execLoadStreamFetch_keeps (s : State) : KeepsCanonical s (execLoadStreamFetch s) := by
  refine .answer fun h => ?_
  dsimp only
  (repeat' split) <;> simp [h, fetchVector_canonical]

theorem execRequesterTimeout_keeps (s : State) : KeepsCanonical s (execRequesterTimeout s) := by
  refine .answer fun h => ?_
  dsimp only
  (repeat' split) <;> simp [h, State.deliver_canonical]

theorem execXentWrite_keeps (s : State) : KeepsCanonical s (execXentWrite s) :=
  .answer fun h => by simp [h, State.writeEntry_canonical]

theorem execFrclose_keeps (s : State) : KeepsCanonical s (execFrclose s) :=
  .answer fun h => by simp [h, State.closeRecord_canonical]

theorem execFlitSend_keeps (s : State) : KeepsCanonical s (execFlitSend s) := by
  refine .answer fun h => ?_
  dsimp only
  (repeat' split) <;> simp [h]

theorem execSetAsideNotice_keeps (s : State) : KeepsCanonical s (execSetAsideNotice s) := by
  refine .answer fun h => ?_
  split <;> simp [h]

theorem execAutoKeyRotation_keeps (s : State) : KeepsCanonical s (execAutoKeyRotation s) := by
  refine .answer fun h => ?_
  split <;> simp [h]

theorem execLaneWindowEnd_keeps (s : State) : KeepsCanonical s (execLaneWindowEnd s) := by
  refine .answer fun h => ?_
  split <;> simp [h]

theorem execLaneNotice_keeps (s : State) : KeepsCanonical s (execLaneNotice s) := by
  refine .answer fun h => ?_
  split <;> simp [h]

theorem execTrainingAttemptEnd_keeps (s : State) : KeepsCanonical s (execTrainingAttemptEnd s) := by
  refine .answer fun h => ?_
  dsimp only
  (repeat' split) <;> simp [h]

theorem execInvalidationRequest_keeps (s : State) : KeepsCanonical s (execInvalidationRequest s) := by
  refine .answer fun h => ?_
  dsimp only
  (repeat' split) <;> simp [h, State.beginClearing_canonical]

theorem execReadData_keeps (s : State) : KeepsCanonical s (execReadData s) :=
  .answer fun h => by simp [h, State.takeResponse_canonical]

theorem execWriteAcknowledgement_keeps (s : State) : KeepsCanonical s (execWriteAcknowledgement s) :=
  .answer fun h => by simp [h, State.takeResponse_canonical]

theorem execSyncReply_keeps (s : State) : KeepsCanonical s (execSyncReply s) :=
  .answer fun h => by simp [h, State.takeResponse_canonical]

theorem execTranslationReply_keeps (s : State) : KeepsCanonical s (execTranslationReply s) :=
  .answer fun h => by simp [h, State.takeResponse_canonical]

theorem execNoticeAcknowledgement_keeps (s : State) : KeepsCanonical s (execNoticeAcknowledgement s) :=
  .answer fun h => by simp [h, State.takeResponse_canonical]

theorem execInvalidationAcknowledgement_keeps (s : State) : KeepsCanonical s (execInvalidationAcknowledgement s) := by
  refine .answer fun h => ?_
  dsimp only
  (repeat' split) <;> simp [h, State.deliver_canonical]

theorem execInvalidationResend_keeps (s : State) : KeepsCanonical s (execInvalidationResend s) :=
  .answer fun h => by simp [h, State.resendInvals_canonical]

theorem execSlctlGo_keeps (s : State) : KeepsCanonical s (execSlctlGo s) :=
  .answer fun h => by simp [h, State.sluiceGo_canonical]

theorem execDrainMarker_keeps (s : State) : KeepsCanonical s (execDrainMarker s) := by
  refine .answer fun h => ?_
  split <;> simp [h]

theorem execSluiceDarkEnd_keeps (s : State) : KeepsCanonical s (execSluiceDarkEnd s) := by
  refine .answer fun h => ?_
  split <;> simp [h, State.publishIfDone_canonical]

theorem execPathRelockTimeout_keeps (s : State) : KeepsCanonical s (execPathRelockTimeout s) := by
  refine .answer fun h => ?_
  dsimp only
  (repeat' split) <;> simp [h, State.publishIfDone_canonical]

theorem execConfigRequest_keeps (s : State) : KeepsCanonical s (execConfigRequest s) := by
  refine .answer fun h => ?_
  dsimp only
  (repeat' split) <;> simp [h]

theorem execInboundAtomicop_keeps (s : State) : KeepsCanonical s (execInboundAtomicop s) := by
  refine .answer fun h => ?_
  split <;> simp [h]

theorem execUqnotify_keeps (s : State) : KeepsCanonical s (execUqnotify s) := by
  refine .answer fun h => ?_
  split <;> simp [h]

theorem execUqctlWrite_keeps (s : State) : KeepsCanonical s (execUqctlWrite s) := by
  refine .answer fun h => ?_
  split <;> simp [h]

theorem execPacketFetch_keeps (s : State) : KeepsCanonical s (execPacketFetch s) := by
  refine .answer fun h => ?_
  dsimp only
  (repeat' split) <;> simp [h]

theorem execLaunchPacket_keeps (s : State) : KeepsCanonical s (execLaunchPacket s) := by
  refine .answer fun h => ?_
  dsimp only
  (repeat' split) <;> simp [h, State.endPacket_canonical]

theorem execBarrierPacket_keeps (s : State) : KeepsCanonical s (execBarrierPacket s) := by
  refine .answer fun h => ?_
  dsimp only
  (repeat' split) <;> simp [h, State.decrement_canonical, State.endPacket_canonical]

theorem execLaunchInterrupt_keeps (s : State) : KeepsCanonical s (execLaunchInterrupt s) := by
  refine .answer fun h => ?_
  dsimp only
  (repeat' split) <;> simp [h]

theorem execDeviceHostAccess_keeps (s : State) : KeepsCanonical s (execDeviceHostAccess s) := by
  refine .answer fun h => ?_
  dsimp only
  (repeat' split) <;> simp [h, State.deliver_canonical, State.hostWrite_canonical]

theorem execHostCompletion_keeps (s : State) : KeepsCanonical s (execHostCompletion s) := by
  refine .answer fun h => ?_
  dsimp only
  (repeat' split) <;> simp [h, State.errorEvent_canonical, State.deliver_canonical, State.hostPerform_canonical]

theorem execHostLinkDown_keeps (s : State) : KeepsCanonical s (execHostLinkDown s) := by
  refine .answer fun h => ?_
  split <;> simp [h]

theorem execHostLinkUp_keeps (s : State) : KeepsCanonical s (execHostLinkUp s) := by
  refine .answer fun h => ?_
  split <;> simp [h]

theorem execHostEngineReset_keeps (s : State) : KeepsCanonical s (execHostEngineReset s) :=
  .answer fun h => by simp [h, State.errorEvent_canonical]

theorem execJournalClear_keeps (s : State) : KeepsCanonical s (execJournalClear s) :=
  .answer fun h => by simp [h, State.command_canonical]

theorem execModuleReset_keeps (s : State) : KeepsCanonical s (execModuleReset s) :=
  .answer fun h => by simp [h, State.restart_canonical]

theorem execBootWatchdog_keeps (s : State) : KeepsCanonical s (execBootWatchdog s) := by
  refine .answer fun h => ?_
  split <;> simp [h, State.restart_canonical]

end Sys2Proof.Machine
end

section
namespace Sys2Proof.Machine

/-! ### Every instruction -/

/-- A word that is confined to its strand does not touch memory. -/
theorem exec_keeps_of_strandOnly (i : Instr) (s : State) (hi : strandOnly i = true) : KeepsCanonical s (exec i s) := by
  obtain ⟨t, ht, hmem⟩ := exec_stable_of_strandOnly (mem_stable s.mem) rfl i hi
  exact ⟨t, ht, fun h => hmem ▸ h⟩

/-- Every instruction comes to a next state, and memory keeps its canonical form. -/
theorem exec_keeps (i : Instr) (s : State) : KeepsCanonical s (exec i s) := by
  by_cases hi : strandOnly i = true
  · exact exec_keeps_of_strandOnly i s hi
  cases i with
  | fenceX => exact execFenceX_keeps ..
  | push => exact execPush_keeps ..
  | eret => exact execEret_keeps ..
  | sysw => exact execSysw_keeps ..
  | exit => exact execExit_keeps ..
  | ld => exact execLd_keeps ..
  | ldAcq => exact execLdAcq_keeps ..
  | ldv => exact execLdv_keeps ..
  | ldvAcq => exact execLdvAcq_keeps ..
  | ldvs => exact execLdvs_keeps ..
  | ldvg => exact execLdvg_keeps ..
  | ldp => exact execLdp_keeps ..
  | ldpv => exact execLdpv_keeps ..
  | ldpvg => exact execLdpvg_keeps ..
  | xlate => exact execXlate_keeps ..
  | htest => exact execHtest_keeps ..
  | hrel => exact execHrel_keeps ..
  | hmov => exact execHmov_keeps ..
  | preq => exact execPreq_keeps ..
  | pref => exact execPref_keeps ..
  | scbq => exact execScbq_keeps ..
  | scbwait => exact execScbwait_keeps ..
  | sbind => exact execSbind_keeps ..
  | sunbind => exact execSunbind_keeps ..
  | sbget => exact execSbget_keeps ..
  | sbadv => exact execSbadv_keeps ..
  | sbwait => exact execSbwait_keeps ..
  | cpy => exact execCpy_keeps ..
  | cpym => exact execCpym_keeps ..
  | cpyr => exact execCpyr_keeps ..
  | cpyrAt => exact execCpyrAt_keeps ..
  | cpyg => exact execCpyg_keeps ..
  | cpymeta => exact execCpymeta_keeps ..
  | cpyq => exact execCpyq_keeps ..
  | cmerge => exact execCmerge_keeps ..
  | bfmt => exact execBfmt_keeps ..
  | ccancel => exact execCcancel_keeps ..
  | cstat => exact execCstat_keeps ..
  | mma => exact execMma_keeps ..
  | mmas => exact execMmas_keeps ..
  | mmag => exact execMmag_keeps ..
  | mctlZero => exact execMctlZero_keeps ..
  | mctlMode => exact execMctlMode_keeps ..
  | mctlRing => exact execMctlRing_keeps ..
  | mctlPop => exact execMctlPop_keeps ..
  | mctlWait => exact execMctlWait_keeps ..
  | vtileRd => exact execVtileRd_keeps ..
  | vtileWr => exact execVtileWr_keeps ..
  | plog => exact execPlog_keeps ..
  | pcnt => exact execPcnt_keeps ..
  | vtop => exact execVtop_keeps ..
  | ptov => exact execPtov_keeps ..
  | atom => exact execAtom_keeps ..
  | red => exact execRed_keeps ..
  | acas => exact execAcas_keeps ..
  | bara => exact execBara_keeps ..
  | barw => exact execBarw_keeps ..
  | carm => exact execCarm_keeps ..
  | carr => exact execCarr_keeps ..
  | cwait => exact execCwait_keeps ..
  | semp => exact execSemp_keeps ..
  | semv => exact execSemv_keeps ..
  | waitc => exact execWaitc_keeps ..
  | signal => exact execSignal_keeps ..
  | st => exact execSt_keeps ..
  | stRel => exact execStRel_keeps ..
  | stv => exact execStv_keeps ..
  | stvs => exact execStvs_keeps ..
  | stvx => exact execStvx_keeps ..
  | stp => exact execStp_keeps ..
  | stpv => exact execStpv_keeps ..
  | dbind => exact execDbind_keeps ..
  | dunbind => exact execDunbind_keeps ..
  | drain => exact execDrain_keeps ..
  | claim => exact execClaim_keeps ..
  | spawn => exact execSpawn_keeps ..
  | endt => exact execEndt_keeps ..
  | join => exact execJoin_keeps ..
  | check => exact execCheck_keeps ..
  | launch => exact execLaunch_keeps ..
  | jcancel => exact execJcancel_keeps ..
  | tinfo => exact execTinfo_keeps ..
  | rqset => exact execRqset_keeps ..
  | rinj => exact execRinj_keeps ..
  | rdrop => exact execRdrop_keeps ..
  | rkeep => exact execRkeep_keeps ..
  | rfwd => exact execRfwd_keeps ..
  | rhold => exact execRhold_keeps ..
  | rtag => exact execRtag_keeps ..
  | rpar => exact execRpar_keeps ..
  | rbyp => exact execRbyp_keeps ..
  | rstat => exact execRstat_keeps ..
  | fxfill => exact execFxfill_keeps ..
  | fkey => exact execFkey_keeps ..
  | flane => exact execFlane_keeps ..
  | strandEnd => exact execStrandEnd_keeps ..
  | stallWatchdogTrap => exact execStallWatchdogTrap_keeps ..
  | vectorLoadComplete => exact execVectorLoadComplete_keeps ..
  | loadStreamFetch => exact execLoadStreamFetch_keeps ..
  | requesterTimeout => exact execRequesterTimeout_keeps ..
  | tagRestEnd => exact execTagRestEnd_keeps ..
  | xentWrite => exact execXentWrite_keeps ..
  | frclose => exact execFrclose_keeps ..
  | bfmtPerform => exact execBfmtPerform_keeps ..
  | copyCommandStart => exact execCopyCommandStart_keeps ..
  | copyUnitLand => exact execCopyUnitLand_keeps ..
  | followOnHandoff => exact execFollowOnHandoff_keeps ..
  | copySuspend => exact execCopySuspend_keeps ..
  | copyEngineReset => exact execCopyEngineReset_keeps ..
  | matrixCommandStart => exact execMatrixCommandStart_keeps ..
  | tileAcquire => exact execTileAcquire_keeps ..
  | slabStepIssue => exact execSlabStepIssue_keeps ..
  | mmagLengthReread => exact execMmagLengthReread_keeps ..
  | matrixCommandRetire => exact execMatrixCommandRetire_keeps ..
  | ringConfigEffect => exact execRingConfigEffect_keeps ..
  | matrixEngineReset => exact execMatrixEngineReset_keeps ..
  | syncCommandSend => exact execSyncCommandSend_keeps ..
  | syncWaitLimit => exact execSyncWaitLimit_keeps ..
  | triggerTake => exact execTriggerTake_keeps ..
  | syncEngineReset => exact execSyncEngineReset_keeps ..
  | drainStreamWrite => exact execDrainStreamWrite_keeps ..
  | claimWindowClose => exact execClaimWindowClose_keeps ..
  | recordAdmission => exact execRecordAdmission_keeps ..
  | overlapWordRead => exact execOverlapWordRead_keeps ..
  | taskDispatch => exact execTaskDispatch_keeps ..
  | gangStart => exact execGangStart_keeps ..
  | taskEnd => exact execTaskEnd_keeps ..
  | launchRetire => exact execLaunchRetire_keeps ..
  | graphNodeFire => exact execGraphNodeFire_keeps ..
  | rampWindowEnd => exact execRampWindowEnd_keeps ..
  | taskEngineReset => exact execTaskEngineReset_keeps ..
  | taskEngineResumeTimeout => exact execTaskEngineResumeTimeout_keeps ..
  | preemptGo => exact execPreemptGo_keeps ..
  | preemptHold => exact execPreemptHold_keeps ..
  | preemptResume => exact execPreemptResume_keeps ..
  | preemptDiscard => exact execPreemptDiscard_keeps ..
  | preemptStopComplete => exact execPreemptStopComplete_keeps ..
  | jobclr => exact execJobclr_keeps ..
  | qpush => exact execQpush_keeps ..
  | snapdataWrite => exact execSnapdataWrite_keeps ..
  | rpctlStart => exact execRpctlStart_keeps ..
  | rpctlStop => exact execRpctlStop_keeps ..
  | segmentArrival => exact execSegmentArrival_keeps ..
  | segmentForwardComplete => exact execSegmentForwardComplete_keeps ..
  | dropRecord => exact execDropRecord_keeps ..
  | lostRecord => exact execLostRecord_keeps ..
  | mirrorUpdate => exact execMirrorUpdate_keeps ..
  | ringFailureDetect => exact execRingFailureDetect_keeps ..
  | ringResume => exact execRingResume_keeps ..
  | ringEngineReset => exact execRingEngineReset_keeps ..
  | ringEngineRestartTimeout => exact execRingEngineRestartTimeout_keeps ..
  | flitSend => exact execFlitSend_keeps ..
  | flitReceive => exact execFlitReceive_keeps ..
  | congestionDetect => exact execCongestionDetect_keeps ..
  | setAsideNotice => exact execSetAsideNotice_keeps ..
  | setAsideRelease => exact execSetAsideRelease_keeps ..
  | autoKeyRotation => exact execAutoKeyRotation_keeps ..
  | laneThresholdCross => exact execLaneThresholdCross_keeps ..
  | laneWindowEnd => exact execLaneWindowEnd_keeps ..
  | laneNotice => exact execLaneNotice_keeps ..
  | trainingAttemptEnd => exact execTrainingAttemptEnd_keeps ..
  | readRequest => exact execReadRequest_keeps ..
  | writeRequest => exact execWriteRequest_keeps ..
  | syncCommandRequest => exact execSyncCommandRequest_keeps ..
  | translationRequest => exact execTranslationRequest_keeps ..
  | invalidationRequest => exact execInvalidationRequest_keeps ..
  | engineNotice => exact execEngineNotice_keeps ..
  | readData => exact execReadData_keeps ..
  | writeAcknowledgement => exact execWriteAcknowledgement_keeps ..
  | syncReply => exact execSyncReply_keeps ..
  | translationReply => exact execTranslationReply_keeps ..
  | invalidationAcknowledgement => exact execInvalidationAcknowledgement_keeps ..
  | noticeAcknowledgement => exact execNoticeAcknowledgement_keeps ..
  | invalidationResend => exact execInvalidationResend_keeps ..
  | fabricEngineReset => exact execFabricEngineReset_keeps ..
  | slctlGo => exact execSlctlGo_keeps ..
  | drainMarker => exact execDrainMarker_keeps ..
  | sluiceDrainComplete => exact execSluiceDrainComplete_keeps ..
  | sluiceDrainTimeout => exact execSluiceDrainTimeout_keeps ..
  | sluiceDarkEnd => exact execSluiceDarkEnd_keeps ..
  | pathRelockComplete => exact execPathRelockComplete_keeps ..
  | pathRelockTimeout => exact execPathRelockTimeout_keeps ..
  | configRequest => exact execConfigRequest_keeps ..
  | inboundBarRead => exact execInboundBarRead_keeps ..
  | inboundBarWrite => exact execInboundBarWrite_keeps ..
  | inboundAtomicop => exact execInboundAtomicop_keeps ..
  | uqnotify => exact execUqnotify_keeps ..
  | uqctlWrite => exact execUqctlWrite_keeps ..
  | packetFetch => exact execPacketFetch_keeps ..
  | launchPacket => exact execLaunchPacket_keeps ..
  | cancelPacket => exact execCancelPacket_keeps ..
  | barrierPacket => exact execBarrierPacket_keeps ..
  | launchInterrupt => exact execLaunchInterrupt_keeps ..
  | deviceHostAccess => exact execDeviceHostAccess_keeps ..
  | hostCompletion => exact execHostCompletion_keeps ..
  | pcieCompletionTimeout => exact execPcieCompletionTimeout_keeps ..
  | hostLinkDown => exact execHostLinkDown_keeps ..
  | hostEngineReset => exact execHostEngineReset_keeps ..
  | identity => exact execIdentity_keeps ..
  | attest => exact execAttest_keeps ..
  | keyset => exact execKeyset_keeps ..
  | keyclr => exact execKeyclr_keeps ..
  | ctxbind => exact execCtxbind_keeps ..
  | domkey => exact execDomkey_keeps ..
  | journalRead => exact execJournalRead_keeps ..
  | journalClear => exact execJournalClear_keeps ..
  | fwstage => exact execFwstage_keeps ..
  | fenceDie => exact execFenceDie_keeps ..
  | unfenceDie => exact execUnfenceDie_keeps ..
  | diereset => exact execDiereset_keeps ..
  | pwrcap => exact execPwrcap_keeps ..
  | telem => exact execTelem_keeps ..
  | moduleReset => exact execModuleReset_keeps ..
  | bootStep => exact execBootStep_keeps ..
  | bootWatchdog => exact execBootWatchdog_keeps ..
  | powerThermalTick => exact execPowerThermalTick_keeps ..
  | correctedErrorThreshold => exact execCorrectedErrorThreshold_keeps ..
  | registerWrite => exact execRegisterWrite_keeps ..
  | illegalInstruction => exact execIllegalInstruction_keeps ..
  | instructionFetchFault => exact execInstructionFetchFault_keeps ..
  | rampFillerIssue => exact execRampFillerIssue_keeps ..
  | linkRelockComplete => exact execLinkRelockComplete_keeps ..
  | hostLinkUp => exact execHostLinkUp_keeps ..
  | _ => exact absurd rfl hi

/-! ### Every step -/

theorem State.buffer_keeps_mem (s : State) (a : Nat) (w : BitVec 32) : (s.buffer a w).mem = s.mem := by
  unfold State.buffer
  dsimp only
  split
  · rfl
  · (repeat' split) <;> simp

theorem State.fetch_keeps_mem {s t : State} {i : Instr} (h : s.fetch = .word i t) : t.mem = s.mem := by
  unfold State.fetch at h
  dsimp only at h
  split at h
  · cases h
  · split at h
    · cases h
    · split at h
      · cases h
        split
        · exact (State.buffer_keeps_mem _ _ _).trans (State.buffer_keeps_mem _ _ _)
        · exact State.buffer_keeps_mem _ _ _
      · cases h
      · cases h

theorem State.act_keeps (s : State) (a : Act) : KeepsCanonical s (s.act a) := by
  have fetched : KeepsCanonical s (match s.fetch with
      | .idle => .next s
      | .word i t => exec i t
      | .illegal inp => exec .illegalInstruction { s with inp := inp }
      | .fault inp => exec .instructionFetchFault { s with inp := inp }) := by
    split
    · exact .answer id
    · rename_i i t hf
      obtain ⟨u, hu, hkeep⟩ := exec_keeps i t
      exact ⟨u, hu, fun h => hkeep ((State.fetch_keeps_mem hf).symm ▸ h)⟩
    · exact exec_keeps .illegalInstruction { s with inp := _ }
    · exact exec_keeps .instructionFetchFault { s with inp := _ }
  cases a with
  | event i =>
    simp only [State.act]
    split
    · exact exec_keeps i s
    · exact .answer id
  | stream k => exact fetched
  | rotation => exact fetched

/-- Whichever of the streams' faults is taken (R60). -/
theorem State.actFirst_keeps (s : State) (a : Act) : KeepsCanonical s (s.actFirst a) := by
  cases a with
  | stream k =>
    refine List.foldlRecOn (motive := fun best : Str × Host.Outcome State Fault Refusal => KeepsCanonical s best.2) _ _
      (State.act_keeps s (.stream k)) fun best hbest j _ => ?_
    have hj : KeepsCanonical s (({ s with cur := { s.cur with str := j } } : State).act (.stream j)) := State.act_keeps _ _
    dsimp only
    split
    · exact hj
    · exact hbest
  | event i => exact State.act_keeps s (.event i)
  | rotation => exact State.act_keeps s .rotation

/-- Settles O58: whoever has the turn, what it does leaves memory in its canonical form, since every operation that writes memory
does so by `State.writeN` or `State.writeMasked`, which keep that form. -/
theorem stepsKeepMemoryCanonical : Obligations.StepsKeepMemoryCanonical := by
  intro s t h ht
  rw [step_eq] at ht
  obtain ⟨u, hu, hkeep⟩ := State.actFirst_keeps ((s.nextTurn).2.take (s.nextTurn).1) (s.nextTurn).1.act
  have htu : u = t := by
    rw [hu] at ht
    exact Host.Outcome.next.inj ht
  subst htu
  refine hkeep (State.take_canonical _ _ ?_)
  rw [State.nextTurn_keeps_mem]
  exact h

/-- Settles O56: an event of an engine is performed in every state, as every instruction is. -/
theorem engineEventsComplete : Obligations.EngineEventsComplete := fun s i _ => exec_keeps i s

end Sys2Proof.Machine
end

section
namespace Sys2Proof.Machine

/-! ## Traps (R64, R65, R73, R95, R96, R353) -/

/-- A word without tokens that its agent executes runs its body. -/
theorem runWord_of_ready {s : State} {mine : Str → Bool} (h : s.Ready mine) (len : Nat) (body : State → State → Res Eff) :
    runWord len mine 0 body s = s.finish len (body s s) := by
  obtain ⟨hruns, hdue, hmine⟩ := h
  have hexec : (!s.cur.rot && !mine s.cur.str) = false := by rcases hmine with h | h <;> simp [h]
  have none_taken : takeTokens 0 s = .ok s := rfl
  simp only [runWord, runWordM, hruns, hdue, hexec, none_taken, Bool.not_true, Bool.false_eq_true, if_false, Res.ok_bind]
  cases body s s with
  | error e => rfl
  | ok e => cases e <;> rfl

/-- Where the body traps, the word takes that trap. -/
theorem runWord_traps_of_ready {s : State} {mine : Str → Bool} (h : s.Ready mine) (len : Nat) {body : State → State → Res Eff} {cause : Nat}
    {info : Word} (hb : body s s = trap cause info) : runWord len mine 0 body s = s.takeTrap cause info := by
  rw [runWord_of_ready h, hb]
  rfl

theorem softwareTrap : Claims.SoftwareTrap := by
  intro s sf imm h
  have himm : BitVec.ofNat 64 imm.toNat = imm.setWidth 64 := BitVec.eq_of_toNat_eq (by simp [BitVec.toNat_setWidth])
  rw [himm]
  exact congrArg Host.Outcome.next (runWord_traps_of_ready h 1 rfl)

/-- The trap of a strand: its pending requests are dropped, and the strand enters its handler or ends (R96). -/
theorem State.takeTrap_strand {s : State} (hr : s.cur.rot = false) (cause : Nat) (info : Word) :
    OnlyStrand s (s.takeTrap cause info) ∧ (s.takeTrap cause info).strand s.cur = (s.strand s.cur).trapEnter s.cur.str cause info := by
  refine ⟨State.takeTrap_stable (onlyStrand_stable hr) _ _ (OnlyStrand.refl s), ?_⟩
  simp only [State.takeTrap, hr, Bool.false_eq_true, if_false, State.strand_setStrand]

theorem hazardCause_iff (cause : Nat) :
    hazardCause cause = true ↔ cause = 0x78 ∨ cause = 0x79 ∨ cause = 0x7A ∨ cause = 0x7B ∨ cause = 0x7D := by
  simp [hazardCause, or_assoc]

theorem Strand.handles {st : Strand} (hm : st.trapMode = false) (he : st.trapEntry ≠ 0) : ¬ (st.trapMode || decide (st.trapEntry = 0)) = true := by
  simp only [hm, Bool.false_or, decide_eq_true_eq]
  exact he

/-- What trap entry writes in the trap registers of the strand, and what it sets aside (R82, R96). -/
theorem Strand.trapEnter_registers {st : Strand} (hm : st.trapMode = false) (he : st.trapEntry ≠ 0) (k : Str) (cause : Nat) (info : Word) :
    (st.trapEnter k cause info).trapCause = trapCauseWord k cause ∧ (st.trapEnter k cause info).trapInfo = info ∧
      (st.trapEnter k cause info).trapMode = true ∧ (st.trapEnter k cause info).bq = Vector.replicate 6 [] ∧
      ∃ a x d, (st.trapEnter k cause info).setAside = some (a, x, d, st.bq) ∧
        a.loops = st.a.loops ∧ x.loops = st.x.loops ∧ d.loops = st.d.loops ∧
        a.cqPos = st.a.cqPos ∧ x.cqPos = st.x.cqPos ∧ d.cqPos = st.d.cqPos ∧
        a.ended = st.a.ended ∧ x.ended = st.x.ended ∧ d.ended = st.d.ended := by
  rw [Strand.trapEnter, if_neg (handles hm he)]
  cases k <;> exact ⟨rfl, rfl, rfl, rfl, _, _, _, rfl, rfl, rfl, rfl, rfl, rfl, rfl, rfl, rfl, rfl⟩

/-- All three streams begin at the handler's entry, and their registers stay (R96). -/
theorem Strand.trapEnter_streams {st : Strand} (hm : st.trapMode = false) (he : st.trapEntry ≠ 0) (k : Str) (cause : Nat) (info : Word)
    (j : Str) :
    let y := (st.trapEnter k cause info).get j
    y.pc = st.trapEntry ∧ y.trapPc = (st.get j).pc ∧ y.trapResume = (st.get j).pc ∧ y.loops = [] ∧ y.ended = false ∧
      y.cqPos = st.cqBase + st.cq.length ∧ y.regs = (st.get j).regs ∧ y.spillSp = (st.get j).spillSp := by
  rw [Strand.trapEnter, if_neg (handles hm he)]
  cases k <;> cases j <;> exact ⟨rfl, rfl, rfl, rfl, rfl, rfl, rfl, rfl⟩

/-- What trap entry leaves as it was (R96). -/
theorem Strand.trapEnter_keeps {st : Strand} (hm : st.trapMode = false) (he : st.trapEntry ≠ 0) (k : Str) (cause : Nat) (info : Word) :
    let u := st.trapEnter k cause info
    u.v = st.v ∧ u.p = st.p ∧ u.h = st.h ∧ u.qAX = st.qAX ∧ u.qXA = st.qXA ∧ u.qXD = st.qXD ∧ u.vAX0 = st.vAX0 ∧
      u.vAX1 = st.vAX1 ∧ u.vXD0 = st.vXD0 ∧ u.vXD1 = st.vXD1 ∧ u.cq = st.cq ∧ u.tokAX = st.tokAX ∧ u.tokXA = st.tokXA ∧
      u.tokXD = st.tokXD ∧ u.tokDX = st.tokDX := by
  rw [Strand.trapEnter, if_neg (handles hm he)]
  cases k <;> exact ⟨rfl, rfl, rfl, rfl, rfl, rfl, rfl, rfl, rfl, rfl, rfl, rfl, rfl, rfl, rfl⟩

/-- Without a handler, or in trap mode, the strand ends with the cause (R96). -/
theorem Strand.trapEnter_ends {st : Strand} (h : st.trapMode = true ∨ st.trapEntry = 0) (k : Str) (cause : Nat) (info : Word) :
    st.trapEnter k cause info = st.faultEnd cause := by
  have hend : (st.trapMode || decide (st.trapEntry = 0)) = true := by simpa using h
  simp only [Strand.trapEnter, hend, if_true]

theorem trapCauseWord_toNat (k : Str) {cause : Nat} (h : cause < 256) :
    (trapCauseWord k cause).toNat = Str.code k * 2 ^ 14 +
      (if cause = 0x78 ∨ cause = 0x79 ∨ cause = 0x7A ∨ cause = 0x7B ∨ cause = 0x7D then 2 ^ 13 else 0) + cause := by
  have hcode : Str.code k ≤ 3 := by cases k <;> decide
  simp only [trapCauseWord, hazardCause_iff, Nat.mod_eq_of_lt h, BitVec.toNat_ofNat]
  refine Nat.mod_eq_of_lt ?_
  split <;> omega

theorem trapEntry : Claims.TrapEntry := by
  intro s cause info hr _ hc st t u
  obtain ⟨honly, hu⟩ := State.takeTrap_strand hr cause info
  refine ⟨honly, fun hm he => ?_, fun hend => ?_⟩
  · obtain ⟨hcause, hinfo, hmode, hbq, haside⟩ := Strand.trapEnter_registers hm he s.cur.str cause info
    rw [show u = st.trapEnter s.cur.str cause info from hu]
    refine ⟨hcause ▸ trapCauseWord_toNat _ hc, hinfo, hmode, fun i => ?_, Strand.trapEnter_streams hm he _ _ _, haside,
      Strand.trapEnter_keeps hm he _ _ _⟩
    rw [hbq]
    exact Vector.getElem_replicate _
  · rw [show u = st.faultEnd cause from hu.trans (Strand.trapEnter_ends hend _ _ _)]
    exact ⟨rfl, rfl, rfl, rfl⟩

/-- A word without tokens that is not its stream's is passed by (R18). -/
theorem runWord_passes {s : State} {mine : Str → Bool} (hruns : s.runs = true) (hdue : s.replyDue = none) (hr : s.cur.rot = false)
    (hmine : mine s.cur.str = false) (len : Nat) (body : State → State → Res Eff) :
    runWord len mine 0 body s = s.setStream s.cur ((s.stream s.cur).advance len) := by
  simp only [runWord, runWordM, hruns, hdue, hr, hmine, Bool.not_true, Bool.not_false, Bool.and_self, Bool.false_eq_true, if_false, if_true]
  rfl

theorem illegalWordsTrap : Claims.IllegalWordsTrap := by
  intro s w r n a
  have hexec : exec .illegalInstruction s = .next (runWord (s.inp.getD 3 1) (· = illegalStream (s.inp.getD 2 (s.inp.getD 0 0))) 0
      (fun _ _ => trap 0x01 (BitVec.ofNat 64 (s.inp.getD 0 0 % 2 ^ 32 + s.inp.getD 1 0 * 2 ^ 32))) s) := rfl
  have hfault : exec .instructionFetchFault s = .next (runWord (if s.inp.getD 1 0 = 1 then 2 else 1)
      (fun k => !decide (s.inp.getD 1 0 = 1) || k = .a) 0 (fun _ _ => trap 0x0A (BitVec.ofNat 64 (s.inp.getD 0 0))) s) := by
    change execInstructionFetchFault s = _
    by_cases h : s.inp.getD 1 0 = 1 <;> simp only [execInstructionFetchFault, h] <;> rfl
  refine ⟨fun hi hw _ h => ?_, fun hi hruns hdue hr hother => ?_, fun hi h => ?_, fun hi h => ?_⟩
  · rw [hexec, hi]
    refine congrArg Host.Outcome.next ?_
    have hinfo : w % 2 ^ 32 + r * 2 ^ 32 = w + r * 2 ^ 32 := by rw [Nat.mod_eq_of_lt hw]
    rw [← hinfo]
    exact runWord_traps_of_ready h n rfl
  · refine ⟨s.setStream s.cur ((s.stream s.cur).advance n), ?_, ?_, ?_⟩
    · rw [hexec, hi]
      exact congrArg Host.Outcome.next (runWord_passes hruns hdue hr (decide_eq_false hother) n _)
    · exact (onlyStrand_stable hr).setStream _ (OnlyStrand.refl s)
    · rw [State.stream_setStream_cur fun h => absurd h (by simp [hr])]
      exact ⟨rfl, rfl⟩
  · rw [hfault, hi]
    exact congrArg Host.Outcome.next (runWord_traps_of_ready h 1 rfl)
  · rw [hfault, hi]
    obtain ⟨hruns, hdue, -, hmine⟩ := h
    exact congrArg Host.Outcome.next (runWord_traps_of_ready ⟨hruns, hdue, .inr (by simpa using hmine)⟩ 2 rfl)

/-- An interrupt changes the host engine alone (R431). -/
theorem State.raise_eq (s : State) (die src : Nat) : ∃ x, s.raise die src = { s with host := x } := by
  unfold State.raise State.sendMsi
  dsimp only
  (repeat' split) <;> exact ⟨_, rfl⟩

@[simp] theorem State.raise_die (s : State) (die src e : Nat) : (s.raise die src).die e = s.die e := by
  obtain ⟨x, hx⟩ := s.raise_eq die src
  rw [hx]
  rfl

@[simp] theorem State.raise_strands (s : State) (die src : Nat) : (s.raise die src).strands = s.strands := by
  obtain ⟨x, hx⟩ := s.raise_eq die src
  rw [hx]

theorem rotationTraps : Claims.RotationTraps := by
  intro s cause info hr hd h0 hc d e
  have htrap : s.takeTrap cause info = (s.setDie s.cur.die { d with
      rprunning := false, rpcause := BitVec.ofNat 8 cause, rpreason := BitVec.ofNat 8 (rotationReason cause info)
      rppc := d.rotStream.pc }).raise s.cur.die 1 := by
    simp only [State.takeTrap, State.stopRotation, hr, if_true, if_neg (Nat.ne_of_gt h0)]
    rfl
  have he : e = { d with
      rprunning := false, rpcause := BitVec.ofNat 8 cause, rpreason := BitVec.ofNat 8 (rotationReason cause info)
      rppc := d.rotStream.pc } := by
    simp only [e, htrap, State.raise_die, State.die_setDie _ hd]
  rw [he, htrap]
  refine ⟨rfl, ?_, rfl, fun a => ?_, ?_⟩
  · simp [Nat.mod_eq_of_lt hc]
  · simp only [State.byteAt, State.raise_keeps_mem, State.setDie_mem]
  · simp

theorem watchdogTraps : Claims.WatchdogTraps := by
  intro s k v c w x hi hst hcrew hw hkind hend hhalt
  obtain ⟨st, hst⟩ := Option.isSome_iff_exists.1 hst
  obtain ⟨crew, hcrew⟩ := Option.isSome_iff_exists.1 hcrew
  have hx : x = st.get k := by simp only [x, State.strand, hst, Option.getD_some]
  have hcr : s.crew c.die c.polder = crew := by simp only [State.crew, hcrew, Option.getD_some]
  have hexec : exec .stallWatchdogTrap s = .next (if bitsOf w 31 31 = 0 || v.kind = 0 || x.ended || crew.halted ||
      x.waited < microseconds (max 1 (bitsOf w 23 0)) then s else { s with cur := c }.takeTrap 0x7C (BitVec.ofNat 64 v.kind)) := by
    have hk : (if s.inp.getD 0 0 = 0 then Str.a else if s.inp.getD 0 0 = 1 then .x else .d) = k := by
      rw [hi]
      cases k <;> rfl
    have hst' : s.strand? { s.cur with str := k, rot := false } = some st := hst
    have hcrew' : s.crew? s.cur.die s.cur.polder = some crew := hcrew
    have hw' : (st.get k).wait = some v := hx ▸ hw
    change execStallWatchdogTrap s = _
    simp only [execStallWatchdogTrap, hk, hst', hcrew', hw', hx]
    rfl
  rw [hcr] at hhalt
  rw [hexec]
  simp only [hkind, hend, hhalt, decide_false, Bool.or_false]
  refine ⟨fun ⟨hon, hwait⟩ => ?_, fun h => ?_⟩
  · rw [if_neg (by simp [hon, hwait])]
  · rw [if_pos (by simpa using h)]

/-- Settles O15: a trap drops what its word had asked for and enters the handler, or ends the strand or the rotation program; each event
that raises one comes to that trap. -/
theorem trapsEnterTheirHandler : Obligations.TrapsEnterTheirHandler :=
  ⟨softwareTrap, trapEntry, illegalWordsTrap, rotationTraps, watchdogTraps⟩

end Sys2Proof.Machine
end

section
namespace Sys2Proof.Machine

/-! ## TOK, EXIT, ERET and FENCE.X (R24, R53, R92, R93, R97, R99) -/

theorem Strand.setTok_tok (st : Strand) (f : Nat) : st.setTok f (st.tok f) = st := by
  match f with
  | 0 | 1 | 2 | _ + 3 => rfl

section
variable {s t : State} {u : Strand} (h : StrandIs s t u) (b : Bool) (f : Nat)
include h

/-- A take bit of a word (R24). -/
theorem takeTok_bit (hn : (if b then 1 else 0) ≤ u.tok f) :
    ∃ t', (if b then takeTok (some f) t else pure t) = .ok t' ∧ StrandIs s t' (u.setTok f (u.tok f - if b then 1 else 0)) := by
  cases b with
  | false => exact ⟨t, rfl, by simpa [Strand.setTok_tok] using h⟩
  | true =>
    have hcur : t.strand t.cur = u := by rw [h.2.2.2.2.2.1]; exact h.1
    have hpos : u.tok f ≠ 0 := Nat.pos_iff_ne_zero.1 hn
    refine ⟨_, ?_, h.setStrand _⟩
    simp only [takeTok, hcur, hpos, if_true, if_false]
    rfl

/-- A give bit of a word (R24). -/
theorem giveTok_bit (hn : u.tok f + (if b then 1 else 0) ≤ 15) :
    ∃ t', (if b then giveTok (some f) t else pure t) = .ok t' ∧ StrandIs s t' (u.setTok f (u.tok f + if b then 1 else 0)) := by
  cases b with
  | false => exact ⟨t, rfl, by simpa [Strand.setTok_tok] using h⟩
  | true =>
    have hcur : t.strand t.cur = u := by rw [h.2.2.2.2.2.1]; exact h.1
    have hroom : ¬ 15 ≤ u.tok f := by simp only [if_true] at hn; omega
    refine ⟨_, ?_, h.setStrand _⟩
    simp only [giveTok, hcur, hroom, if_true, if_false]
    rfl

end

/-- A word that only moves tokens retires with them moved (R24, R92). -/
theorem execTok_moves {s : State} {sf : BitVec 2} {tk : BitVec 4} (h : s.InStrand (namedBy sf)) {t0 t : State} {v : Strand}
    (htake : takeTokens tk s = .ok t0) (hgive : giveTokens tk t0 = .ok t) (hv : StrandIs s t v) :
    ∃ t, exec (.tok sf tk) s = .next (t.retire 1) ∧ OnlyStrand s t ∧ t.strand s.cur = v :=
  ⟨t, congrArg Host.Outcome.next (runWordM_retires h htake markNone 1 rfl hgive), hv.2, hv.1⟩

theorem takeTokens_of_steps {s s1 s2 : State} {tk : BitVec 4}
    (h1 : (if tk.getLsbD 3 then takeTok (takeLeft s.cur.str) s else pure s) = .ok s1)
    (h2 : (if tk.getLsbD 2 then takeTok (takeRight s.cur.str) s1 else pure s1) = .ok s2) : takeTokens tk s = .ok s2 := by
  rw [takeTokens_eq]
  exact Res.bind_eq_ok.2 ⟨s1, h1, h2⟩

theorem giveTokens_of_steps {s s1 s2 : State} {tk : BitVec 4}
    (h1 : (if tk.getLsbD 1 then giveTok (giveLeft s.cur.str) s else pure s) = .ok s1)
    (h2 : (if tk.getLsbD 0 then giveTok (giveRight s.cur.str) s1 else pure s1) = .ok s2) : giveTokens tk s = .ok s2 := by
  rw [giveTokens_eq]
  exact Res.bind_eq_ok.2 ⟨s1, h1, h2⟩

theorem explicitTokens : Claims.ExplicitTokens := by
  intro s sf tk h st n
  have self := strandIs_self s
  have same {t : State} {u : Strand} (hu : StrandIs s t u) : t.cur = s.cur := hu.2.2.2.2.2.1
  refine ⟨fun hk h3 h1 ht hg => ?_, fun hk h3 h2 h1 h0 => ?_, fun hk h2 h0 ht hg => ?_⟩
  · obtain ⟨t0, htake, hu⟩ := takeTok_bit self (tk.getLsbD 2) 1 ht
    obtain ⟨t, hgive, hv⟩ := giveTok_bit hu (tk.getLsbD 0) 0 hg
    refine execTok_moves h (takeTokens_of_steps (s1 := s) (s2 := t0) ?_ ?_) (giveTokens_of_steps (s1 := t0) (s2 := t) ?_ ?_) hv
    · simp only [h3, Bool.false_eq_true, if_false]; rfl
    · rw [hk]; exact htake
    · simp only [h1, Bool.false_eq_true, if_false]; rfl
    · rw [same hu, hk]; exact hgive
  · obtain ⟨t1, hleft, hu1⟩ := takeTok_bit self (tk.getLsbD 3) 0 h3
    obtain ⟨t2, hright, hu2⟩ := takeTok_bit hu1 (tk.getLsbD 2) 3 h2
    obtain ⟨t3, hback, hu3⟩ := giveTok_bit hu2 (tk.getLsbD 1) 1 h1
    obtain ⟨t4, hon, hu4⟩ := giveTok_bit hu3 (tk.getLsbD 0) 2 h0
    refine execTok_moves h (takeTokens_of_steps (s1 := t1) (s2 := t2) ?_ ?_) (giveTokens_of_steps (s1 := t3) (s2 := t4) ?_ ?_) ?_
    rotate_right
    · simpa only [Strand.setTok, Strand.tok] using hu4
    · rw [hk]; exact hleft
    · rw [hk]; exact hright
    · rw [same hu2, hk]; exact hback
    · rw [same hu2, hk]; exact hon
  · obtain ⟨t0, htake, hu⟩ := takeTok_bit self (tk.getLsbD 3) 2 ht
    obtain ⟨t, hgive, hv⟩ := giveTok_bit hu (tk.getLsbD 1) 3 hg
    refine execTok_moves h (takeTokens_of_steps (s1 := t0) (s2 := t0) ?_ ?_) (giveTokens_of_steps (s1 := t) (s2 := t) ?_ ?_) hv
    · rw [hk]; exact htake
    · simp only [h2, Bool.false_eq_true, if_false]; rfl
    · rw [same hu, hk]; exact hgive
    · simp only [h0, Bool.false_eq_true, if_false]; rfl

theorem exitEndsTheStream : Claims.ExitEndsTheStream := by
  intro s
  refine ⟨fun h hdebug => ?_, fun h hr hd => ?_⟩
  · have hr : s.cur.rot = false := h.2.2.1
    have hend : endStream s = .ok (s.setStream s.cur { (s.strand s.cur).get s.cur.str with
        ended := true, wait := none, waited := 0, pend := none }) := by
      simp only [endStream, hdebug]
      rfl
    have hexec : exec .exit s = .next (s.setStream s.cur { (s.strand s.cur).get s.cur.str with
        ended := true, wait := none, waited := 0, pend := none }) := by
      refine congrArg Host.Outcome.next ((runAll_of_ready h.ready _).trans ?_)
      simp only [hr, Bool.false_eq_true, if_false, hend]
      rfl
    have hstream := State.stream_setStream_cur (s := s) (fun h => absurd h (by simp [hr]))
    have hself : s.stream s.cur = (s.strand s.cur).get s.cur.str := by simp only [State.stream, hr, Bool.false_eq_true, if_false]
    refine ⟨_, hexec, (onlyStrand_stable hr).setStream _ (OnlyStrand.refl s), ?_, ?_, ?_, fun k hk => ?_⟩
    · rw [hstream]
    · rw [hstream, hself]
    · rw [hstream, hself]
    · simp only [State.setStream, hr, Bool.false_eq_true, if_false, State.strand_setStrand]
      exact Strand.get_set_other _ hk.symm _
  · have hexec : exec .exit s = .next (s.stopRotation s.cur.die 0 0) := by
      refine congrArg Host.Outcome.next ((runAll_of_ready h _).trans ?_)
      simp only [hr, if_true]
      rfl
    refine ⟨_, hexec, ?_⟩
    have hdie := State.die_setDie s hd { s.die s.cur.die with
      rprunning := false, rpcause := 0, rpreason := 0, rppc := (s.die s.cur.die).rotStream.pc }
    refine ⟨congrArg Die.rprunning hdie, congrArg Die.rpcause hdie, (congrArg Die.rppc hdie).trans ?_, fun _ => rfl, rfl⟩
    simp only [State.pc, State.stream, hr, if_true]

theorem fenceReleases : Claims.FenceReleases := by
  intro s scope p1 p2 h st ha hx hd hp hready hback u v
  have harrived : ((s.strand s.cur).get s.cur.str).arrived = true := by cases s.cur.str <;> assumption
  have hall : ((s.strand s.cur).a.arrived && (s.strand s.cur).x.arrived && (s.strand s.cur).d.arrived) = true := by
    rw [show (s.strand s.cur).a.arrived = true from ha, show (s.strand s.cur).x.arrived = true from hx,
      show (s.strand s.cur).d.arrived = true from hd]
    rfl
  have hp' : (s.strand s.cur).x.pend = some { ids := [], data := [1003] } := hp
  refine congrArg Host.Outcome.next ((runWord_of_ready (State.InStrand.ready h) 1 _).trans ?_)
  simp only [harrived, hall, hp', hready, Bool.not_true, Bool.false_eq_true, if_false]
  by_cases hs : 3 ≤ scope.toNat
  · have hwide : dieScope scope = true := by simpa [dieScope] using hs
    simp only [hwide, if_true, hback hs, List.isEmpty_nil, u, v, hs]
    rfl
  · have hnarrow : dieScope scope = false := by simpa [dieScope] using hs
    simp only [hnarrow, Bool.false_eq_true, if_false, List.isEmpty_nil, if_true, u, v, hs]
    rfl

/-- What the return from a trap takes back (R97). -/
theorem Strand.eretAll_back {st : Strand} {a x d : SetAside} {bq : Vector (List Word) 6} (h : st.setAside = some (a, x, d, bq)) :
    let u := st.eretAll
    u.trapMode = false ∧ u.setAside = none ∧ u.bq = bq ∧ u.a = st.a.leave st.trapShift a ∧ u.x = st.x.leave st.trapShift x ∧
      u.d = st.d.leave st.trapShift d ∧ u.v = st.v ∧ u.p = st.p ∧ u.h = st.h := by
  simp only [Strand.eretAll, h]
  exact ⟨rfl, rfl, rfl, rfl, rfl, rfl, rfl, rfl, rfl⟩

theorem returnFromTrap : Claims.ReturnFromTrap := by
  intro s h st
  have hexec := fun body => runAll_of_ready (State.InStrand.ready h) body
  refine ⟨fun a x d bq hm hset harr => ?_, fun hm hk => ?_⟩
  · have hm' : (s.strand s.cur).trapMode = true := hm
    let st1 := st.set s.cur.str { st.get s.cur.str with arrived := true, wait := some .uncounted }
    have hthere (k : Str) : (st1.get k).arrived = true := by
      by_cases hk : k = s.cur.str
      · subst hk
        simp only [st1, Strand.get_set_self]
      · simp only [st1, Strand.get_set_other _ (Ne.symm hk)]
        exact harr k hk
    have hall : (st1.a.arrived && st1.x.arrived && st1.d.arrived) = true := by
      simp only [show st1.a.arrived = true from hthere .a, show st1.x.arrived = true from hthere .x,
        show st1.d.arrived = true from hthere .d, Bool.and_self]
    have hset1 : st1.setAside = some (a, x, d, bq) := by simpa [st1] using hset
    obtain ⟨hmode, hnone, hbq, ha, hx, hd, hv, hp, hh⟩ := Strand.eretAll_back hset1
    have same (k : Str) : (st1.get k).trapPc = (st.get k).trapPc ∧ (st1.get k).trapResume = (st.get k).trapResume ∧
        (st1.get k).regs = (st.get k).regs := by
      by_cases hk : k = s.cur.str
      · subst hk
        simp only [st1, Strand.get_set_self, and_self]
      · simp only [st1, Strand.get_set_other _ (Ne.symm hk), and_self]
    let s1 := s.setStrand s.cur st1.eretAll
    refine ⟨s1.setCrew s.cur.die s.cur.polder ((s1.crew s.cur.die s.cur.polder).shiftOrder s.cur.strand (st1.trapBase.getD 0)
      st1.trapShift), ?_, fun _ => rfl, rfl, ?_⟩
    · refine congrArg Host.Outcome.next ((hexec _).trans ?_)
      simp only [hm', Bool.not_true, Bool.false_eq_true, if_false]
      rw [if_pos hall]
      rfl
    · have hu : (s1.setCrew s.cur.die s.cur.polder ((s1.crew s.cur.die s.cur.polder).shiftOrder s.cur.strand (st1.trapBase.getD 0)
          st1.trapShift)).strand s.cur = st1.eretAll := State.strand_setStrand s s.cur _
      rw [hu]
      have back (k : Str) (n : Nat) (z : SetAside) : ((st1.get k).leave n z).pc = (if z.ended then (st.get k).trapPc else (st.get k).trapResume) ∧
          ((st1.get k).leave n z).loops = z.loops ∧ ((st1.get k).leave n z).cqPos = z.cqPos ∧ ((st1.get k).leave n z).ended = z.ended ∧
          ((st1.get k).leave n z).regs = (st.get k).regs := by
        obtain ⟨hpc, hres, hregs⟩ := same k
        exact ⟨by simp only [Stream.leave, hpc, hres], rfl, rfl, rfl, hregs⟩
      have kept : st1.v = st.v ∧ st1.p = st.p ∧ st1.h = st.h := by simp [st1]
      obtain ⟨hv1, hp1, hh1⟩ := kept
      exact ⟨hmode, hnone, hbq, ha ▸ back .a _ a, hx ▸ back .x _ x, hd ▸ back .d _ d, hv.trans hv1, hp.trans hp1, hh.trans hh1⟩
  · refine congrArg Host.Outcome.next ((hexec _).trans ?_)
    have hm' : (s.strand s.cur).trapMode = false := hm
    simp only [hm', hk, Bool.not_false, if_true]
    rfl

/-- Settles O16: TOK moves the counts of the FIFOs its bits name, and each of the other words comes to its last step. -/
theorem controlWordsComplete : Obligations.ControlWordsComplete :=
  ⟨explicitTokens, exitEndsTheStream, fenceReleases, returnFromTrap⟩

end Sys2Proof.Machine
end

section
namespace Sys2Proof.Machine

/-! ## The reply of a sync operation to another module (R260, R382, R453) -/

namespace SealedReply

/-- A module whose context 0 is bound to a key: what it sends to another module for that context is encrypted (R453). -/
def keyed : State := { State.reset with mgmt := { Mgmt.reset with binds := [(0, 2)], keys := [(0, 1)] } }

/-- A sync command that came from module 1 to die 0 of module 0 for context 0. -/
def command : Packet := { (default : Packet) with kind := 2, srcMod := 1 }

/-- A reply with data beyond the 32 bytes of its slot. -/
def reply : Reply := ⟨0, 2 ^ 256, 0⟩

theorem payloadKey_response : keyed.payloadKey (command.response 10 reply) = some 1 := by decide

/-- What leaves fits the slot, and so is not the reply as it was given. -/
theorem sealPacket_response_ne : keyed.sealPacket (command.response 10 reply) ≠ command.response 10 reply := by
  intro h
  have hdata := congrArg Packet.data h
  simp only [State.sealPacket, payloadKey_response] at hdata
  have hlt := (Config.xtsSlots 1 (command.response 10 reply).addr (command.response 10 reply).dataSlots
    (BitVec.ofNat (256 * (command.response 10 reply).dataSlots) (command.response 10 reply).data)).isLt
  rw [hdata] at hlt
  revert hlt
  decide

end SealedReply

open SealedReply in
/-- Refutes O33: its clause on sync replies says that the router gets the reply as it was given. A reply to another module for a context
that is bound to a key is encrypted into its slot of 32 bytes before it reaches the router (R46, R453), and one whose data does not fit
that slot is changed whatever the cipher does. -/
theorem not_syncWordsComplete : ¬ Obligations.SyncWordsComplete := by
  intro ⟨_, _, _, _, hreplies⟩
  obtain ⟨-, hrouter, -⟩ := hreplies keyed 0 0 command reply (by decide)
  have hsent : ((keyed.syncReplyTo 0 (.packet command) reply).die 0).router =
      (keyed.die 0).router ++ [(keyed.sealPacket (command.response 10 reply), 4)] :=
    congrArg Die.router (State.die_setDie keyed (by decide) _)
  have hsame := List.append_cancel_left (hsent.symm.trans hrouter)
  exact sealPacket_response_ne (Prod.mk.inj (List.cons.inj hsame).1).1

end Sys2Proof.Machine
end

section
namespace Sys2Proof.Machine

/-! ## Dispatch, gang start and the ends of runs and launches (R14, R77, R309-R319, R332) -/

/-! ### The order of ready work (R313, R315) -/

/-- Whether one piece of ready work of a level is served before another. -/
def TaskEngine.before (te : TaskEngine) (a b : Machine.Ready) : Bool :=
  let pa := (te.queue a.queue).pass
  let pb := (te.queue b.queue).pass
  if pa ≠ pb then pa < pb
  else if a.queue ≠ b.queue then a.queue < b.queue
  else if a.timestamp ≠ b.timestamp then a.timestamp < b.timestamp
  else a.order < b.order

/-- The better of the work found so far and one more piece. -/
def keepFirst {α : Type} (before : α → α → Bool) : Option α → α → Option α
  | none, r => some r
  | some b, r => if before r b then some r else some b

theorem TaskEngine.nextReady_eq (te : TaskEngine) :
    let ok := te.ready.filter fun r => te.goes r && bitsOf (te.queue r.queue).cfg 63 63 = 1
    let level := (ok.map fun r => bitsOf (te.queue r.queue).cfg 57 56).foldl max 0
    te.nextReady = (ok.filter fun r => bitsOf (te.queue r.queue).cfg 57 56 = level).foldl (keepFirst te.before) none := by
  intro ok level
  refine congrArg (List.foldl · none _) ?_
  funext acc r
  cases acc <;> rfl

theorem TaskEngine.not_before_iff (te : TaskEngine) (a b : Machine.Ready) :
    te.before a b = false ↔ (te.queue b.queue).pass ≤ (te.queue a.queue).pass ∧
      ((te.queue a.queue).pass = (te.queue b.queue).pass → b.queue ≤ a.queue ∧
        (a.queue = b.queue → b.timestamp ≤ a.timestamp ∧ (a.timestamp = b.timestamp → b.order ≤ a.order))) := by
  unfold TaskEngine.before
  dsimp only
  split
  · simp only [decide_eq_false_iff_not]; omega
  · split
    · simp only [decide_eq_false_iff_not]; omega
    · split <;> simp only [decide_eq_false_iff_not] <;> omega

section
variable {α : Type} {before : α → α → Bool} (hasymm : ∀ a b, before a b = true → before b a = false)
  (htrans : ∀ a b c, before a b = false → before b c = false → before a c = false)
include hasymm htrans

/-- The fold keeps a first element: one of those seen, before which none of them comes. -/
theorem foldl_keepFirst_some (l : List α) (b : α) :
    ∃ m, l.foldl (keepFirst before) (some b) = some m ∧ m ∈ b :: l ∧ ∀ x ∈ b :: l, before x m = false := by
  have hself (a : α) : before a a = false := by
    cases h : before a a with
    | true => exact (hasymm a a h).symm.trans h ▸ rfl
    | false => rfl
  induction l generalizing b with
  | nil => exact ⟨b, rfl, List.mem_cons_self, fun x hx => by rw [List.mem_singleton.1 hx, hself]⟩
  | cons r l ih =>
    cases hr : before r b with
    | true =>
      obtain ⟨m, hm, hin, hmin⟩ := ih r
      refine ⟨m, by simpa [keepFirst, hr] using hm, List.mem_cons_of_mem b hin, fun x hx => ?_⟩
      rcases List.mem_cons.1 hx with rfl | hx
      · exact htrans _ _ _ (hasymm _ _ hr) (hmin r List.mem_cons_self)
      · exact hmin x hx
    | false =>
      obtain ⟨m, hm, hin, hmin⟩ := ih b
      refine ⟨m, by simpa [keepFirst, hr] using hm, ?_, fun x hx => ?_⟩
      · rcases List.mem_cons.1 hin with rfl | hin
        · exact List.mem_cons_self
        · exact List.mem_cons_of_mem _ (List.mem_cons_of_mem _ hin)
      · rcases List.mem_cons.1 hx with rfl | hx
        · exact hmin x List.mem_cons_self
        · rcases List.mem_cons.1 hx with rfl | hx
          · exact htrans _ _ _ hr (hmin b List.mem_cons_self)
          · exact hmin x (List.mem_cons_of_mem _ hx)

theorem foldl_keepFirst_none {l : List α} {m : α} (h : l.foldl (keepFirst before) none = some m) :
    m ∈ l ∧ ∀ x ∈ l, before x m = false := by
  cases l with
  | nil => cases h
  | cons b l =>
    obtain ⟨n, hn, hin, hmin⟩ := foldl_keepFirst_some hasymm htrans l b
    cases Option.some.inj (hn.symm.trans h)
    exact ⟨hin, hmin⟩

end

theorem le_foldl_max (l : List Nat) (b : Nat) : b ≤ l.foldl max b ∧ ∀ x ∈ l, x ≤ l.foldl max b := by
  induction l generalizing b with
  | nil => exact ⟨le_rfl, nofun⟩
  | cons y l ih =>
    obtain ⟨hb, hl⟩ := ih (max b y)
    refine ⟨(le_max_left b y).trans hb, fun x hx => ?_⟩
    rcases List.mem_cons.1 hx with rfl | hx
    · exact (le_max_right b x).trans hb
    · exact hl x hx

/-- What is dispatched next is of the highest level that has ready work, and first of its order there (R313, R315). -/
theorem TaskEngine.nextReady_first {te : TaskEngine} {r : Machine.Ready} (h : te.nextReady = some r) :
    r ∈ te.ready ∧ te.goes r = true ∧ bitsOf (te.queue r.queue).cfg 63 63 = 1 ∧
      ∀ x ∈ te.ready, te.goes x = true → bitsOf (te.queue x.queue).cfg 63 63 = 1 →
        bitsOf (te.queue x.queue).cfg 57 56 ≤ bitsOf (te.queue r.queue).cfg 57 56 ∧
        (bitsOf (te.queue x.queue).cfg 57 56 = bitsOf (te.queue r.queue).cfg 57 56 → te.before x r = false) := by
  have asymm (a b : Machine.Ready) (hab : te.before a b = true) : te.before b a = false := by
    have := mt (te.not_before_iff a b).2 (by simp [hab])
    rw [TaskEngine.not_before_iff]
    omega
  have trans (a b c : Machine.Ready) (hab : te.before a b = false) (hbc : te.before b c = false) : te.before a c = false := by
    rw [TaskEngine.not_before_iff] at *
    omega
  rw [TaskEngine.nextReady_eq] at h
  obtain ⟨hr, hmin⟩ := foldl_keepFirst_none asymm trans h
  simp only [List.mem_filter, Bool.and_eq_true, decide_eq_true_eq] at hr hmin
  obtain ⟨⟨hready, hgoes, hon⟩, hlevel⟩ := hr
  refine ⟨hready, hgoes, hon, fun x hx hg ho => ⟨?_, fun heq => hmin x ⟨⟨hx, hg, ho⟩, heq.trans hlevel⟩⟩⟩
  rw [hlevel]
  exact (le_foldl_max _ 0).2 _ (List.mem_map.2 ⟨x, List.mem_filter.2 ⟨hx, by simp [hg, ho]⟩, rfl⟩)

theorem dispatching : Claims.Dispatching := by
  refine ⟨fun s => ⟨fun t ht => ?_, fun hup => ⟨fun hidle => ?_, fun r hon hr => ⟨fun hd => ?_, fun crews s2 hd => ?_⟩⟩⟩, fun te r h => ?_⟩
  · change execTaskDispatch s = _
    simp only [execTaskDispatch, ht, Option.isSome_some, if_true]
    rfl
  · change execTaskDispatch s = _
    simp only [execTaskDispatch, hup, Option.isSome_none, Bool.false_eq_true, if_false]
    rcases hidle with hoff | hnone
    · simp only [hoff, if_true]
      rfl
    · simp only [hnone, ite_self]
      rfl
  · change execTaskDispatch s = _
    simp only [execTaskDispatch, hup, Option.isSome_none, Bool.false_eq_true, if_false, hon, Nat.one_ne_zero, hr, hd]
    rfl
  · change execTaskDispatch s = _
    simp only [execTaskDispatch, hup, Option.isSome_none, Bool.false_eq_true, if_false, hon, Nat.one_ne_zero, hr, hd]
    rfl
  · obtain ⟨hready, hgoes, hon, hfirst⟩ := TaskEngine.nextReady_first h
    refine ⟨hready, hgoes, hon, fun x hx hg ho => ?_⟩
    obtain ⟨hlevel, hbefore⟩ := hfirst x hx hg ho
    refine ⟨hlevel, fun heq => ?_⟩
    have := (te.not_before_iff x r).1 (hbefore heq)
    tauto

/-! ### What an acquire or a release finds written back (R53) -/

/-- Nothing of a context is dirty or on its way to its home. -/
theorem State.flush_clean {s : State} {die context : Nat} (hclean : ∀ e ∈ (s.die die).cache, ¬ (e.2.context = context ∧ e.2.dirty ≠ 0))
    (hout : s.backsOut die (fun _ x => x = context) = []) (strand : Option Nat) :
    s.flush die (fun _ x => x = context) strand = ([], s) := by
  have hall : s.writeBackAll die (fun _ x => x = context) strand = ([], s) := by
    unfold State.writeBackAll
    refine List.foldlRecOn (motive := fun acc : List Nat × State => acc = ([], s)) _ _ rfl fun acc hacc e he => ?_
    subst hacc
    dsimp only
    split
    · rename_i hc
      have hdirty : e.2.dirty = 0 := by
        by_contra hd
        exact hclean e he ⟨of_decide_eq_true hc, hd⟩
      simp only [State.writeBack, hdirty, if_true, List.append_nil]
    · rfl
  simp only [State.flush, hout, hall, List.append_nil]

/-- With nothing to write back, the step is taken at once. -/
theorem State.afterWriteBack_clean {s : State} {die context : Nat} (hclean : ∀ e ∈ (s.die die).cache, ¬ (e.2.context = context ∧ e.2.dirty ≠ 0))
    (hout : s.backsOut die (fun _ x => x = context) = []) (set : State → Option (List Nat) → State) (go : State → State) :
    s.afterWriteBack die context none set go = go s := by
  simp only [State.afterWriteBack, State.flush_clean hclean hout, List.isEmpty_nil, if_true]

/-! ### Gang start (R14, R77, R307, R312) -/

/-- Placing words from register `n + 1` on sets those registers and no others. -/
theorem getElem?_foldl_setIfInBounds (l : List Word) (n : Nat) (rs : Vector Word 32) (i : Nat) (hi : i < 31) :
    ((l.zipIdx n).foldl (fun rs w => rs.setIfInBounds (w.2 + 1) w.1) rs)[i + 1]? =
      if n ≤ i ∧ i < n + l.length then l[i - n]? else rs[i + 1]? := by
  induction l generalizing n rs with
  | nil =>
    rw [if_neg (by simp only [List.length_nil]; omega)]
    rfl
  | cons w l ih =>
    simp only [List.zipIdx_cons, List.foldl_cons, ih, Vector.getElem?_setIfInBounds, List.length_cons]
    by_cases hlt : i < n
    · rw [if_neg (by omega), if_neg (by omega), if_neg (by omega)]
    · by_cases heq : i = n
      · subst heq
        rw [if_neg (by omega), if_pos (by omega), if_pos (by omega), Nat.sub_self]
        simp
      · by_cases hin : i < n + 1 + l.length
        · rw [if_pos (by omega), if_pos (by omega), show i - n = i - (n + 1) + 1 by omega, List.getElem?_cons_succ]
        · rw [if_neg (by omega), if_neg (by omega), if_neg (by omega)]

theorem strandStart_get (c : Crew) (r : LaunchRec) (p k : Nat) (entry : Word) (regs : List Word) (str : Str) :
    let x := (strandStart c r p k entry regs regs regs []).get str
    x.pc = entry ∧ x.ended = false ∧ x.loops = [] ∧
      x.regs = regs.zipIdx.foldl (fun rs w => rs.setIfInBounds (w.2 + 1) w.1) (default : Stream).regs := by
  cases str <;> exact ⟨rfl, rfl, rfl, rfl⟩

theorem strandKey_inj {die p k q j : Nat} (hk : k < 4) (hj : j < 4) (h : strandKey die p k = strandKey die q j) : p = q ∧ k = j := by
  simp only [strandKey] at h
  omega

/-- The start of one strand at the entry. -/
def State.startStrand (s : State) (die : Nat) (t : Task) (p k : Nat) : State :=
  let regs := t.first ++ t.record.args
  let st := strandStart (s.crew die p) t.record p k (BitVec.ofNat 64 t.entry) regs regs regs []
  { s with strands := put (strandKey die p k) st s.strands }

/-- What one element of a list brings about, and every element keeps, holds after the fold. -/
theorem foldl_reaches {α β : Type} {P : β → Prop} {f : β → α → β} {a : α} (hset : ∀ b, P (f b a)) :
    ∀ {l : List α} (b : β), (∀ x ∈ l, ∀ b, P b → P (f b x)) → a ∈ l → P (l.foldl f b)
  | x :: l, b, hkeep, ha => by
    have hrest : ∀ y ∈ l, ∀ b, P b → P (f b y) := fun y hy => hkeep y (List.mem_cons_of_mem x hy)
    rcases List.mem_cons.1 ha with rfl | ha
    · exact List.foldlRecOn l f (hset b) fun c hc y hy => hrest y hy c hc
    · exact foldl_reaches hset (f b x) hrest ha

/-- A strand is at the entry of its task. -/
def State.AtEntry (die : Nat) (t : Task) (p k : Nat) (s : State) : Prop :=
  let regs := t.first ++ t.record.args
  ∃ c, look (strandKey die p k) s.strands = some (strandStart c t.record p k (BitVec.ofNat 64 t.entry) regs regs regs [])

theorem State.startStrand_atEntry (die : Nat) (t : Task) (p k : Nat) (s : State) : (s.startStrand die t p k).AtEntry die t p k :=
  ⟨_, look_put_self _ _ _⟩

theorem State.startStrand_keeps_atEntry {die : Nat} {t : Task} {p k q j : Nat} (hk : k < 4) (hj : j < 4) {s : State} (h : s.AtEntry die t p k) :
    (s.startStrand die t q j).AtEntry die t p k := by
  by_cases hkey : strandKey die q j = strandKey die p k
  · obtain ⟨rfl, rfl⟩ := strandKey_inj hj hk hkey
    exact s.startStrand_atEntry die t q j
  · obtain ⟨c, hc⟩ := h
    exact ⟨c, (look_put_other hkey _ _).trans hc⟩

/-- After the nested folds over the polders and their strands each of them is at its entry. -/
theorem State.startStrands_atEntry (die : Nat) (t : Task) {n : Nat} (hn : n ≤ 4) {ps : List Nat} (s : State) {p k : Nat} (hp : p ∈ ps) (hk : k < n) :
    (ps.foldl (fun s p => (List.range n).foldl (fun s k => s.startStrand die t p k) s) s).AtEntry die t p k := by
  have keep (q : Nat) (j : Nat) (hj : j ∈ List.range n) (s : State) (h : s.AtEntry die t p k) : (s.startStrand die t q j).AtEntry die t p k :=
    startStrand_keeps_atEntry (hk.trans_le hn) ((List.mem_range.1 hj).trans_le hn) h
  refine foldl_reaches (P := State.AtEntry die t p k) (a := p) (fun s => ?_) s (fun q _ s h => ?_) hp
  · exact foldl_reaches (startStrand_atEntry die t p k) s (keep p) (List.mem_range.2 hk)
  · exact List.foldlRecOn (List.range n) _ h fun s h j hj => keep q j hj s h

theorem gangStarts : Claims.GangStarts := by
  intro s r die id te t hd hr hs hdown
  refine ⟨fun hhead => ?_, ?_, fun hcont hstrands _ hlen p hp k hk => ?_⟩
  · have hguard : (r.started || te.down.isSome || decide ((te.waitingGangs id).head? ≠ some id)) = true := by
      rw [hs, hdown, decide_eq_true hhead]
      rfl
    change execGangStart s = _
    simp only [execGangStart, show look (s.inp.getD 0 0) (s.te s.cur.die).runs = some r from hr]
    rw [if_pos hguard]
    rfl
  · intro all hhead hwb hclean hout
    have hguard : (r.started || te.down.isSome || decide ((te.waitingGangs id).head? ≠ some id)) ≠ true := by
      rw [hs, hdown, hhead]
      simp
    change execGangStart s = _
    simp only [execGangStart, show look (s.inp.getD 0 0) (s.te s.cur.die).runs = some r from hr]
    rw [if_neg hguard, hwb, State.afterWriteBack_clean hclean hout]
    rfl
  · have hrun : te.run id = r := by simp only [TaskEngine.run, hr, Option.getD_some]
    have hstart : ∃ s2 : State, s.startRun die id = r.polders.foldl (fun s p => (List.range r.strands).foldl (fun s k => s.startStrand die t p k) s) s2 := by
      refine ⟨((s.invalidate die fun _ x => x = t.context).setTe die (te.setRun id { r with started := true, wb := none })).fillViews die r.origin t.record, ?_⟩
      have hrun' : (s.te die).run id = r := hrun
      simp only [State.startRun, hrun', hcont]
      rfl
    obtain ⟨s2, hs2⟩ := hstart
    obtain ⟨c, hc⟩ := State.startStrands_atEntry die t hstrands s2 hp hk
    refine ⟨_, by rw [hs2]; exact hc, fun str => ?_, rfl, rfl, rfl, rfl, rfl, rfl, rfl, rfl, rfl, rfl, rfl, rfl⟩
    obtain ⟨hpc, hended, hloops, hregs⟩ := strandStart_get c t.record p k (BitVec.ofNat 64 t.entry) (t.first ++ t.record.args) str
    have hlen' : (t.first ++ t.record.args).length ≤ 28 := by simpa using hlen
    refine ⟨hpc, hended, hloops, fun i w hw => ?_, fun i hi hi' => ?_⟩
    · obtain ⟨hlt, _⟩ := List.getElem?_eq_some_iff.1 hw
      rw [hregs, getElem?_foldl_setIfInBounds _ _ _ _ (by omega), if_pos (by omega), Nat.sub_zero, hw]
    · rw [hregs, getElem?_foldl_setIfInBounds _ _ _ _ hi', if_neg (by omega)]
      exact Vector.getElem?_replicate.trans (if_pos (by omega))

/-! ### Ends (R99, R262, R267, R332) -/

theorem strandEnds (s : State) (st : Strand) :
    let c := s.cur
    let crew := s.crew c.die c.polder
    let r := (s.te c.die).run (s.runOf c)
    look (strandKey c.die c.polder c.strand) s.strands = some st → c.strand ∉ crew.endedStrands → crew.halted = false →
    (st.fault = none → st.a.ended = true → st.x.ended = true → st.d.ended = true →
      s.commandsDone c.die c.polder c.strand = true →
      let s1 := s.setCrew c.die c.polder { crew with endedStrands := crew.endedStrands ++ [c.strand] }
      (st.waitc = none → exec .strandEnd s = .next s1) ∧
      (∀ w, st.waitc = some w → r.cancelled = false → r.fault = none → s.stopPoint c = false → w.wb = none →
        (s.releaseReady c.die c.polder c.strand .x st.x.seq st.x.marks = false → exec .strandEnd s = .next s) ∧
        (s.releaseReady c.die c.polder c.strand .x st.x.seq st.x.marks = true →
          (∀ e ∈ (s.die c.die).cache, ¬ (e.2.context = crew.context ∧ e.2.dirty ≠ 0)) →
          s.backsOut c.die (fun _ x => x = crew.context) = [] →
          exec .strandEnd s = .next (s1.writeCont c.die r.task (strandKey c.die c.polder c.strand) st w)))) ∧
    (∀ f, st.fault = some f → r.fault = none →
      let s1 := (s.setTe c.die ((s.te c.die).setRun (s.runOf c) { r with fault := some f.toNat })).stopGang c.die r
      s1.commandsDone c.die c.polder c.strand = false → exec .strandEnd s = .next s1) := by
  intro c crew r hst hk hhalt
  have hgo : ((s.crew s.cur.die s.cur.polder).endedStrands.contains s.cur.strand || (s.crew s.cur.die s.cur.polder).halted) = false := by
    rw [show (s.crew s.cur.die s.cur.polder).halted = false from hhalt, Bool.or_false]
    simpa using hk
  have hst' : look (strandKey s.cur.die s.cur.polder s.cur.strand) s.strands = some st := hst
  constructor
  · intro hfault ha hx hd hdone s1
    have hdone' : (!(st.a.ended && st.x.ended && st.d.ended && s.commandsDone s.cur.die s.cur.polder s.cur.strand)) = false := by
      rw [ha, hx, hd, show s.commandsDone s.cur.die s.cur.polder s.cur.strand = true from hdone]
      rfl
    constructor
    · intro hw
      change execStrandEnd s = _
      simp only [execStrandEnd, hst', hgo, hfault, hdone', hw, Bool.false_eq_true, if_false]
      rfl
    · intro w hw hcan hf hstop hwb
      have hstay : (r.cancelled || r.fault.isSome || s.stopPoint c) = false := by
        rw [hcan, hf, hstop]
        rfl
      have hrun : s1.runOf c = s.runOf c := by
        simp only [State.runOf, State.crew, State.crew?, s1, State.setCrew, look_put_self, Option.getD_some]
        rfl
      have hstop' : s1.stopPoint c = s.stopPoint c := by
        simp only [State.stopPoint, State.taskOf, hrun]
        rfl
      have hstay' : (((s1.te c.die).run (s.runOf c)).cancelled || ((s1.te c.die).run (s.runOf c)).fault.isSome || s1.stopPoint c) = false :=
        show (r.cancelled || r.fault.isSome || s1.stopPoint c) = false from hstop' ▸ hstay
      refine ⟨fun hready => ?_, fun hready hclean hout => ?_⟩
      · change execStrandEnd s = _
        simp only [execStrandEnd, hst', hgo, hfault, hdone', hw, Bool.false_eq_true, if_false]
        rw [if_neg (by rw [hstay']; exact Bool.false_ne_true), if_pos (by rw [hwb, hready]; rfl)]
        rfl
      · change execStrandEnd s = _
        simp only [execStrandEnd, hst', hgo, hfault, hdone', hw, Bool.false_eq_true, if_false]
        rw [if_neg (by rw [hstay']; exact Bool.false_ne_true), if_neg (by rw [hwb, hready]; exact Bool.false_ne_true),
          hwb, State.afterWriteBack_clean hclean hout]
        rfl
  · intro f hfault hf s1 hdone
    have hdone' : (!(st.a.ended && st.x.ended && st.d.ended && s1.commandsDone s.cur.die s.cur.polder s.cur.strand)) = true := by
      rw [show s1.commandsDone s.cur.die s.cur.polder s.cur.strand = false from hdone, Bool.and_false]
      rfl
    change execStrandEnd s = _
    simp only [execStrandEnd, hst', hgo, hfault, Bool.false_eq_true, if_false]
    rw [show ((s.te s.cur.die).run (s.runOf s.cur)).fault = none from hf]
    exact congrArg answer (if_pos hdone')

theorem taskEnds (s : State) (r : Run) :
    let die := s.cur.die
    let id := s.inp.getD 0 0
    look id (s.te die).runs = some r → r.started = true → (s.te die).down = none → r.wb = none →
    (∀ p ∈ r.polders, (s.crew die p).task = id ∧ (s.crew die p).halted = false ∧
      ∀ k, k < r.strands → k ∈ (s.crew die p).endedStrands ∧ ((look (strandKey die p k) s.strands).getD default).rels = []) →
    (∀ q ∈ s.reqs, ¬ (q.2.die = die ∧ q.2.unit ∈ r.polders)) →
    (∀ e ∈ (s.die die).cache, ¬ (e.2.context = ((s.te die).task r.task).context ∧ e.2.dirty ≠ 0)) →
    s.backsOut die (fun _ x => x = ((s.te die).task r.task).context) = [] →
    exec .taskEnd s = .next (s.endRun die id) := by
  intro die id hr hstarted hdown hwb hended hsent hclean hout
  have hdone : (r.started && r.polders.all fun p =>
      let c := s.crew die p
      c.task = id && !c.halted && (List.range r.strands).all fun k => c.endedStrands.contains k
        && ((look (strandKey die p k) s.strands).getD default).rels.isEmpty) = true := by
    rw [hstarted, Bool.true_and, List.all_eq_true]
    intro p hp
    obtain ⟨htask, hhalted, hks⟩ := hended p hp
    simp only [htask, hhalted, decide_true, Bool.not_false, Bool.and_self, Bool.true_and, List.all_eq_true]
    intro k hk
    obtain ⟨hk, hrels⟩ := hks k (List.mem_range.1 hk)
    simp [hk, hrels]
  have hnone : (s.reqs.any fun q => q.2.die = die && r.polders.contains q.2.unit) = false := by
    rw [List.any_eq_false]
    intro q hq
    have := hsent q hq
    simp only [Bool.and_eq_true, decide_eq_true_eq, List.contains_iff_mem]
    exact this
  change execTaskEnd s = _
  simp only [execTaskEnd, show look (s.inp.getD 0 0) (s.te s.cur.die).runs = some r from hr]
  refine congrArg answer ((if_neg ?_).trans ?_)
  · intro h
    rw [Bool.or_eq_true, Bool.or_eq_true, show (s.te s.cur.die).down = none from hdown] at h
    rcases h with (h | h) | h
    · exact absurd (hdone.symm.trans ((Bool.not_eq_true' _).mp h)) nofun
    · exact absurd (hnone.symm.trans h) Bool.false_ne_true
    · cases h
  · rw [hwb, State.afterWriteBack_clean hclean hout]

theorem ends : Claims.Ends := ⟨strandEnds, taskEnds⟩

theorem look_filter_none {α : Type} {k : Nat} {keep : Nat × α → Bool} (l : List (Nat × α)) (h : ∀ a, keep (k, a) = false) :
    look k (l.filter keep) = none := by
  induction l with
  | nil => rfl
  | cons e l ih =>
    rw [List.filter_cons]
    split
    · rename_i he
      rw [look, if_neg, ih]
      rintro rfl
      exact absurd (h e.2) (by simp [he])
    · exact ih

theorem runsFreeTheirPolders : Claims.RunsFreeTheirPolders := by
  intro s die id ps t
  refine ⟨fun p hp hlt => ⟨look_filter_none _ fun c => ?_, fun k hk => look_filter_none _ fun st => ?_⟩, fun e he hother => ?_, rfl⟩
  · have hdie : crewKey die p / 64 = die := by simp only [crewKey]; omega
    have hpolder : crewKey die p % 64 = p := by simp only [crewKey]; omega
    simp [hdie, hpolder, show p ∈ ((s.te die).run id).polders from hp]
  · have hdie : strandKey die p k / 256 = die := by simp only [strandKey]; omega
    have hpolder : strandKey die p k / 4 % 64 = p := by simp only [strandKey]; omega
    simp [hdie, hpolder, show p ∈ ((s.te die).run id).polders from hp]
  · refine List.mem_filter.2 ⟨he, ?_⟩
    rw [Bool.not_eq_true', Bool.and_eq_false_iff]
    rcases hother with hd | hp
    · exact .inl (decide_eq_false hd)
    · exact .inr (by simpa using hp)

theorem launchesRetire : Claims.LaunchesRetire := by
  intro s x die l hl hover hdown signal s1 te
  have hl' : look (s.inp.getD 0 0) (s.te s.cur.die).launches = some x := hl
  have hgo : (!s.launchOver s.cur.die (s.inp.getD 0 0) || (s.te s.cur.die).down.isSome) = false := by
    rw [show s.launchOver s.cur.die (s.inp.getD 0 0) = true from hover, show (s.te s.cur.die).down = none from hdown]
    rfl
  change execLaunchRetire s = _
  simp only [execLaunchRetire, hl', hgo, Bool.false_eq_true, if_false]
  rfl

/-- Settles O40: each step is its function's branch under the guards the statement gives; what is dispatched is the first of an order
that a fold over the ready work keeps. -/
theorem gangsRunAndRetire : Obligations.GangsRunAndRetire :=
  ⟨dispatching, gangStarts, ends, runsFreeTheirPolders, launchesRetire⟩

end Sys2Proof.Machine
end

section
namespace Sys2Proof.Machine

/-! ## The task engines: what changes them and what leaves them as they are -/

/-- A die replaced by one with its own task engine leaves every task engine as it is. -/
theorem State.te_setDie_same {s : State} {e : Nat} {x : Die} (h : x.te = s.te e) (d : Nat) : (s.setDie e x).te d = s.te d := by
  by_cases hd : e = d
  · subst hd
    by_cases hlt : e < 16
    · rw [State.te, State.die_setDie s hlt, h]
    · simp [State.te, State.die, State.setDie, hlt]
  · rw [State.te, State.die_setDie_other s hd, State.te]

theorem State.te_setTe (s : State) {d : Nat} (h : d < 16) (x : TaskEngine) : (s.setTe d x).te d = x := by
  rw [State.te, State.setTe, State.die_setDie s h]

@[simp] theorem State.te_setCrew (s : State) (e p : Nat) (x : Crew) (d : Nat) : (s.setCrew e p x).te d = s.te d := rfl
@[simp] theorem State.te_writeN (s : State) (a v n d : Nat) : (s.writeN a v n).te d = s.te d := rfl

@[simp] theorem State.raise_te (s : State) (die src d : Nat) : (s.raise die src).te d = s.te d :=
  congrArg Die.te (s.raise_die die src d)

@[simp] theorem State.raise_crews (s : State) (die src : Nat) : (s.raise die src).crews = s.crews := by
  obtain ⟨x, hx⟩ := s.raise_eq die src
  rw [hx]

theorem State.errorEvent_te (s : State) (die kind engine polder addr detail d : Nat) :
    (s.errorEvent die kind engine polder addr detail).te d = s.te d := by
  simp only [State.errorEvent, State.raise_te]
  split
  · exact State.te_setDie_same (by rfl) d
  · exact State.te_setDie_same (by rfl) d

theorem State.errorEvent_tables (s : State) (die kind engine polder addr detail : Nat) :
    (s.errorEvent die kind engine polder addr detail).crews = s.crews ∧
      (s.errorEvent die kind engine polder addr detail).strands = s.strands := by
  simp only [State.errorEvent, State.raise_crews, State.raise_strands]
  split <;> exact ⟨rfl, rfl⟩

@[simp] theorem State.forget_te (s : State) (id d : Nat) : (s.forget id).te d = s.te d := by
  unfold State.forget
  dsimp only
  (repeat' split) <;> rfl

@[simp] theorem State.forget_crews (s : State) (id : Nat) : (s.forget id).crews = s.crews := by
  unfold State.forget
  dsimp only
  (repeat' split) <;> rfl

@[simp] theorem State.forgetAll_te (s : State) (ids : List Nat) (d : Nat) : (s.forgetAll ids).te d = s.te d :=
  List.foldlRecOn (motive := fun t : State => t.te d = s.te d) ids _ rfl fun t ht i _ => (t.forget_te i d).trans ht

@[simp] theorem State.forgetAll_crews (s : State) (ids : List Nat) : (s.forgetAll ids).crews = s.crews :=
  List.foldlRecOn (motive := fun t : State => t.crews = s.crews) ids _ rfl fun t ht i _ => (t.forget_crews i).trans ht

theorem State.leave_te (s : State) (id : Nat) (r : Req) (d : Nat) : (s.leave id r).te d = s.te d := by
  unfold State.leave
  extract_lets
  split
  · rfl
  · split
    · rfl
    · extract_lets
      split
      · rfl
      · exact State.te_setDie_same (by rfl) d

theorem State.pump_te (s : State) (d : Nat) : s.pump.te d = s.te d := by
  refine List.foldlRecOn (motive := fun t : State => t.te d = s.te d) _ _ rfl fun t ht e _ => ?_
  split
  · exact ht
  · exact (t.leave_te _ _ d).trans ht

@[simp] theorem State.storeFailed_te (s : State) (key status addr d : Nat) : (s.storeFailed key status addr).te d = s.te d := by
  unfold State.storeFailed
  split <;> rfl

@[simp] theorem State.syncFailed_te (s : State) (key status d : Nat) : (s.syncFailed key status).te d = s.te d := by
  unfold State.syncFailed
  split <;> rfl

@[simp] theorem State.respond_te (s : State) (die : Nat) (p : Packet) (kind : Nat) (rep : Reply) (d : Nat) :
    (s.respond die p kind rep).te d = s.te d := State.te_setDie_same (by rfl) d

theorem State.te_host (s : State) (x : HostEngine) (d : Nat) : ({ s with host := x } : State).te d = s.te d := rfl

/-- The end of a request changes no task engine. -/
theorem State.conclude_te (s : State) (id : Nat) (rep : Reply) (d : Nat) : (s.conclude id rep).te d = s.te d := by
  unfold State.conclude
  split
  · rfl
  · extract_lets
    split
    · rfl
    · exact State.forget_te _ _ d
    · split
      · exact State.forget_te _ _ d
      · rfl
    · rw [State.forget_te, State.respond_te]
      rfl
    · rw [State.forget_te]
      split
      · rfl
      · exact State.syncFailed_te _ _ _ d
    · rw [State.forget_te]
      split
      · rfl
      · exact State.storeFailed_te _ _ _ _ d
    · dsimp only
      split
      · rw [State.forget_te]
        split
        · rfl
        · split
          · exact State.storeFailed_te _ _ _ _ d
          · exact State.errorEvent_te _ _ _ _ _ _ _ d
      · split
        · rfl
        · split
          · exact State.storeFailed_te _ _ _ _ d
          · exact State.errorEvent_te _ _ _ _ _ _ _ d
    · rw [State.forget_te]
      split
      · rfl
      · exact State.storeFailed_te _ _ _ _ d

theorem State.request_te (s : State) (r : Req) (d : Nat) : (s.request r).2.te d = s.te d := by
  unfold State.request
  extract_lets
  split
  · exact State.conclude_te _ _ _ d
  · exact State.conclude_te _ _ _ d
  · split
    · exact State.conclude_te _ _ _ d
    · exact State.pump_te _ d

theorem State.signalUpdate_te (s : State) (die a : Nat) (f : Nat → Nat) (op v1 v2 d : Nat) :
    (s.signalUpdate die a f op v1 v2).te d = s.te d := by
  unfold State.signalUpdate
  split
  · split
    · rfl
    · rw [State.errorEvent_te, State.te_host]
  · split
    · exact State.errorEvent_te _ _ _ _ _ _ _ d
    · rfl
  · split
    · split
      · exact State.errorEvent_te _ _ _ _ _ _ _ d
      · split
        · exact State.errorEvent_te _ _ _ _ _ _ _ d
        · rfl
    · exact State.request_te _ _ d
  · exact State.errorEvent_te _ _ _ _ _ _ _ d

theorem State.decrement_te (s : State) (die signal d : Nat) : (s.decrement die signal).te d = s.te d := by
  unfold State.decrement
  split
  · rfl
  · exact State.signalUpdate_te _ _ _ _ _ _ _ d

theorem State.report_te (s : State) (die signal code word cause n d : Nat) : (s.report die signal code word cause n).te d = s.te d := by
  unfold State.report
  split
  · rfl
  · exact State.signalUpdate_te _ _ _ _ _ _ _ d

theorem State.sendMirror_te (s : State) (die d : Nat) : (s.sendMirror die).te d = s.te d := by
  unfold State.sendMirror State.sendCtl
  split
  · rfl
  · split
    · split
      · rfl
      · exact State.te_setDie_same (by rfl) d
    · split <;> rfl

theorem State.hostRetired_te (s : State) (host : Option Nat) (lost : Bool) (sent : Option Nat) (d : Nat) :
    (s.hostRetired host lost sent).te d = s.te d := by
  unfold State.hostRetired
  split
  · rfl
  · extract_lets
    split
    · rfl
    · split <;> rfl

end Sys2Proof.Machine
end

section
namespace Sys2Proof.Machine

/-! ## The task engine's reset, its registers and pre-emption (R61, R330, R335-R341) -/

/-! ### Reset and the register events -/

/-- What the reset does to one strand: a task word in flight may end in a trap (R337). -/
def State.resetWord (die : Nat) (s : State) (e : Nat × Strand) : State :=
  if e.1 / 256 ≠ die || !taskPend e.2.x.pend then s
  else
    let goes := (Config.freeWord s.fresh).toNat % 2 = 0
    let s1 := { s with fresh := s.fresh + 1 }
    if goes then s1
    else
      let ids := match e.2.x.pend with
        | some p => p.ids
        | none => []
      { s1.forgetAll ids with strands := put e.1 (e.2.trapEnter .x 0x62 0) s1.strands }

theorem execTaskEngineReset_eq (s : State) :
    execTaskEngineReset s = answer ((s.strands.foldl (State.resetWord s.cur.die)
      (s.setTe s.cur.die { s.te s.cur.die with down := some s.cycle })).errorEvent s.cur.die 2 5 0 (2 ^ 64 - 1) 0) := rfl

theorem State.resetWord_keeps (die : Nat) (s : State) (e : Nat × Strand) :
    (∀ d, (s.resetWord die e).te d = s.te d) ∧ (s.resetWord die e).crews = s.crews := by
  unfold State.resetWord
  split
  · exact ⟨fun _ => rfl, rfl⟩
  · extract_lets goes s1 ids
    split
    · exact ⟨fun _ => rfl, rfl⟩
    · exact ⟨s1.forgetAll_te ids, s1.forgetAll_crews ids⟩

theorem State.resetWord_none {die : Nat} {s : State} {e : Nat × Strand} (h : e.1 / 256 = die → taskPend e.2.x.pend = false) :
    s.resetWord die e = s := by
  refine if_pos ?_
  by_cases hd : e.1 / 256 = die
  · simp [h hd]
  · simp [hd]

theorem taskEngineResets : Claims.TaskEngineResets := by
  intro s hlt die
  refine ⟨⟨_, execTaskEngineReset_eq s, ?_, ?_, fun hnone => ?_⟩, fun n hn hle => ?_, fun hup => ?_⟩
  · rw [State.errorEvent_te]
    exact List.foldlRecOn (motive := fun t : State => t.te die = { s.te die with down := some s.cycle }) _ _ (s.te_setTe hlt _)
      fun t ht e _ => ((t.resetWord_keeps die e).1 die).trans ht
  · rw [(State.errorEvent_tables _ _ _ _ _ _ _).1]
    exact List.foldlRecOn (motive := fun t : State => t.crews = s.crews) _ _ rfl
      fun t ht e _ => (t.resetWord_keeps die e).2.trans ht
  · rw [(State.errorEvent_tables _ _ _ _ _ _ _).2]
    exact List.foldlRecOn (motive := fun t : State => t.strands = s.strands) _ _ rfl
      fun t ht e he => (congrArg State.strands (State.resetWord_none (hnone e he))).trans ht
  · change execTaskEngineResumeTimeout s = _
    simp only [execTaskEngineResumeTimeout, show (s.te s.cur.die).down = some n from hn, if_pos hle]
    rfl
  · change execTaskEngineResumeTimeout s = _
    simp only [execTaskEngineResumeTimeout, show (s.te s.cur.die).down = none from hup]
    rfl

/-- A record that a queue does not take leaves the machine as it is (R329). -/
theorem State.enqueue_refused {s : State} {die q addr : Nat} {host : Option Nat} (h : (s.enqueue die q addr host).1 ≠ 0) :
    (s.enqueue die q addr host).2 = s := by
  unfold State.enqueue at h ⊢
  extract_lets at h ⊢
  split at h
  · rw [if_pos ‹_›]
  · rw [if_neg ‹_›]
    split at h
    · rw [if_pos ‹_›]
    · exact absurd rfl h

theorem taskRegisterEvents : Claims.TaskRegisterEvents := by
  intro s _ die te v
  refine ⟨⟨fun h => ?_, fun h => ?_⟩, rfl, fun h => ?_, fun ws h => ?_⟩
  · exact congrArg answer (if_pos h)
  · exact congrArg answer ((if_neg h).trans (congrArg (fun t : State => t.setTe s.cur.die
      { t.te s.cur.die with drops := min ((t.te s.cur.die).drops + 1) 255 }) (State.enqueue_refused h)))
  · change execSnapdataWrite s = _
    simp only [execSnapdataWrite, State.writeSnap, show look (bitsOf (s.te s.cur.die).snapSel 37 32) (s.te s.cur.die).containers = none from h]
    rfl
  · change execSnapdataWrite s = _
    simp only [execSnapdataWrite, State.writeSnap, show look (bitsOf (s.te s.cur.die).snapSel 37 32) (s.te s.cur.die).containers = some ws from h]
    rfl

/-! ### Pre-emption (R335, R338, R341) -/

theorem State.preemptDone_te (s : State) {die : Nat} (h : die < 16) (status : Nat) :
    (s.preemptDone die status).te die = { s.te die with preempt := BitVec.ofNat 64 (2 ^ 62 + status * 2 ^ 48) } :=
  s.te_setTe h _

theorem State.preemptDone_preempt (s : State) {die : Nat} (h : die < 16) :
    ((s.preemptDone die 0).te die).preempt = BitVec.ofNat 64 (2 ^ 62) := by
  simp only [State.preemptDone_te s h, Nat.zero_mul, Nat.add_zero]

theorem TaskEngine.launch_setLaunch (te : TaskEngine) (l : Nat) (x : Launch) : (te.setLaunch l x).launch l = x := by
  rw [TaskEngine.launch, TaskEngine.setLaunch, look_put_self, Option.getD_some]

/-- A launch is not in the table of a die. -/
def State.LaunchGone (die l : Nat) (s : State) : Prop := look l (s.te die).launches = none

/-- A change of the graph of another launch does not bring a launch back: a launch with a graph is in the table. -/
theorem State.setGraph_gone {s : State} {die l k : Nat} {g : Graph} (h : s.LaunchGone die l) (hlt : die < 16)
    (hk : ((s.te die).launch k).graph = some g) (g' : Graph) : (s.setGraph die k g').LaunchGone die l := by
  have hne : k ≠ l := by
    rintro rfl
    rw [TaskEngine.launch, show look k (s.te die).launches = none from h] at hk
    cases hk
  rw [State.LaunchGone, State.setGraph, State.te_setTe _ hlt]
  exact (look_put_other hne _ _).trans h

theorem State.sendToken_gone {s : State} {die l : Nat} (h : s.LaunchGone die l) (hlt : die < 16) (k n : Nat) :
    (s.sendToken die k n).LaunchGone die l := by
  unfold State.sendToken
  split
  · exact h
  · extract_lets
    split
    · exact h
    · split <;> exact State.setGraph_gone h hlt ‹_› _

theorem State.graphIdle_gone {s : State} {die l : Nat} (h : s.LaunchGone die l) (hlt : die < 16) (k : Nat) :
    (s.graphIdle die k).LaunchGone die l := by
  unfold State.graphIdle
  split
  · exact h
  · split
    · exact State.setGraph_gone h hlt ‹_› _
    · exact h

theorem State.nodeDone_gone {s : State} {die l : Nat} (h : s.LaunchGone die l) (hlt : die < 16) (node : Option (Nat × Nat)) :
    (s.nodeDone die node).LaunchGone die l := by
  unfold State.nodeDone
  split
  · exact h
  · split
    · exact h
    · extract_lets s1 succ
      exact State.graphIdle_gone (List.foldlRecOn succ _ (State.setGraph_gone h hlt ‹_› _)
        fun t ht k _ => State.sendToken_gone ht hlt _ k) hlt _

section
variable {s : State} {die : Nat} (hstop : (s.te die).stopping = none)
include hstop

theorem State.preemptStop_unnamed {save : Bool} (h : s.namedLaunch die (fun h => h = .none || (save && h = .held)) = none) :
    s.preemptStop die save = s.preemptDone die 1 := by
  simp only [State.preemptStop, hstop, h, Option.isSome_none, Bool.false_eq_true, if_false]

theorem State.preemptStop_named {save : Bool} {l : Nat} (h : s.namedLaunch die (fun h => h = .none || (save && h = .held)) = some l)
    (hfits : (save && !s.saveFits die l) = false) :
    s.preemptStop die save = (s.setTe die { (s.te die).setLaunch l { (s.te die).launch l with hold := .stopping } with
      preempt := BitVec.ofNat 64 (if save then 2 ^ 63 else 2 ^ 61), stopping := some (l, save) }).stopFamily die l := by
  simp only [State.preemptStop, hstop, h, hfits, Option.isSome_none, Bool.false_eq_true, if_false]

theorem State.preemptResume_unnamed (h : s.namedLaunch die (· = .held) = none) : s.preemptResume die = s.preemptDone die 1 := by
  simp only [State.preemptResume, hstop, h, Option.isSome_none, Bool.false_eq_true, if_false]

theorem State.preemptDiscard_unnamed (h : s.namedLaunch die (· = .saved) = none) : s.preemptDiscard die = s.preemptDone die 1 := by
  simp only [State.preemptDiscard, hstop, h, Option.isSome_none, Bool.false_eq_true, if_false]

/-- A launch that goes on is held no more, and the request ends with status 0. -/
theorem State.preemptResume_named {l : Nat} (h : s.namedLaunch die (· = .held) = some l) (hlt : die < 16) :
    (((s.preemptResume die).te die).launch l).hold = .none ∧
      ((s.preemptResume die).te die).preempt = BitVec.ofNat 64 (2 ^ 62) := by
  simp only [State.preemptResume, hstop, h, Option.isSome_none, Bool.false_eq_true, if_false]
  rw [State.preemptDone_te _ hlt]
  refine ⟨?_, rfl⟩
  have hfold (t : State) (ps : List (Nat × Nat × Nat)) :
      (ps.foldl (fun (s : State) x => s.setCrew die x.2.2 { s.crew die x.2.2 with halted := false }) t).te die = t.te die :=
    List.foldlRecOn (motive := fun u : State => u.te die = t.te die) ps _ rfl fun _ hu _ _ => hu
  change (TaskEngine.launch (State.te (List.foldl _ _ _) die) l).hold = _
  rw [hfold, State.te_setTe _ hlt, TaskEngine.launch_setLaunch]

/-- A launch that is discarded leaves the table, and the request ends with status 0. -/
theorem State.preemptDiscard_named {l : Nat} (h : s.namedLaunch die (· = .saved) = some l) (hlt : die < 16)
    (hrise : risingFrom 0 (s.te die).launches = true) :
    look l ((s.preemptDiscard die).te die).launches = none ∧
      ((s.preemptDiscard die).te die).preempt = BitVec.ofNat 64 (2 ^ 62) := by
  simp only [State.preemptDiscard, hstop, h, Option.isSome_none, Bool.false_eq_true, if_false]
  rw [State.preemptDone_te _ hlt]
  refine ⟨State.nodeDone_gone ?_ hlt _, rfl⟩
  rw [State.LaunchGone, State.hostRetired_te, State.decrement_te, State.report_te, State.sendMirror_te, State.te, State.die_setDie _ hlt]
  exact look_unput_self l _ hrise

end

theorem preemption : Claims.Preemption := by
  intro s die te busy ended stopping
  refine ⟨fun hstop => ⟨?_, ?_, ?_, ?_⟩, fun hstop => ⟨?_, fun l hl => ⟨?_, ?_⟩, ?_, fun l hl => ?_, ?_, fun l hl hlt => ?_, ?_, fun l hl hlt hrise => ?_⟩⟩
  · exact congrArg answer (if_pos hstop)
  · exact congrArg answer (if_pos hstop)
  · exact congrArg answer (if_pos hstop)
  · exact congrArg answer (if_pos hstop)
  · exact fun h => congrArg answer (State.preemptStop_unnamed (save := true) hstop h)
  · intro hfits
    refine congrArg answer ?_
    have hl' : s.namedLaunch s.cur.die (fun h => h = .none || (true && h = .held)) = some l := hl
    simp only [State.preemptStop, show (s.te s.cur.die).stopping = none from hstop, hl', show s.saveFits s.cur.die l = false from hfits,
      Option.isSome_none, Bool.false_eq_true, if_false, Bool.not_false, Bool.and_self, if_true]
    rfl
  · exact fun hfits => congrArg answer (State.preemptStop_named (save := true) hstop hl (by rw [hfits]; rfl))
  · exact fun h => congrArg answer (State.preemptStop_unnamed (save := false) hstop (by simpa using h))
  · exact congrArg answer (State.preemptStop_named (save := false) hstop (by simpa using hl) rfl)
  · exact fun h => congrArg answer (State.preemptResume_unnamed hstop h)
  · exact ⟨_, rfl, State.preemptResume_named hstop hl hlt⟩
  · exact fun h => congrArg answer (State.preemptDiscard_unnamed hstop h)
  · exact ⟨_, rfl, State.preemptDiscard_named hstop hl hlt hrise⟩

/-! ### The end of a stop (R338, R340) -/

/-- The crews of a family are those whose run and place in it are the same (R338). -/
structure State.SameFamilies (die : Nat) (s t : State) : Prop where
  runs : (t.te die).runs = (s.te die).runs
  tasks : (t.te die).tasks = (s.te die).tasks
  crews : ∀ p, (t.crew? die p).map (·.task) = (s.crew? die p).map (·.task)

theorem State.SameFamilies.refl (die : Nat) (s : State) : s.SameFamilies die s := ⟨rfl, rfl, fun _ => rfl⟩

theorem State.SameFamilies.trans {die : Nat} {s t u : State} (h : s.SameFamilies die t) (k : t.SameFamilies die u) : s.SameFamilies die u :=
  ⟨k.runs.trans h.runs, k.tasks.trans h.tasks, fun p => (k.crews p).trans (h.crews p)⟩

theorem State.SameFamilies.familyCrews {die : Nat} {s t : State} (h : s.SameFamilies die t) (l : Nat) :
    t.familyCrews die l = s.familyCrews die l := by
  have hdefault (o : Option Crew) : (o.getD default).task = (o.map (·.task)).getD 0 := by cases o <;> rfl
  have htask (p : Nat) : (t.crew die p).task = (s.crew die p).task := by
    rw [State.crew, hdefault, h.crews p, ← hdefault, State.crew]
  have hsome (p : Nat) : (t.crew? die p).isSome = (s.crew? die p).isSome := by
    rw [← Option.isSome_map, h.crews p, Option.isSome_map]
  have hlaunch (i : Nat) : (t.te die).task i = (s.te die).task i := by rw [TaskEngine.task, h.tasks, TaskEngine.task]
  simp only [State.familyCrews, h.runs]
  refine congrArg (List.flatMap · _) (funext fun r => ?_)
  refine if_congr (by rw [hlaunch]) rfl (congrArg (List.map _) (List.filter_congr fun p _ => ?_))
  rw [hsome, decide_eq_decide.2 (by rw [htask])]

/-- A crew of a family is one that is there. -/
theorem State.crew?_of_familyCrews {s : State} {die l : Nat} {x : Nat × Nat × Nat} (h : x ∈ s.familyCrews die l) :
    (s.crew? die x.2.2).isSome = true := by
  simp only [State.familyCrews, List.mem_flatMap] at h
  obtain ⟨r, -, hr⟩ := h
  split at hr
  · cases hr
  · obtain ⟨p, hp, rfl⟩ := List.mem_map.1 hr
    have := (List.mem_filter.1 hp).2
    simp only [Bool.and_eq_true] at this
    exact this.2

theorem State.setCrew_sameFamilies {s : State} {die p : Nat} {x : Crew} (h : (s.crew? die p).isSome = true) (hx : x.task = (s.crew die p).task) :
    s.SameFamilies die (s.setCrew die p x) := by
  refine ⟨rfl, rfl, fun q => ?_⟩
  by_cases hq : p = q
  · subst hq
    obtain ⟨c, hc⟩ := Option.isSome_iff_exists.1 h
    simp only [State.crew, hc, Option.getD_some] at hx
    rw [State.crew?_setCrew, hc, Option.map_some, Option.map_some, hx]
  · rw [State.crew?, State.setCrew, look_put_other (by simp only [crewKey]; omega), State.crew?]

theorem State.SameFamilies.isSome {die : Nat} {s t : State} (h : s.SameFamilies die t) {p : Nat} (hp : (s.crew? die p).isSome = true) :
    (t.crew? die p).isSome = true := by
  rw [← Option.isSome_map, h.crews p, Option.isSome_map, hp]

theorem State.SameFamilies.foldl {α : Type} {die : Nat} {f : State → α → State} {l : List α} {s : State}
    (h : ∀ t, s.SameFamilies die t → ∀ a ∈ l, t.SameFamilies die (f t a)) : s.SameFamilies die (l.foldl f s) :=
  List.foldlRecOn l f (State.SameFamilies.refl die s) fun t ht a ha => ht.trans (h t ht a ha)

theorem State.forgetAll_sameFamilies (s : State) (ids : List Nat) (die : Nat) : s.SameFamilies die (s.forgetAll ids) := by
  refine ⟨?_, ?_, fun p => ?_⟩
  · rw [State.forgetAll_te]
  · rw [State.forgetAll_te]
  · rw [State.crew?, State.forgetAll_crews, State.crew?]

theorem State.strands_sameFamilies (s : State) (q : List (Nat × Strand)) (die : Nat) : s.SameFamilies die { s with strands := q } :=
  ⟨rfl, rfl, fun _ => rfl⟩

theorem State.endCopy_sameFamilies {s : State} {die p : Nat} (h : (s.crew? die p).isSome = true) (i status : Nat) :
    s.SameFamilies die (s.endCopy die p i status) := by
  unfold State.endCopy
  extract_lets crew e s1 crew1 crew2 r crew3
  have h1 : s.SameFamilies die s1 := State.SameFamilies.foldl fun t _ f _ => t.forgetAll_sameFamilies f.ids die
  have hcrew : s1.crew die p = crew := by
    have : s1.crews = s.crews := List.foldlRecOn (motive := fun t : State => t.crews = s.crews) _ _ rfl
      fun t ht f _ => (t.forgetAll_crews f.ids).trans ht
    rw [State.crew, State.crew?, this]
    rfl
  refine h1.trans (State.setCrew_sameFamilies (h1.isSome h) ?_)
  have h2 : crew2.task = crew.task := by
    unfold crew2
    split <;> rfl
  rw [hcrew]
  unfold crew3
  split
  · exact h2
  · exact h2

theorem crewOf_task (c : Crew) (hs : Nat → Option Handle) (ws : List Nat) : (crewOf c hs ws).task = c.task := by
  simp only [crewOf, setMatrix, setCopies]

theorem State.continueCrew_sameFamilies {s : State} {die p : Nat} (h : (s.crew? die p).isSome = true) (ws : List Nat) :
    s.SameFamilies die (s.continueCrew die p ws) := by
  have h1 := State.setCrew_sameFamilies (x := crewOf (s.crew die p) (s.sideHandle die (s.crew die p).context) ws) h (crewOf_task _ _ ws)
  refine (h1.trans (State.SameFamilies.foldl fun t ht i _ => ?_)).trans (State.SameFamilies.foldl fun t _ e _ => t.strands_sameFamilies _ die)
  extract_lets
  split
  · exact State.endCopy_sameFamilies (ht.isSome (h1.isSome h)) _ _
  · exact State.SameFamilies.refl die t

theorem State.continueAll_sameFamilies (s : State) {die : Nat} (hlt : die < 16) (l : Nat) : s.SameFamilies die (s.continueAll die l) := by
  refine State.SameFamilies.foldl fun t ht x hx => ?_
  split
  · exact State.SameFamilies.refl die t
  · refine (State.continueCrew_sameFamilies (ht.isSome (State.crew?_of_familyCrews hx)) _).trans ⟨?_, ?_, fun _ => rfl⟩
    · dsimp only
      rw [State.te_setTe _ hlt]
    · dsimp only
      rw [State.te_setTe _ hlt]

/-! What a stop leaves: the launch held with its containers, or saved and its crews gone. -/

/-- A launch held in place (R338). -/
def State.holdLaunch (s : State) (die l : Nat) : State :=
  let te := s.te die
  let cs : List (Nat × List Word) := (s.familyCrews die l).foldl (fun cs x =>
    put x.2.2 ((s.container die x.2.2).map fun w => BitVec.ofNat 64 w) cs) te.containers
  (s.setTe die ({ te with stopping := none, containers := cs }.setLaunch l { te.launch l with hold := .held })).preemptDone die 0

/-- A launch written to its save area (R340). -/
def State.saveLaunch (s : State) (die l : Nat) : State :=
  let s1 := (s.continueAll die l).saveFamily die l
  let te := s1.te die
  (s1.setTe die ({ te with stopping := none }.setLaunch l { te.launch l with hold := .saved })).preemptDone die 0

theorem State.saveLaunch_crew? (s : State) (die l e p : Nat) :
    (s.saveLaunch die l).crew? e p = ((s.continueAll die l).saveFamily die l).crew? e p := by
  simp only [State.saveLaunch, State.preemptDone, State.setTe, State.crew?, State.setDie_crews]

theorem execPreemptStopComplete_of_rest {s : State} {l : Nat} {save : Bool} (hstop : (s.te s.cur.die).stopping = some (l, save))
    (hrest : s.atRest s.cur.die l = true) (hup : (s.te s.cur.die).down = none) (hfits : (save && !s.saveFits s.cur.die l) = false) :
    execPreemptStopComplete s = answer (if save then s.saveLaunch s.cur.die l else s.holdLaunch s.cur.die l) := by
  have hgo : (!s.atRest s.cur.die l || (s.te s.cur.die).down.isSome) = false := by
    rw [hrest, hup]
    rfl
  simp only [execPreemptStopComplete, hstop, hgo, hfits, Bool.false_eq_true, if_false]
  cases save
  · simp only [Bool.false_eq_true, if_false, State.holdLaunch]
  · simp only [if_true, State.saveLaunch]

theorem State.holdLaunch_containers (s : State) {die l : Nat} (hlt : die < 16) {x : Nat × Nat × Nat} (hx : x ∈ s.familyCrews die l) :
    look x.2.2 ((s.holdLaunch die l).te die).containers = some ((s.container die x.2.2).map fun w => BitVec.ofNat 64 w) := by
  rw [State.holdLaunch, State.preemptDone_te _ hlt, State.te_setTe _ hlt]
  refine foldl_reaches (a := x) (P := fun cs : List (Nat × List Word) => look x.2.2 cs = some ((s.container die x.2.2).map fun w => BitVec.ofNat 64 w))
    (fun cs => look_put_self _ _ _) _ (fun y _ cs hcs => ?_) hx
  by_cases hy : y.2.2 = x.2.2
  · rw [hy, look_put_self]
  · rw [look_put_other hy, hcs]

theorem look_filter_of_none {α : Type} {k : Nat} {keep : Nat × α → Bool} {l : List (Nat × α)} (h : look k l = none) :
    look k (l.filter keep) = none := by
  induction l with
  | nil => rfl
  | cons e l ih =>
    rw [look] at h
    split at h
    · cases h
    · rw [List.filter_cons]
      split
      · rw [look, if_neg ‹_›, ih h]
      · exact ih h

/-- One crew's part of the save: the area's offset moves on by its size (R340). -/
def State.saveStep (die base : Nat) (acc : Nat × State) (x : Nat × Nat × Nat) : Nat × State :=
  (acc.1 + acc.2.savedBytes die x.2.2, acc.2.saveCrew die base x acc.1)

theorem State.saveFamily_eq (s : State) (die l : Nat) :
    let base := bitsOf (s.te die).saveBase 51 0
    let acc := (s.familyCrews die l).foldl (State.saveStep die base) (32, s)
    s.saveFamily die l = acc.2.writeN base (joinWords [2 ^ 48 + (s.familyCrews die l).length * 2 ^ 32,
      ((s.te die).launch l).record.addr, ((s.te die).launch l).nextGang, acc.1]) 32 := rfl

theorem State.saveCrew_crews (s : State) (die base : Nat) (x : Nat × Nat × Nat) (off : Nat) :
    (s.saveCrew die base x off).crews = s.crews.filter (fun e => e.1 ≠ crewKey die x.2.2) := rfl

/-- Saving a family frees its polders (R338). -/
theorem State.saveFamily_frees (s : State) {die l : Nat} {x : Nat × Nat × Nat} (hx : x ∈ s.familyCrews die l) :
    (s.saveFamily die l).crew? die x.2.2 = none := by
  rw [State.saveFamily_eq, State.crew?, State.writeN_crews]
  refine foldl_reaches (a := x) (P := fun acc : Nat × State => look (crewKey die x.2.2) acc.2.crews = none)
    (fun acc => ?_) (32, s) (fun y _ acc h => ?_) hx
  · rw [State.saveStep, State.saveCrew_crews]
    exact look_filter_none _ fun _ => by simp
  · rw [State.saveStep, State.saveCrew_crews]
    exact look_filter_of_none h

theorem preemptionStops : Claims.PreemptionStops := by
  intro s l save die te hlt hstop
  refine ⟨fun hrest => ?_, fun hrest hup => ⟨fun hhold => ?_, fun hsave hfits => ?_⟩⟩
  · change execPreemptStopComplete s = _
    simp only [execPreemptStopComplete, show (s.te s.cur.die).stopping = some (l, save) from hstop,
      show s.atRest s.cur.die l = false from hrest, Bool.not_false, Bool.true_or, if_true]
    rfl
  · subst hhold
    refine ⟨_, execPreemptStopComplete_of_rest hstop hrest hup rfl, ?_⟩
    simp only [Bool.false_eq_true, if_false]
    refine ⟨?_, ?_, ?_, rfl, rfl, fun x hx => s.holdLaunch_containers hlt hx⟩
    · rw [State.holdLaunch, State.preemptDone_te _ hlt, State.te_setTe _ hlt]
      exact congrArg Launch.hold (TaskEngine.launch_setLaunch _ l _)
    · rw [State.holdLaunch, State.preemptDone_te _ hlt, State.te_setTe _ hlt]
      rfl
    · exact State.preemptDone_preempt _ hlt
  · subst hsave
    refine ⟨_, execPreemptStopComplete_of_rest hstop hrest hup (by rw [hfits]; rfl), ?_⟩
    simp only [if_true]
    refine ⟨?_, ?_, ?_, fun x hx _ => ?_⟩
    · rw [State.saveLaunch, State.preemptDone_te _ hlt, State.te_setTe _ hlt]
      exact congrArg Launch.hold (TaskEngine.launch_setLaunch _ l _)
    · rw [State.saveLaunch, State.preemptDone_te _ hlt, State.te_setTe _ hlt]
      rfl
    · exact State.preemptDone_preempt _ hlt
    · have hfam := (s.continueAll_sameFamilies hlt l).familyCrews l
      rw [State.saveLaunch_crew?]
      exact State.saveFamily_frees (s.continueAll die l) (by rw [hfam]; exact hx)

/-- Settles O42: each event is its function's branch under the guards given; a family stays the same while its crews take their
containers, so that saving it frees every polder it had. -/
theorem taskEngineControl : Obligations.TaskEngineControl :=
  ⟨taskEngineResets, taskRegisterEvents, preemption, preemptionStops⟩

end Sys2Proof.Machine
end

section
namespace Sys2Proof.Machine

/-! ## Requests at their homes and responses (R44, R382, R388-R392, R453) -/

/-! ### A masked write at its home -/

theorem testBit_add_mul_256 {x y : Nat} (h : x < 256) (j : Nat) :
    (x + 256 * y).testBit j = if j < 8 then x.testBit j else y.testBit (j - 8) := by
  have := Nat.testBit_two_pow_mul_add y (i := 8) (b := x) (by simpa using h) j
  rw [← this, Nat.add_comm]

/-- The bits of the selected bytes are those whose byte is selected. -/
theorem testBit_byteBits (mask n j : Nat) : (byteBits mask n).testBit j = (decide (j < 8 * n) && mask.testBit (j / 8)) := by
  induction n generalizing mask j with
  | zero => simp [byteBits]
  | succ n ih =>
    rw [byteBits, testBit_add_mul_256 (by split <;> omega)]
    split
    · rename_i hj
      rw [show j / 8 = 0 by omega, Nat.testBit_zero, decide_eq_true (by omega : j < 8 * (n + 1)), Bool.true_and]
      split
      · rw [decide_eq_true ‹_›]
        exact (Nat.testBit_two_pow_sub_one 8 j).trans (decide_eq_true hj)
      · rw [decide_eq_false ‹_›, Nat.zero_testBit]
    · rename_i hj
      obtain ⟨k, rfl⟩ : ∃ k, j = k + 8 := ⟨j - 8, by omega⟩
      rw [Nat.add_sub_cancel, ih, show (k + 8) / 8 = k / 8 + 1 by omega, Nat.testBit_succ]
      congr 1
      rw [decide_eq_decide]
      omega

/-- Byte `i` of a masked replacement is the new one where its bit of the mask is set. -/
theorem byte_mergeBytes {old new mask n i : Nat} (hi : i < n) :
    BitVec.ofNat 8 (mergeBytes old new mask n / 256 ^ i) =
      if mask.testBit i then BitVec.ofNat 8 (new / 256 ^ i) else BitVec.ofNat 8 (old / 256 ^ i) := by
  refine BitVec.eq_of_getLsbD_eq fun k hk => ?_
  have hbit (x : Nat) : (BitVec.ofNat 8 (x / 256 ^ i)).getLsbD k = x.testBit (8 * i + k) := by
    rw [BitVec.getLsbD_ofNat, decide_eq_true hk, Bool.true_and, show 256 ^ i = 2 ^ (8 * i) by rw [pow_mul]; norm_num, Nat.testBit_div_two_pow,
      Nat.add_comm]
  have hsel : (byteBits mask n).testBit (8 * i + k) = mask.testBit i := by
    rw [testBit_byteBits, decide_eq_true (by omega), Bool.true_and, show (8 * i + k) / 8 = i by omega]
  have hall : (2 ^ (8 * n) - 1).testBit (8 * i + k) = true := by
    rw [Nat.testBit_two_pow_sub_one, decide_eq_true (by omega)]
  rw [hbit, mergeBytes, Nat.testBit_lor, Nat.testBit_land, Nat.testBit_land, Nat.testBit_xor, hsel, hall]
  cases mask.testBit i <;> simp [hbit]

/-- A byte of a read is the byte at its address. -/
theorem State.byte_readN {s : State} (h : s.MemoryCanonical) {a n i : Nat} (hi : i < n) :
    BitVec.ofNat 8 (s.readN a n / 256 ^ i) = s.byteAt (a + i) := by
  refine BitVec.eq_of_toNat_eq ?_
  rw [BitVec.toNat_ofNat]
  exact Memory.readN_byte s.mem h hi

theorem State.markWords_good (s : State) (a n mask : Nat) : s.markWords a n mask 0 = s := by
  refine List.foldlRecOn (motive := fun t : State => t = s) _ _ rfl fun t ht wi _ => ?_
  rw [if_neg (by simp), ht]

theorem writesAtHome : Claims.WritesAtHome := by
  intro s die a n data mask hcanonical hhome t
  have ht : t = (0, s.writeMasked a data mask n) := by
    simp only [t, State.writeHome, hhome, State.markWords_good]
  rw [ht]
  refine ⟨rfl, rfl, rfl, fun b hb => Memory.get_writeN_out hb _, fun i hi => ?_⟩
  rw [← State.byte_readN hcanonical hi, ← byte_mergeBytes hi]
  exact (Memory.get_writeN_in (by omega) (by omega) _).trans (by rw [Nat.add_sub_cancel_left])

/-! ### Responses (R388, R389) -/

section
variable {s : State} {p : Packet} {inl : Nat} (hp : (s.die s.cur.die).inbox[s.inp.getD 0 0]? = some (p, inl))
include hp

theorem State.takeResponse_of_other {kind : Nat} (hk : p.kind ≠ kind) : s.takeResponse kind = s := by
  simp only [State.takeResponse, hp, if_pos hk]

theorem State.takeResponse_late (hlate : s.deadlinePassed p = true) :
    s.takeResponse p.kind = (s.dropInbox s.cur.die (s.inp.getD 0 0)).countFabric s.cur.die 31 16 1 := by
  simp only [State.takeResponse, hp, ne_eq, not_true_eq_false, if_false, if_pos hlate]

theorem State.takeResponse_matched (hlate : s.deadlinePassed p = false) {id : Nat}
    (hm : (s.dropInbox s.cur.die (s.inp.getD 0 0)).matchReq s.cur.die (p.unit + if p.eng then 64 else 0) p.cls p.tag p.gen = some id) :
    let s1 := s.dropInbox s.cur.die (s.inp.getD 0 0)
    s.takeResponse p.kind = s1.deliver id ⟨p.status, if p.kind = 13 then p.arg else (s1.openPacket p).data, p.poison⟩ := by
  simp only [State.takeResponse, hp, ne_eq, not_true_eq_false, if_false, hlate, Bool.false_eq_true, hm]

theorem State.takeResponse_unmatched (hlate : s.deadlinePassed p = false)
    (hm : (s.dropInbox s.cur.die (s.inp.getD 0 0)).matchReq s.cur.die (p.unit + if p.eng then 64 else 0) p.cls p.tag p.gen = none) :
    s.takeResponse p.kind = (s.dropInbox s.cur.die (s.inp.getD 0 0)).countFabric s.cur.die 63 32 1 := by
  simp only [State.takeResponse, hp, ne_eq, not_true_eq_false, if_false, hlate, Bool.false_eq_true, hm]

end

theorem responsesTaken : Claims.ResponsesTaken := by
  intro s p inl i kind hi die n s1 hp
  have hexec : exec i s = answer (s.takeResponse kind) := by
    simp only [List.mem_cons, Prod.mk.injEq, List.not_mem_nil, or_false] at hi
    rcases hi with ⟨rfl, rfl⟩ | ⟨rfl, rfl⟩ | ⟨rfl, rfl⟩ | ⟨rfl, rfl⟩ | ⟨rfl, rfl⟩ <;> rfl
  rw [hexec]
  refine ⟨fun hk => congrArg answer (State.takeResponse_of_other hp hk), ?_, ?_⟩
  · rintro rfl hlate
    exact congrArg answer (State.takeResponse_late hp hlate)
  · rintro rfl hlate
    exact ⟨fun id hm => congrArg answer (State.takeResponse_matched hp hlate hm),
      fun hm => congrArg answer (State.takeResponse_unmatched hp hlate hm)⟩

/-! ### Requests (R390-R392, R453) -/

/-- An opened packet differs in its payload alone. -/
theorem State.openPacket_eq (s : State) (p : Packet) : s.openPacket p = { p with data := (s.openPacket p).data } := by
  unfold State.openPacket
  split <;> rfl

theorem State.openPacket_clear {s : State} {p : Packet} (h : s.payloadKey p = none) : s.openPacket p = p := by
  simp only [State.openPacket, h]

theorem State.setDie_self (s : State) (d : Nat) : s.setDie d (s.die d) = s := by
  have : s.dies.setIfInBounds d (s.die d) = s.dies := by
    refine Vector.ext fun i hi => ?_
    rw [Vector.getElem_setIfInBounds]
    split
    · rename_i h
      subst h
      simp [State.die, hi]
    · rfl
  rw [State.setDie, this]

theorem State.setDie_setDie (s : State) (d : Nat) (x y : Die) : (s.setDie d x).setDie d y = s.setDie d y := by
  simp [State.setDie]

theorem State.giveBack_eq (s : State) (die inl : Nat) (response : Bool) :
    ∃ links, s.giveBack die inl response = s.setDie die { s.die die with links := links } := by
  unfold State.giveBack
  split
  · exact ⟨(s.die die).links, (s.setDie_self die).symm⟩
  · exact ⟨_, rfl⟩

/-- A packet is taken out of the inbox by a change of the die's inbox, set-aside queues and links. -/
theorem State.dropInbox_eq (s : State) {die : Nat} (h : die < 16) (n : Nat) :
    ∃ inbox asides links, s.dropInbox die n = s.setDie die { s.die die with inbox := inbox, asides := asides, links := links } := by
  have hback (d : Die) (hd : ∃ inbox asides, d = { s.die die with inbox := inbox, asides := asides }) (inl : Nat) (response : Bool) :
      ∃ inbox asides links, (if response then s.setDie die d else (s.setDie die d).giveBack die inl false) =
        s.setDie die { s.die die with inbox := inbox, asides := asides, links := links } := by
    obtain ⟨inbox, asides, rfl⟩ := hd
    split
    · exact ⟨inbox, asides, (s.die die).links, rfl⟩
    · obtain ⟨links, hg⟩ := State.giveBack_eq (s.setDie die { s.die die with inbox := inbox, asides := asides }) die inl false
      refine ⟨inbox, asides, links, hg.trans ((State.setDie_setDie _ _ _ _).trans ?_)⟩
      rw [State.die_setDie _ h]
  unfold State.dropInbox
  dsimp only
  split
  · exact ⟨_, _, _, (s.setDie_self die).symm⟩
  · refine hback _ ?_ _ _
    split
    · exact ⟨_, _, rfl⟩
    · exact ⟨_, (s.die die).asides, rfl⟩

/-- What taking a packet out of the inbox leaves as it is. -/
theorem State.dropInbox_keeps (s : State) {die : Nat} (h : die < 16) (n : Nat) :
    let t := s.dropInbox die n
    t.mgmt = s.mgmt ∧ (t.die die).xent = (s.die die).xent ∧ (t.die die).holders = (s.die die).holders ∧
      (t.die die).router = (s.die die).router ∧ (t.die die).xaFills = (s.die die).xaFills := by
  obtain ⟨inbox, asides, links, ht⟩ := s.dropInbox_eq h n
  simp only [ht, State.die_setDie _ h]
  trivial

section
variable {s : State} {p : Packet} {inl kind : Nat} {perform : Nat → Packet → State → State}
  (hp : (s.die s.cur.die).inbox[s.inp.getD 0 0]? = some (p, inl)) (hturn : s.inboxHeld s.cur.die (s.inp.getD 0 0) p = false)
  (hk : p.kind = kind)
include hp hturn hk

theorem State.serve_late (hlate : s.deadlinePassed p = true) :
    s.serve kind perform = (s.dropInbox s.cur.die (s.inp.getD 0 0)).countFabric s.cur.die 31 16 1 := by
  simp only [State.serve, hp, hk, hturn, ne_eq, not_true_eq_false, decide_false, Bool.or_self, Bool.false_eq_true, if_false, if_pos hlate]

theorem State.serve_sealed (hlate : s.deadlinePassed p = false) (hsealed : s.sealed p = true) :
    s.serve kind perform = (s.dropInbox s.cur.die (s.inp.getD 0 0)).respond s.cur.die p (kind + 8) ⟨4, 0, 0⟩ := by
  simp only [State.serve, hp, hk, hturn, hlate, ne_eq, not_true_eq_false, decide_false, Bool.or_self, Bool.false_eq_true, if_false, if_pos hsealed]

theorem State.serve_performs (hlate : s.deadlinePassed p = false) (hsealed : s.sealed p = false) :
    s.serve kind perform =
      perform s.cur.die ((s.dropInbox s.cur.die (s.inp.getD 0 0)).openPacket p) (s.dropInbox s.cur.die (s.inp.getD 0 0)) := by
  simp only [State.serve, hp, hk, hturn, hlate, hsealed, ne_eq, not_true_eq_false, decide_false, Bool.or_self, Bool.false_eq_true, if_false]

end

/-- A holder of an entry is recorded, or the broadcast bit of the entry is set (R392). -/
theorem Die.addHolder_recorded (d : Die) (k h : Nat) :
    (d.addHolder k h).router = d.router ∧ ∃ hs all, look k (d.addHolder k h).holders = some (hs, all) ∧ (h ∈ hs ∨ all = true) := by
  unfold Die.addHolder
  split
  rename_i hs all hlook
  split
  · rename_i hin
    cases hl : look k d.holders with
    | none =>
      rw [hl] at hlook
      cases hlook
      cases hin
    | some e =>
      rw [hl] at hlook
      exact ⟨rfl, hs, all, congrArg some hlook, .inl (by simpa using hin)⟩
  · split
    · exact ⟨rfl, _, _, look_put_self _ _ _, .inl (by simp)⟩
    · exact ⟨rfl, _, _, look_put_self _ _ _, .inr rfl⟩

theorem State.respond_die (s : State) {die : Nat} (h : die < 16) (p : Packet) (kind : Nat) (rep : Reply) :
    (s.respond die p kind rep).die die =
      { s.die die with router := (s.die die).router ++ [(s.sealPacket (p.response kind rep), 4)] } :=
  s.die_setDie h _

theorem State.sealPacket_of_mgmt {s t : State} (h : t.mgmt = s.mgmt) (p : Packet) : t.sealPacket p = s.sealPacket p := by
  simp only [State.sealPacket, State.payloadKey, h]

/-- A translation found is answered with its entry, and its requester recorded as a holder (R392). -/
theorem State.translation_found (s : State) {die : Nat} (hlt : die < 16) (d : Die) (k h : Nat) (p : Packet) (rep : Reply) :
    let t := (s.setDie die (d.addHolder k h)).respond die p 11 rep
    (t.die die).router = d.router ++ [(s.sealPacket (p.response 11 rep), 4)] ∧
      ∃ hs all, look k (t.die die).holders = some (hs, all) ∧ (h ∈ hs ∨ all = true) := by
  obtain ⟨hrouter, hrecorded⟩ := d.addHolder_recorded k h
  intro t
  have ht : t.die die = { d.addHolder k h with router := d.router ++ [(s.sealPacket (p.response 11 rep), 4)] } := by
    simp only [t, State.respond_die _ hlt, State.die_setDie _ hlt, hrouter]
    rfl
  rw [ht]
  exact ⟨rfl, hrecorded⟩

theorem requestsServed : Claims.RequestsServed := by
  intro s p0 inl hlt die n s1 p hp hturn late dropped
  have hopen : p = { p0 with data := p.data } := s1.openPacket_eq p0
  have hkind : p.kind = p0.kind := by rw [hopen]
  obtain ⟨hmgmt, hxent, hholders, hrouter, hfills⟩ := s.dropInbox_keeps hlt n
  have hk {k : Nat} (h : p.kind = k) : p0.kind = k := hkind.symm.trans h
  refine ⟨⟨hkind, ?_, ?_, ?_, ?_, fun hclear => ?_⟩, fun hlate => ⟨?_, ?_, ?_, ?_, ?_⟩, fun hlate hsealed => ?_, fun hlate hsealed => ?_⟩
  · rw [hopen]
  · rw [hopen]
  · rw [hopen]
  · rw [hopen]
  · refine State.openPacket_clear ?_
    rw [← hclear, State.payloadKey, State.payloadKey, hmgmt]
  · exact fun h => congrArg answer (State.serve_late hp hturn (hk h) hlate)
  · exact fun h => congrArg answer (State.serve_late hp hturn (hk h) hlate)
  · exact fun h => congrArg answer (State.serve_late hp hturn (hk h) hlate)
  · exact fun h => congrArg answer (State.serve_late hp hturn (hk h) hlate)
  · exact fun h => congrArg answer (State.serve_late hp hturn (hk h) hlate)
  · have hlate := Bool.eq_false_iff.2 hlate
    intro refused
    refine ⟨fun h => ?_, fun h => ?_, fun h => ?_⟩
    · exact congrArg answer ((State.serve_sealed hp hturn (hk h) hlate hsealed).trans (by rw [h]))
    · exact congrArg answer ((State.serve_sealed hp hturn (hk h) hlate hsealed).trans (by rw [h]))
    · exact congrArg answer ((State.serve_sealed hp hturn (hk h) hlate hsealed).trans (by rw [h]))
  · have hlate := Bool.eq_false_iff.2 hlate
    have hserve {k : Nat} (perform : Nat → Packet → State → State) (h : p.kind = k) : s.serve k perform = perform die p s1 :=
      State.serve_performs hp hturn (hk h) hlate hsealed
    have hin {h : Bool} (b : h = false) : ¬ h = true := by rw [b]; exact Bool.false_ne_true
    refine ⟨fun h hh ho => ?_, fun h hh ho => ?_, fun h hh => ?_, fun h hh ho => ?_, fun h hh ho => ?_, fun h hh => ?_, fun h hh ho hr => ?_,
      fun h hh ho => ?_, fun h hh => ?_, fun h hf => ?_, fun k w0 h hf => ?_, fun h hop => ?_, fun h hop => ?_, fun h hop => ?_⟩
    · exact congrArg answer ((hserve _ h).trans ((if_neg (hin hh)).trans (congrArg _ (if_pos ho))))
    · exact congrArg answer ((hserve _ h).trans ((if_neg (hin hh)).trans (congrArg _ (if_neg (hin ho)))))
    · exact congrArg answer ((hserve _ h).trans (if_pos hh))
    · exact congrArg answer ((hserve _ h).trans ((if_neg (hin hh)).trans
        (congrArg (fun r : Nat × State => r.2.respond die p 9 ⟨r.1, 0, 0⟩) (if_pos ho))))
    · exact congrArg answer ((hserve _ h).trans ((if_neg (hin hh)).trans
        (congrArg (fun r : Nat × State => r.2.respond die p 9 ⟨r.1, 0, 0⟩) (if_neg (hin ho)))))
    · exact congrArg answer ((hserve _ h).trans (if_pos hh))
    · exact congrArg answer ((hserve _ h).trans ((if_neg (hin hh)).trans ((if_neg (by rw [ho]; exact Bool.false_ne_true)).trans (if_neg hr))))
    · exact congrArg answer ((hserve _ h).trans ((if_neg (hin hh)).trans (if_pos (by rw [ho]; rfl))))
    · exact congrArg answer ((hserve _ h).trans (if_pos hh))
    · refine congrArg answer ((hserve _ h).trans ?_)
      simp only [hf, ← show (s1.die die).xaFills = (s.die die).xaFills from hfills]
    · refine ⟨_, congrArg answer (hserve _ h), ?_⟩
      simp only [hf]
      obtain ⟨hr, hrecorded⟩ := s1.translation_found hlt { s1.die die with xaFills := min ((s1.die die).xaFills + 1) (2 ^ 32 - 1) } k
        (16 * p.srcMod + p.srcDie) p ⟨0, w0.toNat + ((look k (s1.die die).xent).getD (0, 0)).2.toNat * 2 ^ 64, 0⟩
      refine ⟨hr.trans ?_, hrecorded⟩
      rw [State.sealPacket_of_mgmt hmgmt, show (s1.die die).xent = (s.die die).xent from hxent]
      exact congrArg (· ++ _) hrouter
    · exact congrArg answer ((hserve _ h).trans (if_pos hop))
    · exact congrArg answer ((hserve _ h).trans ((if_neg (by omega)).trans (if_pos hop)))
    · exact congrArg answer ((hserve _ h).trans ((if_neg (by omega)).trans (if_neg (by omega))))

end Sys2Proof.Machine
end

section
namespace Sys2Proof.Machine

/-! ## The reset of the fabric engine (R61, R407) -/

/-! ### What leaves the links, the inboxes and the crews as they are -/

/-- The links and the inbox of every die, and the crews, are as they were. -/
structure State.SameFabric (s t : State) : Prop where
  links : ∀ d, (t.die d).links = (s.die d).links
  inbox : ∀ d, (t.die d).inbox = (s.die d).inbox
  crews : t.crews = s.crews

namespace State.SameFabric
variable {s t u : State}

theorem refl (s : State) : s.SameFabric s := ⟨fun _ => rfl, fun _ => rfl, rfl⟩

theorem trans (h : s.SameFabric t) (k : t.SameFabric u) : s.SameFabric u :=
  ⟨fun d => (k.links d).trans (h.links d), fun d => (k.inbox d).trans (h.inbox d), k.crews.trans h.crews⟩

theorem of_dies (hd : t.dies = s.dies) (hc : t.crews = s.crews) : s.SameFabric t :=
  ⟨fun d => by rw [State.die, State.die, hd], fun d => by rw [State.die, State.die, hd], hc⟩

theorem setDie {e : Nat} {x : Die} (hl : x.links = (s.die e).links) (hi : x.inbox = (s.die e).inbox) : s.SameFabric (s.setDie e x) := by
  refine ⟨fun d => ?_, fun d => ?_, rfl⟩
  all_goals
    by_cases hd : e = d
    · subst hd
      by_cases hlt : e < 16
      · rw [State.die_setDie s hlt]
        assumption
      · simp [State.die, State.setDie, hlt]
    · rw [State.die_setDie_other s hd]

theorem foldl {α : Type} {f : State → α → State} {l : List α} (h : ∀ t : State, ∀ a ∈ l, t.SameFabric (f t a)) : s.SameFabric (l.foldl f s) :=
  List.foldlRecOn l f (refl s) fun t ht a ha => ht.trans (h t a ha)

end State.SameFabric

open State.SameFabric (of_dies)

theorem State.raise_sameFabric (s : State) (die src : Nat) : s.SameFabric (s.raise die src) := by
  obtain ⟨x, hx⟩ := s.raise_eq die src
  rw [hx]
  exact of_dies rfl rfl

theorem State.writeN_sameFabric (s : State) (a v n : Nat) : s.SameFabric (s.writeN a v n) := of_dies rfl rfl

theorem State.errorEvent_sameFabric (s : State) (die kind engine polder addr detail : Nat) :
    s.SameFabric (s.errorEvent die kind engine polder addr detail) := by
  simp only [State.errorEvent]
  refine State.SameFabric.trans ?_ (State.raise_sameFabric _ die 2)
  split
  · exact (((((s.writeN_sameFabric _ _ _).trans (State.writeN_sameFabric _ _ _ _)).trans (State.writeN_sameFabric _ _ _ _)).trans
      (State.writeN_sameFabric _ _ _ _))).trans (.setDie rfl rfl)
  · exact .setDie rfl rfl

theorem State.forget_sameFabric (s : State) (id : Nat) : s.SameFabric (s.forget id) := by
  unfold State.forget
  split
  · exact .refl s
  · extract_lets
    split <;> exact of_dies rfl rfl

theorem State.leave_sameFabric (s : State) (id : Nat) (r : Req) : s.SameFabric (s.leave id r) := by
  unfold State.leave
  extract_lets
  split
  · exact .refl s
  · split
    · exact .refl s
    · extract_lets _ s1
      have h1 : s.SameFabric s1 := of_dies rfl rfl
      split
      · exact h1
      · exact h1.trans (.setDie rfl rfl)

theorem State.pump_sameFabric (s : State) : s.SameFabric s.pump := by
  refine State.SameFabric.foldl fun t e _ => ?_
  split
  · exact .refl t
  · exact t.leave_sameFabric _ _

theorem State.storeFailed_sameFabric (s : State) (key status addr : Nat) : s.SameFabric (s.storeFailed key status addr) := by
  unfold State.storeFailed
  split
  · exact .refl s
  · exact of_dies rfl rfl

theorem State.syncFailed_sameFabric (s : State) (key status : Nat) : s.SameFabric (s.syncFailed key status) := by
  unfold State.syncFailed
  split
  · exact .refl s
  · exact of_dies rfl rfl

theorem State.respond_sameFabric (s : State) (die : Nat) (p : Packet) (kind : Nat) (rep : Reply) : s.SameFabric (s.respond die p kind rep) :=
  .setDie rfl rfl

theorem State.conclude_sameFabric (s : State) (id : Nat) (rep : Reply) : s.SameFabric (s.conclude id rep) := by
  unfold State.conclude
  split
  · exact .refl s
  · rename_i r _
    extract_lets s1
    have h1 : s.SameFabric s1 := of_dies rfl rfl
    have hforget {t : State} (h : s1.SameFabric t) : s.SameFabric (t.forget id) := (h1.trans h).trans (t.forget_sameFabric id)
    split
    · exact h1
    · exact hforget (.refl s1)
    · split
      · exact hforget (.refl s1)
      · exact h1
    · exact hforget (s1.respond_sameFabric _ _ _ _)
    · refine hforget ?_
      split
      · exact .refl s1
      · exact s1.syncFailed_sameFabric _ _
    · refine hforget ?_
      split
      · exact .refl s1
      · exact s1.storeFailed_sameFabric _ _ _
    · extract_lets s2
      have h2 : s1.SameFabric s2 := by
        unfold s2
        split
        · exact .refl s1
        · split
          · exact s1.storeFailed_sameFabric _ _ _
          · exact s1.errorEvent_sameFabric _ _ _ _ _ _
      split
      · exact hforget h2
      · exact h1.trans h2
    · refine hforget ?_
      split
      · exact .refl s1
      · exact (of_dies rfl rfl : s1.SameFabric (s1.quietStore _ _)).trans (State.storeFailed_sameFabric _ _ _ _)

theorem State.request_sameFabric (s : State) (r : Req) : s.SameFabric (s.request r).2 := by
  have hmade (q : List (Nat × Req)) : s.SameFabric { s with reqNo := s.reqNo + 1, reqs := q } := of_dies rfl rfl
  unfold State.request
  dsimp only
  split
  · exact (hmade _).trans (State.conclude_sameFabric _ _ _)
  · exact (hmade _).trans (State.conclude_sameFabric _ _ _)
  · split
    · exact (hmade _).trans (State.conclude_sameFabric _ _ _)
    · exact (hmade _).trans (State.pump_sameFabric _)

theorem State.restTag_sameFabric (s : State) (r : Req) : s.SameFabric (s.restTag r) := by
  unfold State.restTag
  split
  · exact .refl s
  · exact of_dies rfl rfl

/-- A reply that reports a failure fills no sector. -/
theorem State.deliver_failed_sameFabric (s : State) (id : Nat) (rep : Reply) (h : rep.status ≠ 0) : s.SameFabric (s.deliver id rep) := by
  unfold State.deliver
  split
  · exact .refl s
  · rename_i r _
    split
    · exact .refl s
    · extract_lets filled
      have hfilled : filled = s := by
        simp only [filled]
        split <;> rfl
      rw [hfilled]
      exact (s.conclude_sameFabric id rep).trans (State.pump_sameFabric _)

theorem State.sendInval_sameFabric (s : State) (die : Nat) (v : Inval) : s.SameFabric (s.sendInval die v) := by
  have hsent := s.request_sameFabric { Req.blank die 64 3 4 (v.holder * 2 ^ 44) 0 0 with op := v.size, arg := v.base, owner := some 0 }
  generalize hr : s.sendInval die v = r
  -- the equation is unfolded as a function, so that the kernel does not evaluate the holder's address
  generalize hf : State.sendInval = f at hr
  delta State.sendInval at hf
  subst hf
  beta_reduce at hr
  generalize s.request _ = sent at hr hsent
  obtain ⟨id, s1⟩ := sent
  dsimp only at hr hsent
  split at hr
  · subst hr
    exact hsent.trans (s1.forget_sameFabric id)
  · subst hr
    exact hsent.trans (.setDie rfl rfl)

theorem State.resendInvals_sameFabric (s : State) (die : Nat) (due : Inval → Bool) : s.SameFabric (s.resendInvals die due) := by
  unfold State.resendInvals
  extract_lets d go again s1
  have h1 : s.SameFabric s1 := by
    refine (State.SameFabric.setDie (e := die) (x := { d with invals := d.invals.filter fun v => !go v }) rfl rfl).trans
      (State.SameFabric.foldl fun t v _ => ?_)
    split
    · exact (t.restTag_sameFabric _).trans (of_dies rfl rfl)
    · exact .refl t
  exact h1.trans (State.SameFabric.foldl fun t v _ => t.sendInval_sameFabric die _)

/-! ### The links through a reset -/

/-- The links of a die that a step may have taken down: each keeps its peer, its key and its replay buffer, and stays down once it is. -/
structure State.LinksLowered (die : Nat) (s t : State) : Prop where
  peer : ∀ l, (t.link die l).peer = (s.link die l).peer
  key : ∀ l, (t.link die l).keyNum = (s.link die l).keyNum
  replay : ∀ l, (t.link die l).replay = (s.link die l).replay
  down : ∀ l, (s.link die l).up = false → (t.link die l).up = false

theorem State.LinksLowered.refl (die : Nat) (s : State) : s.LinksLowered die s := ⟨fun _ => rfl, fun _ => rfl, fun _ => rfl, fun _ h => h⟩

theorem State.LinksLowered.trans {die : Nat} {s t u : State} (h : s.LinksLowered die t) (k : t.LinksLowered die u) : s.LinksLowered die u :=
  ⟨fun l => (k.peer l).trans (h.peer l), fun l => (k.key l).trans (h.key l), fun l => (k.replay l).trans (h.replay l),
    fun l hl => k.down l (h.down l hl)⟩

theorem State.LinksLowered.of_links {die : Nat} {s t : State} (h : (t.die die).links = (s.die die).links) : s.LinksLowered die t := by
  have hl (l : Nat) : t.link die l = s.link die l := by rw [State.link, h, State.link]
  exact ⟨fun l => by rw [hl], fun l => by rw [hl], fun l => by rw [hl], fun l => by rw [hl]; exact id⟩

/-- The inbox of a die and the crews. -/
structure State.SameInbox (die : Nat) (s t : State) : Prop where
  inbox : (t.die die).inbox = (s.die die).inbox
  crews : t.crews = s.crews

theorem State.SameInbox.trans {die : Nat} {s t u : State} (h : s.SameInbox die t) (k : t.SameInbox die u) : s.SameInbox die u :=
  ⟨k.inbox.trans h.inbox, k.crews.trans h.crews⟩

theorem State.setLink_sameInbox (s : State) (die e l : Nat) (x : Link) : s.SameInbox die (s.setLink e l x) := by
  refine ⟨?_, rfl⟩
  by_cases hd : e = die
  · subst hd
    by_cases hlt : e < 16
    · rw [State.setLink, State.die_setDie _ hlt]
    · simp [State.die, State.setLink, State.setDie, hlt]
  · rw [State.setLink, State.die_setDie_other _ hd]

/-- A link reads after a change of some link as the new one, where it was the one changed, or as before. -/
theorem State.link_setLink_or (s : State) (die k e l : Nat) (x : Link) :
    (s.setLink e l x).link die k = s.link die k ∨ (s.setLink e l x).link die k = x ∧ s.link die k = s.link e l := by
  by_cases hd : e = die
  · subst hd
    by_cases hlt : e < 16
    · by_cases hk : l % 4 = k % 4
      · exact .inr (by simp [State.link, State.setLink, State.die_setDie _ hlt, Fin.ofNat, Vector.get_eq_getElem, hk])
      · exact .inl (by simp [State.link, State.setLink, State.die_setDie _ hlt, Fin.ofNat, Vector.get_eq_getElem, Vector.getElem_set_ne, hk])
    · exact .inl (by simp [State.link, State.die, State.setLink, State.setDie, hlt])
  · exact .inl (State.link_setLink_die s hd l k x)

/-- A link replaced by one with the same peer, key and replay buffer that is not raised. -/
theorem State.setLink_lowers {s : State} {e l : Nat} {x : Link} (hp : x.peer = (s.link e l).peer) (hk : x.keyNum = (s.link e l).keyNum)
    (hr : x.replay = (s.link e l).replay) (hd : (s.link e l).up = false → x.up = false) (die : Nat) :
    s.LinksLowered die (s.setLink e l x) := by
  have h (k : Nat) := s.link_setLink_or die k e l x
  refine ⟨fun k => ?_, fun k => ?_, fun k => ?_, fun k hk' => ?_⟩
  · obtain h | ⟨h, hs⟩ := h k
    · rw [h]
    · rw [h, hs, hp]
  · obtain h | ⟨h, hs⟩ := h k
    · rw [h]
    · rw [h, hs, hk]
  · obtain h | ⟨h, hs⟩ := h k
    · rw [h]
    · rw [h, hs, hr]
  · obtain h | ⟨h, hs⟩ := h k
    · rw [h, hk']
    · rw [h]
      exact hd (hs ▸ hk')

theorem State.giveBack_lowers (s : State) (e inl : Nat) (response : Bool) (die : Nat) :
    s.LinksLowered die (s.giveBack e inl response) ∧ s.SameInbox die (s.giveBack e inl response) := by
  unfold State.giveBack
  split
  · exact ⟨.refl die s, rfl, rfl⟩
  · refine ⟨?_, s.setLink_sameInbox die e inl _⟩
    cases response
    · exact State.setLink_lowers (x := { s.link e inl with owedQ := (s.link e inl).owedQ + 1 }) rfl rfl rfl id die
    · exact State.setLink_lowers (x := { s.link e inl with owedS := (s.link e inl).owedS + 1 }) rfl rfl rfl id die

theorem State.relockEnd_lowers (s : State) (e l peer : Nat) (n : Option Nat) (die : Nat) :
    s.LinksLowered die (s.relockEnd e l peer false n) ∧ s.SameInbox die (s.relockEnd e l peer false n) :=
  ⟨State.setLink_lowers (x := (s.link e l).down s.cycle) rfl rfl rfl (fun _ => rfl) die, s.setLink_sameInbox die e l _⟩

theorem State.relockEnd_down (s : State) {die : Nat} (h : die < 16) (l peer : Nat) (n : Option Nat) :
    ((s.relockEnd die l peer false n).link die l).up = false :=
  congrArg Link.up (s.link_setLink h l ((s.link die l).down s.cycle))

/-- Both ends of a link that is relocked with its key go down. -/
theorem State.relockLink_lowers (s : State) (e l die : Nat) :
    s.LinksLowered die (s.relockLink e l false) ∧ s.SameInbox die (s.relockLink e l false) := by
  unfold State.relockLink
  split
  · exact ⟨.refl die s, rfl, rfl⟩
  · simp only [Bool.false_eq_true, if_false]
    split
    · exact s.relockEnd_lowers e l _ _ die
    · obtain ⟨h1, h2⟩ := s.relockEnd_lowers e l _ (some (s.link _ (farLink l)).rxSeq) die
      obtain ⟨h3, h4⟩ := State.relockEnd_lowers _ _ (farLink l) e (some (s.link e l).rxSeq) die
      exact ⟨h1.trans h3, h2.trans h4⟩

theorem State.relockLink_down (s : State) {die l : Nat} (h : die < 16) (hp : (s.link die l).peer ≠ none) :
    ((s.relockLink die l false).link die l).up = false := by
  unfold State.relockLink
  split
  · exact absurd ‹_› hp
  · simp only [Bool.false_eq_true, if_false]
    split
    · exact s.relockEnd_down h l _ _
    · exact (State.relockEnd_lowers _ _ _ _ _ die).1.down l (s.relockEnd_down h l _ _)

/-- A reset takes one link of the die down if it is up. -/
def State.lowerLink (die : Nat) (s : State) (l : Nat) : State := if (s.link die l).up then s.relockLink die l false else s

theorem State.lowerLink_lowers (die : Nat) (s : State) (l : Nat) :
    s.LinksLowered die (s.lowerLink die l) ∧ s.SameInbox die (s.lowerLink die l) := by
  unfold State.lowerLink
  split
  · exact s.relockLink_lowers die l die
  · exact ⟨.refl die s, rfl, rfl⟩

theorem State.lowerLink_down (s : State) {die l : Nat} (h : die < 16) (hp : (s.link die l).peer ≠ none) :
    ((s.lowerLink die l).link die l).up = false := by
  unfold State.lowerLink
  split
  · exact s.relockLink_down h hp
  · exact Bool.eq_false_iff.2 ‹_›

theorem State.foldl_lowers {α : Type} {die : Nat} {f : State → α → State}
    (h : ∀ (t : State) (a : α), t.LinksLowered die (f t a) ∧ t.SameInbox die (f t a)) (l : List α) (s : State) :
    s.LinksLowered die (l.foldl f s) ∧ s.SameInbox die (l.foldl f s) :=
  List.foldlRecOn (motive := fun t : State => s.LinksLowered die t ∧ s.SameInbox die t) l f ⟨.refl die s, rfl, rfl⟩
    fun t ht a _ => ⟨ht.1.trans (h t a).1, ht.2.trans (h t a).2⟩

/-- After the four links every one with a peer is down. -/
theorem State.lowerLinks_down (s : State) {die l : Nat} (h : die < 16) (hl : l < 4) (hp : (s.link die l).peer ≠ none) :
    (((List.range 4).foldl (State.lowerLink die) s).link die l).up = false := by
  obtain ⟨before, after, hsplit⟩ := List.append_of_mem (List.mem_range.2 hl)
  rw [hsplit, List.foldl_append, List.foldl_cons]
  refine (State.foldl_lowers (State.lowerLink_lowers die) after _).1.down l ?_
  have hpeer := (State.foldl_lowers (State.lowerLink_lowers die) before s).1.peer l
  exact State.lowerLink_down _ h (by rw [hpeer]; exact hp)

/-- The requests that the die has not begun are dropped, and their buffers freed (R407). -/
def State.dropRequests (s : State) (die : Nat) : State :=
  ((s.die die).inbox.filter fun e => !e.1.isResponse).foldl (fun s e => s.giveBack die e.2 false)
    (s.setDie die { s.die die with inbox := (s.die die).inbox.filter fun e => e.1.isResponse })

/-- Fills end, invalidations are sent again, and the reset is recorded (R407). -/
def State.endFills (s : State) (die : Nat) : State :=
  let fills := s.reqs.filter fun e => e.2.die = die && e.2.kind = 3 && e.2.reply.isNone
  let s1 := fills.foldl (fun (s : State) e => (s.restTag e.2).deliver e.1 ⟨2, 0, 0⟩) s
  (s1.resendInvals die fun _ => true).errorEvent die 2 4 0 (2 ^ 64 - 1) 0

theorem State.dropRequests_keeps (s : State) {die : Nat} (h : die < 16) :
    s.LinksLowered die (s.dropRequests die) ∧ (s.dropRequests die).crews = s.crews ∧
      ((s.dropRequests die).die die).inbox = (s.die die).inbox.filter fun e => e.1.isResponse := by
  obtain ⟨hlower, hinbox, hcrews⟩ := State.foldl_lowers (die := die) (fun t (e : Packet × Nat) => t.giveBack_lowers die e.2 false die)
    ((s.die die).inbox.filter fun e => !e.1.isResponse) (s.setDie die { s.die die with inbox := (s.die die).inbox.filter fun e => e.1.isResponse })
  refine ⟨State.LinksLowered.trans (.of_links ?_) hlower, hcrews, hinbox.trans ?_⟩
  · rw [State.die_setDie _ h]
  · rw [State.die_setDie _ h]

theorem execFabricEngineReset_eq (s : State) :
    execFabricEngineReset s = answer ((((List.range 4).foldl (State.lowerLink s.cur.die) s).dropRequests s.cur.die).endFills s.cur.die) := rfl

theorem State.endFills_sameFabric (die : Nat) (s : State) : s.SameFabric (s.endFills die) := by
  refine State.SameFabric.trans (State.SameFabric.trans (State.SameFabric.foldl fun t e _ => ?_) (State.resendInvals_sameFabric _ die _))
    (State.errorEvent_sameFabric _ die 2 4 0 (2 ^ 64 - 1) 0)
  exact (t.restTag_sameFabric e.2).trans (State.deliver_failed_sameFabric _ _ _ (by decide))

theorem fabricResets : Claims.FabricResets := by
  intro s hlt die
  obtain ⟨hlower1, hinbox1⟩ := State.foldl_lowers (State.lowerLink_lowers die) (List.range 4) s
  have hdown := fun l hl hp => s.lowerLinks_down (l := l) hlt hl hp
  refine ⟨_, execFabricEngineReset_eq s, ?_⟩
  generalize (List.range 4).foldl (State.lowerLink s.cur.die) s = s1 at hlower1 hinbox1 hdown
  obtain ⟨hlower2, hcrews2, hinbox2⟩ := s1.dropRequests_keeps hlt
  have hends := State.endFills_sameFabric s.cur.die (s1.dropRequests s.cur.die)
  have hlower := hlower2.trans (.of_links (hends.links s.cur.die))
  refine ⟨hends.crews.trans (hcrews2.trans hinbox1.crews), fun l hl hp _ => ⟨?_, fun _ => ⟨?_, ?_⟩⟩, ?_⟩
  · exact hlower.down l (hdown l hl hp)
  · exact (hlower1.trans hlower).key l
  · exact (hlower1.trans hlower).replay l
  · rw [hends.inbox, hinbox2, hinbox1.inbox]

/-- Settles O49: each request is served by its function's branch; a masked replacement is read byte by byte; and the reset only
ever lowers links, which keep their keys and replay buffers. -/
theorem fabricRequestsAndResponses : Obligations.FabricRequestsAndResponses :=
  ⟨requestsServed, writesAtHome, responsesTaken, fabricResets⟩

end Sys2Proof.Machine
end

section
namespace Sys2Proof.Machine

/-! ## Host memory and the link that carries its requests (R383, R391, R424, R439, R442-R444, R453) -/

/-! ### A sector under a context's key (R442) -/

/-- The byte at a place in a number, by its value. -/
theorem byte_eq {x y i : Nat} (h : BitVec.ofNat 8 (x / 256 ^ i) = BitVec.ofNat 8 (y / 256 ^ i)) : x / 256 ^ i % 256 = y / 256 ^ i % 256 := by
  have := congrArg BitVec.toNat h
  rwa [BitVec.toNat_ofNat, BitVec.toNat_ofNat] at this

theorem byte_mod {x i n : Nat} (hi : i < n) : x % 256 ^ n / 256 ^ i % 256 = x / 256 ^ i % 256 := by
  obtain ⟨k, rfl⟩ : ∃ k, n = i + (k + 1) := ⟨n - i - 1, by omega⟩
  rw [pow_add, Nat.mod_mul_right_div_self, Nat.pow_succ', Nat.mod_mul_right_mod]

/-- The bytes of a number of 1,024 bits are 128. -/
theorem two_pow_sector : 2 ^ 1024 = 256 ^ 128 := by
  rw [show (256 : Nat) = 2 ^ 8 from rfl, ← pow_mul]

/-- A sector written under a key and opened under it is what was written. -/
theorem State.openSector_hostWrite {s : State} (h : s.MemoryCanonical) (key a data mask : Nat) (ha : a % 128 = 0) :
    (s.hostWrite (some key) a 128 data mask 0).openSector (some key) (a / 128) =
      mergeBytes (s.openSector (some key) (a / 128)) data (mask % 2 ^ 128) 128 % 256 ^ 128 := by
  have hsector (t : State) : t.openSector (some key) (a / 128) =
      ((Config.xts key (128 * (a / 128) % 2 ^ 48)).symm (BitVec.ofNat 1024 (Memory.readN t.mem (128 * (a / 128)) 128))).toNat := rfl
  simp only [State.hostWrite, State.markWords_good, ha, Nat.mul_zero, pow_zero, mul_one]
  rw [hsector, State.writeN_mem, Memory.readN_writeN_self s.mem h, Nat.mod_eq_of_lt (lt_of_lt_of_eq (BitVec.isLt _) two_pow_sector),
    BitVec.ofNat_toNat, BitVec.setWidth_eq, Equiv.symm_apply_apply, BitVec.toNat_ofNat, two_pow_sector]

theorem hostSectors (s : State) (a data mask key : Nat) (h : s.MemoryCanonical) (ha : a % 128 = 0) (i : Nat) (hi : i < 128) :
    (s.hostWrite (some key) a 128 data mask 0).openSector (some key) (a / 128) / 256 ^ i % 256 =
      if mask.testBit i then data / 256 ^ i % 256 else s.openSector (some key) (a / 128) / 256 ^ i % 256 := by
  rw [State.openSector_hostWrite h key a data mask ha, byte_mod hi]
  have hbyte := byte_mergeBytes (old := s.openSector (some key) (a / 128)) (new := data) (mask := mask % 2 ^ 128) hi
  rw [Nat.testBit_mod_two_pow, decide_eq_true hi, Bool.true_and] at hbyte
  split
  · exact byte_eq (hbyte.trans (if_pos ‹_›))
  · exact byte_eq (hbyte.trans (if_neg ‹_›))

/-! ### Requests of dies (R383, R391, R444) -/

/-- A request whose turn it is: it is lost on a link that is down, has an address error, is made, or goes on the link. -/
def State.takeUp (s : State) (id : Nat) (r : Req) : State :=
  if !s.host.linkUp then { s with host := { s.host with lost := s.host.lost ++ [id] } }
  else match s.mgmt.binding r.context with
    | none => s.deliver id ⟨4, 0, 0⟩
    | some key =>
      if r.kind = 1 then
        (s.hostWrite key r.addr r.len r.data (if 128 ≤ r.op then r.mask else fullMask r.len) r.poison).deliver id ⟨0, 0, 0⟩
      else if 1024 ≤ s.hostTags then s
      else { s with reqs := put id { r with mark := true } s.reqs }

section
variable {s : State} {r : Req} (hr : s.hostReq (s.inp.getD 0 0) = some r)
include hr

/-- A request that is marked, at its end, or behind another waits. -/
theorem execDeviceHostAccess_waits (h : r.mark = true ∨ s.expired r = true ∨ s.hostBehind r = true) :
    execDeviceHostAccess s = answer s := by
  have hwait : (r.mark || s.expired r || s.hostBehind r) = true := by
    rw [Bool.or_eq_true, Bool.or_eq_true, or_assoc]
    exact h
  simp only [execDeviceHostAccess, hr, if_pos hwait]

theorem execPcieCompletionTimeout_of_req : execPcieCompletionTimeout s =
    answer (if r.mark && !s.expired r then s.deliver (s.inp.getD 0 0) ⟨2, 0, 0⟩ else s) := by
  simp only [execPcieCompletionTimeout, hr]

theorem execDeviceHostAccess_of_turn (hmark : r.mark = false) (hexp : s.expired r = false) (hbehind : s.hostBehind r = false) :
    execDeviceHostAccess s = answer (s.takeUp (s.inp.getD 0 0) r) := by
  simp only [execDeviceHostAccess, hr, hmark, hexp, hbehind, Bool.or_self, Bool.false_eq_true, if_false]
  rfl

theorem execHostCompletion_unmarked (hlate : look (s.inp.getD 0 0) s.host.late = none) (hmark : r.mark = false) :
    execHostCompletion s = answer s := by
  simp only [execHostCompletion, hr, hlate, hmark, Bool.not_false, Bool.true_or, if_true, ite_self]

end

/-- A completion of a read under no key brings the bytes as they are (R442). -/
theorem State.hostPerform_clear {s : State} {r : Req} (hk : r.kind ≠ 2) (hkey : (s.mgmt.binding r.context).getD none = none) :
    s.hostPerform r = (⟨0, s.readN (128 * (r.addr / 128)) 128 / 2 ^ (8 * (r.addr % 128)) % 2 ^ (8 * r.len), s.poisonBits r.addr r.len⟩, s) := by
  simp only [State.hostPerform, if_neg hk, hkey, State.openSector]

theorem hostAccesses : Claims.HostAccesses := by
  intro s id sent
  refine ⟨fun hnone => ?_, ?_, ?_, ?_, fun a data mask key h ha => hostSectors s a data mask key h ha⟩
  · have hnone' : s.hostReq (s.inp.getD 0 0) = none := hnone
    constructor
    · change execDeviceHostAccess s = _
      simp only [execDeviceHostAccess, hnone']
      rfl
    · change execPcieCompletionTimeout s = _
      simp only [execPcieCompletionTimeout, hnone']
      rfl
  · rintro r ⟨hr, hlate⟩ hmark
    refine ⟨execHostCompletion_unmarked hr hlate hmark, ?_, fun h => execDeviceHostAccess_waits hr (.inr h)⟩
    refine (execPcieCompletionTimeout_of_req hr).trans (congrArg answer (if_neg ?_))
    rw [hmark]
    exact Bool.false_ne_true
  · rintro r ⟨hr, hlate⟩ hmark hexp hbehind
    have hturn := execDeviceHostAccess_of_turn hr hmark hexp hbehind
    refine ⟨fun hdown => ?_, fun hup => ⟨fun hb => ?_, fun key hb hk htags => ?_, fun key hb hk htags => ?_, fun key hb hk => ?_⟩⟩
    · exact hturn.trans (congrArg answer (if_pos (by rw [hdown]; rfl)))
    all_goals
      refine hturn.trans (congrArg answer ((if_neg (by rw [hup]; exact Bool.false_ne_true)).trans ?_))
      simp only [hb]
    · rfl
    · rw [if_neg hk, if_pos htags]
    · rw [if_neg hk, if_neg (by omega)]
    · exact if_pos hk
  · rintro r ⟨hr, hlate⟩ hmark hexp
    refine ⟨execDeviceHostAccess_waits hr (.inl hmark), ?_, fun hup hbehind => ⟨fun hfate => ?_, fun hfate hk hkey => ?_⟩⟩
    · exact (execPcieCompletionTimeout_of_req hr).trans (congrArg answer (if_pos (by rw [hmark, hexp]; rfl)))
    · have hr' : s.hostReq (s.inp.getD 0 0) = some r := hr
      have hlate' : look (s.inp.getD 0 0) s.host.late = none := hlate
      change execHostCompletion s = _
      simp only [execHostCompletion, hup, hr', hlate', hmark, hbehind, hexp, hfate, Bool.not_true, Bool.or_self, Bool.false_eq_true, if_false, if_true]
      rfl
    · have hr' : s.hostReq (s.inp.getD 0 0) = some r := hr
      have hlate' : look (s.inp.getD 0 0) s.host.late = none := hlate
      change execHostCompletion s = _
      simp only [execHostCompletion, hup, hr', hlate', hmark, hbehind, hexp, hfate, State.hostPerform_clear hk hkey, Bool.not_true, Bool.or_self,
        Bool.false_eq_true, if_false, zero_ne_one, OfNat.zero_ne_ofNat]
      rfl

/-! ### The link (R439, R444) -/

theorem exists_mem_of_look {α : Type} {k : Nat} : ∀ {l : List (Nat × α)}, look k l ≠ none → ∃ e ∈ l, e.1 = k
  | [], h => absurd rfl h
  | e :: l, h => by
    by_cases he : e.1 = k
    · exact ⟨e, List.mem_cons_self, he⟩
    · rw [look, if_neg he] at h
      obtain ⟨x, hx, hk⟩ := exists_mem_of_look h
      exact ⟨x, List.mem_cons_of_mem e hx, hk⟩

theorem look_map_value {α β : Type} (f : α → β) (k : Nat) : ∀ l : List (Nat × α), look k (l.map fun e => (e.1, f e.2)) = (look k l).map f
  | [] => rfl
  | e :: l => by
    by_cases he : e.1 = k
    · simp [look, he]
    · simp [look, he, look_map_value f k l]

/-- A request that is lost with the link waits no more (R439, R444). -/
theorem State.loseHost_lost {s : State} {id : Nat} {r : Req} (h : s.hostReq id = some r) : s.loseHost.host.lost.contains id = true := by
  have hlook : look id s.reqs ≠ none := by
    intro hnone
    simp only [State.hostReq, hnone] at h
    cases h
  obtain ⟨e, he, rfl⟩ := exists_mem_of_look hlook
  rw [List.contains_iff_mem]
  refine List.mem_append_right _ (List.mem_map.2 ⟨e, List.mem_filter.2 ⟨he, ?_⟩, rfl⟩)
  rw [h]
  rfl

/-- A request on the list of the lost is none of those waited for. -/
theorem State.hostReq_of_lost {s : State} {id : Nat} (h : s.host.lost.contains id = true) : s.hostReq id = none := by
  unfold State.hostReq
  split
  · rfl
  · rw [if_neg]
    rw [h]
    simp

/-- An interrupt is a message, a pending bit or a lost one: of the host engine it changes no more (R431). -/
theorem State.raise_host (s : State) (die src : Nat) :
    ∃ hestat pending messages, (s.raise die src).host = { s.host with hestat := hestat, msixPending := pending, messages := messages } := by
  unfold State.raise State.sendMsi
  extract_lets
  split
  · split
    · exact ⟨_, _, _, rfl⟩
    · split
      · exact ⟨_, _, _, rfl⟩
      · exact ⟨_, _, _, rfl⟩
  · exact ⟨s.host.hestat, s.host.msixPending, s.host.messages, rfl⟩

theorem State.errorEvent_host (s : State) (die kind engine polder addr detail : Nat) :
    ∃ hestat pending messages, (s.errorEvent die kind engine polder addr detail).host =
      { s.host with hestat := hestat, msixPending := pending, messages := messages } := by
  simp only [State.errorEvent]
  obtain ⟨hestat, pending, messages, h⟩ := State.raise_host _ die 2
  refine ⟨hestat, pending, messages, h.trans ?_⟩
  split
  · simp only [State.setDie_host, State.writeN_host]
  · rw [State.setDie_host]

/-- What the reset of the host engine leaves of a queue: one that fetches and has no decrement out fetches its packet again (R439). -/
def UserQueue.again (q : UserQueue) : UserQueue := if q.enabled && q.sent.isNone then { q with packet := none } else q

/-- The host engine after the reset, but for the record of its error. -/
def State.restartHost (s : State) : State :=
  { s.loseHost with host := { s.loseHost.host with uqs := s.host.uqs.map fun e => (e.1, e.2.again) } }

theorem execHostEngineReset_eq (s : State) :
    execHostEngineReset s = answer (s.restartHost.errorEvent 0 2 7 0 (2 ^ 64 - 1) 0) := rfl

theorem hostLink : Claims.HostLink := by
  intro s
  refine ⟨fun hdown => congrArg answer (if_neg (by rw [hdown]; exact Bool.false_ne_true)),
    fun hup => ⟨_, congrArg answer (if_pos hup), rfl, rfl, rfl, fun id r hr => State.hostReq_of_lost (State.loseHost_lost hr)⟩,
    fun h => congrArg answer (if_neg ?_), fun hb hrec => congrArg answer (if_pos ?_), ?_⟩
  · rcases h with h | h <;> simp [h]
  · simp [hb, hrec]
  · obtain ⟨hestat, pending, messages, hhost⟩ := State.errorEvent_host s.restartHost 0 2 7 0 (2 ^ 64 - 1) 0
    refine ⟨_, execHostEngineReset_eq s, ?_, ?_, fun u q hq => ?_⟩
    · rw [hhost]
      rfl
    · rw [hhost]
      rfl
    · rw [hhost]
      change look u (s.host.uqs.map fun e => (e.1, e.2.again)) = _
      rw [look_map_value, hq, Option.map_some, UserQueue.again]
      simp only [Bool.and_eq_true, Option.isNone_iff_eq_none]

/-- Settles O53: each access is its function's branch; a sector under a key opens to what was merged into it, as the cipher is a
permutation of sectors of 1,024 bits. -/
theorem hostMemoryAccesses : Obligations.HostMemoryAccesses := ⟨hostAccesses, hostLink⟩

end Sys2Proof.Machine
end

section
namespace Sys2Proof.Machine

/-! ## The error log and the poison of a word outside the berm (R55, R455) -/

/-- A die whose ERRCTL has been lowered to two records at the end of the berm while ERRHEAD stands at 100: the next record's cell lies past
the berm, and the word there has a double-bit error. -/
def shrunkLog : State :=
  { (State.reset.setDie 0 { Die.reset with errBase := 0x41BBFFFC0, errCtl := 2, errHead := 100 }) with inp := [0, 0, 0x41BC00C40] }

/-- The record of the double-bit error is written over the very word that it marks, which takes the mark away. -/
theorem shrunkLog_unmarked : ∃ t, exec .correctedErrorThreshold shrunkLog = .next t ∧ 0x41BC00C40 / 8 ∉ t.poison :=
  ⟨_, rfl, by decide +kernel⟩

/-- Refutes O55: its clause on corrected errors says that a word outside the berm stays poisoned whatever ERRHEAD holds. Lowering ERRCTL
leaves ERRHEAD as it is, so that the next cell of the error log can lie past the log's area and past the berm; the record of a double-bit
error there overwrites the word whole, which clears its poison (R55). -/
theorem not_fencingBootPowerAndErrors : ¬ Obligations.FencingBootPowerAndErrors := by
  intro ⟨_, _, _, herrors⟩
  obtain ⟨-, hpoisoned, -⟩ := herrors shrunkLog (by decide)
  obtain ⟨t, ht, hmarked⟩ := hpoisoned 0x41BC00C40 (by decide) (.inr (by decide))
  obtain ⟨u, hu, hunmarked⟩ := shrunkLog_unmarked
  cases ht.symm.trans hu
  exact hunmarked hmarked

end Sys2Proof.Machine
end

section
namespace Sys2Proof

/-! ## The fields of a word (R66-R73) -/

section
variable {n : Nat} (v : BitVec n) {x K D M : Nat}

/-- A sum of fields read at a field whose place the rest of the sum leaves free. -/
theorem digit_same (hx : x % (K * 2 ^ n) < K) (hM : M = 2 ^ n) : (x + v.toNat * K) / K % M = v.toNat := by
  subst hM
  have hK : 0 < K := by omega
  have hfree : x / K % 2 ^ n = 0 := by rw [← Nat.mod_mul_right_div_self, Nat.div_eq_of_lt hx]
  rw [Nat.add_mul_div_right _ _ hK, Nat.add_mod, hfree, Nat.zero_add, Nat.mod_mod, Nat.mod_eq_of_lt v.isLt]

/-- A field below the place that is read carries nothing into it. -/
theorem digit_below (hx : x % (K * 2 ^ n) < K) (hD : D % (K * 2 ^ n) = 0) : (x + v.toNat * K) / D % M = x / D % M := by
  obtain ⟨q, rfl⟩ := Nat.dvd_of_mod_eq_zero hD
  have hlow : x % (K * 2 ^ n) + v.toNat * K < K * 2 ^ n := by nlinarith [v.isLt]
  have hcarry : (x + v.toNat * K) / (K * 2 ^ n) = x / (K * 2 ^ n) := by
    conv_lhs => rw [← Nat.div_add_mod x (K * 2 ^ n), Nat.add_assoc, Nat.mul_add_div (by omega), Nat.div_eq_of_lt hlow, Nat.add_zero]
  rw [← Nat.div_div_eq_div_mul, hcarry, Nat.div_div_eq_div_mul]

theorem rem_above (hK : K % M = 0) : (x + v.toNat * K) % M = x % M := by
  obtain ⟨q, rfl⟩ := Nat.dvd_of_mod_eq_zero hK
  rw [Nat.mul_left_comm, Nat.add_mul_mod_self_left]

/-- A field above the place that is read is not seen there. -/
theorem digit_above (hK : K % (D * M) = 0) : (x + v.toNat * K) / D % M = x / D % M := by
  rw [← Nat.mod_mul_right_div_self, rem_above v hK, Nat.mod_mul_right_div_self]

/-- `digit_same` of a field at bit 0, which the encoder writes without its factor. -/
theorem digit_same_one (hx : x % 2 ^ n < 1) (hM : M = 2 ^ n) : (x + v.toNat) / 1 % M = v.toNat := by
  simpa using digit_same v (K := 1) (by simpa using hx) hM

/-- `digit_below` of a field at bit 0. -/
theorem digit_below_one (hx : x % 2 ^ n < 1) (hD : D % 2 ^ n = 0) : (x + v.toNat) / D % M = x / D % M := by
  simpa using digit_below v (K := 1) (by simpa using hx) (by simpa using hD)

end

theorem digit_word {w D M : Nat} (h : 4294967296 % (D * M) = 0) : w % 4294967296 / D % M = w / D % M := by
  rw [← Nat.mod_mul_right_div_self, Nat.mod_mod_of_dvd _ (Nat.dvd_of_mod_eq_zero h), Nat.mod_mul_right_div_self]

theorem fld_eq_digit (w lo n : Nat) : fld w lo n = BitVec.ofNat n (w / 2 ^ lo % 2 ^ n) :=
  BitVec.eq_of_toNat_eq (by simp [fld])

/-! ## The row of an encoded word (R71, R72) -/

/-- The tables find the instruction, with no fixed field out of place, in the first word that it is encoded in; `f` stands for the
word after an instruction of one word. -/
def Parses (i : Instr) : Prop := ∀ w ws f, encode i = w :: ws → parse w.toNat (ws.headD f) = .row i []

/-- Whether the instruction's major lies in a block of majors. -/
def Instr.inBlock (lo hi : Nat) (i : Instr) : Bool :=
  match i.major with
  | none => false
  | some m => lo ≤ m && m < hi

/-- The major of an instruction's row is that of its first word (R71, R72). -/
theorem major_of_encode {i : Instr} {w : BitVec 32} {ws : List (BitVec 32)} {m : Nat} (h : encode i = w :: ws) (hm : i.major = some m) :
    w.toNat / 0x2000000 % 128 = m := by
  cases i <;> cases hm <;> cases h
  all_goals
    simp only [BitVec.toNat_ofNat, digit_word, digit_below, digit_below_one, rem_above, Nat.reducePow, Nat.reduceMod,
      Nat.reduceMul, Nat.reduceDiv, Nat.reduceLT]

/-- Integer, branch, loop and control words (R83-R99). -/
theorem parses_control {i : Instr} (h : i.inBlock 0x00 0x40 = true) : Parses i := by
  cases i <;> cases h
  all_goals
    intro w ws f h
    unfold parse
    rw [major_of_encode h rfl]
    cases h
    conv_lhs => simp_match
    simp only [parse00, parse01, parse02, parse03, parse04, parse05, parse06, parse07, parse10, parse11, parse12, parse13,
      parse14, parse15, parse16, parse17, parse18, parse19, parse1A, parse1B, parse20, parse21, parse22, parse24, parse25,
      parse26, parse28, parse29, parse30, parse31, parse32, parse33, parse34, fld_eq_digit, rsv, mustBe, digit_word,
      digit_same, digit_below, digit_above, rem_above, digit_same_one, digit_below_one, BitVec.toNat_ofNat, BitVec.ofNat_toNat,
      BitVec.setWidth_eq, ↓reduceIte, List.append_nil, Nat.reducePow, Nat.reduceMod, Nat.reduceMul, Nat.reduceDiv,
      Nat.reduceLT, Nat.reduceEqDiff]

/-- Access, copy and matrix words (R130-R150, R193, R224). -/
theorem parses_memory {i : Instr} (h : i.inBlock 0x40 0x50 = true) : Parses i := by
  cases i <;> cases h
  all_goals
    intro w ws f h
    unfold parse
    rw [major_of_encode h rfl]
    cases h
    conv_lhs => simp_match
    simp only [parse40, parse41, parse42, parse43, parse44, parse45, parse46, parse47, parse48, parse49, parse4A, parse4B,
      parse4C, parse4D, parse4E, parse4F, fld_eq_digit, rsv, digit_word, digit_same, digit_below, digit_above, rem_above,
      digit_same_one, digit_below_one, BitVec.toNat_ofNat, BitVec.ofNat_toNat, BitVec.setWidth_eq, ↓reduceIte, List.append_nil,
      List.headD_cons, Nat.reducePow, Nat.reduceMod, Nat.reduceMul, Nat.reduceDiv, Nat.reduceLT, Nat.reduceEqDiff]

/-- Vector arithmetic and special functions (R164-R172). -/
theorem parses_vector {i : Instr} (h : i.inBlock 0x50 0x60 = true) : Parses i := by
  cases i <;> cases h
  all_goals
    intro w ws f h
    unfold parse
    rw [major_of_encode h rfl]
    cases h
    conv_lhs => simp_match
    simp only [parse50, parse51, parse52, parse53, parse54, parse55, parse56, parse57, parse58, parse59, parse5A, parse5B,
      parse5C, parse5D, parse5E, parse5F, fld_eq_digit, rsv, digit_word, digit_same, digit_below, digit_above, rem_above,
      digit_same_one, digit_below_one, BitVec.toNat_ofNat, BitVec.ofNat_toNat, BitVec.setWidth_eq, ↓reduceIte, Nat.reducePow,
      Nat.reduceMod, Nat.reduceMul, Nat.reduceDiv, Nat.reduceLT, Nat.reduceEqDiff]

/-- Conversions, data movement, scalar floating-point, tile and predicate words (R171, R174-R185). -/
theorem parses_movement {i : Instr} (h : i.inBlock 0x60 0x66 = true) : Parses i := by
  cases i <;> cases h
  all_goals
    intro w ws f h
    unfold parse
    rw [major_of_encode h rfl]
    cases h
    conv_lhs => simp_match
    simp only [parse60, parse61, parse62, parse63, parse64, parse65, fld_eq_digit, rsv, mustBe, digit_word, digit_same,
      digit_below, digit_above, rem_above, digit_same_one, digit_below_one, BitVec.toNat_ofNat, BitVec.ofNat_toNat,
      BitVec.setWidth_eq, ↓reduceIte, List.append_nil, Nat.reducePow, Nat.reduceMod, Nat.reduceMul, Nat.reduceDiv,
      Nat.reduceLT, Nat.reduceEqDiff]

/-- Operation 9 of the row of ATOM is ACAS's, and illegal in ATOM (R259). -/
def Instr.atomOpFree : Instr → Prop
  | .atom _ _ _ op _ _ _ => op.toNat ≠ 9
  | _ => True

/-- Sync, drain, task, ring and fabric words (R259-R404). -/
theorem parses_engine {i : Instr} (h : i.inBlock 0x66 0x73 = true) (hop : i.atomOpFree) : Parses i := by
  cases i <;> cases h
  all_goals
    intro w ws f h
    unfold parse
    rw [major_of_encode h rfl]
    cases h
    conv_lhs => simp_match
    simp only [Instr.atomOpFree] at hop
    simp only [parse66, parse67, parse68, parse69, parse6A, parse6B, parse6C, parse6D, parse6E, parse6F, parse70, parse71,
      parse72, *, fld_eq_digit, rsv, mustBe, digit_word, digit_same, digit_below, digit_above, rem_above, digit_same_one,
      digit_below_one, BitVec.toNat_ofNat, BitVec.ofNat_toNat, BitVec.setWidth_eq, ↓reduceIte, List.append_nil, Nat.reducePow,
      Nat.reduceMod, Nat.reduceMul, Nat.reduceDiv, Nat.reduceLT, Nat.reduceEqDiff]

theorem encode_eq_nil {i : Instr} (h : i.inBlock 0x00 0x73 = false) : encode i = [] := by cases i <;> cases h <;> rfl

theorem Instr.inBlock_split {lo hi : Nat} {i : Instr} (mid : Nat) (h : i.inBlock lo hi = true) :
    i.inBlock lo mid = true ∨ i.inBlock mid hi = true := by
  unfold Instr.inBlock at h ⊢
  split at h
  · cases h
  · simp only [Bool.and_eq_true, decide_eq_true_eq] at h ⊢
    omega

/-- Every word of the tables, block by block. -/
theorem parses_word {i : Instr} (hi : encode i ≠ []) (hop : i.atomOpFree) : Parses i := by
  have h : i.inBlock 0x00 0x73 = true := Bool.of_not_eq_false fun h => hi (encode_eq_nil h)
  obtain h | h := Instr.inBlock_split 0x40 h
  · exact parses_control h
  obtain h | h := Instr.inBlock_split 0x50 h
  · exact parses_memory h
  obtain h | h := Instr.inBlock_split 0x60 h
  · exact parses_vector h
  obtain h | h := Instr.inBlock_split 0x66 h
  · exact parses_movement h
  · exact parses_engine h hop

/-! ## From the bytes to the instruction (R4, R70, R73) -/

theorem word32_bytes (w : BitVec 32) :
    word32 (w.setWidth 8) ((w >>> 8).setWidth 8) ((w >>> 16).setWidth 8) ((w >>> 24).setWidth 8) = w := by
  refine BitVec.eq_of_toNat_eq ?_
  have cat {m n : Nat} (a : BitVec m) (b : BitVec n) : (a ++ b).toNat = a.toNat * 2 ^ n + b.toNat := by
    rw [BitVec.toNat_append, Nat.shiftLeft_eq, Nat.mul_comm, Nat.two_pow_add_eq_or_of_lt b.isLt]
  calc _ = _ := cat _ _
    _ = _ := by simp only [cat, BitVec.toNat_setWidth, BitVec.toNat_ushiftRight, Nat.shiftRight_eq_div_pow]; omega

/-- The word at the front of a list of bytes, where four are left. -/
def frontWord : List (BitVec 8) → Option (BitVec 32)
  | b0 :: b1 :: b2 :: b3 :: _ => some (word32 b0 b1 b2 b3)
  | _ => none

theorem frontWord_bytes32 (w : BitVec 32) (r : List (BitVec 8)) : frontWord (bytes32 w ++ r) = some w :=
  congrArg some (word32_bytes w)

theorem decodeBytes_of_decode {x : Executor} {w : BitVec 32} {r : List (BitVec 8)} {i : Instr} {n : Nat}
    (h : decode x w (frontWord r) = .ok i n) :
    decodeBytes x (bytes32 w ++ r) = some (.ok i n, if n = 2 then r.drop 4 else r) := by
  simp only [bytes32, List.cons_append, List.nil_append, decodeBytes, word32_bytes]
  split
  next j hj =>
    cases hj.symm.trans h
    exact congrArg (fun d => some (d, r.drop 4)) h
  next hn =>
    have h2 : n ≠ 2 := fun h2 => hn i (h.trans (by rw [h2]))
    rw [if_neg h2]
    exact congrArg (fun d => some (d, r)) h

theorem decode_of_row {x : Executor} {w : BitVec 32} {f : Option (BitVec 32)} {i : Instr} (hrow : parse w.toNat (f.getD 0) = .row i [])
    (hlegal : i.reasonsIn x = []) (hone : ∀ tk scol sc rd ra rb g, i ≠ .cpym tk scol sc rd ra rb g) : decode x w f = .ok i 1 := by
  have hnone : lowestReason (wordReasons x (.row i [])) = none := by
    simp only [wordReasons, hlegal]; rfl
  unfold decode
  simp only [hrow, hnone]

theorem decode_of_pair {x : Executor} {w v : BitVec 32} {tk : BitVec 4} {scol sc : BitVec 1} {rd ra rb : BitVec 5}
    (hrow : parse w.toNat v = .row (.cpym tk scol sc rd ra rb v) [])
    (hlegal : (Instr.cpym tk scol sc rd ra rb v).reasonsIn x = []) (hfollow : followReason v = none) : decode x w (some v) = .ok (.cpym tk scol sc rd ra rb v) 2 := by
  have hnone : lowestReason (wordReasons x (.row (.cpym tk scol sc rd ra rb v) [])) = none := by
    simp only [wordReasons, hlegal]; rfl
  unfold decode
  simp only [Option.getD_some, hrow, hnone, hfollow]

/-- Only a CPYM copy word is followed by a second word (R70, R195). -/
theorem encode_pair {i : Instr} {w v : BitVec 32} {vs : List (BitVec 32)} (h : encode i = w :: v :: vs) :
    vs = [] ∧ ∃ tk scol sc rd ra rb, i = .cpym tk scol sc rd ra rb v := by
  cases i <;> cases h
  exact ⟨rfl, _, _, _, _, _, _, rfl⟩

theorem Instr.atomOpFree_of_legal {x : Executor} {i : Instr} (h : i.reasonsIn x = []) : i.atomOpFree := by
  unfold Instr.atomOpFree
  split
  · intro hop
    obtain rfl := BitVec.eq_of_toNat_eq (y := 9#4) hop
    cases x <;> simp [Instr.reasonsIn, Instr.major, Instr.reasons, Legal.bad] at h
  · trivial

theorem decode_of_encode : Claims.DecodeOfEncode := by
  intro x i rest hi hlegal hfollow
  have hparses := parses_word hi (Instr.atomOpFree_of_legal hlegal)
  match he : encode i with
  | [] => exact absurd he hi
  | [w] =>
    have hone : ∀ tk scol sc rd ra rb g, i ≠ .cpym tk scol sc rd ra rb g := by
      rintro _ _ _ _ _ _ _ rfl
      cases he
    rw [List.flatMap_singleton, decodeBytes_of_decode (decode_of_row (hparses w [] _ he) hlegal hone)]
    rfl
  | w :: v :: vs =>
    obtain ⟨rfl, _, _, _, _, _, _, rfl⟩ := encode_pair he
    have hpair := decode_of_pair (v := v) (hparses w [v] 0 he) hlegal (hfollow _ _ _ _ _ _ _ rfl)
    rw [List.flatMap_cons, List.flatMap_singleton, List.append_assoc,
      decodeBytes_of_decode (by rw [frontWord_bytes32]; exact hpair)]
    rfl

/-- Settles O1: the sum of a word's fields is read field by field, its major and function lead to its row, and a word that no reason
of R73 applies to is decoded as that row. -/
theorem decodeOfEncodeIsTheInstruction : Obligations.DecodeOfEncodeIsTheInstruction := decode_of_encode

end Sys2Proof
end

section
namespace Sys2Proof.Machine

/-! ## Encodings written out, and words that are illegal where they stand (R66-R73, R353) -/

/-- Settles O2: each word is a closed term that the decoder evaluates. -/
theorem writtenOutWordsDecode : Obligations.WrittenOutWordsDecode := by
  unfold Obligations.WrittenOutWordsDecode Claims.EncodedWords
  decide +kernel

/-- A major that no table has finds no row (R71-R73). -/
theorem parse_of_unallocated {w m : Nat} (follow : BitVec 32) (hm : w / 2 ^ 25 = m) (hword : m < 128)
    (h : (0x08 ≤ m ∧ m ≤ 0x0F) ∨ (0x1C ≤ m ∧ m ≤ 0x1F) ∨ m = 0x23 ∨ m = 0x27 ∨ (0x2A ≤ m ∧ m ≤ 0x2F) ∨ (0x35 ≤ m ∧ m ≤ 0x3F) ∨ 0x73 ≤ m) :
    parse w follow = .none 1 := by
  have hmajor : w / 0x2000000 % 128 = m := (Nat.mod_eq_of_lt (hm ▸ hword)).trans hm
  unfold parse
  rw [hmajor]
  obtain ⟨h1, h2⟩ | ⟨h1, h2⟩ | h | h | ⟨h1, h2⟩ | ⟨h1, h2⟩ | h1 := h
  case inr.inr.inl => rw [h]; rfl
  case inr.inr.inr.inl => rw [h]; rfl
  all_goals interval_cases m <;> rfl

theorem decode_of_none {x : Executor} {w : BitVec 32} {follow : Option (BitVec 32)} {r : Nat}
    (h : parse w.toNat (follow.getD 0) = .none r) : decode x w follow = .illegal w r 1 := by
  unfold decode
  simp only [h]
  rfl

theorem reserved_majors : Claims.ReservedMajorsAreIllegal := fun _ w _ h =>
  decode_of_none (parse_of_unallocated _ rfl (by omega) h)

section
variable {i : Instr} {m : Nat} (hi : i.major = some m)
include hi

/-- The ring block is the rotation program's (R73, R355). -/
theorem ring_block_reason (hm : 0x6E ≤ m ∧ m ≤ 0x71) (sys : Bool) : 6 ∈ i.reasonsIn (.polder sys) := by
  simp [Instr.reasonsIn, hi, Legal.bad, hm]

/-- The fabric block is a system strand's (R73, R401). -/
theorem fabric_block_reason (hm : m = 0x72) : 7 ∈ i.reasonsIn (.polder false) := by
  simp [Instr.reasonsIn, hi, Legal.bad, hm]

/-- The engines' blocks are outside the rotation program's subset (R353). -/
theorem rotation_subset_reason (hm : 0x40 ≤ m ∧ m ≤ 0x6D) : 12 ∈ i.reasonsIn .rotation := by
  have hout : rotationMajor m = false := by
    simp only [rotationMajor, Bool.or_eq_false_iff, Bool.and_eq_false_iff, decide_eq_false_iff_not, beq_eq_false_iff_ne]
    omega
  simp [Instr.reasonsIn, hi, hout]

end

theorem blocks_of_executors : Claims.BlocksOfTheirExecutors := fun i m hi =>
  ⟨fun hm => ring_block_reason hi hm, fabric_block_reason hi, rotation_subset_reason hi, fun ⟨x, hlegal, h1, h2, hx⟩ => by
    cases x with
    | rotation => exact hx rfl
    | polder sys =>
      have hsix := ring_block_reason hi ⟨h1, h2⟩ sys
      simp [hlegal] at hsix⟩

/-- Settles O3: an unallocated major falls through the tables to reason 1, and each block's reason stands among the word's. -/
theorem illegalEncodings : Obligations.IllegalEncodings := ⟨reserved_majors, blocks_of_executors⟩

end Sys2Proof.Machine
end

section
namespace Sys2Proof.Machine

/-! ## TRAP (R95) -/

theorem decode_trap {sf : BitVec 2} (hsf : sf ≠ 0) (imm : BitVec 13) (sys : Bool) :
    decode (.polder sys) (BitVec.ofNat 32 (0x60000000 + sf.toNat * 0x800000 + imm.toNat)) none = .ok (.trap sf imm) 1 := by
  have hlegal : (Instr.trap sf imm).reasonsIn (.polder sys) = [] := by
    simpa [Instr.reasonsIn, Instr.major, Instr.reasons, Legal.evaluator, Legal.bad] using hsf
  have hrow := parses_word (i := .trap sf imm) (List.cons_ne_nil _ _) trivial
  exact decode_of_row (hrow _ [] _ rfl) hlegal nofun

theorem trap_word : Claims.TrapWord := fun sf imm => by
  refine ⟨fun hsf sys => decode_trap hsf imm sys, fun s hruns hdue hr => ⟨fun hmine => ⟨softwareTrap s sf imm ⟨hruns, hdue, .inr hmine⟩, fun hm he => ?_⟩,
    fun hother => congrArg Host.Outcome.next (runWord_passes hruns hdue hr hother 1 _)⟩⟩
  obtain ⟨-, hu⟩ := State.takeTrap_strand hr 0x02 (BitVec.ofNat 64 imm.toNat)
  obtain ⟨hcause, hinfo, -⟩ := Strand.trapEnter_registers hm he s.cur.str 0x02 (BitVec.ofNat 64 imm.toNat)
  dsimp only
  rw [hu, hcause, hinfo]
  refine ⟨?_, ?_, ?_⟩
  · rw [BitVec.toNat_ofNat, Nat.mod_eq_of_lt (by omega)]
  · cases s.cur.str <;> rfl
  · cases s.cur.str <;> rfl

/-- Settles O5: the encoding of TRAP is legal for each stream it can name; the named stream takes the trap, whose entry writes cause and
detail, and the others pass the word by. -/
theorem trapWordRaisesItsCause : Obligations.TrapWordRaisesItsCause := trap_word

end Sys2Proof.Machine
end

section
namespace Sys2Proof.Machine

/-! ## Integer and address arithmetic (R83, R84) -/

/-! ### The values -/

section
variable {n : Nat}

theorem add_eq_ofNat (a b : BitVec n) : a + b = BitVec.ofNat n (a.toNat + b.toNat) := BitVec.eq_of_toNat_eq (by simp)

theorem add_eq_ofInt (a b : BitVec n) : a + b = BitVec.ofInt n (a.toInt + b.toInt) := BitVec.eq_of_toInt_eq (by simp)

theorem sub_eq_ofInt (a b : BitVec n) : a - b = BitVec.ofInt n (a.toInt - b.toInt) := BitVec.eq_of_toInt_eq (by simp)

theorem mul_eq_ofNat (a b : BitVec n) : a * b = BitVec.ofNat n (a.toNat * b.toNat) := BitVec.eq_of_toNat_eq (by simp)

theorem shiftLeft_eq_ofNat (a : BitVec n) (k : Nat) : a <<< k = BitVec.ofNat n (a.toNat * 2 ^ k) :=
  BitVec.eq_of_toNat_eq (by simp [Nat.shiftLeft_eq])

theorem ushiftRight_eq_ofNat (a : BitVec n) (k : Nat) : a >>> k = BitVec.ofNat n (a.toNat / 2 ^ k) :=
  BitVec.eq_of_toNat_eq (by simp [Nat.shiftRight_eq_div_pow, Nat.mod_eq_of_lt (Nat.lt_of_le_of_lt (Nat.div_le_self _ _) a.isLt)])

theorem sshiftRight_eq_ofInt (a : BitVec n) (k : Nat) : a.sshiftRight k = BitVec.ofInt n (a.toInt / 2 ^ k) := by
  rw [← BitVec.ofInt_toInt (x := a.sshiftRight k), BitVec.toInt_sshiftRight, Int.shiftRight_eq_div_pow]
  norm_cast

theorem ofInt_min (a b : BitVec n) : (if b.slt a then b else a) = BitVec.ofInt n (min a.toInt b.toInt) := by
  simp only [BitVec.slt, decide_eq_true_eq]
  split
  · rw [min_eq_right (le_of_lt ‹_›), BitVec.ofInt_toInt]
  · rw [min_eq_left (not_lt.1 ‹_›), BitVec.ofInt_toInt]

theorem ofInt_max (a b : BitVec n) : (if a.slt b then b else a) = BitVec.ofInt n (max a.toInt b.toInt) := by
  simp only [BitVec.slt, decide_eq_true_eq]
  split
  · rw [max_eq_right (le_of_lt ‹_›), BitVec.ofInt_toInt]
  · rw [max_eq_left (not_lt.1 ‹_›), BitVec.ofInt_toInt]

theorem ofNat_min (a b : BitVec n) : (if b.ult a then b else a) = BitVec.ofNat n (min a.toNat b.toNat) := by
  simp only [BitVec.ult, decide_eq_true_eq]
  split
  · rw [min_eq_right (le_of_lt ‹_›), BitVec.ofNat_toNat, BitVec.setWidth_eq]
  · rw [min_eq_left (not_lt.1 ‹_›), BitVec.ofNat_toNat, BitVec.setWidth_eq]

theorem ofNat_max (a b : BitVec n) : (if a.ult b then b else a) = BitVec.ofNat n (max a.toNat b.toNat) := by
  simp only [BitVec.ult, decide_eq_true_eq]
  split
  · rw [max_eq_right (le_of_lt ‹_›), BitVec.ofNat_toNat, BitVec.setWidth_eq]
  · rw [max_eq_left (not_lt.1 ‹_›), BitVec.ofNat_toNat, BitVec.setWidth_eq]

end

theorem mulHighU_eq (a b : Word) : mulHighU a b = BitVec.ofNat 64 (a.toNat * b.toNat / 2 ^ 64) := by
  have hlt : a.toNat * b.toNat < 2 ^ 128 := by nlinarith [a.isLt, b.isLt]
  refine BitVec.eq_of_toNat_eq ?_
  simp only [mulHighU, BitVec.toNat_setWidth, BitVec.toNat_ushiftRight, BitVec.toNat_mul, BitVec.toNat_ofNat, Nat.shiftRight_eq_div_pow]
  rw [Nat.mod_eq_of_lt (show a.toNat < 2 ^ 128 by omega), Nat.mod_eq_of_lt (show b.toNat < 2 ^ 128 by omega), Nat.mod_eq_of_lt hlt]

theorem mulHighS_eq (a b : Word) : mulHighS a b = BitVec.ofInt 64 (a.toInt * b.toInt / 2 ^ 64) := by
  refine BitVec.eq_of_toNat_eq ?_
  have hprod : a.signExtend 128 * b.signExtend 128 = BitVec.ofInt 128 (a.toInt * b.toInt) := by
    rw [BitVec.ofInt_mul]
    rfl
  rw [mulHighS, hprod]
  simp only [BitVec.toNat_setWidth, BitVec.toNat_ushiftRight, BitVec.toNat_ofInt, Nat.shiftRight_eq_div_pow]
  omega

theorem lessS_eq (a b : Word) : lessS a b = if a.toInt < b.toInt then 1 else 0 := by simp only [lessS, BitVec.slt, decide_eq_true_eq]

theorem lessU_eq (a b : Word) : lessU a b = if a.toNat < b.toNat then 1 else 0 := by simp only [lessU, BitVec.ult, decide_eq_true_eq]

theorem lui_value (imm : BitVec 18) : imm.signExtend 64 <<< 13 = BitVec.ofInt 64 (imm.toInt * 2 ^ 13) := by
  rw [BitVec.shiftLeft_eq_mul_twoPow, BitVec.ofInt_mul]
  rfl

/-! ### The words -/

theorem runLower_of_ready {s : State} {sf : BitVec 2} (h : s.Ready (namedBy sf)) (body : State → Res Eff) :
    runLower sf body s = s.finish 1 (body s) := runWord_of_ready h 1 _

section
variable {s s1 s2 : State} {sf : BitVec 2} {rd ra rb : BitVec 5} {a b v : Word} {i : Instr} (h : s.Ready (namedBy sf))
  (ha : readReg ra s = .ok (a, s1))
include h ha

/-- A register operation writes what its function makes of the two registers read (R83). -/
theorem alu_retires {f : Word → Word → Word} (hi : exec i s = answer (alu f sf rd ra rb s)) (hb : readReg rb s1 = .ok (b, s2))
    (hv : f a b = v) : Retires i s (writeReg rd v s2) := fun t ht => by
  rw [hi, alu, runLower_of_ready h]
  simp only [ha, hb, hv, ht, Res.ok_bind]
  rfl

/-- An immediate operation writes what its function makes of the register read (R84). -/
theorem aluImm_retires {f : Word → Word} (hi : exec i s = answer (aluImm f sf rd ra s)) (hv : f a = v) :
    Retires i s (writeReg rd v s1) := fun t ht => by
  rw [hi, aluImm, runLower_of_ready h]
  simp only [ha, hv, ht, Res.ok_bind]
  rfl

end

theorem register_arithmetic : Claims.RegisterArithmetic := fun _ _ _ _ _ _ _ a b h ha hb =>
  ⟨alu_retires h ha rfl hb (add_eq_ofNat a b),
    alu_retires h ha rfl hb (sub_eq_ofInt a b),
    alu_retires h ha rfl hb rfl,
    alu_retires h ha rfl hb rfl,
    alu_retires h ha rfl hb rfl,
    alu_retires h ha rfl hb (shiftLeft_eq_ofNat a _),
    alu_retires h ha rfl hb (ushiftRight_eq_ofNat a _),
    alu_retires h ha rfl hb (sshiftRight_eq_ofInt a _),
    alu_retires h ha rfl hb (mul_eq_ofNat a b),
    alu_retires h ha rfl hb (mulHighU_eq a b),
    alu_retires h ha rfl hb (mulHighS_eq a b),
    alu_retires h ha rfl hb (lessS_eq a b),
    alu_retires h ha rfl hb (lessU_eq a b),
    alu_retires h ha rfl hb (ofInt_min a b),
    alu_retires h ha rfl hb (ofInt_max a b),
    alu_retires h ha rfl hb (ofNat_min a b),
    alu_retires h ha rfl hb (ofNat_max a b)⟩

theorem immediate_arithmetic : Claims.ImmediateArithmetic := fun s sf rd h => by
  refine ⟨fun imm t ht => ?_, fun ra a s1 imm sh ha => ?_⟩
  · rw [← lui_value] at ht
    change answer (runLower sf _ s) = _
    rw [runLower_of_ready h, ht]
    rfl
  · have hsigned : (imm.signExtend 64).toInt = imm.toInt := BitVec.toInt_signExtend_of_le (by decide)
    have hzero : imm.setWidth 64 = BitVec.ofNat 64 imm.toNat := BitVec.eq_of_toNat_eq (by simp)
    exact ⟨aluImm_retires h ha rfl (hsigned ▸ add_eq_ofInt a _),
      aluImm_retires h ha rfl (hsigned ▸ lessS_eq a _),
      aluImm_retires h ha rfl (hzero ▸ rfl),
      aluImm_retires h ha rfl (hzero ▸ rfl),
      aluImm_retires h ha rfl (hzero ▸ rfl),
      aluImm_retires h ha rfl (shiftLeft_eq_ofNat a _),
      aluImm_retires h ha rfl (ushiftRight_eq_ofNat a _),
      aluImm_retires h ha rfl (sshiftRight_eq_ofInt a _)⟩

/-- Settles O8: an integer word writes the value of its function, which is the arithmetic of R83 or R84 on the registers' numbers. -/
theorem integerArithmeticResults : Obligations.IntegerArithmeticResults := ⟨register_arithmetic, immediate_arithmetic⟩

end Sys2Proof.Machine
end

section
namespace Sys2Proof.Machine

/-! ## System registers (R79, R98) -/

theorem systemRegister_of_large {n : Nat} (s : State) (hn : 0x1000 ≤ n) : systemRegister n s = none := by
  rw [systemRegister, if_neg (by omega)]
  split
  · simp (disch := omega) only [registerA, if_neg, Bool.and_eq_true, decide_eq_true_eq]
  · simp (disch := omega) only [registerX, if_neg, Bool.and_eq_true, decide_eq_true_eq]
  · simp (disch := omega) only [registerD, if_neg]

section
variable {s : State} {sf : BitVec 2} {rd ra : BitVec 5} {num : BitVec 13} (h : s.Ready (namedBy sf))
include h

/-- SYSR of a register that is there (R98). -/
theorem sysr_retires {v : Word} (hv : systemRegister num.toNat s = some v) : Retires (.sysr sf rd num) s (writeReg rd v s) := fun t ht => by
  change answer (runLower sf _ s) = _
  rw [runLower_of_ready h, hv]
  dsimp only
  rw [ht]
  rfl

/-- SYSR of a number that names no register (R98). -/
theorem sysr_traps (hv : systemRegister num.toNat s = none) :
    exec (.sysr sf rd num) s = .next (s.takeTrap 0x07 (BitVec.ofNat 64 num.toNat)) := by
  change answer (runLower sf _ s) = _
  rw [runLower_of_ready h, hv]
  rfl

/-- SYSW takes its value from its register, and then writes the system register or refuses it (R98). -/
theorem sysw_eq {s1 : State} {v : Word} (hra : readReg ra s = .ok (v, s1)) :
    exec (.sysw sf ra num) s = .next (s.finish 1
      (if (decide (0x012 ≤ num.toNat) && decide (num.toNat ≤ 0x014)) && !(s.crew s.cur.die s.cur.polder).system then
          trap 0x09 (BitVec.ofNat 64 num.toNat)
        else match writeSystem num.toNat v s1 with
          | none => trap 0x07 (BitVec.ofNat 64 (num.toNat + 2 ^ 13))
          | some s2 => pure (.next s2))) := by
  change answer (runLower sf _ s) = _
  rw [runLower_of_ready h]
  simp only [hra, Res.ok_bind]
  rfl

end

theorem system_register_reads : Claims.SystemRegisterReads := fun s sf rd num h => by
  obtain ⟨hruns, hdue, hr, hmine⟩ := h
  have hready : s.Ready (namedBy sf) := ⟨hruns, hdue, .inr hmine⟩
  have hk : s.stream s.cur = (s.strand s.cur).get s.cur.str := State.stream_strand _ hr
  have named (n : Nat) (hn : 0x100 ≤ n) : systemRegister n s = match s.cur.str with
      | .a => registerA n s
      | .x => registerX n s
      | .d => registerD n s := if_neg (Nat.not_lt.2 hn)
  dsimp only
  rw [← hk]
  refine ⟨fun v => sysr_retires hready, sysr_traps hready, rfl, rfl, rfl, rfl, rfl, rfl, rfl, rfl, rfl, rfl, rfl, rfl, ?_,
    fun hx => ?_, fun hd => ?_, fun ha => ?_, fun n => systemRegister_of_large s⟩
  · change some (BitVec.ofNat 64 (if (s.strand s.cur).trapMode then 1 else 0)) = _
    split <;> rfl
  · rw [named _ (by decide), named _ (by decide), named _ (by decide), hx]
    exact ⟨rfl, rfl, rfl⟩
  · rw [named _ (by decide), named _ (by decide), hd]
    exact ⟨rfl, rfl⟩
  · rw [named _ (by decide), named _ (by decide), ha]
    exact ⟨rfl, rfl⟩

/-- The numbers that name no system register, or one that is only read (R79). -/
theorem writeSystem_of_readOnly {n : Nat} (v : Word) (s : State)
    (hn : n < 0x012 ∨ 0x015 ≤ n ∧ n < 0x018 ∨ 0x019 ≤ n ∧ n < 0x01C ∨ 0x01D ≤ n ∧ n < 0x100 ∨ 0x1000 ≤ n) : writeSystem n v s = none := by
  unfold writeSystem
  dsimp only
  split
  any_goals omega
  rfl

theorem system_register_writes : Claims.SystemRegisterWrites := fun s s1 sf ra num v h hra => by
  have hready := h.ready
  refine ⟨fun t hallowed ht => ?_, fun h1 h2 hsys => ?_, fun hn => ?_, rfl, rfl, rfl, rfl, rfl⟩ <;> rw [sysw_eq hready hra]
  · rw [if_neg (by simpa using fun h1 h2 => hallowed ⟨h1, h2⟩), ht]
    rfl
  · rw [if_pos (by simp [h1, h2, hsys])]
    rfl
  · have hout : ¬ (0x012 ≤ num.toNat ∧ num.toNat ≤ 0x014) := by omega
    rw [if_neg (by simpa using fun h1 h2 => absurd ⟨h1, h2⟩ hout), writeSystem_of_readOnly v s1 hn]
    rfl

/-- Settles O17: SYSR and SYSW come to a look-up among the registers of the stream, whose outcome they write, perform or trap. -/
theorem systemRegistersReadAndWrite : Obligations.SystemRegistersReadAndWrite := ⟨system_register_reads, system_register_writes⟩

end Sys2Proof.Machine
end

section
namespace Sys2Proof.Machine

/-! ## Branches (R78, R86, R88) -/

/-- A signed offset in words, from the word that the agent runs (R86, R87). -/
theorem State.wordsOn_offset (s : State) {n : Nat} (off : BitVec n) : s.pc + (off.signExtend 64 <<< 2) = s.wordsOn off.toInt := by
  rw [State.wordsOn, BitVec.shiftLeft_eq_mul_twoPow, Int.mul_comm, BitVec.ofInt_mul]
  rfl

section
variable {s s1 s2 : State} {ev : BitVec 2} {value : State → Res (Word × State)} {v : Word}

/-- The agent that evaluates a value shares it with the other streams (R86, R353). -/
theorem throughBranch_of_evaluates (hev : s.Evaluates ev) (hvalue : value s = .ok (v, s1)) (hcur : s1.cur = s.cur)
    (hshare : shareBranch v s1 = .ok s2) : throughBranch ev value s = .ok (v, s2) := by
  simp only [shareBranch, hcur] at hshare
  by_cases hr : s.cur.rot = true
  · rw [if_pos hr] at hshare
    rw [throughBranch, if_pos hr, hvalue]
    cases hshare
    rfl
  · rw [if_neg hr] at hshare
    rw [throughBranch, if_neg hr, if_pos (hev.resolve_left hr), hvalue, Res.ok_bind]
    dsimp only
    rw [hshare]
    rfl

theorem State.follows_of_not_evaluates (hev : ¬ s.Evaluates ev) : s.cur.rot = false ∧ s.cur.str ≠ strOf ev := by
  simpa [State.Evaluates] using hev

/-- A stream that does not evaluate a value takes it from its branch queue (R86). -/
theorem throughBranch_of_follows (hev : ¬ s.Evaluates ev) : throughBranch ev value s = popBranch (strOf ev) s := by
  obtain ⟨hr, hstr⟩ := State.follows_of_not_evaluates hev
  rw [throughBranch, if_neg (by simp [hr]), if_neg hstr]

/-- A branch whose value has come goes to its target, or on to the next word (R86). -/
theorem branch_of_value (h : s.Ready fun _ => true) (off : BitVec 13) (hv : throughBranch ev value s = .ok (v, s1)) :
    branch ev off value s = if v ≠ 0 then s1.retireTo (s.wordsOn off.toInt) else s1.retire 1 := by
  rw [branch, runAll_of_ready h, hv, Res.ok_bind, ← State.wordsOn_offset]
  dsimp only
  split <;> rfl

/-- A branch in its evaluator. -/
theorem branches_of_condition {i : Instr} {off : BitVec 13} {c : Bool} (h : s.Ready fun _ => true) (hev : s.Evaluates ev)
    (hi : exec i s = answer (branch ev off value s)) (hvalue : value s = .ok (if c then 1 else 0, s1)) (hcur : s1.cur = s.cur) :
    Branches i s (s.wordsOn off.toInt) c (shareBranch (if c then 1 else 0) s1) := fun t ht => by
  rw [hi, branch_of_value h off (throughBranch_of_evaluates hev hvalue hcur ht)]
  cases c <;> rfl

end

theorem conditional_branches : Claims.ConditionalBranches := fun s ev offHi offLo h => by
  refine ⟨fun ra rb a b s1 s2 hev ha hb => ?_, fun pn hpn hr hx => ?_⟩
  · have hcur : s2.cur = s.cur := (readReg_keeps hb).1.trans (readReg_keeps ha).1
    have compares {i : Instr} {cond : Word → Word → Bool} {c : Bool} (hi : exec i s = answer (compareBranch cond ev offHi ra rb offLo s))
        (hc : cond a b = c) : Branches i s (s.wordsOn (offHi ++ offLo : BitVec 13).toInt) c (shareBranch (if c then 1 else 0) s2) :=
      branches_of_condition h hev hi (by simp only [ha, hb, hc, Res.ok_bind]; rfl) hcur
    exact ⟨compares rfl (beq_eq_decide a b), compares rfl (by rw [bne, beq_eq_decide, decide_not]), compares rfl rfl,
      compares rfl (by simp only [BitVec.slt, ← decide_not, not_lt]), compares rfl rfl, compares rfl (by simp only [BitVec.ult, ← decide_not, not_lt])⟩
  · have hp : readPred pn.toNat s = (s.strand s.cur).p[pn.toNat] := dif_pos hpn
    have tests {i : Instr} {c : Pred → Bool}
        (hi : exec i s = answer (branch 2 (offHi ++ offLo) (fun s => pure ((if c (readPred pn.toNat s) then 1 else 0), s)) s)) :
        Branches i s (s.wordsOn (offHi ++ offLo : BitVec 13).toInt) (c (s.strand s.cur).p[pn.toNat])
          (shareBranch (if c (s.strand s.cur).p[pn.toNat] then 1 else 0) s) :=
      branches_of_condition (ev := 2) h (.inr hx) hi (by rw [hp]; rfl) rfl
    exact ⟨tests (c := fun p => p ≠ 0) (by simp only [decide_eq_true_eq]; rfl), tests (c := fun p => p = 0) (by simp only [decide_eq_true_eq]; rfl)⟩

theorem followed_branches : Claims.FollowedBranches := fun s s1 ev offHi ra rb offLo pn v h => by
  have follows {i : Instr} {e : BitVec 2} {value : State → Res (Word × State)} (hi : exec i s = answer (branch e (offHi ++ offLo) value s))
      (he : ¬ s.Evaluates e) (hpop : popBranch (strOf e) s = .ok (v, s1)) :
      exec i s = .next (if v ≠ 0 then s1.retireTo (s.wordsOn (offHi ++ offLo : BitVec 13).toInt) else s1.retire 1) := by
    rw [hi, branch_of_value h.ready _ ((throughBranch_of_follows he).trans hpop)]
    rfl
  obtain ⟨-, -, hr, -⟩ := h
  refine ⟨fun hstr hpop => ?_, fun hstr hpop => ?_⟩
  · have he : ¬ s.Evaluates ev := by simp [State.Evaluates, hr, hstr]
    exact ⟨follows rfl he hpop, follows rfl he hpop, follows rfl he hpop, follows rfl he hpop, follows rfl he hpop, follows rfl he hpop⟩
  · have he : ¬ s.Evaluates 2 := fun he => he.elim (by simp [hr]) hstr
    exact ⟨follows rfl he hpop, follows rfl he hpop⟩

/-! ### The branch queues (R78, R88) -/

theorem otherStreams_cover {e k : Str} (h : e ≠ k) : k = (otherStreams e).1 ∨ k = (otherStreams e).2 := by
  cases e <;> cases k <;> simp [otherStreams] at h ⊢

theorem otherStreams_ne (e : Str) : e ≠ (otherStreams e).1 ∧ e ≠ (otherStreams e).2 ∧ (otherStreams e).1 ≠ (otherStreams e).2 := by
  cases e <;> simp [otherStreams]

/-- Each evaluator and taker have a queue of their own. -/
theorem bqIndex_eq_iff {e k e' k' : Str} (h : e ≠ k) (h' : e' ≠ k') : bqIndex e k = bqIndex e' k' ↔ e = e' ∧ k = k' := by
  revert h h'
  cases e <;> cases k <;> cases e' <;> cases k' <;> decide

theorem vector_get_set {α : Type} {n : Nat} (v : Vector α n) (i j : Fin n) (x : α) :
    (v.set i.val x i.isLt).get j = if i = j then x else v.get j := by
  simp only [Vector.get_eq_getElem, Vector.getElem_set, Fin.ext_iff]

/-- The evaluator's push by its two queues (R86). -/
theorem pushBranch_eq (v : Word) (s : State) :
    let st := s.strand s.cur
    let i := bqIndex s.cur.str (otherStreams s.cur.str).1
    let j := bqIndex s.cur.str (otherStreams s.cur.str).2
    pushBranch v s = if 8 ≤ (st.bq.get i).length || 8 ≤ (st.bq.get j).length then hold .branchQueue
      else .ok (s.setStrand s.cur { st with
        bq := (st.bq.set i.val (st.bq.get i ++ [v]) i.isLt).set j.val (st.bq.get j ++ [v]) j.isLt }) := rfl

/-- Both of an evaluator's queues and no other one take the value (R86). -/
theorem pushed_queues (bq : Vector (List Word) 6) (v : Word) {w e k : Str} (hek : e ≠ k) :
    let i := bqIndex w (otherStreams w).1
    let j := bqIndex w (otherStreams w).2
    ((bq.set i.val (bq.get i ++ [v]) i.isLt).set j.val (bq.get j ++ [v]) j.isLt).get (bqIndex e k) =
      if e = w then bq.get (bqIndex e k) ++ [v] else bq.get (bqIndex e k) := by
  obtain ⟨hf, hg, hfg⟩ := otherStreams_ne w
  intro i j
  rw [vector_get_set, vector_get_set]
  simp only [i, j, bqIndex_eq_iff hf hek, bqIndex_eq_iff hg hek]
  by_cases he : e = w
  · subst he
    rcases otherStreams_cover hek with rfl | rfl <;> simp [hfg.symm]
  · simp [he, Ne.symm he]

theorem branch_queues : Claims.BranchQueues := fun s v ev _ => by
  refine ⟨fun ⟨h1, h2⟩ => ?_, fun hfull => ?_, fun _ hempty => ?_, fun q hev hq => ?_⟩
  · refine ⟨_, (pushBranch_eq v s).trans (if_neg (by simpa using ⟨h1, h2⟩)), (OnlyStrand.refl s).setStrand _, _,
      State.strand_setStrand _ _ _, fun e k hek => ?_⟩
    exact pushed_queues _ v hek
  · exact (pushBranch_eq v s).trans (if_pos (by simpa using hfull))
  · simp only [popBranch, hempty]
    rfl
  · refine ⟨_, by simp only [popBranch, hq]; rfl, (OnlyStrand.refl s).setStrand _, _, State.strand_setStrand _ _ _, fun e k hek => ?_⟩
    rw [vector_get_set]
    simp only [bqIndex_eq_iff hev hek, eq_comm]

/-- Settles O10: a branch is a value that its evaluator computes and pushes for the other streams, and they pop; each pair of streams has
its own queue. -/
theorem branchesShareTheirOutcome : Obligations.BranchesShareTheirOutcome := ⟨conditional_branches, followed_branches, branch_queues⟩

end Sys2Proof.Machine
end

section
namespace Sys2Proof.Machine

/-! ## Transfers of control (R87, R90) -/

section
variable {s s1 : State} {ev : BitVec 2} {rd ra : BitVec 5} {a : Word}

/-- JR and JALR once their target has come (R87). -/
theorem jump_of_target {s2 : State} (h : s.Ready fun _ => true) (ht : jumpTarget ev ra s = .ok (a, s2)) :
    exec (.jr ev ra) s = .next (s2.retireTo a) ∧
      ∀ t, writeReg rd (s.pc + 4) s2 = .ok t → exec (.jalr ev rd ra) s = .next (t.retireTo a) := by
  refine ⟨congrArg Host.Outcome.next ((runAll_of_ready h _).trans ?_), fun t hw => congrArg Host.Outcome.next ((runAll_of_ready h _).trans ?_)⟩
  · rw [ht]
    rfl
  · simp only [ht, hw, Res.ok_bind]
    rfl

/-- JR and JALR whose target traps (R87). -/
theorem jump_of_trap (h : s.Ready fun _ => true) {cause : Nat} {info : Word} (ht : jumpTarget ev ra s = trap cause info) :
    exec (.jr ev ra) s = .next (s.takeTrap cause info) ∧ exec (.jalr ev rd ra) s = .next (s.takeTrap cause info) := by
  refine ⟨congrArg Host.Outcome.next ((runAll_of_ready h _).trans ?_), congrArg Host.Outcome.next ((runAll_of_ready h _).trans ?_)⟩ <;>
    rw [ht] <;> rfl

/-- What the evaluator takes its target from: its register, or a trap where that is no address of a word (R87). -/
theorem jumpTarget_value (ev : BitVec 2) (hra : readReg ra s = .ok (a, s1)) :
    jumpTarget ev ra s = throughBranch ev (fun _ => if a.toNat % 4 ≠ 0 then trap 0x0B a else .ok (a, s1)) s := by
  simp only [jumpTarget, throughBranch, hra, Res.ok_bind]
  rfl

theorem throughBranch_of_trap {value : State → Res (Word × State)} {cause : Nat} {info : Word} (hev : s.Evaluates ev)
    (hvalue : value s = trap cause info) : throughBranch ev value s = trap cause info := by
  unfold throughBranch
  split
  · exact hvalue
  · rw [if_pos (hev.resolve_left ‹_›), hvalue, Res.trap_bind]

end

theorem unconditional_transfers : Claims.UnconditionalTransfers := fun s ev rd ra h => by
  refine ⟨fun off => ?_, fun off t hw => ?_, fun a s1 s2 t hev hra ha hshare => ?_, fun a s1 t hev hpop => ?_⟩
  · rw [← State.wordsOn_offset]
    exact congrArg Host.Outcome.next (runAll_of_ready h _)
  · rw [← State.wordsOn_offset]
    refine congrArg Host.Outcome.next ((runAll_of_ready h _).trans ?_)
    simp only [hw, Res.ok_bind]
    rfl
  · obtain ⟨hcur, -⟩ := readReg_keeps hra
    have htarget := (jumpTarget_value ev hra).trans
      (throughBranch_of_evaluates hev (if_neg (not_not.2 ha)) hcur hshare)
    obtain ⟨hjr, hjalr⟩ := jump_of_target h htarget
    exact ⟨hjr, hjalr t⟩
  · have htarget : jumpTarget ev ra s = .ok (a, s1) := (throughBranch_of_follows hev).trans hpop
    obtain ⟨hjr, hjalr⟩ := jump_of_target h htarget
    exact ⟨hjr, hjalr t⟩

theorem misaligned_jump_targets : Claims.MisalignedJumpTargets := fun _ _ ev _ _ _ h hev hra ha =>
  jump_of_trap h ((jumpTarget_value ev hra).trans (throughBranch_of_trap hev (if_pos ha)))

theorem transfers_leave_loops : Claims.TransfersLeaveLoops := fun st t l r hl => by
  have hloops : (st.transfer t).loops = loopLeave t (l :: r) := congrArg (loopLeave t) hl
  refine ⟨rfl, rfl, fun hin => ?_, fun hout => ?_⟩
  · rw [hloops, loopLeave, if_pos (by simpa using hin)]
  · have hleft : ¬ (l.start.toNat ≤ t.toNat ∧ t.toNat ≤ l.stop.toNat) := by omega
    rw [hloops, loopLeave, if_neg (by simpa using hleft)]
    rfl

/-- Settles O11: a jump's target is a value that its evaluator shares as a branch's is, and a transfer drops the levels that do not hold
its target. -/
theorem transfersOfControl : Obligations.TransfersOfControl := ⟨unconditional_transfers, misaligned_jump_targets, transfers_leave_loops⟩

end Sys2Proof.Machine
end

section
namespace Sys2Proof.Machine

/-! ## The spill stack (R94) -/

/-! ### PUSH and POP -/

/-- A word of the lower streams whose body ends in one changed state retires with it. -/
theorem retires_of_body {i : Instr} {s : State} {sf : BitVec 2} {body : State → Res Eff} {r : Res State} (h : s.Ready (namedBy sf))
    (hi : exec i s = answer (runLower sf body s)) (hbody : body s = do pure (.next (← r))) : Retires i s r := fun t ht => by
  rw [hi, runLower_of_ready h, hbody, ht]
  rfl

theorem push_and_pop : Claims.PushAndPop := fun s s1 sf reg h => by
  have hready := h.ready
  refine ⟨fun v hv => retires_of_body hready rfl ?_, fun v hv => retires_of_body hready rfl ?_, fun hp => retires_of_body hready rfl ?_,
    fun hh => retires_of_body hready rfl ?_, fun v hv => retires_of_body hready rfl ?_, fun v hv => retires_of_body hready rfl ?_,
    fun v hv => retires_of_body hready rfl ?_, fun v hh hv => retires_of_body hready rfl ?_⟩
  · simp only [hv]; rfl
  · simp only [hv]; rfl
  · simp only [readPred, dif_pos hp]; rfl
  · simp only [Vector.get, Fin.ofNat, Nat.mod_eq_of_lt hh]; rfl
  · simp only [hv]; rfl
  · simp only [hv]; rfl
  · simp only [hv]; rfl
  · simp only [hv, Fin.ofNat, Nat.mod_eq_of_lt hh]; rfl

/-! ### The stack's two areas -/

/-- The executing stream's overflow area has room for `n` more bytes and lies in its die's berm (R94). -/
def State.OverflowRoom (s : State) (n : Nat) : Prop :=
  (s.stream s.cur).ovPtr.toNat + n ≤ (s.stream s.cur).ovLimit.toNat ∧
    inBerm s.cur.die (s.stream s.cur).ovBase.toNat ((s.stream s.cur).ovLimit.toNat - (s.stream s.cur).ovBase.toNat) = true

/-- A push of `n` bytes goes to the overflow area: that area holds something, or the in-pool area lacks the room (R94). -/
def State.Overflows (s : State) (n : Nat) : Prop :=
  (s.stream s.cur).ovBase.toNat < (s.stream s.cur).ovPtr.toNat ∨
    (s.crew s.cur.die s.cur.polder).spillSize < (s.stream s.cur).spillSp + n

/-- The state after `v` went to the in-pool area. -/
def State.pushedInPool (s : State) (v n : Nat) : State :=
  (s.writeN (spillBase s + (s.stream s.cur).spillSp) v n).setStream s.cur
    { s.stream s.cur with spillSp := (s.stream s.cur).spillSp + n }

/-- The state after `v` went to the overflow area. -/
def State.pushedOverflow (s : State) (v n : Nat) : State :=
  (s.writeN (s.stream s.cur).ovPtr.toNat v n).setStream s.cur
    { s.stream s.cur with ovPtr := (s.stream s.cur).ovPtr + BitVec.ofNat 64 n }

section
variable {s : State} {v n : Nat}

theorem spillPush_inPool (h : ¬ s.Overflows n) : spillPush v n s = .ok (s.pushedInPool v n) := by
  rw [State.Overflows] at h
  simp only [spillPush, Bool.or_eq_true, decide_eq_true_eq, if_neg h]
  rfl

theorem spillPush_overflow (h : s.Overflows n) (hr : s.OverflowRoom n) : spillPush v n s = .ok (s.pushedOverflow v n) := by
  rw [State.Overflows] at h
  obtain ⟨hlimit, hberm⟩ := hr
  simp only [spillPush, Bool.or_eq_true, decide_eq_true_eq, if_pos h, hberm, Nat.not_lt.2 hlimit, Bool.not_true, Bool.false_eq_true,
    or_self, if_false]
  rfl

theorem spillPush_full (h : s.Overflows n) (hr : ¬ s.OverflowRoom n) :
    spillPush v n s = .error (.trap 0x05 (s.stream s.cur).ovPtr) := by
  rw [State.Overflows] at h
  rw [State.OverflowRoom, not_and_or, Nat.not_le, Bool.not_eq_true, ← Bool.not_eq_true'] at hr
  simp only [spillPush, Bool.or_eq_true, decide_eq_true_eq, if_pos h, if_pos hr]
  rfl

theorem spillPop_overflow (h : (s.stream s.cur).ovBase.toNat < (s.stream s.cur).ovPtr.toNat)
    (hp : s.poisonIn ((s.stream s.cur).ovPtr.toNat - n) n = none) :
    spillPop n s = .ok (s.readN ((s.stream s.cur).ovPtr.toNat - n) n,
      s.setStream s.cur { s.stream s.cur with ovPtr := (s.stream s.cur).ovPtr - BitVec.ofNat 64 n }) := by
  simp only [spillPop, if_pos h, hp]
  rfl

theorem spillPop_inPool (h : (s.stream s.cur).ovPtr.toNat ≤ (s.stream s.cur).ovBase.toNat) (hn : n ≤ (s.stream s.cur).spillSp)
    (hp : s.poisonIn (spillBase s + (s.stream s.cur).spillSp - n) n = none) :
    spillPop n s = .ok (s.readN (spillBase s + (s.stream s.cur).spillSp - n) n,
      s.setStream s.cur { s.stream s.cur with spillSp := (s.stream s.cur).spillSp - n }) := by
  simp only [spillPop, if_neg (Nat.not_lt.2 h), if_pos hn, hp]
  rfl

theorem spillPop_empty (h : (s.stream s.cur).ovPtr.toNat ≤ (s.stream s.cur).ovBase.toNat) (hn : (s.stream s.cur).spillSp < n) :
    spillPop n s = .error (.trap 0x06 0) := by
  simp only [spillPop, if_neg (Nat.not_lt.2 h), if_neg (Nat.not_le.2 hn)]
  rfl

theorem State.stream_setStream_of_strand {c : Ctx} (h : c.rot = false) (k : Stream) : (s.setStream c k).stream c = k := by
  simp [State.setStream, State.stream, h]

theorem byteAt_after_push {a : Nat} {k : Stream} {c : Ctx} :
    (∀ i, i < n → ((s.writeN a v n).setStream c k).byteAt (a + i) = BitVec.ofNat 8 (v / 256 ^ i)) ∧
      ∀ b, b < a ∨ a + n ≤ b → ((s.writeN a v n).setStream c k).byteAt b = s.byteAt b := by
  simp only [State.byteAt, State.setStream_mem, State.writeN_mem]
  refine ⟨fun i hi => ?_, fun b hb => Memory.get_writeN_out hb _⟩
  rw [Memory.get_writeN_in (by omega) (by omega), Nat.add_sub_cancel_left]

end

theorem spill_stack : Claims.SpillStack := fun s v n hr => by
  refine ⟨fun hbase hsize => ?_, fun hover hroom => ?_, spillPush_full, spillPop_overflow, spillPop_inPool, spillPop_empty⟩
  · have hfits : ¬ s.Overflows n := by rw [State.Overflows]; omega
    exact ⟨_, spillPush_inPool hfits, congrArg Stream.spillSp (State.stream_setStream_of_strand hr _), byteAt_after_push⟩
  · exact ⟨_, spillPush_overflow hover hroom, congrArg Stream.ovPtr (State.stream_setStream_of_strand hr _), byteAt_after_push⟩

/-! ### A pop after a push -/

section
variable {s : State} {v n a : Nat} {k : Stream} {c : Ctx}

theorem poisonIn_after_push (hp : s.poison = []) (b : Nat) : ((s.writeN a v n).setStream c k).poisonIn b n = none := by
  simp [State.poisonIn_eq_none, hp]

theorem readN_after_push (hm : s.MemoryCanonical) : ((s.writeN a v n).setStream c k).readN a n = v % 256 ^ n := by
  simp only [State.readN, State.setStream_mem, State.writeN_mem]
  exact Memory.readN_writeN_self _ hm _ _ _

theorem spillBase_after_push : spillBase ((s.writeN a v n).setStream s.cur k) = spillBase s := by
  simp [spillBase, State.crew, State.crew?]

variable (hr : s.cur.rot = false) (hm : s.MemoryCanonical) (hp : s.poison = [])
include hr hm hp

theorem spillPop_pushedInPool (hbase : (s.stream s.cur).ovPtr.toNat ≤ (s.stream s.cur).ovBase.toNat) :
    ∃ u, spillPop n (s.pushedInPool v n) = .ok (v % 256 ^ n, u) ∧ u.stream s.cur = s.stream s.cur := by
  have hcur : (s.pushedInPool v n).cur = s.cur := State.setStream_cur _ _ _
  have hk : (s.pushedInPool v n).stream s.cur = { s.stream s.cur with spillSp := (s.stream s.cur).spillSp + n } :=
    State.stream_setStream_of_strand hr _
  have hbottom : spillBase (s.pushedInPool v n) = spillBase s := spillBase_after_push
  have hread : (s.pushedInPool v n).readN (spillBase s + (s.stream s.cur).spillSp) n = v % 256 ^ n := readN_after_push hm
  have hpop := spillPop_inPool (s := s.pushedInPool v n) (n := n)
  simp only [hcur, hk, hbottom, ← Nat.add_assoc, Nat.add_sub_cancel, hread] at hpop
  exact ⟨_, hpop hbase (Nat.le_add_left _ _) (poisonIn_after_push hp _), State.stream_setStream_of_strand hr _⟩

theorem spillPop_pushedOverflow (hn : 0 < n) (hmax : (s.stream s.cur).ovPtr.toNat + n < 2 ^ 64)
    (hbase : (s.stream s.cur).ovBase.toNat ≤ (s.stream s.cur).ovPtr.toNat) :
    ∃ u, spillPop n (s.pushedOverflow v n) = .ok (v % 256 ^ n, u) ∧ u.stream s.cur = s.stream s.cur := by
  have hcur : (s.pushedOverflow v n).cur = s.cur := State.setStream_cur _ _ _
  have hk : (s.pushedOverflow v n).stream s.cur = { s.stream s.cur with ovPtr := (s.stream s.cur).ovPtr + BitVec.ofNat 64 n } :=
    State.stream_setStream_of_strand hr _
  have hptr : ((s.stream s.cur).ovPtr + BitVec.ofNat 64 n).toNat = (s.stream s.cur).ovPtr.toNat + n := by
    rw [BitVec.toNat_add, BitVec.toNat_ofNat]
    omega
  have hread : (s.pushedOverflow v n).readN (s.stream s.cur).ovPtr.toNat n = v % 256 ^ n := readN_after_push hm
  have hpop := spillPop_overflow (s := s.pushedOverflow v n) (n := n)
  simp only [hcur, hk, hptr, Nat.add_sub_cancel, BitVec.add_sub_cancel, hread] at hpop
  exact ⟨_, hpop (by omega) (poisonIn_after_push hp _), State.stream_setStream_of_strand hr _⟩

end

theorem pop_returns_the_push : Claims.PopReturnsThePush := fun s t v n hr hm hp hn hmax hbase _ ht => by
  by_cases hover : s.Overflows n
  · by_cases hroom : s.OverflowRoom n
    · obtain rfl := Except.ok.inj ((spillPush_overflow hover hroom).symm.trans ht)
      exact spillPop_pushedOverflow hr hm hp hn hmax hbase
    · exact nomatch (spillPush_full hover hroom).symm.trans ht
  · obtain rfl := Except.ok.inj ((spillPush_inPool hover).symm.trans ht)
    exact spillPop_pushedInPool hr hm hp (not_lt.1 (not_or.1 hover).1)

/-- Settles O14: each class of PUSH and POP comes to one use of the stack, whose two areas are told apart by the overflow pointer; a pop
finds the pointer where the push left it, and memory returns the bytes written. -/
theorem spillStackKeepsRegisters : Obligations.SpillStackKeepsRegisters := ⟨push_and_pop, spill_stack, pop_returns_the_push⟩

end Sys2Proof.Machine
end

section
namespace Sys2Proof.Machine

/-! ## Words of the A stream (R19, R24, R155) -/

section
variable {s s0 : State} {tk : BitVec 4} {i : Instr} (h : AWord s tk s0)
include h

/-- A word of the A stream whose body comes to one changed state gives its tokens there and retires (R24). -/
theorem aWord_retires {body : State → State → Res Eff} {r : Res State} (hi : exec i s = answer (runWord 1 (· = .a) tk body s))
    (hbody : body s s0 = r.bind fun t => .ok (.next t)) : Retires i s (r.bind (giveTokens tk)) := fun u hu => by
  obtain ⟨t, ht, hg⟩ := Res.bind_eq_ok.1 hu
  rw [hi, runWord, runWordM_retires h.1 h.2 markNone 1 (by rw [hbody, ht]; rfl) hg]
  rfl

/-- A word of the A stream whose body waits stays at its word (R25). -/
theorem aWord_waits {body : State → State → Res Eff} {w : Wait} (hi : exec i s = answer (runWord 1 (· = .a) tk body s))
    (hbody : body s s0 = hold w) : exec i s = .next (s.waitOn w) := by
  rw [hi, runWord, runWordM_of_inStrand h.1 h.2, hbody]
  rfl

/-- A load of the A stream whose body comes to one changed state gives its tokens there and retires (R24, R155). -/
theorem loadWord_retires (hacq : s.acquired = true) {mark : Marking} {body : State → State → Res Eff} {r : Res State}
    (hi : exec i s = answer (runLoad mark tk body s)) (hbody : body s s0 = r.bind fun t => .ok (.next t)) :
    Retires i s (r.bind (giveTokens tk)) := fun u hu => by
  obtain ⟨t, ht, hg⟩ := Res.bind_eq_ok.1 hu
  rw [hi, runLoad_retires h hacq mark (by rw [hbody, ht]; rfl) hg]
  rfl

/-- A load of the A stream whose body traps takes that trap (R59). -/
theorem loadWord_traps (hacq : s.acquired = true) {mark : Marking} {body : State → State → Res Eff} {cause : Nat} {info : Word}
    (hi : exec i s = answer (runLoad mark tk body s)) (hbody : body s s0 = trap cause info) :
    exec i s = .next (s.takeTrap cause info) := by
  rw [hi, runLoad_traps h hacq mark hbody]
  rfl

/-- A load of the A stream that stays in progress leaves the state that its body comes to (R25). -/
theorem loadWord_stays (hacq : s.acquired = true) {mark : Marking} {body : State → State → Res Eff} {t : State}
    (hi : exec i s = answer (runLoad mark tk body s)) (hbody : body s s0 = .ok (.stay t)) : exec i s = .next t := by
  rw [hi, runLoad, runWordM_of_inStrand h.1 h.2]
  simp only [hacq]
  rw [show (untilTrue true >>= fun _ => body s s0) = .ok (.stay t) from hbody]
  rfl

/-- The takes of a word leave the agent as it is. -/
theorem aWord_cur : s0.cur = s.cur := by
  obtain ⟨⟨_, _, hrot, _⟩, htake⟩ := h
  exact (takeTokens_keeps hrot htake).1

end

/-! ## Translation and the handle words (R139-R141) -/

theorem bitsOf_lt (w : Word) (hi lo : Nat) : bitsOf w hi lo < 2 ^ (hi - lo + 1) := Nat.mod_lt _ (Nat.two_pow_pos _)

/-- A one-bit field that is set as a flag. -/
theorem bitsOf_flag (w : Word) (k n : Nat) : bitsOf w k k * n = if bitsOf w k k = 1 then n else 0 := by
  have := bitsOf_lt w k k
  rw [Nat.sub_self] at this
  split
  · rw [‹bitsOf w k k = 1›, Nat.one_mul]
  · rw [show bitsOf w k k = 0 by omega, Nat.zero_mul]

/-- The top byte of an address is clear where the address is one of 56 bits. -/
theorem bitsOf_top_byte {va : Word} : bitsOf va 63 56 = 0 ↔ va.toNat < 2 ^ 56 := by
  have := va.isLt
  simp only [bitsOf]
  omega

/-- What XLATE returns of the entry it found is what the handle made of it holds (R141). -/
theorem xlate_result (k : Nat) (w0 : Word) :
    bitsOf w0 57 57 * 2 ^ 9 + bitsOf w0 58 58 * 2 ^ 8 + bitsOf w0 62 61 * 2 ^ 6 + bitsOf w0 60 59 * 2 ^ 4 =
      (if (handleOf k w0 true).seg then 2 ^ 9 else 0) + (if (handleOf k w0 true).wr then 2 ^ 8 else 0) +
        (handleOf k w0 true).kind.toNat * 2 ^ 6 + (handleOf k w0 true).size.toNat * 2 ^ 4 := by
  have field (hi lo : Nat) (hw : hi - lo + 1 = 2) : (BitVec.ofNat 2 (bitsOf w0 hi lo)).toNat = bitsOf w0 hi lo := by
    have := bitsOf_lt w0 hi lo
    rw [hw] at this
    rw [BitVec.toNat_ofNat, Nat.mod_eq_of_lt this]
  simp only [handleOf, decide_eq_true_eq, field 62 61 rfl, field 60 59 rfl, bitsOf_flag w0 57, bitsOf_flag w0 58]

theorem handle_words : Claims.HandleWords := by
  intro s s0 tk rd hn hm ra h old
  refine ⟨fun va s1 hra => ?_, aWord_retires h rfl rfl, ?_, ?_⟩
  · have hxlate {r : Res State} := aWord_retires (r := r) h (show exec (.xlate tk rd hn ra) s = answer _ from rfl)
    refine ⟨fun hva => hxlate ?_, fun hva hfound => hxlate ?_, fun k w0 hva hfound => hxlate ?_⟩
    · simp only [hra, Res.ok_bind, ne_eq, bitsOf_top_byte, Nat.not_lt.2 hva, not_false_eq_true, if_true]
      rfl
    · simp only [hra, Res.ok_bind, ne_eq, bitsOf_top_byte, hva, not_true_eq_false, if_false, hfound]
      rfl
    · simp only [hra, Res.ok_bind, ne_eq, bitsOf_top_byte, hva, not_true_eq_false, if_false, hfound, xlate_result k w0]
      rfl
  · exact aWord_retires (r := .ok (s0.setHandle hn.toNat { s0.handle hn.toNat with valid := false })) h rfl rfl
  · exact aWord_retires (r := .ok (s0.setHandle hn.toNat (s0.handle hm.toNat))) h rfl rfl

end Sys2Proof.Machine
end

section
namespace Sys2Proof.Machine

/-! ## Page requests, prefetch, scoreboard queries and the wait on copies (R142-R146) -/

/-- Element `k` of packed elements. -/
theorem packElems_elem (b : Nat) : ∀ (l : List Nat) (k : Nat), packElems b l / 2 ^ (b * k) % 2 ^ b = l.getD k 0 % 2 ^ b
  | [], k => by simp [packElems]
  | x :: r, 0 => by simp [packElems, Nat.add_mul_mod_self_left]
  | x :: r, k + 1 => by
    have hlow : (x % 2 ^ b + 2 ^ b * packElems b r) / 2 ^ b = packElems b r := by
      rw [Nat.add_mul_div_left _ _ (Nat.two_pow_pos b), Nat.div_eq_of_lt (Nat.mod_lt _ (Nat.two_pow_pos b)), Nat.zero_add]
    rw [packElems, Nat.mul_succ, Nat.add_comm (b * k), pow_add, ← Nat.div_div_eq_div_mul, hlow, packElems_elem b r k]
    rfl

theorem packElems_lt (b : Nat) : ∀ l : List Nat, packElems b l < 2 ^ (b * l.length)
  | [] => by simp [packElems]
  | x :: r => by
    have hlow := Nat.mod_lt x (Nat.two_pow_pos b)
    have hhigh := Nat.mul_le_mul_left (2 ^ b) (Nat.succ_le_of_lt (packElems_lt b r))
    rw [packElems, List.length_cons, Nat.mul_succ, pow_add, Nat.mul_comm (2 ^ (b * r.length))]
    rw [Nat.mul_succ] at hhigh
    omega

/-- The flags of the 16 copy commands of a crew, packed: flag `i` is bit `i`. -/
theorem packElems_copies (c : Crew) (p : CopyCmd → Bool) :
    packElems 1 (c.copies.toList.map fun e => if p e then 1 else 0) < 2 ^ 16 ∧
      ∀ i : Fin 16, (packElems 1 (c.copies.toList.map fun e => if p e then 1 else 0)).testBit i = p (c.copies.get i) := by
  refine ⟨by simpa using packElems_lt 1 (c.copies.toList.map fun e => if p e then 1 else 0), fun i => ?_⟩
  have hbit := packElems_elem 1 (c.copies.toList.map fun e => if p e then 1 else 0) i
  rw [Nat.one_mul, pow_one] at hbit
  rw [Nat.testBit_eq_decide_div_mod_eq, hbit, Vector.get_eq_getElem]
  simp only [List.getD_eq_getElem?_getD, List.getElem?_map, Vector.getElem?_toList, Vector.getElem?_eq_getElem i.isLt, Option.map_some,
    Option.getD_some]
  cases p c.copies[i.val] <;> rfl

/-- SCBWAIT at its issue has nothing to wait for where every entry that its mask names is free (R146). -/
theorem scbwait_names_nothing {c : Crew} {m : Word}
    (hfree : ∀ i : Fin 16, (m.toNat % 2 ^ 16 = 0 ∨ m.toNat.testBit i = true) → (c.copies.get i).state = .free) :
    (c.copies.toList.zipIdx.filterMap fun e =>
      if e.1.state ≠ .free && (m.toNat % 65536 = 0 || m.toNat / 2 ^ e.2 % 2 = 1) then some (e.1.order * 16 + e.2) else none) = [] := by
  refine List.filterMap_eq_nil_iff.2 fun e he => if_neg ?_
  obtain ⟨hlt, he⟩ := List.getElem?_eq_some_iff.1 (List.mem_zipIdx_iff_getElem?.1 he)
  have hi : e.2 < 16 := by simpa using hlt
  have hentry := hfree ⟨e.2, hi⟩
  rw [Vector.get_eq_getElem, Nat.testBit_eq_decide_div_mod_eq, ← Vector.getElem_toList (by simpa using hi), he, decide_eq_true_eq] at hentry
  simp only [Bool.and_eq_true, decide_eq_true_eq, Bool.or_eq_true, not_and]
  exact fun hstate hnamed => hstate (hentry hnamed)

theorem requests_and_queries : Claims.RequestsAndQueries := by
  intro s s0 s1 tk rd ra rb h len space a hw hra found hd
  have hpreq {r : Res State} := aWord_retires (r := r) hw (show exec (.preq tk rd ra) s = answer _ from rfl)
  have hpref {r : Res State} := aWord_retires (r := r) hw (show exec (.pref tk h ra len) s = answer _ from rfl)
  refine ⟨fun ha => hpreq ?_, fun ha hfound => hpreq ?_, fun ha hfound => hpreq ?_, fun hdrop => hpref (r := .ok s1) ?_,
    fun hvalid hkind hin => hpref (r := .ok _) ?_, fun n s2 hrb => ?_, fun hpend hfree => ?_⟩
  · simp only [hra, Res.ok_bind, ne_eq, bitsOf_top_byte, Nat.not_lt.2 ha, not_false_eq_true, if_true]
    rfl
  · simp only [found] at hfound
    simp only [hra, Res.ok_bind, ne_eq, bitsOf_top_byte, ha, not_true_eq_false, if_false, hfound, if_true]
    rfl
  · simp only [found] at hfound
    simp only [hra, Res.ok_bind, ne_eq, bitsOf_top_byte, ha, not_true_eq_false, if_false, hfound, Option.isSome_none, Bool.false_eq_true]
    rfl
  · simp only [hra, Res.ok_bind, Bool.or_eq_true, Bool.not_eq_true', decide_eq_true_eq, or_assoc]
    exact if_pos hdrop
  · simp only [hra, Res.ok_bind, List.foldl_map]
    refine if_neg ?_
    show ¬ (!hd.valid || decide (hd.kind = 0) || decide (pageBytes hd.size ≤ a.toNat)) = true
    rw [hvalid, decide_eq_false hkind, decide_eq_false (Nat.not_le.2 hin)]
    decide
  · intro pa bytes
    obtain ⟨hlt, hbits⟩ := packElems_copies s0.myCrew fun e => e.overlaps pa bytes
    refine ⟨_, _, aWord_retires hw rfl ?_, hlt, hbits, rfl⟩
    simp only [hra, hrb, Res.ok_bind]
    by_cases hspace : space = 1 <;> simp only [pa, bytes, hspace] <;> rfl
  · refine aWord_retires (r := .ok s1) hw rfl ?_
    simp only [hra, Res.ok_bind, hpend, scbwait_names_nothing hfree]
    rfl

/-! ## The requester timers (R152) -/

section
variable {s : State} {id t : Nat} {r : Req} (hin : s.inp = [id]) (hlook : look id s.reqs = some r)
include hin hlook

/-- A request whose timer has not reached its interval goes on (R152). -/
theorem requesterTimeout_early (h : s.expired r = false) : exec .requesterTimeout s = .next s := by
  show answer _ = _
  simp only [hin, List.getD_cons_zero, hlook, h, Bool.not_false, Bool.or_true, if_true]
  rfl

/-- A request of a word that has had no reply in time ends with status 2, and its tag rests (R152). -/
theorem requesterTimeout_ends (h : s.expired r = true) (htag : r.tag = some t) (hreply : r.reply = none) (hplain : r.purpose = .plain)
    (hmark : r.mark = false) :
    exec .requesterTimeout s = .next ({ s with
      tagGen := put (tagKey r.die r.unit r.cls t) ((r.gen + 1) % 16) s.tagGen
      tagRest := put (tagKey r.die r.unit r.cls t) (s.cycle + (s.die r.die).interval) s.tagRest
      reqs := put id { r with reply := some ⟨2, 0, 0⟩, tag := none } s.reqs }.pump) := by
  show answer _ = _
  simp only [hin, List.getD_cons_zero, hlook, h, hreply, hmark, Option.isSome_none, Bool.not_true, Bool.or_false, Bool.false_and,
    Bool.false_eq_true, if_false, State.restTag, htag, State.deliver, State.conclude, hplain]
  rfl

end

theorem requester_timers : Claims.RequesterTimers := by
  intro s
  refine ⟨fun id t r hin hlook htag hreply hwaits hplain hmark => ?_, fun key t hin hlook => ?_⟩
  · have hexpired : s.expired r = decide (r.sent + (s.die r.die).interval ≤ s.cycle) := by
      simp only [← or_assoc] at hwaits
      simp [State.expired, htag, hwaits]
    refine ⟨fun hearly => requesterTimeout_early hin hlook ?_, fun hlate => requesterTimeout_ends hin hlook ?_ htag hreply hplain hmark⟩
    · rw [hexpired, decide_eq_false (by omega)]
    · rw [hexpired, decide_eq_true hlate]
  · refine ⟨fun hrested => ?_, fun hrests => ?_⟩
    · show answer _ = _
      simp only [hin, List.getD_cons_zero, hlook, Nat.not_lt.2 hrested, if_false]
      rfl
    · show answer _ = _
      simp only [hin, List.getD_cons_zero, hlook, hrests, if_true]
      rfl

/-- Settles O26: each word comes to the branch of its body that its operands choose; a mask of entries is read bit by bit; and a timer
that has run out rests its tag and delivers status 2. That PREQ's results 3 and 1 come before the 2 of an area with no records is the
model's choice (log 65). -/
theorem handlesAndRequesters : Obligations.HandlesAndRequesters := ⟨handle_words, requests_and_queries, requester_timers⟩

end Sys2Proof.Machine
end

section
namespace Sys2Proof.Machine

/-! ## Load streams (R147-R150) -/

theorem unboundQueue_free {q : Nat} {s : State} (h : (s.strand s.cur).loadStream q = none) : unboundQueue q s = .ok () := by
  rw [unboundQueue, h]
  rfl

@[simp] theorem Strand.setLoadStream_setLoadStream (st : Strand) (q : Nat) (x y : Option AffineStream) :
    (st.setLoadStream q x).setLoadStream q y = st.setLoadStream q y := by
  by_cases h : q = 0 <;> simp [Strand.setLoadStream, h]

theorem AffineStream.ended_iff {x : AffineStream} : x.ended = true ↔ x.count ≤ x.next ∧ x.flight = none := by
  simp [AffineStream.ended]

/-! ### The stream words -/

section
variable {s s0 : State} {tk : BitVec 4} {q : BitVec 1} (h : AWord s tk s0)
include h

/-- SBIND of a free queue with a descriptor that it can read (R148). -/
theorem sbind_words {ra : BitVec 5} {a : Word} {s1 : State} {desc : Vector Word 8} (hacq : s.acquired = true)
    (hra : readReg ra s0 = .ok (a, s1)) (hal : a.toNat % 64 = 0) (hfree : (s0.strand s0.cur).loadStream q.toNat = none)
    (hdesc : readDescr a.toNat 0x23 0x28 s0 = .ok desc) :
    (∀ r, streamFault s0.myCrew s0.handle (descrOf desc) = some r →
      exec (.sbind tk q ra) s = .next (s.takeTrap 0x29 (a + BitVec.ofNat 64 (2 ^ 32 * r)))) ∧
    (streamFault s0.myCrew s0.handle (descrOf desc) = none →
      Retires (.sbind tk q ra) s (giveTokens tk (s1.setStrand s.cur ((s1.strand s.cur).setLoadStream q.toNat (some
        { desc := desc, handle := s0.handle ((desc[1]).toNat % 8), word := s0.pc, next := 0, count := (descrOf desc).total
          pushed := 0, flight := none, place := 0, began := 0, reqs := [], stopped := none }))))) := by
  rw [← aWord_cur h]
  refine ⟨fun r hr => loadWord_traps h hacq rfl ?_, fun hr => loadWord_retires (r := .ok _) h hacq rfl ?_⟩
  · simp only [hra, Res.ok_bind, hal, unboundQueue_free hfree, hdesc, hr]
    rfl
  · simp only [hra, Res.ok_bind, hal, unboundQueue_free hfree, hdesc, hr]
    simp only [descrOf, bitsOf, pow_zero, Nat.div_one]
    rfl

/-- The stream words of a queue that has no stream (R149, R150). -/
theorem free_queue_words {rd : BitVec 5} (hfree : (s0.strand s0.cur).loadStream q.toNat = none) :
    Retires (.sunbind tk q) s (giveTokens tk s0) ∧ Retires (.sbwait tk q) s (giveTokens tk s0) ∧
      WritesReg (.sbget tk q rd) s tk rd 0 s0 := by
  refine ⟨aWord_retires (r := .ok s0) h rfl ?_, aWord_retires (r := .ok s0) h rfl ?_, aWord_retires h rfl ?_⟩ <;>
    simp only [hfree] <;> rfl

variable {x : AffineStream} (hx : (s0.strand s0.cur).loadStream q.toNat = some x)
include hx

theorem sbget_bound (rd : BitVec 5) : WritesReg (.sbget tk q rd) s tk rd (BitVec.ofNat 64 (2 ^ 63 + x.pushed % 2 ^ 32)) s0 := by
  refine aWord_retires h rfl ?_
  simp only [hx]
  rfl

theorem sunbind_bound (hflight : x.flight = none) :
    Retires (.sunbind tk q) s (giveTokens tk (s0.setStrand s0.cur ((s0.strand s0.cur).setLoadStream q.toNat none))) := by
  refine aWord_retires (r := .ok _) h rfl ?_
  simp only [hx, hflight]
  rfl

theorem sbwait_ended (hend : x.ended = true) : Retires (.sbwait tk q) s (giveTokens tk s0) := by
  refine aWord_retires (r := .ok s0) h rfl ?_
  simp only [hx, hend]
  rfl

theorem sbwait_going (hend : ¬ x.ended = true) : exec (.sbwait tk q) s = .next (s.waitOn .dataQueue) := by
  refine aWord_waits h rfl ?_
  simp only [hx, hend]
  rfl

omit hx in
theorem sbadv_bound {ra : BitVec 5} {n : Word} {s1 : State} (hra : readReg ra s0 = .ok (n, s1))
    (hx : (s1.strand s.cur).loadStream q.toNat = some x) :
    Retires (.sbadv tk q ra) s (giveTokens tk (s1.setStrand s.cur ((s1.strand s.cur).setLoadStream q.toNat (some
      { x with next := x.next + min n.toNat (x.count - x.next) })))) := by
  rw [← aWord_cur h] at hx ⊢
  refine aWord_retires (r := .ok _) h rfl ?_
  simp only [hra, Res.ok_bind, hx]
  rfl

end

theorem load_streams : Claims.LoadStreams := by
  intro s s0 s1 tk q rd ra h st
  refine ⟨fun a desc hacq hra hal hfree hdesc => sbind_words h hacq hra hal hfree hdesc, free_queue_words h, fun x hx =>
    ⟨sbget_bound h hx rd, sunbind_bound h hx, fun hcount hflight => ?_, fun hgoing => ?_, fun n hra => sbadv_bound h hra⟩⟩
  · exact sbwait_ended h hx (AffineStream.ended_iff.2 ⟨hcount, hflight⟩)
  · refine sbwait_going h hx fun hend => ?_
    obtain ⟨hcount, hflight⟩ := AffineStream.ended_iff.1 hend
    exact hgoing.elim (Nat.not_lt.2 hcount) fun hne => hne hflight

/-! ### LOAD_STREAM_FETCH (R149) -/

/-- A stream of the scratchpad delivers the vector that it reads. -/
theorem fetchVector_scratch {x : AffineStream} {k q v : Nat} {s : State} (hspace : bitsOf (descrOf x.desc).ctrl 8 8 = 1)
    (hreqs : x.reqs = [])
    (hv : scratchVector (BitVec.ofNat 2 (bitsOf (descrOf x.desc).ctrl 7 6)) (decide (bitsOf (descrOf x.desc).ctrl 9 9 = 1))
      ((descrOf x.desc).addr k).toNat s = .ok v) :
    fetchVector x k q s = s.setStrand s.cur
      (((s.strand s.cur).setLoadStream q (some { x with flight := none, pushed := x.pushed + 1 })).pushVAX q (plainEntry v)) := by
  simp only [fetchVector, hspace, if_true, hv, fetchEntry, hreqs]
  rfl

/-- The A stream of the executing strand. -/
def Ctx.asA (c : Ctx) : Ctx := { c with str := .a, rot := false }

/-- A load stream that begins its next vector (R149). -/
def AffineStream.begun (x : AffineStream) (place order : Nat) : AffineStream :=
  { x with flight := some x.next, next := x.next + 1, place := place, began := order }

section
variable {s : State} {q : Nat} {st : Strand} {x : AffineStream} (hin : s.inp.getD 0 0 % 2 = q) (hst : s.strand? s.cur.asA = some st)
  (hx : st.loadStream q = some x) (hflight : x.flight = none)
include hin hst hx hflight

/-- A stream that is at its end or held, or whose queue is full, begins no vector (R149). -/
theorem loadStreamFetch_stays
    (h : x.count ≤ x.next ∨ 8 ≤ (st.vAX q).length ∨ (s.crew s.cur.asA.die s.cur.asA.polder).halted = true) :
    exec .loadStreamFetch s = .next s := by
  refine congrArg answer ?_
  dsimp only
  simp only [Ctx.asA] at hst
  simp only [hin, hst, hx, hflight]
  refine if_pos ?_
  simp only [Bool.or_eq_true, decide_eq_true_eq]
  tauto

/-- A stream with vectors left, room in its queue and nothing that holds it begins its next vector and fetches it (R149). -/
theorem loadStreamFetch_begins (hmore : x.next < x.count) (hroom : (st.vAX q).length < 8) (hfence : st.a.fencePaths = none)
    (hgoing : (s.crew s.cur.asA.die s.cur.asA.polder).halted = false) (hacq : ({ s with cur := s.cur.asA } : State).acquired = true) :
    exec .loadStreamFetch s = .next (fetchVector (x.begun st.a.seq s.reqNo) x.next q
      (({ s with cur := s.cur.asA, reqNo := s.reqNo + 1 } : State).setStrand s.cur.asA
        (st.setLoadStream q (some (x.begun st.a.seq s.reqNo))))) := by
  refine congrArg answer ?_
  dsimp only
  simp only [Ctx.asA] at hst hgoing hacq
  simp only [hin, hst, hx, hflight, hfence, hgoing, hacq, Nat.not_le.2 hmore, Nat.not_le.2 hroom,
    decide_false, Bool.not_true, Bool.or_self, Bool.false_eq_true, if_false]
  rfl

end

theorem load_stream_fetch : Claims.LoadStreamFetch := by
  intro s q x c st a d begun hin hq hst hx hflight hreqs
  have hqueue : s.inp.getD 0 0 % 2 = q := by
    rw [hin]
    exact Nat.mod_eq_of_lt hq
  refine ⟨fun hmore hroom hfence hgoing hacq hspace v hv => ?_, loadStreamFetch_stays hqueue hst hx hflight⟩
  have hfetch := fetchVector_scratch (x := begun) (q := q) hspace hreqs hv
  simp only [State.setStrand_cur, State.strand_setStrand, State.setStrand_setStrand, Strand.setLoadStream_setLoadStream, a] at hfetch
  refine ⟨_, (loadStreamFetch_begins hqueue hst hx hflight hmore hroom hfence hgoing hacq).trans (congrArg _ hfetch), ?_, fun _ => rfl⟩
  exact State.strand_setStrand _ _ _

/-- Settles O27: a bound stream is read as it stands in its strand; and a fetch is the stream begun at its next vector, which a stream
of the scratchpad delivers at once. -/
theorem loadStreamsPush : Obligations.LoadStreamsPush := ⟨load_streams, load_stream_fetch⟩

end Sys2Proof.Machine
end

section
namespace Sys2Proof.Machine

/-! ## Vector loads (R128, R132-R134) -/

/-! ### The units of a vector load (R132, R133) -/

/-- A unit of a row has 1, 2 or 4 bytes, and 512 bytes are so many of them (R132). -/
theorem rowUnit_dvd (width : BitVec 2) : max (laneBytes width) 1 ∣ 512 := by
  revert width
  decide

section
variable {v : VLoad} {s s1 : State} {off : Word} (hoff : readReg v.ra s = .ok (off, s1)) (hv : (s.handle v.h.toNat).valid = true)
include hoff hv

/-- LDV: the units lie one after the other from the offset up (R132). -/
theorem vloadSources_row (hform : v.form = 1) (hin : off.toNat + 512 ≤ pageBytes (s.handle v.h.toNat).size) :
    vloadSources v s = .ok ((List.range (512 / max (laneBytes v.width) 1)).map (fun i =>
      .at ((s.handle v.h.toNat).base.toNat + off.toNat + i * max (laneBytes v.width) 1)), max (laneBytes v.width) 1, s1) := by
  simp only [vloadSources, hoff, Res.ok_bind, hform, if_true, handleCheck_inside hv v.h.toNat hin]
  rfl

variable {b : Word} {s2 : State} (hb : readReg v.rb s1 = .ok (b, s2))
include hb

/-- LDVS: the units lie a stride from one to the next (R132). -/
theorem vloadSources_stride (hform : v.form = 2)
    (hin : ∀ i : Nat, i < laneCount v.width → 0 ≤ (off.toNat : Int) + i * b.toInt ∧
      (off.toNat : Int) + i * b.toInt + laneBytes v.width ≤ pageBytes (s.handle v.h.toNat).size) :
    vloadSources v s = .ok ((List.range (laneCount v.width)).map (fun i : Nat =>
      .at ((s.handle v.h.toNat).base.toNat + ((off.toNat : Int) + i * b.toInt).toNat)), laneBytes v.width, s2) := by
  have hchecks : (List.range (laneCount v.width)).mapM (fun i : Nat =>
      handleCheck (s.handle v.h.toNat) v.h.toNat ((off.toNat : Int) + (i : Int) * b.toInt) (laneBytes v.width)) =
        .ok ((List.range (laneCount v.width)).map fun i : Nat =>
          (s.handle v.h.toNat).base.toNat + ((off.toNat : Int) + i * b.toInt).toNat) := by
    refine Res.mapM_ok fun i hi => ?_
    obtain ⟨hlow, hhigh⟩ := hin i (List.mem_range.1 hi)
    have h := handleCheck_inside hv v.h.toNat (off := ((off.toNat : Int) + i * b.toInt).toNat) (len := laneBytes v.width) (by omega)
    rwa [Int.toNat_of_nonneg hlow] at h
  simp only [vloadSources, hoff, hb, Res.ok_bind, hform, hchecks]
  simp only [List.map_map]
  rfl

/-- LDVG: an index of all ones is a null unit, and one past the page a failing unit (R133). -/
theorem vloadSources_gather (hform : v.form = 3) {idx : List Nat} (hidx : indexList b.toNat (laneCount v.width) s = .ok idx) :
    vloadSources v s = .ok (idx.map (fun i =>
      if i = 2 ^ 32 - 1 then Source.null
      else if pageBytes (s.handle v.h.toNat).size < off.toNat + i * laneBytes v.width + laneBytes v.width then .past
      else .at ((s.handle v.h.toNat).base.toNat + off.toNat + i * laneBytes v.width)), laneBytes v.width, s2) := by
  simp only [vloadSources, hoff, hb, Res.ok_bind, hform, hv, hidx]
  rfl

end

theorem vector_addresses : Claims.VectorAddresses := by
  intro s s1 s2 v off b _ hoff hd w n page
  refine ⟨fun hform hv hin => ⟨_, vloadSources_row hoff hv hform hin, ?_, fun i hi => ?_⟩,
    fun hform hb hv hin => ⟨_, vloadSources_stride hoff hv hb hform hin, ?_, fun i hi => ?_⟩,
    fun hform hb hv idx hidx => vloadSources_gather hoff hv hb hform hidx⟩
  · rw [List.length_map, List.length_range]
    exact Nat.div_mul_cancel (rowUnit_dvd v.width)
  · rw [List.length_map, List.length_range] at hi
    rw [List.getElem?_map, List.getElem?_range hi]
    rfl
  · rw [List.length_map, List.length_range]
    rfl
  · rw [List.getElem?_map, List.getElem?_range (show i < laneCount v.width from hi)]
    rfl

/-! ### The turn of a vector load word (R128, R132-R134) -/

/-- What a vector load does with what its fetch came to: a word, with its work still to be completed, stays in progress; the
completion delivers the vector (R128). -/
def VLoad.afterFetch (v : VLoad) (complete wide : Bool) (us : List Source) (w : Nat) (s0 : State) : Fetch → Res Eff
  | .stay t => .ok (.stay t)
  | .got rs ids t =>
    if complete then
      lanesOf us w rs >>= fun lanes => deliverVector lanes v.width w v.q.toNat v.statp t >>= fun t1 =>
        .ok (.next (if wide then (t1.forgetAll ids).invalidateContext (t1.forgetAll ids).cur else t1.forgetAll ids))
    else if s0.pending.isSome then .ok (.stay s0)
    else .ok (.stay (s0.setPending { ids := [], data := v.toList }))

section
variable {v : VLoad} {s s0 s1 : State} {us : List Source} {w : Nat}
  (hfree : (s0.strand s0.cur).loadStream v.q.toNat = none) (hsrc : vloadSources v s0 = .ok (us, w, s1))
  (hrow : v.form = 1 → ∀ r ∈ (sourceRanges us w).head?, s0.bankSplit s0.cur.die r.1 512 = none)
  (hunits : v.form ≠ 1 → ∀ r ∈ sourceRanges us w, s0.bankSplit s0.cur.die r.1 r.2 = none)
include hfree hsrc hrow hunits

/-- A vector load whose units lie within one format fetches their sectors (R132-R134). -/
theorem vectorLoad_eq (complete : Bool) :
    vectorLoad v complete s s0 =
      fetchRanges readDieReg (s0.reader (s0.handle v.h.toNat).kind v.acq.isSome) (v.acq.any dieScope)
        (decide (((s0.strand s0.cur).vAX v.q.toNat).length < 8)) (sourceRanges us w) v.toList s s1 >>=
          v.afterFetch complete (v.acq.any dieScope) us w s := by
  simp only [vectorLoad, unboundQueue_free hfree, hsrc, Res.ok_bind]
  split
  · rename_i u hsplit
    exfalso
    by_cases hform : v.form = 1
    · rw [if_pos hform] at hsplit
      split at hsplit
      · rename_i hranges
        exact absurd ((hrow hform _ (by rw [hranges]; rfl)).symm.trans hsplit) (Option.some_ne_none u).symm
      · cases hsplit
    · rw [if_neg hform, List.findSome?_eq_none_iff.2 (hunits hform)] at hsplit
      cases hsplit
  · cases v.acq <;> rfl

end

theorem vector_loads_issue : Claims.VectorLoadsIssue := by
  intro s s0 s1 tk q width h ra rb scope statp us w hw hacq hpend hfree issues
  have issue (i : Instr) (v : VLoad) (mark : Marking) (hi : exec i s = answer (vectorLoadWord mark v s)) (htk : v.tk = tk)
      (hq : v.q = q) (hh : v.h = h) (hscope : v.acq.any dieScope = decide (v.acq.isSome ∧ 3 ≤ scope.toNat)) : issues i v := by
    subst htk hq hh
    intro hsrc hrow hunits fetched
    have hload := vectorLoad_eq (s := s) hfree hsrc hrow hunits false
    rw [hscope] at hload
    refine ⟨fun t ht => loadWord_stays hw hacq hi ?_, fun rs ids t ht => loadWord_stays hw hacq hi ?_⟩
    · rw [hload, show fetchRanges _ _ _ _ _ _ _ _ = .ok (.stay t) from ht]
      rfl
    · rw [hload, show fetchRanges _ _ _ _ _ _ _ _ = .ok (.got rs ids t) from ht, Res.ok_bind]
      simp only [VLoad.afterFetch, hpend]
      rfl
  have someScope : (some scope).any dieScope = decide ((some scope).isSome ∧ 3 ≤ scope.toNat) := by simp [dieScope]
  exact ⟨issue _ _ markLoad rfl rfl rfl rfl (by simp), issue _ _ markLoadAcq rfl rfl rfl rfl someScope,
    issue _ _ markLoad rfl rfl rfl rfl (by simp), issue _ _ markLoad rfl rfl rfl rfl (by simp)⟩

/-! ### The completion of a vector load (R128) -/

@[simp] theorem VLoad.ofList_toList (v : VLoad) : VLoad.ofList v.toList = some v := by
  obtain ⟨form, tk, q, width, h, ra, rb, acq, statp⟩ := v
  cases acq <;> simp [VLoad.toList, VLoad.ofList]

/-- A strand whose A stream has work in progress is there. -/
theorem State.strand?_of_pend {s : State} {c : Ctx} {p : Pend} (h : (s.strand c).a.pend = some p) : s.strand? c = some (s.strand c) := by
  cases hst : s.strand? c with
  | none =>
    rw [State.strand, hst] at h
    cases h
  | some st => rw [State.strand, hst, Option.getD_some]

/-- The completion runs the rest of the vector load that the A stream has in progress (R128). -/
theorem vectorLoadComplete_eq {s : State} {p : Pend} {v : VLoad} (hp : (s.strand s.cur.asA).a.pend = some p) (hv : p.data = v.toList) :
    exec .vectorLoadComplete s =
      answer (runWord 1 (fun _ => true) v.tk (vectorLoad v true) { s with cur := s.cur.asA }) := by
  refine congrArg answer ?_
  dsimp only
  have hst := State.strand?_of_pend hp
  simp only [Ctx.asA] at hst hp
  simp only [hst, Option.bind_some, hp, hv, VLoad.ofList_toList]
  rfl

/-! #### The entry of a vector -/

theorem lanes_ok : ∀ {lanes : List Lane}, (∀ l ∈ lanes, ∃ x, l = .ok x) → ∃ xs : List Nat, lanes = xs.map .ok
  | [], _ => ⟨[], rfl⟩
  | l :: r, h => by
    obtain ⟨x, rfl⟩ := h l (by simp)
    obtain ⟨xs, rfl⟩ := lanes_ok fun l hl => h l (List.mem_cons_of_mem _ hl)
    exact ⟨x :: xs, rfl⟩

/-- A field that lies within the bits of a word is what it was before the cut to the word's bits. -/
theorem field_ofNat {m b k : Nat} (n : Nat) (h : (k + 1) * b ≤ m) :
    (BitVec.ofNat m n).toNat / 2 ^ (b * k) % 2 ^ b = n / 2 ^ (b * k) % 2 ^ b := by
  rw [Nat.succ_mul, Nat.mul_comm k] at h
  rw [BitVec.toNat_ofNat, show m = b * k + (m - b * k) by omega, pow_add, Nat.mod_mul_right_div_self,
    Nat.mod_mod_of_dvd _ (pow_dvd_pow 2 (by omega))]

/-- An element of packed elements that lies within a vector. -/
theorem lane_packElems {b k : Nat} (xs : List Nat) (h : (k + 1) * b ≤ 4096) :
    lane b k (BitVec.ofNat 4096 (packElems b xs)) = xs.getD k 0 % 2 ^ b :=
  (field_ofNat _ h).trans (packElems_elem b xs k)

theorem packElems_zeros (b n : Nat) : packElems b (List.replicate n 0) = 0 := by
  induction n with
  | zero => rfl
  | succ n ih => simp [List.replicate_succ, packElems, ih]

/-- A vector all of whose units have their data fails nowhere (R128). -/
theorem completeVector_ok (xs : List Nat) (per bits : Nat) (statp : BitVec 4) :
    completeVector (xs.map .ok) per bits statp =
      .ok ({ data := BitVec.ofNat 4096 (packElems bits xs), statp := statp, mask := 0, fail := none, poison := false }, none) := by
  have hbad : xs.findSome? (fun _ => (none : Option (Nat × Nat × Word))) = none := by simp
  have hdata : xs.map (fun x : Nat => x) = xs := List.map_id' xs
  have hmask : xs.map (fun _ : Nat => 0) = List.replicate xs.length 0 := List.map_const'
  simp only [completeVector, List.map_map, Function.comp_def, hdata, hmask, packElems_zeros, List.findSome?_map, hbad]
  rfl

/-- An entry pushed into an A-to-X queue with room, with the hazard detector off (R75, R78). -/
theorem pushVector_room {q : Nat} {s : State} (hroom : ((s.strand s.cur).vAX q).length < 8)
    (hdebug : (s.crew s.cur.die s.cur.polder).debug = false) (e : VEntry) :
    pushVector q e s = .ok (s.setStrand s.cur ((s.strand s.cur).pushVAX q e)) := by
  simp only [pushVector, pushQueue_off hdebug, if_neg (Nat.not_le.2 hroom)]
  rfl

/-- A vector all of whose units have their data is pushed as one entry that holds them (R128). -/
theorem deliverVector_ok {lanes : List Lane} {width : BitVec 2} {w q : Nat} {statp : BitVec 4} {s : State}
    (hok : ∀ l ∈ lanes, ∃ x, l = .ok x) (hroom : ((s.strand s.cur).vAX q).length < 8)
    (hdebug : (s.crew s.cur.die s.cur.polder).debug = false) :
    ∃ e : VEntry, deliverVector lanes width w q statp s = .ok (s.setStrand s.cur ((s.strand s.cur).pushVAX q e)) ∧
      e.statp = statp ∧ e.fail = none ∧ e.poison = false ∧ e.mask = 0 ∧
      ∀ k x, lanes[k]? = some (.ok x) → (k + 1) * (8 * w) ≤ 4096 → lane (8 * w) k e.data = x % 2 ^ (8 * w) := by
  obtain ⟨xs, rfl⟩ := lanes_ok hok
  refine ⟨{ data := BitVec.ofNat 4096 (packElems (8 * w) xs), statp := statp, mask := 0, fail := none, poison := false }, ?_, rfl, rfl, rfl,
    rfl, fun k x hk hin => ?_⟩
  · simp only [deliverVector, completeVector_ok, Res.ok_bind]
    exact pushVector_room hroom hdebug _
  · rw [List.getElem?_map, Option.map_eq_some_iff] at hk
    obtain ⟨y, hy, hyx⟩ := hk
    cases hyx
    rw [lane_packElems xs hin, List.getD_eq_getElem?_getD, hy, Option.getD_some]

theorem vector_loads_complete : Claims.VectorLoadsComplete := by
  intro s s0 s1 t v us w rs ids lanes c a ha hp hfree hsrc hrow hunits wide hfetch hlanes
  obtain ⟨⟨hruns, hdue, hrot, _⟩, htake⟩ := id ha
  obtain ⟨p, hp, hdata⟩ := hp
  have hcur : s0.cur = c := aWord_cur ha
  have hwide : wide = v.acq.any dieScope := by
    simp only [wide]
    cases v.acq <;> rfl
  rw [hwide] at hfetch ⊢
  refine ⟨fun t1 t2 hdeliver hgive => ?_, fun hok hroom hdebug htcur => ?_⟩
  · have hload := vectorLoad_eq (s := a) (hcur ▸ hfree) hsrc (hcur ▸ hrow) (hcur ▸ hunits) true
    rw [hcur, hfetch, Res.ok_bind] at hload
    simp only [VLoad.afterFetch, hlanes, hdeliver, Res.ok_bind, if_true] at hload
    exact (vectorLoadComplete_eq hp hdata).trans
      (congrArg answer (runWordM_retires (mine := fun _ => true) ⟨hruns, hdue, hrot, rfl⟩ htake markNone 1 hload hgive))
  · have := deliverVector_ok (width := v.width) (w := w) (q := v.q.toNat) (statp := v.statp) (s := t) hok
    rw [htcur] at this
    exact this hroom hdebug

/-! ## Scratchpad loads (R135-R137) -/

theorem inScratch_inside {s : State} {u n : Nat} (h : u + n ≤ s.myCrew.scratchBytes) (info : Nat) : inScratch s u n info = .ok () := by
  rw [inScratch, if_neg (Nat.not_lt.2 h)]
  rfl

theorem inScratch_beyond {s : State} {u n : Nat} (h : s.myCrew.scratchBytes < u + n) (info : Nat) :
    inScratch s u n info = trap 0x28 (BitVec.ofNat 64 info) := by
  rw [inScratch, if_pos h]

theorem scratchRead_good {s : State} {u n : Nat} (h : s.poisonIn (s.scratchPa u) n = none) :
    scratchRead s u n = .ok (s.readN (s.scratchPa u) n) := by
  simp only [scratchRead, h]
  rfl

section
variable {s s0 s1 : State} {tk : BitVec 4} {ra : BitVec 5} {a : Word} (hw : AWord s tk s0) (hacq : s.acquired = true)
  (hra : readReg ra s0 = .ok (a, s1))
include hw hacq hra

/-- LDP of an aligned value within the scratchpad, which it extends (R135). -/
theorem ldp_retires {size : BitVec 2} {rd : BitVec 5} (u : BitVec 1) (hin : a.toNat < s0.myCrew.scratchBytes)
    (hal : a.toNat % 2 ^ size.toNat = 0) (hheld : s0.scoreboardHolds [(s0.scratchPa a.toNat, 2 ^ size.toNat)] = false)
    (hgood : s0.poisonIn (s0.scratchPa a.toNat) (2 ^ size.toNat) = none) :
    WritesReg (.ldp tk rd ra size u) s tk rd (extendLoad (s0.readN (s0.scratchPa a.toNat) (2 ^ size.toNat)) (2 ^ size.toNat) u) s1 := by
  refine loadWord_retires hw hacq rfl ?_
  simp only [hra, Res.ok_bind, inScratch_inside (n := 1) hin, hal, hheld, scratchRead_good hgood]
  rfl

/-- LDP of a misaligned address within the scratchpad traps (R135). -/
theorem ldp_misaligned {size : BitVec 2} (rd : BitVec 5) (u : BitVec 1) (hin : a.toNat < s0.myCrew.scratchBytes)
    (hal : a.toNat % 2 ^ size.toNat ≠ 0) : exec (.ldp tk rd ra size u) s = .next (s.takeTrap 0x23 a) := by
  refine loadWord_traps hw hacq rfl ?_
  simp only [hra, Res.ok_bind, inScratch_inside (n := 1) hin, if_pos hal]
  rfl

/-- LDP beyond the scratchpad traps, also where the address is misaligned (R135; log 64). -/
theorem ldp_beyond (size : BitVec 2) (rd : BitVec 5) (u : BitVec 1) (hout : s0.myCrew.scratchBytes ≤ a.toNat) :
    exec (.ldp tk rd ra size u) s = .next (s.takeTrap 0x28 a) := by
  refine loadWord_traps hw hacq rfl ?_
  simp only [hra, Res.ok_bind, inScratch_beyond (n := 1) (Nat.lt_succ_of_le hout), BitVec.ofNat_toNat, BitVec.setWidth_eq]
  rfl

section
variable {q : BitVec 1} (hfree : (s0.strand s0.cur).loadStream q.toNat = none)
include hfree

/-- LDPV pushes the vector that it reads (R136, R137). -/
theorem ldpv_retires {width : BitVec 2} {orient : BitVec 1} {x : Nat} (hx : scratchVector width (orient = 1) a.toNat s0 = .ok x) :
    Retires (.ldpv tk q width orient ra) s ((pushVector q.toNat (plainEntry x) s1).bind (giveTokens tk)) := by
  refine loadWord_retires hw hacq rfl ?_
  simp only [unboundQueue_free hfree, hra, Res.ok_bind, hx]
  rfl

/-- LDPVG pushes the elements that its indices name (R135, R136). -/
theorem ldpvg_retires {width : BitVec 2} {rb : BitVec 5} {i : Word} {s2 : State} {idx : List Nat} {x : Nat}
    (hrb : readReg rb s1 = .ok (i, s2)) (hin : a.toNat < s0.myCrew.scratchBytes)
    (hidx : indexList i.toNat (laneCount width) s0 = .ok idx) (hx : scratchGather a.toNat (laneBytes width) idx s0 = .ok x) :
    Retires (.ldpvg tk q width ra rb) s ((pushVector q.toNat (plainEntry x) s2).bind (giveTokens tk)) := by
  refine loadWord_retires hw hacq rfl ?_
  simp only [unboundQueue_free hfree, hra, hrb, Res.ok_bind, inScratch_inside (n := 1) hin, hidx, hx]
  rfl

end
end

/-- A vector by rows within one format of the scratchpad is its 512 bytes as they stand (R136). -/
theorem scratchVector_rows {width : BitVec 2} {u : Nat} {s : State} (hsix : (s.myCrew.fmtOf (u / 65536)).sixBit = false)
    (hin : u + 512 ≤ s.myCrew.scratchBytes) (hal : u % max 1 (laneBytes width) = 0)
    (hfmt : s.myCrew.fmtCode (u / 65536) = s.myCrew.fmtCode ((u + 511) / 65536))
    (hheld : s.scoreboardHolds [(s.scratchPa u, 512)] = false) (hgood : s.poisonIn (s.scratchPa u) 512 = none) :
    scratchVector width false u s = .ok (s.readN (s.scratchPa u) 512) := by
  -- branch by branch, so that the kernel does not evaluate the lists of the other branches
  rw [scratchVector, inScratch_inside (show u + 1 ≤ s.myCrew.scratchBytes by omega), Res.ok_bind]
  refine (if_neg (Bool.eq_false_iff.1 hsix)).trans ((if_neg Bool.false_ne_true).trans ?_)
  rw [inScratch_inside hin, Res.ok_bind]
  refine (if_neg (not_not.2 hal)).trans ((if_neg (not_not.2 hfmt)).trans ?_)
  rw [hheld, scratchRead_good hgood]
  rfl

theorem scratchpad_loads : Claims.ScratchpadLoads := by
  intro s s0 s1 tk rd ra rb size width u q orient a hw hacq hra b n v
  refine ⟨fun hin hal hheld hgood => ?_, ldp_misaligned hw hacq hra rd u, ldp_beyond hw hacq hra size rd u,
    fun hfree => ⟨fun x => ldpv_retires hw hacq hra hfree, fun i s2 idx x hrb => ldpvg_retires hw hacq hra hfree hrb⟩, scratchVector_rows⟩
  have hlt : n < 2 ^ (8 * b) := by
    rw [pow_mul]
    exact Memory.readN_lt _ _ _
  have hb8 : b ≤ 8 := Nat.pow_le_pow_right (j := 3) (by norm_num) (by omega)
  have hext : extendLoad n b u = v := extendLoad_eq hlt (Nat.two_pow_pos _) hb8 u
  exact hext ▸ ldp_retires hw hacq hra u hin hal hheld hgood

/-- Settles O25: the units of a vector load are listed form by form; one equation says what a vector load does with its fetch, at its word
and at its completion; and each scratchpad load reads what its checks let pass. That LDP beyond the scratchpad has cause 0x28 also where
its address is misaligned is the model's choice (log 64). -/
theorem vectorLoadsFillTheirQueues : Obligations.VectorLoadsFillTheirQueues :=
  ⟨vector_addresses, vector_loads_issue, vector_loads_complete, scratchpad_loads⟩

end Sys2Proof.Machine
end

section
namespace Sys2Proof.Machine

/-! ## What a request leaves of the state as it is made, leaves and ends (R151, R152, R286, R389) -/

/-- The property stays as requests are made, leave and end: their records and tags change, a strand or the host engine is told, a packet
goes to a router, an error is logged. -/
structure RequestStable (P : State → Prop) : Prop where
  reqs : ∀ {s : State} (n : Nat) (r : List (Nat × Req)), P s → P { s with reqNo := n, reqs := r }
  tags : ∀ {s : State} (g r : List (Nat × Nat)), P s → P { s with tagGen := g, tagRest := r }
  strands : ∀ {s : State} (x : List (Nat × Strand)), P s → P { s with strands := x }
  host : ∀ {s : State} (x : HostEngine), P s → P { s with host := x }
  memory : ∀ {s : State} (a v n : Nat), P s → P (s.writeN a v n)
  router : ∀ {s : State} (d : Nat) (r : List (Packet × Nat)), P s → P (s.setDie d { s.die d with router := r })
  errors : ∀ {s : State} (d head drop : Nat), P s → P (s.setDie d { s.die d with errHead := head, errDrop := drop })

namespace RequestStable

variable {P : State → Prop} (hP : RequestStable P) {s : State}
include hP

theorem raise (die src : Nat) (h : P s) : P (s.raise die src) := by
  obtain ⟨x, hx⟩ := s.raise_eq die src
  rw [hx]
  exact hP.host x h

theorem errorEvent (die kind engine polder addr detail : Nat) (h : P s) : P (s.errorEvent die kind engine polder addr detail) := by
  simp only [State.errorEvent]
  refine hP.raise die 2 ?_
  split
  · exact hP.errors _ _ _ (hP.memory _ _ _ (hP.memory _ _ _ (hP.memory _ _ _ (hP.memory _ _ _ h))))
  · exact hP.errors _ _ _ h

theorem forget (id : Nat) (h : P s) : P (s.forget id) := by
  unfold State.forget
  split
  · exact h
  · extract_lets
    split <;> exact hP.reqs s.reqNo _ h

theorem restTag (r : Req) (h : P s) : P (s.restTag r) := by
  unfold State.restTag
  split
  · exact h
  · exact hP.tags _ _ h

theorem leave (id : Nat) (r : Req) (h : P s) : P (s.leave id r) := by
  unfold State.leave
  extract_lets
  split
  · exact h
  · split
    · exact h
    · extract_lets _ s1
      have h1 : P s1 := hP.reqs _ _ h
      split
      · exact h1
      · exact hP.router _ _ h1

theorem pump (h : P s) : P s.pump :=
  List.foldlRecOn _ _ h fun t ht e _ => by
    split
    · exact ht
    · exact hP.leave _ _ ht

theorem storeFailed (key status addr : Nat) (h : P s) : P (s.storeFailed key status addr) := by
  unfold State.storeFailed
  split
  · exact h
  · exact hP.strands _ h

theorem syncFailed (key status : Nat) (h : P s) : P (s.syncFailed key status) := by
  unfold State.syncFailed
  split
  · exact h
  · exact hP.strands _ h

/-- The end of a request (R53, R286, R391). -/
theorem conclude (id : Nat) (rep : Reply) (h : P s) : P (s.conclude id rep) := by
  unfold State.conclude
  split
  · exact h
  · rename_i r _
    extract_lets s1
    have h1 : P s1 := hP.reqs s.reqNo _ h
    split
    · exact h1
    · exact hP.forget id h1
    · split
      · exact hP.forget id h1
      · exact h1
    · exact hP.forget id (hP.router _ _ h1)
    · refine hP.forget id ?_
      split
      · exact h1
      · exact hP.syncFailed _ _ h1
    · refine hP.forget id ?_
      split
      · exact h1
      · exact hP.storeFailed _ _ _ h1
    · extract_lets s2
      have h2 : P s2 := by
        unfold s2
        split
        · exact h1
        · split
          · exact hP.storeFailed _ _ _ h1
          · exact hP.errorEvent _ _ _ _ _ _ h1
      split
      · exact hP.forget id h2
      · exact h2
    · refine hP.forget id ?_
      split
      · exact h1
      · exact hP.storeFailed _ _ _ (hP.reqs s1.reqNo _ h1)

/-- A request that is made: it leaves, or it ends at once (R41, R151, R453). -/
theorem request (r : Req) (h : P s) : P (s.request r).2 := by
  have hmade (q : List (Nat × Req)) : P { s with reqNo := s.reqNo + 1, reqs := q } := hP.reqs _ q h
  unfold State.request
  dsimp only
  split
  · exact hP.conclude _ _ (hmade _)
  · exact hP.conclude _ _ (hmade _)
  · split
    · exact hP.conclude _ _ (hmade _)
    · exact hP.pump (hmade _)

end RequestStable

/-- Dropping a request changes the records of requests alone. -/
theorem State.forget_eq (s : State) (id : Nat) : ∃ r, s.forget id = { s with reqs := r } := by
  unfold State.forget
  dsimp only
  (repeat' split) <;> exact ⟨_, rfl⟩

theorem State.forgetAll_eq (s : State) (ids : List Nat) : ∃ r, s.forgetAll ids = { s with reqs := r } :=
  List.foldlRecOn (motive := fun t : State => ∃ r, t = { s with reqs := r }) ids _ ⟨s.reqs, rfl⟩ fun t ⟨r, hr⟩ id _ => by
    obtain ⟨q, hq⟩ := t.forget_eq id
    exact ⟨q, by rw [hq, hr]⟩

/-! ## The entries of a die's translation table and its invalidations (R139, R393) -/

/-- A die replaced by one that agrees with it in a field leaves that field of every die as it is. -/
theorem State.die_setDie_field {α : Type} (f : Die → α) {s : State} {e : Nat} {x : Die} (h : f x = f (s.die e)) (d : Nat) :
    f ((s.setDie e x).die d) = f (s.die d) := by
  by_cases hd : e = d
  · subst hd
    by_cases hlt : e < 16
    · rw [State.die_setDie s hlt, h]
    · simp [State.die, State.setDie, hlt]
  · rw [State.die_setDie_other s hd]

/-- The translation table of a die, its invalidations, and the cycle. -/
def State.Translates (die : Nat) (xent : List (Nat × Word × Word)) (vs : List Inval) (cycle : Nat) (s : State) : Prop :=
  (s.die die).xent = xent ∧ (s.die die).invals = vs ∧ s.cycle = cycle

theorem translates_stable (die : Nat) (xent : List (Nat × Word × Word)) (vs : List Inval) (cycle : Nat) :
    RequestStable (State.Translates die xent vs cycle) where
  reqs _ _ h := h
  tags _ _ h := h
  strands _ h := h
  host _ h := h
  memory _ _ _ h := h
  router _ _ h :=
    ⟨(State.die_setDie_field Die.xent (by rfl) die).trans h.1, (State.die_setDie_field Die.invals (by rfl) die).trans h.2.1, h.2.2⟩
  errors _ _ _ h :=
    ⟨(State.die_setDie_field Die.xent (by rfl) die).trans h.1, (State.die_setDie_field Die.invals (by rfl) die).trans h.2.1, h.2.2⟩

section
variable {s : State} {die cycle : Nat} {xent : List (Nat × Word × Word)} {vs : List Inval} (hlt : die < 16)
include hlt

/-- An invalidation sent is added to those of its die as that of a new request, or its holder cannot be reached (R393). -/
theorem State.sendInval_adds (v : Inval) (h : s.Translates die xent vs cycle) :
    ∃ added, (∀ u ∈ added, ∃ id, u = { v with req := some id }) ∧ (s.sendInval die v).Translates die xent (vs ++ added) cycle := by
  have hsent := (translates_stable die xent vs cycle).request
    { Req.blank die 64 3 4 (v.holder * 2 ^ 44) 0 0 with op := v.size, arg := v.base, owner := some 0 } h
  generalize hr : s.sendInval die v = r
  -- the equation is unfolded as a function, so that the kernel does not evaluate the holder's address
  generalize hf : State.sendInval = f at hr
  delta State.sendInval at hf
  subst hf
  beta_reduce at hr
  generalize s.request _ = sent at hr hsent
  obtain ⟨id, s1⟩ := sent
  dsimp only at hr hsent
  split at hr
  · subst hr
    exact ⟨[], nofun, by simpa using (translates_stable die xent vs cycle).forget id hsent⟩
  · subst hr
    obtain ⟨hxent, hinvals, hcycle⟩ := hsent
    refine ⟨[{ v with req := some id }], by simp, ?_, ?_, hcycle⟩
    · rw [State.die_setDie _ hlt, ← hxent]
    · rw [State.die_setDie _ hlt, ← hinvals]

/-- Invalidations sent one after the other: what is added has every property that each of them has as the invalidation of a new request
(R393). -/
theorem State.sendInvals_add {f : State → Inval → Inval} {Q : Inval → Prop} : ∀ {us : List Inval} {s : State} {vs : List Inval},
    (∀ t : State, t.cycle = cycle → ∀ v ∈ us, ∀ id, Q { f t v with req := some id }) → s.Translates die xent vs cycle →
    ∃ added, (∀ u ∈ added, Q u) ∧
      (us.foldl (fun s v => s.sendInval die (f s v)) s).Translates die xent (vs ++ added) cycle
  | [], _, _, _, h => ⟨[], nofun, by simpa using h⟩
  | v :: us, s, _, hQ, h => by
    obtain ⟨first, hfirst, hsent⟩ := State.sendInval_adds hlt (f s v) h
    obtain ⟨rest, hrest, hall⟩ := sendInvals_add (fun t ht u hu => hQ t ht u (List.mem_cons_of_mem _ hu)) hsent
    refine ⟨first ++ rest, fun u hu => ?_, by rw [← List.append_assoc]; exact hall⟩
    rcases List.mem_append.1 hu with hu | hu
    · obtain ⟨id, rfl⟩ := hfirst u hu
      exact hQ s h.2.2 v (by simp) id
    · exact hrest u hu

end

end Sys2Proof.Machine
end

section
namespace Sys2Proof.Machine

/-! ## Writes of translation entries (R139, R143, R144, R392) -/

/-! ### The bits of an entry -/

/-- A field of a word as its extracted bits. -/
theorem bitsOf_eq_extract (w : Word) (hi lo : Nat) : bitsOf w hi lo = (w.extractLsb' lo (hi - lo + 1)).toNat := by
  simp [bitsOf, BitVec.extractLsb'_toNat, Nat.shiftRight_eq_div_pow]

/-- Software writes V of an entry (R139). -/
theorem bitsOf_entry_v (v w : Word) : bitsOf ((v &&& xentBits0) ||| (w &&& ~~~xentBits0)) 63 63 = bitsOf v 63 63 := by
  rw [bitsOf_eq_extract, bitsOf_eq_extract, BitVec.extractLsb'_or, BitVec.extractLsb'_and, BitVec.extractLsb'_and,
    show xentBits0.extractLsb' 63 (63 - 63 + 1) = BitVec.allOnes _ by decide,
    show (~~~xentBits0).extractLsb' 63 (63 - 63 + 1) = 0 by decide]
  simp

/-- Software does not write the generation of an entry (R139). -/
theorem bitsOf_entry_gen (v w : Word) : bitsOf ((v &&& xentBits0) ||| (w &&& ~~~xentBits0)) 15 0 = bitsOf w 15 0 := by
  rw [bitsOf_eq_extract, bitsOf_eq_extract, BitVec.extractLsb'_or, BitVec.extractLsb'_and, BitVec.extractLsb'_and,
    show xentBits0.extractLsb' 0 (15 - 0 + 1) = 0 by decide,
    show (~~~xentBits0).extractLsb' 0 (15 - 0 + 1) = BitVec.allOnes _ by decide, BitVec.and_allOnes]
  simp

/-- A generation written beside V and the retired bit. -/
theorem bitsOf_cleared_gen (w : Word) (gen r : Nat) :
    bitsOf (setBits (setBits (setBits w 63 63 0) 15 0 gen) 56 56 r) 15 0 = gen % 65536 := by
  have := w.isLt
  simp only [setBits, bitsOf, BitVec.toNat_ofNat]
  omega

/-! ### Handles of a revoked entry -/

theorem State.endCopy_tables (s : State) (die polder i status : Nat) :
    (s.endCopy die polder i status).dies = s.dies ∧ (s.endCopy die polder i status).strands = s.strands := by
  simp only [State.endCopy, State.setCrew_dies, State.setCrew_strands]
  refine List.foldlRecOn (motive := fun t : State => t.dies = s.dies ∧ t.strands = s.strands) _ _ ⟨rfl, rfl⟩ fun t ht f _ => ?_
  obtain ⟨r, hr⟩ := t.forgetAll_eq f.ids
  rw [hr]
  exact ht

theorem State.endCopies_tables (s : State) (die status : Nat) (which : CopyCmd → Bool) :
    (s.endCopies die status which).dies = s.dies ∧ (s.endCopies die status which).strands = s.strands := by
  refine List.foldlRecOn (motive := fun t : State => t.dies = s.dies ∧ t.strands = s.strands) _ _ ⟨rfl, rfl⟩ fun t ht c _ => ?_
  split
  · exact ht
  · refine List.foldlRecOn (motive := fun t : State => t.dies = s.dies ∧ t.strands = s.strands) _ _ ht fun u hu i _ => ?_
    dsimp only
    split
    · obtain ⟨hdies, hstrands⟩ := u.endCopy_tables die (c.1 % 64) i status
      exact ⟨hdies.trans hu.1, hstrands.trans hu.2⟩
    · exact hu

theorem Handle.revoke_valid {h : Handle} {k : Nat} (hk : (h.revoke k).entry.toNat = k) : (h.revoke k).valid = false := by
  unfold Handle.revoke at hk ⊢
  split
  · rfl
  · rw [if_neg ‹_›] at hk
    exact absurd hk ‹_›

theorem State.revokeCopies_tables (s : State) (die k : Nat) :
    (s.revokeCopies die k).dies = s.dies ∧ (s.revokeCopies die k).strands = s.strands := s.endCopies_tables die 7 _

/-- Revoking an entry leaves the dies as they are, and no strand of the die with a valid handle of the entry (R139). -/
theorem State.revoke_handles (s : State) (die k : Nat) :
    (s.revoke die k).dies = s.dies ∧ ∀ x ∈ (s.revoke die k).strands, x.1 / 256 = die →
      ∀ i : Fin 16, (x.2.h.get i).entry.toNat = k → (x.2.h.get i).valid = false := by
  unfold State.revoke
  extract_lets strands
  obtain ⟨hdies, hstrands⟩ := State.revokeCopies_tables { s with strands := strands } die k
  refine ⟨hdies, fun x hx hdie i hi => ?_⟩
  rw [hstrands] at hx
  obtain ⟨y, _, rfl⟩ := List.mem_map.1 hx
  by_cases hy : y.1 / 256 = die
  · simp only [if_pos hy, Vector.get_eq_getElem, Vector.getElem_map] at hi ⊢
    exact Handle.revoke_valid hi
  · rw [if_neg hy] at hdie
    exact absurd hdie hy

/-! ### A write that clears V -/

/-- Clearing an entry replaces it in its die, sends the invalidations of its holders and revokes its handles (R139, R393). -/
theorem State.clearEntry_eq (s : State) (die k : Nat) (w0 w1 : Word) (owner : Option Nat) :
    ∃ (y : Die) (vs : List Inval) (r : Nat),
      y.xent = put k (setBits (setBits (setBits w0 63 63 0) 15 0 (bitsOf w0 15 0 + 1)) 56 56 r, w1) (s.die die).xent ∧
        s.clearEntry die k w0 w1 owner = (vs.foldl (fun s v => s.sendInval die v) (s.setDie die y)).revoke die k :=
  ⟨_, _, _, rfl, rfl⟩

/-- Clearing an entry counts its generation, and leaves no valid handle of it (R139, R393). -/
theorem State.clearEntry_clears (s : State) {die : Nat} (hlt : die < 16) (k : Nat) (w0 w1 : Word) (owner : Option Nat) :
    ∃ c, look k ((s.clearEntry die k w0 w1 owner).die die).xent = some (c, w1) ∧ bitsOf c 15 0 = (bitsOf w0 15 0 + 1) % 65536 ∧
      ∀ x ∈ (s.clearEntry die k w0 w1 owner).strands, x.1 / 256 = die →
        ∀ i : Fin 16, (x.2.h.get i).entry.toNat = k → (x.2.h.get i).valid = false := by
  obtain ⟨y, vs, r, hy, hclear⟩ := s.clearEntry_eq die k w0 w1 owner
  obtain ⟨_, _, hxent, _⟩ := State.sendInvals_add (f := fun _ v => v) (Q := fun _ => True) hlt (us := vs) (s := s.setDie die y)
    (fun _ _ _ _ _ => trivial) ⟨rfl, rfl, rfl⟩
  obtain ⟨hdies, hhandles⟩ := State.revoke_handles (vs.foldl (fun s v => s.sendInval die v) (s.setDie die y)) die k
  rw [hclear]
  refine ⟨_, ?_, bitsOf_cleared_gen w0 _ r, hhandles⟩
  rw [State.die, hdies, ← State.die, hxent, State.die_setDie s hlt, hy, look_put_self]

section
variable {s : State} {die k word : Nat} {v : Word} {e : Word × Word} (he : (look k (s.die die).xent).getD (0, 0) = e)
  (owner : Option Nat)
include he

/-- Word 1 of a valid entry takes no write (R139). -/
theorem State.writeEntry_word1_valid (hvalid : bitsOf e.1 63 63 = 1) : s.writeEntry die k 1 v owner = s := by
  simp only [State.writeEntry, he, if_true, hvalid]

theorem State.writeEntry_word1 (hvalid : ¬ bitsOf e.1 63 63 = 1) :
    s.writeEntry die k 1 v owner =
      s.setDie die { s.die die with xent := put k (e.1, v &&& xentBits1) (s.die die).xent } := by
  simp only [State.writeEntry, he, if_true, hvalid, if_false]

/-- A retired entry cannot become valid again (R139). -/
theorem State.writeEntry_retired (hv : bitsOf v 63 63 = 1) (hretired : bitsOf e.1 56 56 = 1) : s.writeEntry die k 0 v owner = s := by
  simp only [State.writeEntry, he]
  simp [hv, hretired]

/-- Word 0 written without clearing V; an entry that becomes valid has no holder (R139, R392). -/
theorem State.writeEntry_word0 (hkeeps : ¬ bitsOf e.1 63 63 = 1 ∨ bitsOf v 63 63 = 1) (h : bitsOf v 63 63 = 0 ∨ bitsOf e.1 56 56 = 0) :
    s.writeEntry die k 0 v owner = s.setDie die { s.die die with
      xent := put k ((v &&& xentBits0) ||| (e.1 &&& ~~~xentBits0), e.2) (s.die die).xent
      holders := if bitsOf v 63 63 = 1 ∧ ¬ bitsOf e.1 63 63 = 1 then unput k (s.die die).holders else (s.die die).holders } := by
  have hv := bitsOf_lt v 63 63
  have hw := bitsOf_lt e.1 63 63
  rw [Nat.sub_self, Nat.zero_add, pow_one] at hv hw
  have hclears : ¬ (bitsOf e.1 63 63 = 1 ∧ bitsOf v 63 63 = 0) := by omega
  have hretired : ¬ (bitsOf v 63 63 = 1 ∧ bitsOf e.1 56 56 = 1) := by omega
  have hfresh : (bitsOf v 63 63 = 1 ∧ bitsOf e.1 63 63 = 0) ↔ (bitsOf v 63 63 = 1 ∧ ¬ bitsOf e.1 63 63 = 1) := by omega
  simp only [State.writeEntry, he, Bool.and_eq_true, decide_eq_true_eq, hfresh]
  rw [if_neg (by decide : ¬ (0 : Nat) = 1), if_neg hclears, if_neg hretired]

/-- A write that clears V of a valid entry (R139, R393). -/
theorem State.writeEntry_clears (hlt : die < 16) (hvalid : bitsOf e.1 63 63 = 1) (hv : bitsOf v 63 63 = 0) :
    ∃ w, look k ((s.writeEntry die k 0 v owner).die die).xent = some w ∧ bitsOf w.1 63 63 = 0 ∧
      bitsOf w.1 15 0 = (bitsOf e.1 15 0 + 1) % 65536 ∧ w.2 = e.2 ∧
      ∀ x ∈ (s.writeEntry die k 0 v owner).strands, x.1 / 256 = die →
        ∀ i : Fin 16, (x.2.h.get i).entry.toNat = k → (x.2.h.get i).valid = false := by
  obtain ⟨c, hc, hgen, hhandles⟩ := s.clearEntry_clears hlt k e.1 e.2 owner
  have hwrite : s.writeEntry die k 0 v owner = (s.clearEntry die k e.1 e.2 owner).setDie die
      { (s.clearEntry die k e.1 e.2 owner).die die with
        xent := put k ((v &&& xentBits0) ||| (c &&& ~~~xentBits0), e.2) ((s.clearEntry die k e.1 e.2 owner).die die).xent } := by
    simp only [State.writeEntry, he, Bool.and_eq_true, decide_eq_true_eq]
    rw [if_neg (by decide : ¬ (0 : Nat) = 1), if_pos ⟨hvalid, hv⟩, hc]
    rfl
  rw [hwrite]
  refine ⟨((v &&& xentBits0) ||| (c &&& ~~~xentBits0), e.2), ?_, (bitsOf_entry_v v c).trans hv, (bitsOf_entry_gen v c).trans hgen, rfl,
    hhandles⟩
  rw [State.die_setDie _ hlt, look_put_self]

end

/-! ### Closing a record -/

/-- Closing a record clears its V bit where the area holds it (R143, R144). -/
theorem State.closeRecord_eq (s : State) (die k : Nat) {area : Nat × Nat} (harea : (s.die die).faultArea die = area) :
    s.closeRecord die k =
      if area.1 ≤ k then s else s.writeN (area.2 + 32 * k) (setBits (s.word64 (area.2 + 32 * k)) 62 62 0).toNat 8 := by
  -- the equation is unfolded as a function, so that the kernel does not evaluate the area
  generalize hf : @State.closeRecord = f
  delta State.closeRecord at hf
  subst hf
  beta_reduce
  rw [harea]

theorem exec_frclose (s : State) : exec .frclose s = .next (s.closeRecord s.cur.die (s.inp.getD 0 0)) := rfl

theorem translation_writes : Claims.TranslationWrites := by
  intro s hlt die d k v e valid
  have hword {n : Nat} (h : s.inp.getD 1 0 % 2 = n) : exec .xentWrite s = .next (s.writeEntry die k n v (some hostOwner)) := by
    rw [← h]
    rfl
  refine ⟨fun h hvalid => ?_, fun h hvalid => ?_, fun h hkeeps => ⟨fun hv hretired => ?_, fun hv => ?_⟩, fun h hvalid hv => ?_,
    fun hout => ?_, fun hin => ?_⟩
  · rw [hword h, State.writeEntry_word1_valid rfl _ hvalid]
  · rw [hword h, State.writeEntry_word1 rfl _ hvalid]
  · rw [hword h, State.writeEntry_retired rfl _ hv hretired]
  · rw [hword h, State.writeEntry_word0 rfl _ hkeeps hv]
  · obtain ⟨w, hw⟩ := State.writeEntry_clears rfl (some hostOwner) hlt hvalid hv
    exact ⟨_, w, hword h, hw⟩
  · rw [exec_frclose, s.closeRecord_eq die _ rfl, if_pos hout]
  · rw [exec_frclose, s.closeRecord_eq die _ rfl, if_neg (Nat.not_le.2 hin)]

end Sys2Proof.Machine
end

section
namespace Sys2Proof.Machine

/-! ## Invalidations (R389, R393, R394) -/

/-- The packet taken out of the inbox. -/
theorem State.dropInbox_inbox {s : State} {die n : Nat} (hlt : die < 16) {e : Packet × Nat} (hp : (s.die die).inbox[n]? = some e) :
    ((s.dropInbox die n).die die).inbox = (s.die die).inbox.eraseIdx n := by
  unfold State.dropInbox
  extract_lets d d1
  split
  · rename_i hnone
    rw [hnone] at hp
    cases hp
  · extract_lets d2 s1
    have h1 : (s1.die die).inbox = (s.die die).inbox.eraseIdx n := by
      unfold s1 d2
      rw [State.die_setDie s hlt]
      split <;> rfl
    split
    · exact h1
    · obtain ⟨links, hg⟩ := s1.giveBack_eq die _ false
      rw [hg, State.die_setDie _ hlt]
      exact h1

/-! ### A holder clears a page -/

theorem State.clearFilled_none {s : State} {die : Nat} (h : (s.die die).filled = []) (target base bytes : Nat) :
    s.clearFilled die target base bytes = s := by
  rw [State.clearFilled, h, List.foldl_nil]

/-- Nothing is written back of an empty remote cache (R53). -/
theorem State.flush_empty {s : State} {die : Nat} {which : Nat → Nat → Bool} (hcache : (s.die die).cache = [])
    (hout : s.backsOut die which = []) (strand : Option Nat) : s.flush die which strand = ([], s) := by
  rw [State.flush, State.writeBackAll, hcache, hout]
  rfl

/-- A request as an invalidation from `target` leaves it: marked where it fills a translation of the target (R394). -/
def Req.raced (die target : Nat) (r : Req) : Req :=
  if r.die = die && r.kind = 3 && r.addr = target * 2 ^ 44 then { r with mark := true } else r

/-- How an invalidation begins, from what clearing the filled entries and writing back the sectors give (R394). -/
theorem State.beginClearing_eq {s s1 s3 : State} {die target bytes : Nat} {p : Packet} {wb : List Nat}
    (htarget : 16 * p.srcMod + p.srcDie = target) (hbytes : pageBytes (BitVec.ofNat 2 p.op) = bytes)
    (hclear : s.clearFilled die target p.addr bytes = s1)
    (hflush : State.flush { s1 with reqs := s1.reqs.map fun e => (e.1, e.2.raced die target) } die
      (fun i _ => meets (128 * i) 128 p.addr bytes) none = (wb, s3)) :
    s.beginClearing die p =
      let s4 := s3.invalidate die fun i _ => meets (128 * i) 128 p.addr bytes
      s4.setDie die { s4.die die with
        performing := (s4.die die).performing ++ [{ packet := p, wb := wb, upTo := s1.reqNo }] } := by
  have hraced (e : Nat × Req) : (if e.2.die = die && e.2.kind = 3 && e.2.addr = target * 2 ^ 44 then (e.1, { e.2 with mark := true })
      else e) = (e.1, e.2.raced die target) := by
    unfold Req.raced
    split <;> rfl
  -- the equation is unfolded as a function, so that the kernel does not evaluate the target's address
  generalize hf : @State.beginClearing = f
  delta State.beginClearing at hf
  subst hf
  beta_reduce
  rw [htarget, hbytes]
  dsimp only
  simp only [hclear, hraced, hflush]

theorem Req.raced_eq (die target : Nat) (r : Req) : r.raced die target = { r with mark := (r.raced die target).mark } := by
  unfold Req.raced
  split <;> rfl

theorem Req.raced_mark {die target : Nat} {r : Req} (hdie : r.die = die) (hkind : r.kind = 3) (haddr : r.addr = target * 2 ^ 44) :
    (r.raced die target).mark = true := by
  simp [Req.raced, hdie, hkind, haddr]

/-- Marks do not change which write-backs are on their way. -/
theorem State.backsOut_raced (s : State) (die target : Nat) (which : Nat → Nat → Bool) :
    State.backsOut { s with reqs := s.reqs.map fun e => (e.1, e.2.raced die target) } die which = s.backsOut die which := by
  simp only [State.backsOut, List.filterMap_map]
  refine List.filterMap_congr fun e _ => ?_
  simp only [Function.comp_apply]
  rw [Req.raced_eq]

/-- Giving up the sectors of an empty remote cache changes the purposes of requests alone (R53). -/
theorem State.invalidate_empty {s : State} {die : Nat} (hcache : (s.die die).cache = []) (which : Nat → Nat → Bool) :
    ∃ reqs, s.invalidate die which = { s with reqs := reqs } ∧
      ∀ e ∈ reqs, ∃ r purpose, (e.1, r) ∈ s.reqs ∧ e.2 = { r with purpose := purpose } := by
  have hself : { s.die die with cache := [] } = s.die die := by rw [← hcache]
  refine ⟨(s.invalidate die which).reqs, ?_, fun e he => ?_⟩
  · unfold State.invalidate
    extract_lets d rest reqs
    have hrest : rest = [] := by
      unfold rest d
      rw [hcache]
      rfl
    rw [hrest]
    exact (congrArg _ hself).trans (State.setDie_self _ die)
  · obtain ⟨q, hq, rfl⟩ := List.mem_map.1 he
    refine ⟨q.2, ?_⟩
    split
    · split
      · exact ⟨_, hq, rfl⟩
      · exact ⟨q.2.purpose, hq, rfl⟩
    · exact ⟨q.2.purpose, hq, rfl⟩

/-- With nothing filled and an empty remote cache, an invalidation begins by recording it and by marking the fills from its target
(R394). -/
theorem State.beginClearing_empty {s : State} {die target bytes : Nat} {p : Packet} (htarget : 16 * p.srcMod + p.srcDie = target)
    (hbytes : pageBytes (BitVec.ofNat 2 p.op) = bytes) (hcache : (s.die die).cache = []) (hfilled : (s.die die).filled = [])
    (hout : s.backsOut die (fun i _ => meets (128 * i) 128 p.addr bytes) = []) :
    ∃ reqs, s.beginClearing die p = ({ s with reqs := reqs } : State).setDie die
        { s.die die with performing := (s.die die).performing ++ [{ packet := p, wb := [], upTo := s.reqNo }] } ∧
      ∀ e ∈ reqs, ∃ r purpose, (e.1, r) ∈ s.reqs ∧ e.2 = { r.raced die target with purpose := purpose } := by
  have hflush := State.flush_empty (s := { s with reqs := s.reqs.map fun e => (e.1, e.2.raced die target) }) hcache
    ((s.backsOut_raced die target _).trans hout) none
  obtain ⟨reqs, hinv, hreqs⟩ := State.invalidate_empty (s := { s with reqs := s.reqs.map fun e => (e.1, e.2.raced die target) }) hcache
    fun i _ => meets (128 * i) 128 p.addr bytes
  refine ⟨reqs, ?_, fun e he => ?_⟩
  · rw [State.beginClearing_eq htarget hbytes (State.clearFilled_none hfilled _ _ _) hflush, hinv]
    rfl
  · obtain ⟨r, purpose, hr, hpurpose⟩ := hreqs e he
    obtain ⟨q, hq, hqr⟩ := List.mem_map.1 hr
    obtain ⟨hid, rfl⟩ := Prod.mk.inj hqr
    exact ⟨q.2, purpose, hid ▸ hq, hpurpose⟩

/-- An invalidation is done once nothing was written back and no access of its range is left (R393). -/
theorem State.cleared_of_none_left {s : State} {die : Nat} {x : Clearing} (hwb : x.wb = [])
    (hreqs : ∀ e ∈ s.reqs, e.2.die = die → e.2.reply = none →
      meets e.2.addr (max 1 e.2.len) x.packet.addr (pageBytes (BitVec.ofNat 2 x.packet.op)) = false) : s.cleared die x = true := by
  have hnone : (s.reqs.any fun e => e.1 < x.upTo && e.2.die = die && e.2.reply.isNone &&
      meets e.2.addr (max 1 e.2.len) x.packet.addr (pageBytes (BitVec.ofNat 2 x.packet.op))) = false := by
    refine List.any_eq_false.2 fun e he h => ?_
    simp only [Bool.and_eq_true, decide_eq_true_eq, Option.isNone_iff_eq_none] at h
    obtain ⟨⟨⟨_, hdie⟩, hreply⟩, hmeets⟩ := h
    rw [hreqs e he hdie hreply] at hmeets
    cases hmeets
  simp only [State.cleared, hwb, hnone]
  rfl

/-- The one invalidation under way is done: it is answered (R393). -/
theorem State.answerCleared_one {s : State} {die : Nat} {x : Clearing} (hone : (s.die die).performing = [x]) (hwb : x.wb = [])
    (hdone : s.cleared die x = true) :
    s.answerCleared die = (s.setDie die { s.die die with performing := [] }).respond die x.packet 12 ⟨0, 0, 0⟩ := by
  simp only [State.answerCleared, hone, List.filter_cons, hdone, List.filter_nil, if_true, Bool.not_true, Bool.false_eq_true, if_false,
    List.foldl_cons, List.foldl_nil, hwb, State.forgetAll]

/-- A holder that keeps nothing of the page, and has no access to it on its way, answers an invalidation at once (R393, R394). -/
theorem State.clears_at_once {s : State} {die target bytes : Nat} (hlt : die < 16) {p : Packet} (htarget : 16 * p.srcMod + p.srcDie = target)
    (hbytes : pageBytes (BitVec.ofNat 2 p.op) = bytes) (hcache : (s.die die).cache = []) (hfilled : (s.die die).filled = [])
    (hperforming : (s.die die).performing = []) (hout : s.backsOut die (fun i _ => meets (128 * i) 128 p.addr bytes) = [])
    (hreqs : ∀ e ∈ s.reqs, e.2.die = die → e.2.reply = none → meets e.2.addr (max 1 e.2.len) p.addr bytes = false) :
    let t := (s.beginClearing die p).answerCleared die
    t.die die = { s.die die with router := (s.die die).router ++ [(s.sealPacket (p.response 12 ⟨0, 0, 0⟩), 4)] } ∧
      ∀ e ∈ t.reqs, e.2.die = die → e.2.kind = 3 → e.2.addr = target * 2 ^ 44 → e.2.mark = true := by
  obtain ⟨reqs, hbegin, hmarked⟩ := State.beginClearing_empty htarget hbytes hcache hfilled hout
  have hkept : ∀ e ∈ reqs, ∃ r purpose, (e.1, r) ∈ s.reqs ∧ e.2 = { r with mark := (r.raced die target).mark, purpose := purpose } :=
    fun e he => by
      obtain ⟨r, purpose, hr, he⟩ := hmarked e he
      exact ⟨r, purpose, hr, by rw [he, Req.raced_eq]⟩
  have hanswer := State.answerCleared_one (s := s.beginClearing die p) (die := die) (x := { packet := p, wb := [], upTo := s.reqNo })
    (by rw [hbegin, State.die_setDie _ hlt, hperforming]; rfl) rfl
    (State.cleared_of_none_left rfl fun e he hdie hreply => by
      rw [hbegin] at he
      obtain ⟨r, purpose, hr, he⟩ := hkept e he
      rw [he] at hdie hreply ⊢
      rw [hbytes]
      exact hreqs _ hr hdie hreply)
  intro t
  have ht : t = _ := hanswer
  rw [ht]
  refine ⟨?_, fun e he hdie hkind haddr => ?_⟩
  · have hempty (r : List (Packet × Nat)) : { s.die die with performing := [], router := r } = { s.die die with router := r } := by
      rw [← hperforming]
    rw [State.respond_die _ hlt, State.die_setDie _ hlt, hbegin, State.die_setDie _ hlt, State.sealPacket_of_mgmt (s := s) rfl]
    exact hempty _
  · rw [hbegin] at he
    obtain ⟨r, purpose, hr, he⟩ := hkept e he
    rw [he] at hdie hkind haddr ⊢
    exact Req.raced_mark hdie hkind haddr

end Sys2Proof.Machine
end

section
namespace Sys2Proof.Machine

section
variable {s : State} {p : Packet} {inl : Nat} (hp : (s.die s.cur.die).inbox[s.inp.getD 0 0]? = some (p, inl))
include hp

theorem exec_invalidationRequest_late (hkind : p.kind = 4) (hlate : s.deadlinePassed p = true) :
    exec .invalidationRequest s =
      .next (((s.dropInbox s.cur.die (s.inp.getD 0 0)).countFabric s.cur.die 31 16 1).answerCleared s.cur.die) := by
  rw [show exec .invalidationRequest s = execInvalidationRequest s from rfl]
  simp only [execInvalidationRequest, hp, hkind, hlate, ne_eq, not_true_eq_false, if_false, if_true, answer]

theorem exec_invalidationRequest (hkind : p.kind = 4) (hlate : s.deadlinePassed p = false) :
    exec .invalidationRequest s =
      .next (((s.dropInbox s.cur.die (s.inp.getD 0 0)).beginClearing s.cur.die p).answerCleared s.cur.die) := by
  rw [show exec .invalidationRequest s = execInvalidationRequest s from rfl]
  simp only [execInvalidationRequest, hp, hkind, hlate, ne_eq, not_true_eq_false, if_false, Bool.false_eq_true, answer]

/-- INVALIDATION_ACKNOWLEDGEMENT before its deadline (R389, R393). -/
theorem exec_invalidationAcknowledgement (hkind : p.kind = 12) (hlate : s.deadlinePassed p = false) {found : Option Nat}
    (hfound : (s.dropInbox s.cur.die (s.inp.getD 0 0)).matchReq s.cur.die 64 p.cls p.tag p.gen = found) :
    exec .invalidationAcknowledgement s = .next (match found with
      | some id => ((s.dropInbox s.cur.die (s.inp.getD 0 0)).deliver id ⟨0, 0, 0⟩).dropInvals s.cur.die fun v => v.req = some id
      | none => (s.dropInbox s.cur.die (s.inp.getD 0 0)).countFabric s.cur.die 63 32 1) := by
  rw [show exec .invalidationAcknowledgement s = execInvalidationAcknowledgement s from rfl]
  simp only [execInvalidationAcknowledgement, hp, hkind, hlate, hfound, ne_eq, not_true_eq_false, if_false, Bool.false_eq_true, answer]
  cases found <;> rfl

end

/-! ### Invalidations end, and are sent again -/

/-- The invalidations that are left when some end (R393). -/
theorem State.dropInvals_invals (s : State) {die : Nat} (hlt : die < 16) (which : Inval → Bool) :
    ((s.dropInvals die which).die die).invals = (s.die die).invals.filter fun v => !(v.holder ≠ die && which v) := by
  unfold State.dropInvals
  extract_lets d gone rest done s1
  rw [State.die_setDie _ hlt]

/-- The interval of a requester is not empty (R152). -/
theorem Die.interval_pos (d : Die) : 0 < d.interval := by
  unfold Die.interval microseconds
  omega

/-- An invalidation that waits for another holder, and is due, is sent again (R393). -/
def Inval.again (die : Nat) (due : Inval → Bool) (v : Inval) : Bool := v.holder ≠ die && due v

section
variable {s : State} {die : Nat} (hlt : die < 16) {due : Inval → Bool}
include hlt

/-- What is sent again is sent at this cycle, and the other invalidations stay (R393). -/
theorem State.resendInvals_invals {Q : Inval → Prop} (hQ : ∀ v : Inval, v.sent = s.cycle → Q v) :
    ∃ added, (∀ v ∈ added, Q v) ∧
      ((s.resendInvals die due).die die).invals = (s.die die).invals.filter (fun v => !v.again die due) ++ added := by
  unfold State.resendInvals
  extract_lets d go again s1
  have h1 : s1.Translates die d.xent (d.invals.filter fun v => !v.again die due) s.cycle := by
    refine List.foldlRecOn (motive := State.Translates die d.xent (d.invals.filter fun v => !v.again die due) s.cycle) _ _ ?_
      fun t ht v _ => ?_
    · exact ⟨by rw [State.die_setDie _ hlt], by rw [State.die_setDie _ hlt]; rfl, rfl⟩
    · have hstable := translates_stable die d.xent (d.invals.filter fun v => !v.again die due) s.cycle
      dsimp only
      split
      · exact hstable.reqs _ _ (hstable.restTag _ ht)
      · exact ht
  obtain ⟨added, hadded, _, hinvals, _⟩ := State.sendInvals_add (f := fun t v => { v with sent := t.cycle }) (Q := Q) hlt (us := again)
    (fun t ht v _ _ => hQ _ ht) h1
  exact ⟨added, hadded, hinvals⟩

end

/-- Nothing is sent when nothing is due (R393). -/
theorem State.resendInvals_none {s : State} {die : Nat} {due : Inval → Bool}
    (h : ∀ v ∈ (s.die die).invals, v.again die due = false) : s.resendInvals die due = s := by
  unfold State.resendInvals
  have hagain : (s.die die).invals.filter (Inval.again die due) = [] := List.filter_eq_nil_iff.2 fun v hv => by simp [h v hv]
  have hrest : ((s.die die).invals.filter fun v => !v.again die due) = (s.die die).invals :=
    List.filter_eq_self.2 fun v hv => by simp [h v hv]
  unfold Inval.again at hagain hrest
  simp only [hagain, hrest, List.foldl_nil]
  exact s.setDie_self die

/-! ### The statement -/

theorem invalidation_resend {s : State} (hlt : s.cur.die < 16) :
    let die := s.cur.die
    let d := s.die die
    let due (v : Inval) : Bool := v.entry = s.inp.getD 0 0 && v.sent + d.interval ≤ s.cycle
    (∃ t, exec .invalidationResend s = .next t ∧ (∀ v ∈ d.invals, v.holder = die ∨ due v = false → v ∈ (t.die die).invals) ∧
      ∀ v ∈ (t.die die).invals, v.holder = die ∨ due v = false) ∧
    ((∀ v ∈ d.invals, v.holder = die ∨ due v = false) → ∃ t, exec .invalidationResend s = .next t ∧
      (t.die die).router = d.router ∧ (t.die die).invals = d.invals) := by
  intro die d due
  have hexec : exec .invalidationResend s = .next (s.resendInvals die due) := rfl
  have hagain (v : Inval) : v.again die due = false ↔ v.holder = die ∨ due v = false := by
    unfold Inval.again
    by_cases hv : v.holder = die <;> simp [hv]
  obtain ⟨added, hadded, hinvals⟩ := State.resendInvals_invals (s := s) (due := due) (Q := fun v => due v = false) hlt fun v hv => by
    have := d.interval_pos
    simp [due, hv]
    omega
  refine ⟨⟨_, hexec, fun v hv h => ?_, fun v hv => ?_⟩, fun h => ⟨_, hexec, ?_⟩⟩
  · rw [hinvals]
    refine List.mem_append_left _ (List.mem_filter.2 ⟨hv, ?_⟩)
    rw [(hagain v).2 h]
    rfl
  · rw [hinvals] at hv
    rcases List.mem_append.1 hv with hv | hv
    · have hkept := (List.mem_filter.1 hv).2
      exact (hagain v).1 (by simpa using hkept)
    · exact .inr (hadded v hv)
  · rw [State.resendInvals_none fun v hv => (hagain v).2 (h v hv)]
    exact ⟨rfl, rfl⟩

theorem invalidations : Claims.Invalidations := by
  refine ⟨?_, fun s hlt => invalidation_resend hlt⟩
  intro s p inl hlt die n s1 bytes hp
  obtain ⟨inbox, asides, links, hdrop⟩ := s.dropInbox_eq hlt n
  refine ⟨fun hkind hlate => exec_invalidationRequest_late hp hkind hlate, fun hkind hlate =>
    ⟨exec_invalidationRequest hp hkind hlate, fun hcache hfilled hperforming hout hreqs => ?_⟩, fun hkind hlate =>
    ⟨fun id hmatch => ⟨_, exec_invalidationAcknowledgement hp hkind hlate hmatch, rfl, fun v hv => ?_⟩, fun hmatch =>
      exec_invalidationAcknowledgement hp hkind hlate hmatch⟩⟩
  · intro t
    have hinbox := State.dropInbox_inbox hlt hp
    have hd : s1.die die = { s.die die with inbox := inbox, asides := asides, links := links } := by
      rw [show s1 = _ from hdrop, State.die_setDie s hlt]
    have hs1 : s1.reqs = s.reqs ∧ s1.mgmt = s.mgmt := by
      rw [show s1 = _ from hdrop]
      exact ⟨rfl, rfl⟩
    have hback : s1.backsOut die (fun i _ => meets (128 * i) 128 p.addr bytes) = [] := by
      rw [State.backsOut, hs1.1]
      exact hout
    obtain ⟨ht, hmarked⟩ := State.clears_at_once (s := s1) hlt (p := p) rfl rfl (by rw [hd]; exact hcache) (by rw [hd]; exact hfilled)
      (by rw [hd]; exact hperforming) hback (by rw [hs1.1]; exact hreqs)
    refine ⟨?_, ?_, ?_, hmarked⟩
    · rw [show t.die die = _ from ht]
      exact hinbox
    · rw [show t.die die = _ from ht, hd]
      exact hperforming
    · rw [show t.die die = _ from ht, hd, State.sealPacket_of_mgmt hs1.2]
  · rw [State.dropInvals_invals _ hlt] at hv
    have hkept := (List.mem_filter.1 hv).2
    simpa using hkept

/-- Settles O45: a write of an entry by its cases, and a clearing write by what revocation and the invalidations it sends leave of the
table; invalidations from the requests that begin, answer and resend them. -/
theorem translationsAndTheirHolders : Obligations.TranslationsAndTheirHolders :=
  ⟨translation_writes, invalidations⟩

end Sys2Proof.Machine
end
